-- ==== Sys2Proof/Word.lean ====
section
/-! DEFINITION. The plain word types of the block: bytes, words and the little-endian pieces every chapter uses. -/

namespace Sys2Proof

/-- One byte. -/
abbrev Byte := BitVec 8

/-- A 32-bit register word (R3, R4). -/
abbrev Word := BitVec 32

/-- A 64-bit value (an address, a tick number as read through the read mailbox). -/
abbrev DWord := BitVec 64

end Sys2Proof
end

