-- ==== Sys2Proof/Syntax.lean ====
section
/-! DEFINITION. The commands of the block: one constructor for each row of spec/opcode_table.json. The table gives
the rows no fields, so the operands are the model's (assumption log 3): what the event carries, named as the rules
name it. Every command occurs at the time the time base shows. -/

namespace Sys2Proof

/-- The commands (spec/opcode_table.json). -/
inductive Instr where
  /-- PTP_SYNC (R22). A PTP Sync message taken at the PTP port updates the measured reference offset of the time-base discipline. -/
  | ptpSync (port : Fin 4) (domain master seq : Nat) (twoStep : Bool) (origin : Nat) (corr : Int)
  /-- PPS_EDGE (R22). A rising edge on PPS_IN marks a whole second and updates the discipline offset. -/
  | ppsEdge
  /-- TB_HOLDOVER (R23). Loss of the reference (no Sync for 3 s, no PPS edge for 1.5 s, or no marker for three periods) moves LOCKED to HOLDOVER. -/
  | tbHoldover
  /-- ENC_EDGE (R26). A debounced ENC_IN edge is accepted, counted in ENC_COUNT and advances the divider. -/
  | encEdge (rising : Bool) (heldNs : Nat)
  /-- NOMINAL_BOUNDARY (R25). The tick source reaches the nominal boundary of the next tick, and the overrun policies are applied. -/
  | nominalBoundary
  /-- DEFERRED_SOURCE (R28). A deferred source event takes effect when PLAN_LENGTH has elapsed since the last boundary. -/
  | deferredSource
  /-- FILLER (R27). ENC_MAX_GAP expires without an encoder boundary, and a filler tick is issued. -/
  | filler
  /-- STRETCH_EXPIRED (R38). MAX_STRETCH elapses during a hold, and the STRETCH activities still outstanding are abandoned. -/
  | stretchExpired
  /-- TICK_BOUNDARY (R10). The actual tick boundary takes effect, the tick number advances, and every boundary-timed state change is applied. -/
  | tickBoundary
  /-- READY (R43). A ring member sends READY(n) once none of its STRETCH activities is outstanding. -/
  | ready
  /-- READY_RECEIVED (R45). The leader takes READY(n) from a member and checks its PLAN_GEN. -/
  | readyReceived (member : Fin 6) (tick planGen : Nat)
  /-- WAITING_EXPIRE (R45). MAX_STRETCH elapses while the leader is WAITING, and it issues the marker with the LATE bits of the missing members. -/
  | waitingExpire
  /-- MARKER_RECEIVED (R44). A member takes the first copy of a MARKER, forwards it and schedules the boundary at the launch time. -/
  | markerReceived (port : Fin 2) (src : Fin 6) (tick launch issue corr profile planGen : Nat) (isFiller : Bool) (late : BitVec 6)
  /-- MEMBER_ABSENT (R47). The leader marks a member ABSENT after 3 ticks without READY, or on its neighbours' reports. -/
  | memberAbsent (member : Fin 6)
  /-- LEADER_LOST (R49). No marker arrives by the deadline, and the first non-ABSENT member in succession order becomes leader. -/
  | leaderLost
  /-- TICK_OUT_PULSE (R51). TO_OFFSET after a qualifying boundary, TICK_OUT goes to its active level. -/
  | tickOutPulse
  /-- TICK_OUT_PULSE_END (R51). TO_WIDTH after the leading edge, or at the next boundary, TICK_OUT returns to its inactive level. -/
  | tickOutPulseEnd
  /-- REBIND_VALIDATE (R77). The BIND_CTRL command starts validation of the staged rebind. -/
  | rebindValidate
  /-- REBIND_CANCEL (R74). The BIND_CTRL command returns a STAGED rebind to IDLE before the switch begins. -/
  | rebindCancel
  /-- COLD_SELECT (R77). The BIND_CTRL command toggles the binding slot used at the next cold bind. -/
  | coldSelect
  /-- COLD_CONFIRM (R65). The BIND_CTRL command raises SERIAL_FLOOR to the running SERIAL and sets CONFIRMED. -/
  | coldConfirm
  /-- REBIND_VALIDATION_DONE (R72). Rebind validation completes, and REBIND_STATE becomes STAGED or REJECTED. -/
  | rebindValidationDone
  /-- REGISTER_WRITE (R5). A write to a register that has no row of its own, applied under its type code. -/
  | registerWrite (isRead tee : Bool) (master size off : Nat) (value : BitVec 64)
  /-- WP_WRITE (R110). A write to a protected register is held as pending, awaiting its complement. -/
  | wpWrite (master off : Nat) (value : BitVec 32)
  /-- WP_COMPLEMENT (R110). A write to A + 4 completes the pending protected write, or drops it with WP_DROP. -/
  | wpComplement (master off : Nat) (value : BitVec 32)
  /-- WP_WINDOW_EXPIRE (R110). 64 bus cycles pass without the complement, and the pending write is dropped with WP_DROP. -/
  | wpWindowExpire (off : Nat)
  /-- RMB_REQUEST (R115). A write to RMB_ADDR starts capture of an MB value. -/
  | rmbRequest (master : Nat) (addr : BitVec 32)
  /-- RMB_CAPTURE (R115). The requested MB value is captured into RMB_DATA, and VALID and ERR are set. -/
  | rmbCapture (master : Nat)
  /-- TX_SEND (R125). A write to TX_SEND sends a mailbox message that is checked, then dropped or enqueued. -/
  | txSend (master : Nat) (mailbox : Fin 32) (sideB : Bool) (header : BitVec 32)
  /-- RX_POP (R123). Writing 1 to RX_POP removes the oldest queued message. -/
  | rxPop (master : Nat) (mailbox : Fin 32) (sideB : Bool) (value : BitVec 32)
  /-- MB_STAT_READ (R123). A read of MB_STAT returns the drop counts and clears them. -/
  | mbStatRead (master : Nat) (mailbox : Fin 32) (sideB : Bool)
  /-- DB_PENDING_CLEAR (R128). A W1C write to DB_PENDING clears bits, which set again at once when their queue is non-empty or NOTICE is set. -/
  | dbPendingClear (master : Nat) (value : BitVec 32)
  /-- BIND_STATUS_READ (R344). A read of BIND_STATUS clears the BIND summary bit of IRQ_SUM. -/
  | bindStatusRead (master : Nat)
  /-- BAR2_ACCESS (R119). A host access through BAR2 to a scratchpad bank is checked against the loan and served or refused. -/
  | bar2Access (isRead : Bool) (off size : Nat) (bytes : List (BitVec 8))
  /-- BAR2_TIMEOUT (R135). A BAR2 access not served within 2 µs at the bank is abandoned, and BAR2_TIMEOUT is set. -/
  | bar2Timeout (off : Nat)
  /-- BAR4_ACCESS (R120). A host access through BAR4 is checked against SYSTEM regions and served in the housekeeping window. -/
  | bar4Access (isRead : Bool) (off size : Nat) (bytes : List (BitVec 8))
  /-- BAR4_TIMEOUT (R507). A BAR4 access not served within 4 µs is abandoned, and DENIED is set. -/
  | bar4Timeout (off : Nat)
  /-- BAR4_WIN_WRITE (R120). A completed protected write to BAR4_WIN repositions the window, or is dropped whole when its fields are invalid. -/
  | bar4WinWrite (value : BitVec 32)
  /-- BANK_ZERO_DONE (R139). Zeroing of a bank ends, BUSY clears, and the waiting requests of the new owner are served. -/
  | bankZeroDone (ch : Fin 6) (bank : Fin 48)
  /-- LOAN_WRITE (R142). The curator writes a LOAN register in START, TEST or RECOVERY; writes by other masters are denied. -/
  | loanWrite (master : Nat) (ch : Fin 6) (bank : Fin 48) (value : BitVec 32)
  /-- DMA_GO (R158). Writing GO starts a register-mode transfer or reads the chain head, after checking the program. -/
  | dmaGo (master : Nat) (ch : Fin 6) (q : Fin 16)
  /-- DMA_ABORT (R164). Writing ABORT stops the queue at its next beat with ABORTED. -/
  | dmaAbort (master : Nat) (ch : Fin 6) (q : Fin 16)
  /-- DMA_BEAT (R154). A queue issues one beat once its reservation, FIFO data or room, and bank service are available. -/
  | dmaBeat (ch : Fin 6) (q : Fin 16) (line : Nat) (inBytes : List (BitVec 8))
  /-- DMA_TRANSFER_DONE (R159). All writes of a transfer are acknowledged; STATUS, OWN and DONE are updated and the chain proceeds. -/
  | dmaTransferDone (ch : Fin 6) (q : Fin 16) (ack : Nat)
  /-- RESERVATION_START (R32). An activity's reservation on a resource begins, and saved or pending work resumes. -/
  | reservationStart (act : Fin 96) (ch : Fin 6) (cls inst opseq budget cycles line : Nat)
  /-- RESERVATION_END (R32). An activity's reservation ends, and unfinished work is saved or released. -/
  | reservationEnd (act : Fin 96) (ch : Fin 6) (cls inst : Nat)
  /-- MATMUL (R183). A MATMUL op starts in its ME reservation. -/
  | matmul (act : Fin 96) (budget cycles line : Nat) (stall : Bool)
  /-- CONV (R190). A CONV op starts in its ME reservation. -/
  | conv (act : Fin 96) (budget cycles line : Nat) (stall : Bool)
  /-- ATTN (R216). An ATTN op starts in its AE reservation. -/
  | attn (act : Fin 96)
  /-- ATTN_SNAPSHOT (R223). Once every needed leaf is resident, the op takes its snapshot and checks leaves, segments and tree. -/
  | attnSnapshot (act : Fin 96) (budget cycles line : Nat)
  /-- GEMV_STREAM (R235). A GEMV_STREAM op starts in its AE reservation. -/
  | gemvStream (act : Fin 96) (budget cycles line : Nat)
  /-- COPY (R163). A COPY op loads the activity's queue and waits for IDLE or HALTED. -/
  | copy (act : Fin 96)
  /-- SPACE2DEPTH (R201). A general core regroups a tensor from space into channels. -/
  | space2depth (act : Fin 96) (core : Fin 4) (fits : Bool)
  /-- DEPTH2SPACE (R201). A general core regroups a tensor from channels into space. -/
  | depth2space (act : Fin 96) (core : Fin 4) (fits : Bool)
  /-- TCONV_PREP (R198). A general core rewrites a weight block into the phase-split layout. -/
  | tconvPrep (act : Fin 96) (core : Fin 4) (fits : Bool)
  /-- LEAF_EDIT (R250). A LEAF_EDIT op runs its check phase and then its transfer phase. -/
  | leafEdit (act : Fin 96) (core : Fin 4) (fits : Bool)
  /-- LEAF_EDIT_RECORD (R250). After every write is acknowledged, the op writes its shadow entries and results and ends OK. -/
  | leafEditRecord (act : Fin 96) (ack : Nat)
  /-- SPILL_COMPLETE (R261). On acknowledgement, a spilled leaf becomes SPILLED and its local slot is released. -/
  | spillComplete (leaf ack : Nat)
  /-- FETCH_SLOT_TAKEN (R264). A waiting fetch takes a released local slot and begins copying. -/
  | fetchSlotTaken (leaf : Nat)
  /-- FETCH_COMPLETE (R264). On acknowledgement, a fetched leaf becomes LIVE and its tier slot is freed. -/
  | fetchComplete (leaf ack : Nat) (macOk : Bool)
  /-- CODEC_SETUP (R288). CODEC_CTL SETUP binds the work area and output ring and starts the slot. -/
  | codecSetup (act : Fin 96) (core : Fin 4)
  /-- CODEC_COLLECT (R288). CODEC_CTL COLLECT releases output buffers and writes picture records. -/
  | codecCollect (act : Fin 96) (core : Fin 4)
  /-- CODEC_SUBMIT (R288). CODEC_CTL SUBMIT queues a picture for encoding. -/
  | codecSubmit (act : Fin 96) (core : Fin 4)
  /-- CODEC_RESTART (R288). CODEC_CTL RESTART discards stream state, or forces the next encoded picture to be IDR. -/
  | codecRestart (act : Fin 96) (core : Fin 4)
  /-- BOXDEC (R207). A BOXDEC op decodes head tensors into candidate boxes. -/
  | boxdec (act : Fin 96) (fits : Bool)
  /-- NMS_TIDY (R208). An NMS_TIDY op sorts the candidates and suppresses duplicate boxes. -/
  | nmsTidy (act : Fin 96) (fits : Bool)
  /-- SAMPLE (R274). SAMPLE_POST SAMPLE verifies the tree, chooses tokens, and writes edits, blocks and descriptors for each sequence. -/
  | sample (act : Fin 96) (budget : Nat)
  /-- DRAFT (R275). SAMPLE_POST DRAFT fills candidate trees from the extra heads. -/
  | draft (act : Fin 96) (budget : Nat)
  /-- RMSNORM (R271). SAMPLE_POST RMSNORM normalises rows. -/
  | rmsnorm (act : Fin 96) (fits : Bool)
  /-- SWIGLU (R271). SAMPLE_POST SWIGLU computes gated products. -/
  | swiglu (act : Fin 96) (fits : Bool)
  /-- CHECK (R414). A CHECK op applies the SAFE range records to located outputs. -/
  | check (act : Fin 96) (fits : Bool)
  /-- DIGEST (R430). A DIGEST op hashes result areas and sends a DIGEST message. -/
  | digest (act : Fin 96) (fits : Bool)
  /-- RESULT_OUT (R314). A RESULT_OUT op builds the result record for the latest non-filler tick and places it in the transmit FIFO. -/
  | resultOut (act : Fin 96)
  /-- OP_END (R99). An op completes or aborts, and its activity's sequence continues or ends for the tick. -/
  | opEnd (act : Fin 96)
  /-- ACCESS_UNIT (R292). A complete access unit reaches a decode slot and is queued or discarded. -/
  | accessUnit (ch : Fin 6) (slot : Fin 8) (isRap supported isReference isRasl : Bool) (pts size : Nat)
  /-- PICTURE_DONE (R289). A picture finishes decoding or encoding, and its record and output buffer are produced. -/
  | pictureDone (ch : Fin 6) (slot : Fin 8) (poc : Int) (width height depth concBlocks pool outputs : Nat) (syntaxError missingRef fence predicts stall isRap isIdr : Bool) (data : List (BitVec 8))
  /-- TIME_CUT (R295). A sealed slot reaches its VEE cycle bound, and the rest of the picture is concealed. -/
  | timeCut (ch : Fin 6) (slot : Fin 8)
  /-- ETHERNET_FRAME (R302). A received frame that fails the acceptance checks or matches no flow is dropped and counted. -/
  | ethernetFrame (port : Fin 4) (frame : List (BitVec 8))
  /-- GVSP_LEADER (R305). A GVSP leader opens a block, fixing its parity, size and calibration table. -/
  | gvspLeader (port : Fin 4) (srcIp srcUdp dstUdp blockId payloadType pixelFormat sizeX sizeY : Nat)
  /-- GVSP_PAYLOAD (R305). A GVSP payload packet is corrected and written to the flow's receive buffer. -/
  | gvspPayload (port : Fin 4) (srcIp srcUdp dstUdp blockId packetId : Nat) (bytes : List (BitVec 8))
  /-- GVSP_TRAILER (R305). A GVSP trailer ends the block for pacing. -/
  | gvspTrailer (port : Fin 4) (srcIp srcUdp dstUdp blockId : Nat)
  /-- ZERO_FILL (R306). Owed zero fill is written to the buffer once space allows. -/
  | zeroFill (flow : Fin 256)
  /-- RTP_PACKET (R309). An RTP packet is depacketised into Annex B NAL units for its codec slot. -/
  | rtpPacket (port : Fin 4) (srcIp dstUdp : Nat) (packet : List (BitVec 8))
  /-- PTP_DELAY_RESP (R311). A Delay_Resp completes a delay measurement and sets the Delay_Req interval. -/
  | ptpDelayResp (port : Fin 4) (domain master seq received : Nat) (corr interval : Int)
  /-- PTP_ANNOUNCE (R311). An Announce feeds the best master clock algorithm. -/
  | ptpAnnounce (port : Fin 4) (domain master : Nat) (dataSet : List Nat)
  /-- DELAY_REQ (R311). At the granted interval, the port sends a Delay_Req. -/
  | delayReq
  /-- ARP_REQUEST (R315). An ARP request for the port's IPV4 is answered. -/
  | arpRequest (port : Fin 4) (senderIp : Nat) (senderMac : BitVec 48) (targetIp : Nat)
  /-- ARP_REPLY (R315). An ARP reply installs a destination MAC entry. -/
  | arpReply (port : Fin 4) (ip : Nat) (mac : BitVec 48)
  /-- ARP_TIMER (R315). The 60 s or 1 s timer sends an ARP request for a unicast destination. -/
  | arpTimer (port : Fin 4) (ip : Nat)
  /-- ARP_ENTRY_EXPIRE (R315). An entry unanswered for 180 s is discarded. -/
  | arpEntryExpire (port : Fin 4) (ip : Nat)
  /-- RESULT_RECORD_SEND (R315). A queued result record is sent as a UDP datagram in the port reservation. -/
  | resultRecordSend (port : Fin 4)
  /-- VDL_UPDATE (R317). At update instant t, VDL_VALID is deasserted. -/
  | vdlUpdate (act : Fin 96)
  /-- VDL_CHANGE (R317). At t + 100 ns, the verdict lines take their new values. -/
  | vdlChange
  /-- VDL_VALID_RISE (R317). At t + 200 ns, VDL_VALID is asserted. -/
  | vdlValidRise
  /-- PORT_LINK_DOWN (R319). An ingest port loses its link. -/
  | portLinkDown (port : Fin 4)
  /-- PORT_LINK_UP (R319). An ingest port's link and FEC lock. -/
  | portLinkUp (port : Fin 4)
  /-- RING_SIGNAL_DETECT (R322). Signal is detected on a ring port with the bypass open, and training starts. -/
  | ringSignalDetect (port : Fin 2)
  /-- LANE_LOCK (R322). A ring port's lanes lock, and it sends IDENT. -/
  | laneLock (port : Fin 2) (narrow : Bool)
  /-- IDENT (R323). A received IDENT is accepted with a skip and the port goes UP, or it goes to MGMT. -/
  | ident (port : Fin 2) (accession : List (BitVec 8)) (ring farPort member planGen coldCount : Nat)
  /-- RING_LOSS_OF_SIGNAL (R322). A ring port loses signal and goes DOWN. -/
  | ringLossOfSignal (port : Fin 2)
  /-- DELAY_TIMER (R324). Every second, a link starts a DELAY exchange. -/
  | delayTimer (port : Fin 2)
  /-- DELAY (R324). A DELAY request or response is taken, and the link delay is measured. -/
  | delay (port : Fin 2) (isResponse : Bool) (t1 t2 t3 : Nat)
  /-- LINK_REPORT (R325). The leader takes a member's LINK_REPORT for the neighbour test. -/
  | linkReport (member : Fin 6) (east west eastSkip westSkip : Nat)
  /-- LINK_REPORT_SEND (R325). A member sends LINK_REPORT every 256 ticks. -/
  | linkReportSend
  /-- RING_FRAME (R327). A ring frame header is checked, and the frame is consumed, forwarded or dropped. -/
  | ringFrame (port : Fin 2) (header : BitVec 64) (payload : List (BitVec 8)) (crc : BitVec 32)
  /-- RING_ACK (R329). An ACK control block releases replay-buffer entries. -/
  | ringAck (port : Fin 2) (seq : Nat)
  /-- RING_NAK (R329). A NAK causes go-back-N replay from the named SEQ. -/
  | ringNak (port : Fin 2) (seq : Nat)
  /-- REPLAY_TIMEOUT (R329). No ACK within 1 µs causes a replay. -/
  | replayTimeout (port : Fin 2)
  /-- RETRAIN_DONE (R329). A retrain restores the far end within 100 µs, or the link goes DOWN. -/
  | retrainDone (port : Fin 2) (restored : Bool)
  /-- SPILL_WRITE (R335). The lender takes a SPILL_WRITE command and stores or refuses the slot. -/
  | spillWrite (lane : Fin 32) (src : Fin 6) (slot tenant channel : Nat)
  /-- SPILL_READ (R335). The lender takes a SPILL_READ and returns READ_DATA. -/
  | spillRead (lane : Fin 32) (src : Fin 6) (slot tenant line : Nat)
  /-- SPILL_FREE (R335). The lender clears a slot's tag. -/
  | spillFree (lane : Fin 32) (src : Fin 6) (slot tenant : Nat)
  /-- SPILL_ACK (R330). The borrower takes a SPILL_ACK that ends its spill write. -/
  | spillAck (lane : Fin 32) (slot status : Nat)
  /-- READ_DATA (R330). The borrower takes READ_DATA answering its SPILL_READ. -/
  | readData (lane : Fin 32) (slot status : Nat)
  /-- DATA (R330). A DATA frame of 512 bytes of slot content is taken. -/
  | dataFrame (lane : Fin 32) (src : Fin 6) (bytes : List (BitVec 8))
  /-- RING_EVENT (R328). A RING_EVENT updates the member's view of ABSENT, SUSPECT, ADMITTED or CLEARED members. -/
  | ringEvent (kind : Nat) (member : Fin 6) (tick : Nat)
  /-- REVOKE (R381). A received REVOKE clears the serve tags of that tenant held for the sender. -/
  | revoke (src : Fin 6) (tenant tick : Nat)
  /-- DIGEST_MESSAGE (R427). A DIGEST message from the ring is held for the copy or admission decision. -/
  | digestMessage (src : Fin 6) (group kind tick : Nat) (value : List (BitVec 8))
  /-- FORCE_BYPASS (R339). A RING_CTRL write sets or clears FORCE_BYPASS. -/
  | forceBypass (value : Bool)
  /-- VF_FLR (R351). A VF function level reset resets the VF, changes its role and removes its tenant. -/
  | vfFlr (vf : Fin 8)
  /-- PF_FLR (R351). A PF function level reset resets the PF host registers and disables the VFs. -/
  | pfFlr
  /-- HOST_LINK_DOWN (R351). The host link goes down or fails training; the PF FLR effects apply and IDE streams go Insecure. -/
  | hostLinkDown
  /-- SECONDARY_BUS_RESET (R351). A Secondary Bus Reset acts as a PF FLR. -/
  | secondaryBusReset
  /-- NUMVFS_WRITE (R351). A change of NumVFs creates VFs or removes them with the VF FLR effects. -/
  | numvfsWrite (count : Nat)
  /-- PCI_CONFIG_WRITE (R355). A configuration write changes a function's settings and may move a locked TDI to ERROR. -/
  | pciConfigWrite (function : Fin 9) (item value : Nat)
  /-- PERST_N (R472). PERST_N resets the host island only. -/
  | perstN (asserted : Bool)
  /-- MSIX_UNMASK (R343). Unmasking a vector sends its pending MSI-X message. -/
  | msixUnmask (function : Fin 9) (vector : Nat)
  /-- HSW_CTRL_WRITE (R349). A write to HSW_CTRL enables or disables a host spill window. -/
  | hswCtrlWrite (master : Nat) (window : Fin 16) (value : BitVec 32)
  /-- HOST_COMPLETION (R350). A completion of a module-initiated request arrives, and error statuses end the transfer. -/
  | hostCompletion (act : Fin 96) (status : Nat)
  /-- CPL_TIMEOUT (R350). The completion timeout expires, and the transfer ends with HOST_ERROR. -/
  | cplTimeout (act : Fin 96)
  /-- IDE_KM (R352). An IDE_KM message delivers or programs IDE keys. -/
  | ideKm (stream : Fin 9) (keySet : Bool) (kind : Nat)
  /-- K_SET_GO (R352). K_SET_GO switches a stream to the other key set. -/
  | kSetGo (stream : Fin 9) (keySet : Bool)
  /-- IDE_INSECURE (R352). An IDE integrity check failure moves the stream to Insecure and its TDIs to ERROR. -/
  | ideInsecure (stream : Fin 9)
  /-- GET_TDISP_VERSION (R354). The TDISP request returns the supported version. -/
  | getTdispVersion (session : Nat) (vf : Fin 8)
  /-- GET_TDISP_CAPABILITIES (R354). The TDISP request returns the capabilities. -/
  | getTdispCapabilities (session : Nat) (vf : Fin 8)
  /-- LOCK_INTERFACE_REQUEST (R355). The TDISP request moves a TDI to CONFIG_LOCKED and freezes its VF. -/
  | lockInterfaceRequest (session : Nat) (vf : Fin 8) (noFwUpdate : Bool)
  /-- GET_DEVICE_INTERFACE_REPORT (R354). The TDISP request returns the interface report. -/
  | getDeviceInterfaceReport (session : Nat) (vf : Fin 8)
  /-- GET_DEVICE_INTERFACE_STATE (R354). The TDISP request returns the TDI state. -/
  | getDeviceInterfaceState (session : Nat) (vf : Fin 8)
  /-- START_INTERFACE_REQUEST (R355). The TDISP request moves a TDI to RUN and begins tenant admission. -/
  | startInterfaceRequest (session : Nat) (vf : Fin 8) (nonce : List (BitVec 8))
  /-- STOP_INTERFACE_REQUEST (R355). The TDISP request starts removal and returns the TDI to CONFIG_UNLOCKED. -/
  | stopInterfaceRequest (session : Nat) (vf : Fin 8)
  /-- TDISP_OTHER_REQUEST (R354). Any other TDISP request is answered with UNSUPPORTED_REQUEST. -/
  | tdispOtherRequest (session : Nat) (vf : Fin 8) (code : Nat)
  /-- REMOVAL_FENCE (R378). At the fence, slots are zeroised, banks zeroed, the vitrine area wiped and windows disabled. -/
  | removalFence (tenant : Fin 8)
  /-- REMOVAL_COMPLETE (R378). Removal completes, the tenant goes RECLAIMING, REMOVED is set and the STOP response is sent. -/
  | removalComplete (tenant : Fin 8)
  /-- RECLAIM_DONE (R379). The tenant's leaf entries are freed, and TENANT_STATE becomes NONE. -/
  | reclaimDone (tenant : Fin 8)
  /-- KEY_EXCHANGE (R356). The SPDM request opens a session, or is refused when 12 sessions exist. -/
  | keyExchange (overMctp : Bool)
  /-- END_SESSION (R356). The SPDM request ends a session. -/
  | endSession (session : Nat)
  /-- SPDM_HEARTBEAT (R356). An SPDM heartbeat keeps a session alive. -/
  | spdmHeartbeat (session : Nat)
  /-- SPDM_HEARTBEAT_LOST (R356). The heartbeat period passes without a heartbeat, and the session ends. -/
  | spdmHeartbeatLost (session : Nat)
  /-- KEY_UPDATE (R356). The SPDM request updates session keys. -/
  | keyUpdate (session : Nat)
  /-- GET_CERTIFICATE (R383). The SPDM request returns the chain of certificate slot 0 or 1. -/
  | getCertificate (slot : Nat)
  /-- CHALLENGE (R356). The SPDM request is answered with a signature by the Alias key. -/
  | challenge (slot : Nat) (nonce : List (BitVec 8))
  /-- GET_MEASUREMENTS (R384). The SPDM request returns measurement indices. -/
  | getMeasurements (session index : Nat) (raw : Bool)
  /-- SET_ENDPOINT_ID (R357). The MCTP control command assigns the module's EID. -/
  | setEndpointId (eid : BitVec 8)
  /-- GET_ENDPOINT_ID (R357). The MCTP control command returns the EID. -/
  | getEndpointId
  /-- GET_ENDPOINT_UUID (R357). The MCTP control command returns the UUID. -/
  | getEndpointUuid
  /-- GET_MCTP_VERSION_SUPPORT (R357). The MCTP control command returns the supported versions. -/
  | getMctpVersionSupport
  /-- GET_MESSAGE_TYPE_SUPPORT (R357). The MCTP control command returns the supported message types. -/
  | getMessageTypeSupport
  /-- GET_VENDOR_DEFINED_MESSAGE_SUPPORT (R357). The MCTP control command returns vendor message support. -/
  | getVendorDefinedMessageSupport
  /-- REG_READ (R358). The tray command reads a BAR0 register. -/
  | regRead (tag off : Nat)
  /-- REG_WRITE (R358). The tray command writes a register, using the complement form for WP registers. -/
  | regWrite (tag off : Nat) (value : BitVec 32)
  /-- HEARTBEAT (R442). The tray command restarts the heartbeat timer and returns the power status. -/
  | heartbeat (tag seq : Nat)
  /-- CAP_SET (R442). The tray command sets the power cap. -/
  | capSet (tag cap : Nat)
  /-- IMAGE_BLOCK (R489). The tray command carries one image-transfer command over SMBus. -/
  | imageBlock (tag cmd typ value blkLen : Nat) (crc : BitVec 32) (bytes : List (BitVec 8))
  /-- IMAGE_STATUS (R489). The tray command returns the image-transfer status. -/
  | imageStatus (tag : Nat)
  /-- KEY_DELIVER (R371). The KSI service stores a tenant model key. -/
  | keyDeliver (session : Nat) (tenant : Fin 9) (modelId : Nat) (key : List (BitVec 8))
  /-- WEIGHT_LOAD (R374). The KSI service starts decrypting and sealing a model image through the seal activity. -/
  | weightLoad (session : Nat) (tenant : Fin 9) (modelId srcRegion srcOffset dstRegion dstOffset firstChunk length : Nat)
  /-- LOAD_COMPLETE (R374). A weight load ends, OK or with LOAD_FAIL on a tag failure. -/
  | loadComplete (tenant : Fin 9)
  /-- ROTATE (R375). The KSI service creates the tenant's other epoch and starts resealing. -/
  | rotate (session : Nat) (tenant : Fin 9)
  /-- CONSENT (R385). The KSI service accepts a signed consent record. -/
  | consent (session : Nat) (tenant : Fin 9) (record : List (BitVec 8))
  /-- CONSENT_END (R385). The KSI service ends a consent scope. -/
  | consentEnd (session : Nat) (tenant : Fin 9) (scope : Nat)
  /-- STATUS (R371). The KSI service returns tenant state and a fresh consent nonce. -/
  | ksiStatus (session : Nat) (tenant : Fin 9)
  /-- TAMPER (R387). Tamper is detected; the vitrine is wiped, TAMPER is recorded and the module resets. -/
  | tamper (kind : Nat)
  /-- CNT_CLEAR (R397). Writing CLEAR zeroes the counter and OVF at the next boundary. -/
  | cntClear (master : Nat) (isModule : Bool) (ch : Fin 6) (index : Fin 32)
  /-- SENSOR_UPDATE (R403). A sensor's reading is updated with trim and fault checks. -/
  | sensorUpdate (sensor : Fin 89) (raw : Int)
  /-- SENSOR_FAULT_CLEAR (R404). After 10 s of plausible readings, the sensor fault clears. -/
  | sensorFaultClear (sensor : Fin 89)
  /-- THERMAL_RELEASE (R450). Temperatures stay below the release level for 60 s, and the limit is released. -/
  | thermalRelease (level : Nat) (ch : Fin 6)
  /-- FLOW_LOW (R450). The flow proxy stays below 1.0 L/min for 5 s, and the limit becomes LEAN. -/
  | flowLow
  /-- THERMAL_TRIP (R451). A site reaches T_TRIP, domains turn off and the module is held in reset. -/
  | thermalTrip (site : Fin 89)
  /-- REPLAN (R407). The CONS_CTRL command starts an extra replan. -/
  | replan
  /-- REPLAN_TIMER (R407). Every 3,600 s of powered time a replan starts. -/
  | replanTimer
  /-- REPLAN_DONE (R407). A replan completes, and its voltages take effect at the next boundary. -/
  | replanDone (drift : List Int)
  /-- HEALTH_UPDATE (R410). Every 60 s, the health scores are recomputed. -/
  | healthUpdate (inputs : List (Nat × Nat × Nat))
  /-- CAL_COMMIT (R402). A checked CAL write is stored in both flash copies and committed. -/
  | calCommit
  /-- SPOT_COMPARE (R418). The checker ME finishes recomputing a sample and compares it bit for bit. -/
  | spotCompare (source : Fin 6) (equal : Bool)
  /-- SPOT_TIMEOUT (R418). A sample not compared within 64 ticks is abandoned. -/
  | spotTimeout (source : Fin 6)
  /-- TEST_SEGMENT (R420). A field-test segment starts in unreserved unit time. -/
  | testSegment (testUnit : Fin 54)
  /-- TEST_SEGMENT_DONE (R422). A segment's signature is compared, and the run ends at its last segment. -/
  | testSegmentDone (good : Bool)
  /-- TEST_RUN_TIMEOUT (R420). A run unfinished within 1,024 ticks is discarded. -/
  | testRunTimeout
  /-- COPY_ROUND_START (R426). A weight-copy digest round starts at its interval. -/
  | copyRoundStart (copyIndex : Fin 96)
  /-- COPY_DIGEST_FINAL (R426). A copy digest becomes final and is sent and latched. -/
  | copyDigestFinal (copyIndex : Fin 96) (poisoned : Bool)
  /-- COPY_DECISION (R427). At the 16th boundary after the digest, the module decides its copies. -/
  | copyDecision (copyIndex : Fin 96)
  /-- COPY_RELOAD_DONE (R428). A replay completes, and the copy becomes RELOADED. -/
  | copyReloadDone (copyIndex : Fin 96)
  /-- MAINT_ENTER (R432). The SAFE_CTRL command enters MAINTENANCE from the next boundary. -/
  | maintEnter
  /-- MAINT_EXIT (R432). The SAFE_CTRL command ends MAINTENANCE with a cold bind. -/
  | maintExit
  /-- STRESS_START (R432). The SAFE_CTRL command starts the stress test. -/
  | stressStart
  /-- STRESS_DONE (R432). The stress test ends, and its results are recorded. -/
  | stressDone (results : List Nat)
  /-- MARK_SUSPECT (R429). The SAFE_CTRL command marks a weight copy SUSPECT. -/
  | markSuspect (copyIndex : Nat)
  /-- MARK_UNIT (R425). The SAFE_CTRL command marks a unit SUSPECT. -/
  | markUnit (master testUnit : Nat)
  /-- PROFILE_DECISION (R440). At the decision point, inputs are latched and the next profile is chosen. -/
  | profileDecision
  /-- REQ_PROFILE (R453). A write to PWR_CTRL sets the requested profile. -/
  | reqProfile (master profile : Nat)
  /-- HEARTBEAT_LOST (R443). CAP_TIMEOUT passes without a tray command, and SAFE_CAP takes effect. -/
  | heartbeatLost
  /-- FAST_STEP (R444). A falling edge on PCAP_DN_N sets FAST_TARGET and enforces the lower limit within 20 µs. -/
  | fastStep
  /-- PCAP_RELEASE (R445). Release of PCAP_DN_N ends fast enforcement, and FAST_TARGET stays as a cap. -/
  | pcapRelease
  /-- INPUT_DIP (R447). Input below 40.5 V throttles the draw to 240 W. -/
  | inputDip (centivolts : Nat)
  /-- THROTTLE_LIFT (R447). Input above 41.5 V lifts the throttle and logs the dip. -/
  | throttleLift (centivolts : Nat)
  /-- INPUT_LOW (R447). Input below 37.0 V resets the module. -/
  | inputLow (centivolts : Nat)
  /-- DROOP (R448). A supply droop stretches the affected clock. -/
  | droop (domain : Nat)
  /-- DROOP_RECOVER (R448). The supply recovers, and after at least 32 cycles the stretch ends. -/
  | droopRecover (domain cycles removed : Nat)
  /-- ILK_PEER_CHANGE (R458). ILK_PEER_N changes level, and the ring role is re-evaluated. -/
  | ilkPeerChange (asserted : Bool)
  /-- OWN_BUS_CHANGE (R458). The ring's own claim bus changes level, moving a self-fit member to CLAIMING. -/
  | ownBusChange (asserted : Bool)
  /-- CLAIM_GUARD (R459). The guard elapses with the peer released, and the standby ring claims. -/
  | claimGuard
  /-- CLAIM_CONFIRM (R458). 2 µs after assertion, the claiming ring becomes ACTIVE or loses the tie. -/
  | claimConfirm
  /-- STUCK_LINE (R460). The own bus stays asserted 10 µs after a release. -/
  | stuckLine
  /-- REVERT_CLAIM (R465). After REVERT_WAIT FIT and STANDBY, ring A asserts over an ACTIVE ring B. -/
  | revertClaim
  /-- ADMIT_DECISION (R467). At the 16th boundary after its digests, a SHADOW module compares them with the buddy's. -/
  | admitDecision (tick : Nat)
  /-- POWER_ON (R472). The 48 V input holds at or above 42.0 V for 10 ms, giving a power-on reset. -/
  | powerOn
  /-- MOD_RESET_N (R473). MOD_RESET_N is asserted, resetting the module. -/
  | modResetN (asserted : Bool)
  /-- MODULE_RESET (R473). The RESET_CTRL command resets the module. -/
  | moduleReset (master : Nat)
  /-- RECOVERY_RESET (R484). The RESET_CTRL command resets into recovery. -/
  | recoveryReset (master : Nat)
  /-- WATCHDOG (R473). The curator watchdog is not serviced for 2 s and resets the module. -/
  | watchdog
  /-- MODULE_START (R475). The reset hold ends, and the ROM, image load, training and cold bind sequence runs. -/
  | moduleStart (slotId : Nat) (ringSel priN : Bool) (corrupt : Nat)
  /-- TICK_ZERO (R476). Once lock and ring conditions are met, tick 0 starts, loans load and scratchpads enter NORMAL. -/
  | tickZero
  /-- OPEN (R486). The IMG_CTRL command opens an image transfer and erases its destination. -/
  | imgOpen (master typ length : Nat)
  /-- ERASE_DONE (R486). The erase completes, and STATE becomes OPEN. -/
  | eraseDone
  /-- BLOCK (R486). The IMG_CTRL command checks and programs one image block. -/
  | imgBlock (master : Nat)
  /-- BLOCK_PROGRAMMED (R486). Programming of a block completes, and BUSY clears. -/
  | blockProgrammed
  /-- CLOSE (R487). The IMG_CTRL command closes the transfer and starts verification. -/
  | imgClose (master : Nat)
  /-- VERIFY_DONE (R508). Verification ends with VERIFIED or FAILED. -/
  | verifyDone
  /-- ABORT (R486). The IMG_CTRL command returns the transfer to IDLE. -/
  | imgAbort (master : Nat)
  /-- ACTIVATE (R488). The IMG_CTRL command selects a verified firmware copy in trial. -/
  | imgActivate (master : Nat)
  /-- FW_CONFIRM (R483). The IMG_CTRL command ends the trial, raises SVN_FLOOR and erases the old settings area. -/
  | fwConfirm (master : Nat)
  /-- PTP_FOLLOW_UP (R311). A Follow_Up message from a two-step master carries the precise origin time of the preceding Sync and completes that offset measurement. -/
  | ptpFollowUp (port : Fin 4) (domain master seq origin : Nat) (corr : Int)
  /-- HOST_LINK_UP (R341). The PCI Express link finishes training and becomes active, setting LINK_UP and letting host-dependent transfers run again. -/
  | hostLinkUp (speed width : Nat)
  /-- RING_TRAINING_FAILURE (R322). A ring port in TRAIN fails to train and returns to DOWN. -/
  | ringTrainingFailure (port : Fin 2)
  /-- AUX_12V_PRESENCE (R472). AUX_12V appears or disappears, starting or stopping the AON-only domain when 48 V is absent and deciding whether the AON latch survives. -/
  | aux12vPresence (present : Bool)
  /-- REF_10M_PRESENCE (R52). REF_10M appears, disappears or leaves ±50 ppm, changing REF10_OK and whether it sets the discipline's frequency. -/
  | ref10mPresence (present inRange : Bool)
deriving DecidableEq, Repr

end Sys2Proof
end

