-- ==== Sys2Proof/Decode.lean ====
section
/-! DEFINITION. The block has no encoded instructions: no row of spec/opcode_table.json gives bits. -/

namespace Sys2Proof

/-- The command a word spells by the table's bits: none, because every row of the table has an empty field list. -/
def decodeTableWord (_nbits _w : Nat) : Option Instr := none

end Sys2Proof
end

