-- ==== Sys2Proof/Machine/Tab.lean ====
section
/-! DEFINITION. Sparse tables in one canonical form: a list of (key, value) pairs with keys strictly rising and no
entry equal to what an unlisted key reads as. Memories, queues by number, slots and maps are all such tables, so equal
tables are equal data. -/

namespace Sys2Proof.Machine

/-- A table from numbers to values; an unlisted key reads as the default of the value's type. -/
abbrev Tab (α : Type) := List (Nat × α)

/-- The value at a key. -/
def Tab.get {α : Type} [Inhabited α] : Tab α → Nat → α
  | [], _ => default
  | (j, v) :: r, k => if k = j then v else if k < j then default else Tab.get r k

/-- Remove a key. -/
def Tab.erase {α : Type} : Tab α → Nat → Tab α
  | [], _ => []
  | (j, v) :: r, k => if k = j then r else if k < j then (j, v) :: r else (j, v) :: Tab.erase r k

/-- Insert or replace a key, whatever the value. -/
def Tab.put {α : Type} : Tab α → Nat → α → Tab α
  | [], k, x => [(k, x)]
  | (j, v) :: r, k, x =>
    if k = j then (k, x) :: r else if k < j then (k, x) :: (j, v) :: r else (j, v) :: Tab.put r k x

/-- Write a value; writing the default removes the entry, so the canonical form is kept. -/
def Tab.set {α : Type} [Inhabited α] [DecidableEq α] (t : Tab α) (k : Nat) (x : α) : Tab α :=
  if x = default then t.erase k else t.put k x

/-- Apply a function to the value at a key. -/
def Tab.upd {α : Type} [Inhabited α] [DecidableEq α] (t : Tab α) (k : Nat) (f : α → α) : Tab α :=
  t.set k (f (t.get k))

/-- Every key is at least `lo`, keys strictly rise, and no entry is the default. -/
def Tab.wfFrom {α : Type} [Inhabited α] [DecidableEq α] : Nat → Tab α → Bool
  | _, [] => true
  | lo, (j, v) :: r => decide (lo ≤ j) && decide (v ≠ default) && Tab.wfFrom (j + 1) r

/-- The canonical form. -/
def Tab.wf {α : Type} [Inhabited α] [DecidableEq α] (t : Tab α) : Bool := t.wfFrom 0

/-- The canonical form of a memory: addresses strictly rise, and no byte listed is what an unlisted address reads as, zero. -/
abbrev Memory.wf (m : List (Nat × Byte)) : Bool := Tab.wf m

/-- Update every entry that is listed and every key of a given list (the keys that may read as the default). -/
def Tab.updAll {α : Type} [Inhabited α] [DecidableEq α] (t : Tab α) (ks : List Nat) (f : Nat → α → α) : Tab α :=
  ks.foldl (fun acc k => acc.set k (f k (acc.get k))) t

/-- Keep the entries whose key and value satisfy a test. -/
def Tab.keep {α : Type} (t : Tab α) (p : Nat → α → Bool) : Tab α := t.filter fun e => p e.1 e.2

/-- Stable insertion: after every element the new one does not precede. -/
def insertBy {α : Type} (lt : α → α → Bool) (x : α) : List α → List α
  | [] => [x]
  | y :: r => if lt x y then x :: y :: r else y :: insertBy lt x r

/-- A stable sort. -/
def sortBy {α : Type} (lt : α → α → Bool) (l : List α) : List α := l.foldl (fun acc x => insertBy lt x acc) []

end Sys2Proof.Machine
end

