-- ==== Sys2Proof/Machine/BindTypes.lean ====
section
/-! DEFINITION. The records of a binding as typed data (spec/03, spec/04): the colophon and one structure for each
gathering's record. Numeric fields are the numbers the fields hold; masks are numbers whose bits are tested. -/

namespace Sys2Proof.Machine

/-- The gathering types in the canonical order of R60. -/
inductive Gath where
  | chan | memx | leaf | tent | pair | netw | mbox | dmaq | loan | cntr | codc | powr | safe | ops | plan
deriving DecidableEq, Repr, Inhabited

/-- A directory entry of the colophon (R58); the type is the four bytes as a number. -/
structure DirEntry where
  typ : Nat := 0
  version : Nat := 0
  offset : Nat := 0
  length : Nat := 0
  digest : List Byte := []
deriving DecidableEq, Repr, Inhabited

/-- The colophon's fields (R57). -/
structure Colophon where
  kind : Nat := 0
  authKey : Nat := 0
  count : Nat := 0
  totalLength : Nat := 0
  serial : Nat := 0
  bindingId : DWord := 0
  target : List Byte := []
  minCurator : Nat := 0
  activateTick : Nat := 0
  baseDigest : List Byte := []
  planGen : Nat := 0
  dir : List DirEntry := []
deriving DecidableEq, Repr, Inhabited

/-- CHAN record (R81). -/
structure ChanRec where
  channel : Nat := 0
  enable : Nat := 0
  lockGroup : Nat := 0xFF
  gcMask : Nat := 0
  domains : Nat := 0
deriving DecidableEq, Repr, Inhabited

/-- MEMX record: one region (R82, R83). -/
structure MemxRec where
  region : Nat := 0
  kind : Nat := 0
  channel : Nat := 0
  tenant : Nat := 0
  flags : Nat := 0
  readers : Nat := 0
  base : Nat := 0
  size : Nat := 0
  link : Nat := 0
deriving DecidableEq, Repr, Inhabited

/-- LEAF record (R84). -/
structure LeafRec where
  kind : Nat := 0
  tenant : Nat := 0
  mapRegion : Nat := 0
  prefetchLead : Nat := 0
  spillHigh : Nat := 0
  spillLow : Nat := 0
  tierOrder : Nat := 0
  minLeaves : Nat := 0
  maxLeaves : Nat := 0
deriving DecidableEq, Repr, Inhabited

/-- TENT record (R85). -/
structure TentRec where
  tenant : Nat := 0
  vf : Nat := 0
  slotBase : Nat := 0
  channels : Nat := 0
deriving DecidableEq, Repr, Inhabited

/-- PAIR record (R86). -/
structure PairRec where
  ring : Nat := 0
  startRole : Nat := 0
  revertHoldoff : Nat := 0
  swapPeriod : Nat := 0
deriving DecidableEq, Repr, Inhabited

/-- NETW GLOBAL record (R87). -/
structure NetGlobal where
  discSrc : Nat := 0
  ptpPort : Nat := 0
  ptpDomain : Nat := 0
  markerLead : Nat := 0
  lateLimit : Nat := 0
  lateWindow : Nat := 0
  admitTicks : Nat := 0
deriving DecidableEq, Repr, Inhabited

/-- NETW PORT record (R87). -/
structure NetPort where
  port : Nat := 0
  mode : Nat := 0
  vlan : Nat := 0
  ipv4 : Nat := 0
  pfxLen : Nat := 0
  mtu : Nat := 0
deriving DecidableEq, Repr, Inhabited

/-- NETW FLOW record (R87, R88). -/
structure NetFlow where
  flow : Nat := 0
  port : Nat := 0
  proto : Nat := 0
  srcIp : Nat := 0
  dstUdp : Nat := 0
  stream : Nat := 0
  actEven : Nat := 0
  actOdd : Nat := 0
  codecSlot : Nat := 0
  calSet : Nat := 0
deriving DecidableEq, Repr, Inhabited

/-- NETW RESULT record (R87, R88). -/
structure NetResult where
  activity : Nat := 0
  port : Nat := 0
  vdlMask : Nat := 0
  dstIp : Nat := 0
  dstUdp : Nat := 0
  srcUdp : Nat := 0
deriving DecidableEq, Repr, Inhabited

/-- NETW MEMBER record (R87). -/
structure NetMember where
  index : Nat := 0
  succession : Nat := 0
  startRole : Nat := 0
  buddy : Nat := 0
  accession : List Byte := []
deriving DecidableEq, Repr, Inhabited

/-- NETW LINK record (R87). -/
structure NetLink where
  port : Nat := 0
  farRing : Nat := 0
  farPort : Nat := 0
  farAccession : List Byte := []
deriving DecidableEq, Repr, Inhabited

/-- NETW ROUTE record (R87). -/
structure NetRoute where
  lane : Nat := 0
  activity : Nat := 0
  destMember : Nat := 0
  direction : Nat := 0
deriving DecidableEq, Repr, Inhabited

/-- NETW RGROUP record (R87). -/
structure NetGroup where
  localGroup : Nat := 0
  groupId : Nat := 0
deriving DecidableEq, Repr, Inhabited

/-- The NETW gathering. -/
structure Netw where
  glob : NetGlobal := {}
  ports : List NetPort := []
  flows : List NetFlow := []
  results : List NetResult := []
  members : List NetMember := []
  links : List NetLink := []
  routes : List NetRoute := []
  groups : List NetGroup := []
deriving DecidableEq, Repr, Inhabited

/-- MBOX record (R89). -/
structure MboxRec where
  mailbox : Nat := 0
  enable : Nat := 0
  masterA : Nat := 0
  masterB : Nat := 0
deriving DecidableEq, Repr, Inhabited

/-- DMAQ record (R90). -/
structure DmaqRec where
  used : Nat := 0
  tenant : Nat := 0
  mode : Nat := 0
  paceFifo : Nat := 0xFF
  paceHigh : Nat := 0
  paceLow : Nat := 0
  ringLane : Nat := 0
  remote : Nat := 0
deriving DecidableEq, Repr, Inhabited

/-- LOAN record (R91). -/
structure LoanRec where
  channel : Nat := 0
  bank : Nat := 0
  phases : Nat := 1
  flags : Nat := 0
  ownerEven : Nat := 0xFF
  ownerOdd : Nat := 0xFF
  shareEven : Nat := 0
  shareOdd : Nat := 0
deriving DecidableEq, Repr, Inhabited

/-- CNTR record (R93). -/
structure CntrRec where
  scopeKind : Nat := 0
  channel : Nat := 0
  index : Nat := 0
  event : Nat := 0
  scope : Nat := 0
  mode : Nat := 0
  owner : Nat := 0
deriving DecidableEq, Repr, Inhabited

/-- CODC record (R94). -/
structure CodcRec where
  channel : Nat := 0
  slot : Nat := 0
  direction : Nat := 0
  flags : Nat := 0
  codec : Nat := 0
  profileIdc : Nat := 0
  levelIdc : Nat := 0
  priority : Nat := 0
  maxWidth : Nat := 0
  maxHeight : Nat := 0
  maxFps : Nat := 0
  refPics : Nat := 0
  activity : Nat := 0
  targetQp : Nat := 0
  rateCap : Nat := 0
deriving DecidableEq, Repr, Inhabited

/-- POWR record (R95). -/
structure PowrRec where
  startProfile : Nat := 0
  profileMask : Nat := 0
  capStart : Nat := 0
  safeCap : Nat := 0
  capTimeout : Nat := 0
  shedOrder : List Nat := []
  tWarn : Nat := 0
  tHot : Nat := 0
  tCrit : Nat := 0
  profileChannels : List Nat := []
  profileDomains : List Nat := []
deriving DecidableEq, Repr, Inhabited

/-- SAFE RANGE record (R96). -/
structure SafeRange where
  activity : Nat := 0
  seq : Nat := 0
  check : Nat := 0
  action : Nat := 0
  lo : Word := 0
  hi : Word := 0
deriving DecidableEq, Repr, Inhabited

/-- SAFE COPY record (R96). -/
structure SafeCopy where
  region : Nat := 0
  group : Nat := 0
  interval : Nat := 0
deriving DecidableEq, Repr, Inhabited

/-- The SAFE gathering. -/
structure Safe where
  checkLevel : Nat := 0
  digestInterval : Nat := 0
  ranges : List SafeRange := []
  copies : List SafeCopy := []
  digests : List Nat := []
deriving DecidableEq, Repr, Inhabited

/-- One op of OPS: its head record and its parameter bytes (R97). -/
structure OpRec where
  activity : Nat := 0
  seq : Nat := 0
  opcode : Nat := 0
  paramRecords : Nat := 0
  flags : Nat := 0
  depActivity : Nat := 0xFF
  depSeq : Nat := 0
  params : List Byte := []
deriving DecidableEq, Repr, Inhabited

/-- A reservation (R30), with the channel whose plan holds it. -/
structure Reservation where
  channel : Nat := 0
  start : Nat := 0
  length : Nat := 0
  rep : Nat := 0
  cls : Nat := 0
  inst : Nat := 0
  activity : Nat := 0
  opseq : Nat := 0
deriving DecidableEq, Repr, Inhabited

/-- A PLAN activity record (R102). -/
structure ActPlan where
  overrun : Nat := 0
  active : Bool := false
  skipFiller : Bool := false
deriving DecidableEq, Repr, Inhabited

/-- A plan block (R100, R102). -/
structure PlanBlock where
  kind : Nat := 0
  profile : Nat := 0
  benchedCh : Nat := 0xFF
  periodMin : Nat := 0
  maxStretchRaw : Nat := 0
  acts : List ActPlan := []
  res : List Reservation := []
deriving DecidableEq, Repr, Inhabited

/-- The common section of PLAN (R101). -/
structure PlanCommon where
  source : Nat := 0
  encEdge : Nat := 0
  encDeb : Nat := 0
  toFlags : Nat := 0
  encDiv : Nat := 0
  encMaxGap : Nat := 0
  toDiv : Nat := 0
  toOffset : Nat := 0
  toWidth : Nat := 0
  epoch : Nat := 0
deriving DecidableEq, Repr, Inhabited

/-- The PLAN gathering. -/
structure Plan where
  common : PlanCommon := {}
  blocks : List PlanBlock := []
deriving DecidableEq, Repr, Inhabited

/-- A whole binding as typed data. -/
structure Binding where
  col : Colophon := {}
  chan : List ChanRec := []
  memx : List MemxRec := []
  leaf : List LeafRec := []
  tent : List TentRec := []
  pair : Option PairRec := none
  netw : Netw := {}
  mbox : List MboxRec := []
  dmaq : List DmaqRec := []
  loan : List LoanRec := []
  cntr : List CntrRec := []
  codc : List CodcRec := []
  powr : PowrRec := {}
  safe : Safe := {}
  ops : List OpRec := []
  plan : Plan := {}
deriving DecidableEq, Repr, Inhabited

/-- A gathering's bytes as they lie in a binding, under its type. -/
abbrev Raw := List (Gath × List Byte)

end Sys2Proof.Machine
end

