-- ==== Sys2Proof/Machine/PartsTime.lean ====
section
/-! DEFINITION. The parts of the state that spec/02 and spec/03 name: the time base, the tick, the ring's tick
protocol, and the binding. -/

namespace Sys2Proof.Machine

/-- Discipline state (R23, TB_STATUS.LOCK). -/
inductive Lock where
  | free | acquiring | locked | holdover
deriving DecidableEq, Repr, Inhabited

/-- The time base and its discipline (R21 to R24, R52): `inLimit` counts references within limit in a row, `lastRef` is
when the last one came, `seconds` the second that the next PPS edge marks. -/
structure TimeBase where
  time : Nat := 0
  discSrc : Nat := 0
  ref10Present : Bool := false
  ref10Ok : Bool := false
  lock : Lock := .free
  stepNeeded : Bool := false
  offset : Int := 0
  inLimit : Nat := 0
  stepUsed : Bool := false
  everLocked : Bool := false
  seconds : Word := 0
  lastRef : Nat := 0
deriving DecidableEq, Repr, Inhabited

/-- Ring tick role (R53 ROLE). -/
inductive TickRole where
  | standalone | leader | follower
deriving DecidableEq, Repr, Inhabited

/-- What a ring marker carries (R43), and the member that sent it. -/
structure Marker where
  src : Nat := 0
  tick : Nat := 0
  launch : Nat := 0
  profile : Nat := 0
  planGen : Nat := 0
  filler : Bool := false
  late : BitVec 6 := 0
deriving DecidableEq, Repr, Inhabited

/-- The values of MB registers latched at a boundary (R55, R115). -/
structure TickLatch where
  taken : Bool := false
  offset : Int := 0
  num : Nat := 0
  start : Nat := 0
  stretch : Nat := 0
  encCount : BitVec 48 := 0
deriving DecidableEq, Repr, Inhabited

/-- The latest non-filler tick before the current one: what RESULT_OUT reports (R312, R314). -/
structure PrevTick where
  num : Nat := 0
  start : Nat := 0
  planGen : Nat := 0
  profile : Nat := 0
deriving DecidableEq, Repr, Inhabited

/-- The tick, its source and the ring tick protocol (R25 to R55): `lastNominal` is the nominal boundary of the current
tick, `nominal` that of the next once its source has reached it, `launch` the marker whose boundary comes next, `ready`
the members whose READY of this tick the leader holds, `noReady` ticks in a row without one, `lateHist` each member's
late flags, newest first. -/
structure Tick where
  running : Bool := false
  num : Nat := 0
  start : Nat := 0
  lastStretch : Nat := 0
  filler : Bool := false
  stretching : Bool := false
  events : Word := 0
  t0 : Nat := 0
  lastNominal : Nat := 0
  nominal : Option Nat := none
  pendFiller : Bool := false
  deferred : Bool := false
  encCount : BitVec 48 := 0
  encDiv : Nat := 0
  encLast : Option Nat := none
  encLevel : Bool := false
  role : TickRole := .standalone
  leader : Nat := 0
  waiting : Bool := false
  ready : BitVec 6 := 0
  readySent : Bool := false
  noReady : Tab Nat := []
  lateHist : Tab (List Bool) := []
  launch : Option Marker := none
  lastLaunch : Nat := 0
  tickOut : Bool := false
  tickOutRise : Option Nat := none
  tickOutFall : Option Nat := none
  latch : TickLatch := {}
  prev : Option PrevTick := none
deriving DecidableEq, Repr, Inhabited

/-- COLD_STATE (R76). -/
inductive ColdState where
  | unbound | validating | bound
deriving DecidableEq, Repr, Inhabited

/-- REBIND_STATE (R76). -/
inductive RebindState where
  | idle | validating | staged | rejected | applied
deriving DecidableEq, Repr, Inhabited

/-- A binding in force: its gatherings' bytes and their typed reading. -/
structure Running where
  raw : Raw := []
  b : Binding := {}
  digest : List Byte := []
deriving DecidableEq, Repr, Inhabited

/-- A binding-authority key slot of the KSI (R64). -/
structure AuthKey where
  provisioned : Bool := false
  revoked : Bool := false
  key : List Byte := []
deriving DecidableEq, Repr, Inhabited

/-- The binding's state and registers (R63 to R78): `inCheck` is the staged image under validation, `stagedSerial` the serial of the
rebind that is staged, `runSlot` the slot the running cold binding came from. -/
structure Bind where
  cold : ColdState := .unbound
  activeSlot : Bool := false
  runSlot : Bool := false
  fallback : Bool := false
  confirmed : Bool := false
  rebind : RebindState := .idle
  errCode : Nat := 0
  errEntry : Nat := 0
  errRebind : Bool := false
  errRec : Word := 0xFFFFFFFF
  slotErr : Nat := 0
  otherErr : Nat := 0
  bindingId : DWord := 0
  rebindTick : Nat := 0
  keys : Tab AuthKey := []
  serialFloor : Nat := 0
  lastSerial : Nat := 0
  staging : Option (List Byte) := none
  running : Option Running := none
  staged : Option Running := none
  activate : Nat := 0
  inCheck : Option (List Byte) := none
  stagedSerial : Nat := 0
deriving DecidableEq, Repr, Inhabited

end Sys2Proof.Machine
end

