-- ==== Sys2Proof/Machine/PartsMem.lean ====
section
/-! DEFINITION. The parts of the state that spec/05 to spec/07 name: the register bus, the mailboxes, the scratchpad
and its loans, the DMA queues and their FIFOs. -/

namespace Sys2Proof.Machine

/-- A protected write waiting for its complement, and when it was made (R110). -/
structure WpPend where
  used : Bool := false
  master : Nat := 0
  value : Word := 0
  since : Nat := 0
deriving DecidableEq, Repr, Inhabited

/-- A read mailbox (R114, R115). -/
structure Rmb where
  addr : BitVec 26 := 0
  valid : Bool := false
  busy : Bool := false
  err : BitVec 2 := 0
  data : DWord := 0
  latch : DWord := 0
deriving DecidableEq, Repr, Inhabited

/-- The register bus: protected writes, read mailboxes, REG_ERR by master identity, the BAR4 window, and the data
the last read returned (R106 to R120). -/
structure Bus where
  wp : Tab WpPend := []
  rmb : Tab Rmb := []
  regErr : Tab (BitVec 7) := []
  bar4Channel : BitVec 3 := 0
  bar4Enable : Bool := false
  bar4Base : BitVec 14 := 0
  readData : DWord := 0
deriving DecidableEq, Repr, Inhabited

/-- A mailbox message: its header and payload words (R124). -/
structure Msg where
  hdr : Word := 0
  pay : List Word := []
deriving DecidableEq, Repr, Inhabited

/-- One side of a mailbox channel (R123). -/
structure MbSide where
  tx0 : Word := 0
  tx1 : Word := 0
  tx2 : Word := 0
  tx3 : Word := 0
  txSend : Word := 0
  rxPop : Word := 0
  queue : List Msg := []
  notice : Bool := false
  fullDrops : Nat := 0
  staleDrops : Nat := 0
deriving DecidableEq, Repr, Inhabited

/-- A doorbell pair (R128). -/
structure Doorbell where
  pending : Word := 0
  mask : Word := 0
deriving DecidableEq, Repr, Inhabited

/-- A role generation: 1 after module reset (R127). -/
structure RoleGen where
  gen : BitVec 16 := 1
deriving DecidableEq, Repr, Inhabited

/-- The mailbox service (R122 to R128); sides are keyed 2 x channel + side, doorbells and generations by identity. -/
structure Mbx where
  sides : Tab MbSide := []
  bells : Tab Doorbell := []
  gens : Tab RoleGen := []
  wakes : Tab Nat := []
deriving DecidableEq, Repr, Inhabited

/-- Scratchpad mode of a channel (R133). -/
inductive SpcMode where
  | normal | start | test | recovery
deriving DecidableEq, Repr, Inhabited

/-- Per-channel scratchpad control (R143): in START after reset. -/
structure SpcChan where
  mode : SpcMode := .start
  sphOn : Bool := false
  events : BitVec 4 := 0
deriving DecidableEq, Repr, Inhabited

/-- A LOAN register (R142). -/
structure LoanReg where
  owner : BitVec 4 := 0
  owned : Bool := false
  zero : Bool := false
  busy : Bool := false
  tenant : BitVec 4 := 0
  share : BitVec 16 := 0
deriving DecidableEq, Repr, Inhabited

/-- The vitrine's status (R147). -/
structure Vitrine where
  wipes : Nat := 0
  lastCause : Nat := 0
  lastArea : Nat := 0
  wiping : Bool := false
deriving DecidableEq, Repr, Inhabited

/-- The scratchpads: contents keyed channel x 24 MiB + local address, loans keyed channel x 48 + bank (R129 to
R144). An unlisted byte reads 0: START zeroes every powered bank before tick 0 (R133). -/
structure Spad where
  mem : List Host.Cell := []
  loans : Tab LoanReg := []
  chan : Tab SpcChan := []
deriving DecidableEq, Repr, Inhabited

/-- Queue state (R164 Q_STATUS.STATE). -/
inductive QState where
  | idle | active | paced | halted
deriving DecidableEq, Repr, Inhabited

/-- A transfer's program (R151, R157). -/
structure Prog where
  src : DWord := 0
  dst : DWord := 0
  count : Nat := 0
  srcW : Nat := 0
  dstW : Nat := 0
  pace : Bool := false
  n0 : Nat := 0
  n1 : Nat := 0
  n2 : Nat := 0
  step0 : Word := 0
  step1 : Word := 0
  step2 : Word := 0
  step3 : Word := 0
  step4 : Word := 0
  step5 : Word := 0
deriving DecidableEq, Repr, Inhabited

/-- A stop asked of a queue, taken at its next beat (R160, R162). -/
inductive QStop where
  | none | cut | aborted | revoked
deriving DecidableEq, Repr, Inhabited

/-- One DMA queue: its registers and the transfer in progress (R148 to R164): `hold` is the holding register, `chained`
says that the descriptor in hand is not the chain's first. -/
structure Queue where
  regs : Prog := {}
  chainHead : BitVec 27 := 0
  state : QState := .idle
  code : Nat := 0
  late : Bool := false
  codeTick : Nat := 0
  events : BitVec 4 := 0
  bytes : BitVec 48 := 0
  bytesLatch : BitVec 48 := 0
  prog : Prog := {}
  pos : Nat := 0
  firstTick : Nat := 0
  started : Bool := false
  isOpen : Bool := false
  stop : QStop := .none
  pendCode : Option Nat := none
  descAt : Option Nat := none
  descLast : Bool := false
  descNext : BitVec 27 := 0
  chained : Bool := false
  hold : List Byte := []
  empty : Bool := false
deriving DecidableEq, Repr, Inhabited

/-- A FIFO: its bytes, oldest first, and the fill positions at which a block ends (R155, R156). -/
structure Fifo where
  data : List Byte := []
  marks : List Nat := []
deriving DecidableEq, Repr, Inhabited

/-- The DMA queues, keyed by activity number, and the FIFOs, keyed channel x 256 + number; receive FIFOs are those
of the port and channel. -/
structure Dma where
  queues : Tab Queue := []
  fifos : Tab Fifo := []
deriving DecidableEq, Repr, Inhabited

end Sys2Proof.Machine
end

