-- ==== Sys2Proof/Machine/PartsWork.lean ====
section
/-! DEFINITION. The parts of the state that spec/08 to spec/14 name: the engines, each activity's run, the leaves and
their map, the codec slots, the ingest ports, the result records and the verdict lines. -/

namespace Sys2Proof.Machine

/-- Leaf states (R244). -/
inductive LeafState where
  | free | live | spilling | spilled | fetching | lost | retired
deriving DecidableEq, Repr, Inhabited

/-- The tier that holds a leaf's content (R243 TIER). -/
inductive Tier where
  | loc | host | peer
deriving DecidableEq, Repr, Inhabited

/-- A leaf map entry (R243). -/
structure LeafEntry where
  state : LeafState := .free
  isList : Bool := false
  tier : Tier := .loc
  site : Nat := 0
  slot : Nat := 0
  gen : Nat := 0
  fmt : Nat := 0
  epoch : Bool := false
  tenant : Nat := 0
deriving DecidableEq, Repr, Inhabited

/-- What a snapshot records of one segment (R223). -/
structure SegSnap where
  seg : Nat := 0
  list : Nat := 0xFFFFFFFF
  committed : Nat := 0
  leaves : List (Nat × LeafEntry) := []
deriving DecidableEq, Repr, Inhabited

/-- A live snapshot: its publication number and segments (R223, R224); `cache` is false for the segment table of an op
without CACHE, which takes no snapshot. -/
structure Snapshot where
  cache : Bool := true
  pub : Nat := 0
  segs : List SegSnap := []
deriving DecidableEq, Repr, Inhabited

/-- One leaf that a LEAF_EDIT writes: its number, new entry and content (R252). -/
structure EditWrite where
  leaf : Nat := 0
  entry : LeafEntry := {}
  content : List Byte := []
deriving DecidableEq, Repr, Inhabited

/-- A use declaration (R263). -/
structure UseDecl where
  list : Nat := 0
  tick : Nat := 0
  activity : Nat := 0
deriving DecidableEq, Repr, Inhabited

/-- The checked plan of a LEAF_EDIT between its check and its record phase (R250): leaves written, freed and retired,
lists locked, uses declared, and the result records: STATUS and VALUE, where the spec states one. -/
structure EditPlan where
  writes : List EditWrite := []
  retire : List Nat := []
  frees : List Nat := []
  locks : List Nat := []
  uses : List UseDecl := []
  results : List (Nat × Option Nat) := []
  outAddr : Nat := 0
deriving DecidableEq, Repr, Inhabited

/-- An op in progress: where it stands, its snapshot or edit, and its outcome once it has one. `unit` counts finished
pairs, row groups, row blocks or sequences, `kt` the k-tiles of the pair in progress, `acc` its accumulators while the
engine holds them. -/
structure OpRun where
  seq : Nat := 0
  opcode : Nat := 0
  unit : Nat := 0
  kt : Nat := 0
  saved : Bool := false
  waiting : Bool := false
  loading : Bool := false
  snap : Option Snapshot := none
  edit : Option EditPlan := none
  acc : List Word := []
  code : Option Nat := none
deriving DecidableEq, Repr, Inhabited

/-- The flags of an activity's outputs in one tick (R312, R416). -/
structure OutFlags where
  late : Bool := false
  range : Bool := false
  concealed : Bool := false
deriving DecidableEq, Repr, Inhabited

/-- A reservation an activity holds now (R32). -/
structure Held where
  channel : Nat := 0
  cls : Nat := 0
  inst : Nat := 0
  opseq : Nat := 0xFF
deriving DecidableEq, Repr, Inhabited

/-- One activity's run: the tick whose work it does, its place in the op sequence, what has ended this tick, the
reservations it holds now, and its output flags of the open tick and of the last non-filler tick. -/
structure Act where
  workTick : Nat := 0
  seqNext : Nat := 0
  finished : Bool := false
  abandoned : Bool := false
  carry : Bool := false
  run : Option OpRun := none
  ended : List Nat := []
  held : List Held := []
  flags : OutFlags := {}
  flagsPrev : OutFlags := {}
deriving DecidableEq, Repr, Inhabited

/-- Registers of one engine, ME or AE (R189, R238). -/
structure EngineRegs where
  busy : Bool := false
  saved : Bool := false
  waiting : Bool := false
  activity : Nat := 0
  code : Nat := 0
  events : BitVec 11 := 0
  busyCyc : BitVec 48 := 0
  busyLatch : BitVec 48 := 0
deriving DecidableEq, Repr, Inhabited

/-- The engines of a channel: ME, AE and the event registers of its PST (R189, R211, R238, R279). -/
structure Engines where
  me : EngineRegs := {}
  ae : EngineRegs := {}
  detEvents : BitVec 3 := 0
  srvEvents : BitVec 5 := 0
deriving DecidableEq, Repr, Inhabited

/-- The content of a tier slot, sealed: whose leaf, generation and epoch it is (R260). -/
structure TierSlot where
  used : Bool := false
  leaf : Nat := 0
  gen : Nat := 0
  epoch : Bool := false
  tenant : Nat := 0
  content : List Byte := []
deriving DecidableEq, Repr, Inhabited

/-- A spill or fetch in progress (R261, R264). -/
structure Xfer where
  leaf : Nat := 0
  isFetch : Bool := false
  channel : Nat := 0
  tier : Tier := .host
  site : Nat := 0
  tierSlot : Nat := 0
  localSlot : Option Nat := none
  useTick : Nat := 0
deriving DecidableEq, Repr, Inhabited

/-- A shadow entry of the edit table (R253), published at the next boundary. -/
structure Shadow where
  used : Bool := false
  entry : LeafEntry := {}
deriving DecidableEq, Repr, Inhabited

/-- A slot retained until no older snapshot lives (R255). -/
structure Retained where
  channel : Nat := 0
  slot : Nat := 0
  pub : Nat := 0
deriving DecidableEq, Repr, Inhabited

/-- The leaves: the map, the edit table, locks (list, 1 once its edit is recorded), uses, retained slots, tiers, and
transfers in the order they run (R239 to R268). -/
structure Leaves where
  pubCount : Nat := 0
  events : BitVec 8 := 0
  map : Tab LeafEntry := []
  shadow : Tab Shadow := []
  locks : List (Nat × Nat) := []
  uses : List UseDecl := []
  lastUse : Tab Nat := []
  nextLeaf : Nat := 0
  retained : List Retained := []
  tiers : Tab TierSlot := []
  xfers : List Xfer := []
  fails : Tab Nat := []
  tierBad : List (Tier × Nat) := []
  spilling : BitVec 6 := 0
  freeLatch : Tab Nat := []
  occLatch : Tab Nat := []
  holdLatch : Tab Nat := []
deriving DecidableEq, Repr, Inhabited

/-- A codec slot's state (R300). -/
inductive CodecState where
  | closed | waitRap | running | suspended
deriving DecidableEq, Repr, Inhabited

/-- A picture record (R289). -/
structure PicRec where
  tick : Nat := 0
  pts : Nat := 0
  poc : Int := 0
  width : Nat := 0
  height : Nat := 0
  buf : Nat := 0
  flags : Nat := 0
  depth : Nat := 0
  qp : Nat := 0
  concBlocks : Nat := 0
  dropped : Nat := 0
  bytes : Nat := 0
deriving DecidableEq, Repr, Inhabited

/-- One codec slot (R281 to R300): `waiting` holds the access units or submitted pictures not yet coded, `held` decoded
pictures not yet due for output, with their samples, `fill` the bucket fill times MAX_FPS (R299), `cycles` the codec
cycles the picture in hand has used (R296), `tainted` that a picture since the last clean random-access picture was concealed (R294). -/
structure CodecSlot where
  state : CodecState := .closed
  isSetup : Bool := false
  isSealed : Bool := false
  encode : Bool := false
  events : BitVec 11 := 0
  pics : BitVec 48 := 0
  picsLatch : BitVec 48 := 0
  conc : BitVec 48 := 0
  work : DWord := 0
  out : DWord := 0
  workBytes : Nat := 0
  outBufs : Nat := 0
  backlogMax : Nat := 0
  idrPeriod : Nat := 0
  waiting : List (Nat × Nat) := []
  filled : Nat := 0
  nextBuf : Nat := 0
  held : List (PicRec × List Byte) := []
  recs : List PicRec := []
  dropped : Nat := 0
  fill : Nat := 0
  picIndex : Nat := 0
  forceIdr : Bool := false
  cycles : Nat := 0
  pool : Nat := 0
  tainted : Bool := false
  cutPending : Bool := false
deriving DecidableEq, Repr, Inhabited

/-- An ARP entry (R315). -/
structure ArpEntry where
  ip : Nat := 0
  mac : Option (BitVec 48) := none
  lastReply : Nat := 0
  lastRequest : Nat := 0
deriving DecidableEq, Repr, Inhabited

/-- One ingest port (R301, R319). -/
structure Port where
  mode : Nat := 0
  linkUp : Bool := false
  events : BitVec 12 := 0
  rxFrames : BitVec 48 := 0
  rxDrops : BitVec 48 := 0
  txRecords : BitVec 48 := 0
  rxFramesLatch : BitVec 48 := 0
  arp : List ArpEntry := []
deriving DecidableEq, Repr, Inhabited

/-- A flat-field and dark-field set (R307): identity when never written. -/
structure CalSet where
  width : Nat := 0
  dark : List Nat := []
  gain : List Nat := []
deriving DecidableEq, Repr, Inhabited

/-- A GVSP block in progress of one stream (port, source address, source UDP port, destination UDP port): the FLOW record
it follows, its parity and activity, its size and width, the payload size, the next packet, the bytes accounted for, its
calibration set, and whether it is dropped up to the next leader (R303 to R308). -/
structure GvBlock where
  key : List Nat := []
  rcd : NetFlow := {}
  odd : Bool := false
  activity : Nat := 0
  blockId : Nat := 0
  size : Nat := 0
  sizeX : Nat := 0
  payload : Nat := 0
  nextPacket : Nat := 1
  pos : Nat := 0
  table : Option CalSet := none
  skip : Bool := false
  isOpen : Bool := true
deriving DecidableEq, Repr, Inhabited

/-- Zero fill owed to a buffer by a flow, and whether a block ends behind it (R306). -/
structure Owed where
  flow : Nat := 0
  port : Nat := 0
  activity : Nat := 0
  bytes : Nat := 0
  mark : Bool := false
deriving DecidableEq, Repr, Inhabited

/-- A flow's RTP reception (R309, R310) and its counts (R319): the expected sequence number, packets
dropped since the last accepted one, the fragmented unit in hand or skipped. -/
structure FlowRun where
  rtpNext : Option Nat := none
  dropped : Nat := 0
  fuSkip : Bool := false
  fuOpen : Bool := false
  fuBytes : List Byte := []
  bytes : BitVec 48 := 0
  lost : Word := 0
  bytesLatch : BitVec 48 := 0
  lostLatch : Word := 0
deriving DecidableEq, Repr, Inhabited

/-- The PTP slave (R311). -/
structure Ptp where
  master : Option Nat := none
  candidates : List (Nat × List Nat) := []
  syncSeq : Nat := 0
  syncRx : Nat := 0
  syncCorr : Int := 0
  awaitFollow : Bool := false
  t1 : Int := 0
  t2 : Nat := 0
  delayTx : Nat := 0
  delaySeq : Nat := 0
  delayOpen : Bool := false
  pathDelay : Int := 0
  interval : Int := 0
deriving DecidableEq, Repr, Inhabited

/-- A result record waiting in a port's transmit FIFO (R314, R315); `tick` is the tick that a record built by RESULT_OUT
reports, its SEQ is filled in as it is sent. -/
structure TxRec where
  activity : Nat := 0
  bytes : List Byte := []
  tick : Option Nat := none
deriving DecidableEq, Repr, Inhabited

/-- The result counters of one RESULT record (R312, R314). -/
structure ResRun where
  seq : Word := 0
  lastTick : Option Nat := none
deriving DecidableEq, Repr, Inhabited

/-- The verdict lines (R316 to R319): the updates that RESULT_OUT armed, by activity (mask, bits); those begun, with the
time their lines change; and when VDL_VALID rises. -/
structure Vdl where
  lines : Byte := 0
  valid : Bool := false
  armed : List (Nat × Byte × Byte) := []
  begun : List (Nat × Byte × Byte) := []
  riseAt : Option Nat := none
deriving DecidableEq, Repr, Inhabited

/-- The ingest block: ports, flows, GVSP blocks, owed fill, receive buffers keyed 4 x activity + port, calibration sets in the block and those
committed but not yet in use, PTP, transmit FIFOs by port, result counters by activity, the verdict lines. -/
structure Ingest where
  ports : Tab Port := []
  flows : Tab FlowRun := []
  blocks : List GvBlock := []
  owed : List Owed := []
  rx : Tab Fifo := []
  cal : Tab CalSet := []
  calNext : Tab CalSet := []
  ptp : Ptp := {}
  tx : Tab (List TxRec) := []
  res : Tab ResRun := []
  vdl : Vdl := {}
deriving DecidableEq, Repr, Inhabited

end Sys2Proof.Machine
end

