-- ==== Sys2Proof/Machine/PartsLink.lean ====
section
/-! DEFINITION. The parts of the state that spec/15 to spec/17 name: the ring, the host interface, the security island
with its tenants, and the messages the block has sent. -/

namespace Sys2Proof.Machine

/-- Ring port states (R322). -/
inductive RPortState where
  | down | train | up | mgmt
deriving DecidableEq, Repr, Inhabited

/-- A ring frame held for replay or forwarded: its header fields and payload (R326). -/
structure RFrame where
  lane : Nat := 0
  dest : Nat := 0
  src : Nat := 0
  hops : Nat := 0
  typ : Nat := 0
  seq : Nat := 0
  payload : List Byte := []
  stomped : Bool := false
deriving DecidableEq, Repr, Inhabited

/-- One ring port (R322 to R340). -/
structure RPort where
  state : RPortState := .down
  narrow : Bool := false
  locked : Bool := false
  skip : Nat := 0
  farMember : Nat := 0
  farRing : Nat := 0
  farPort : Nat := 0
  farAcc : List Byte := []
  events : BitVec 10 := 0
  delay : BitVec 16 := 0
  replays : BitVec 48 := 0
  retrains : BitVec 48 := 0
  frames : BitVec 48 := 0
  framesLatch : BitVec 48 := 0
  nextSeq : Nat := 0
  rxSeq : Nat := 0
  replay : List RFrame := []
  replaySeq : Nat := 0
  replayRun : Nat := 0
  retraining : Bool := false
  reported : Bool := false
deriving DecidableEq, Repr, Inhabited

/-- A LINK_REPORT the leader holds (R325). -/
structure LinkReport where
  seen : Bool := false
  east : Nat := 0
  west : Nat := 0
  eastSkip : Nat := 0
  westSkip : Nat := 0
deriving DecidableEq, Repr, Inhabited

/-- A serve slot of a lender (R335). -/
structure ServeSlot where
  used : Bool := false
  member : Nat := 0
  tenant : Nat := 0
  coldCount : Nat := 0
  gen : Nat := 0
  content : List Byte := []
deriving DecidableEq, Repr, Inhabited

/-- An incoming 17-frame transfer on a lane: a spill write at the lender or read data at the borrower. -/
structure LaneRx where
  active : Bool := false
  member : Nat := 0
  slot : Nat := 0
  tenant : Nat := 0
  discard : Bool := false
  isRead : Bool := false
  frames : Nat := 0
  data : List Byte := []
deriving DecidableEq, Repr, Inhabited

/-- The ring controller (R320 to R340). Ports are keyed 0 RING_E and 1 RING_W; `laneDir` is 0 for a lane without a path,
1 east, 2 west (R333); `farCold` the COLD_COUNT each member last gave. -/
structure Ring where
  ports : Tab RPort := []
  forceBypass : Bool := false
  bypassOpen : Bool := false
  absent : BitVec 6 := 0
  suspect : BitVec 6 := 0
  reports : Tab LinkReport := []
  coldCount : Nat := 0
  farCold : Tab Nat := []
  serve : Tab ServeSlot := []
  serveFill : Nat := 0
  laneRx : Tab LaneRx := []
  laneDir : Tab Nat := []
deriving DecidableEq, Repr, Inhabited

/-- One MSI-X vector of a function (R343). -/
structure MsixVec where
  masked : Bool := false
  pend : Bool := false
  cond : Bool := false
deriving DecidableEq, Repr, Inhabited

/-- A host spill window (R347, R348). -/
structure HostWin where
  base : BitVec 52 := 0
  slots : BitVec 24 := 0
  enabled : Bool := false
  fault : Bool := false
deriving DecidableEq, Repr, Inhabited

/-- TDI states (R355, R359). -/
inductive TdiState where
  | unlocked | locked | run | error
deriving DecidableEq, Repr, Inhabited

/-- A TDI with what its lock fixed (R354, R355). -/
structure Tdi where
  state : TdiState := .unlocked
  nonce : List Byte := []
  session : Nat := 0
  noFwUpdate : Bool := false
  stopOwed : Bool := false
deriving DecidableEq, Repr, Inhabited

/-- Per-function PCI configuration that rules read, and the VF's event registers (R345, R351, R355). -/
structure Func where
  memSpace : Bool := false
  busMaster : Bool := false
  events : BitVec 4 := 0
  eventsEn : BitVec 4 := 0
deriving DecidableEq, Repr, Inhabited

/-- An IDE stream: whether Secure, the key set in use, the key sets delivered (R352). -/
structure IdeStream where
  secure : Bool := false
  keySet : Bool := false
  keys0 : Bool := false
  keys1 : Bool := false
deriving DecidableEq, Repr, Inhabited

/-- An SPDM session (R356); `cert` names the requester certificate it was opened with. -/
structure Session where
  isOpen : Bool := false
  cert : Nat := 0
  overMctp : Bool := false
  keyGen : Nat := 0
  lockedVf : Nat := 0
  lastBeat : Nat := 0
deriving DecidableEq, Repr, Inhabited

/-- The host interface (R341 to R359). Functions are keyed 0 PF and k VF k; streams 0 Link and k selective of VF k. -/
structure HostIf where
  linkUp : Bool := false
  speed : Nat := 0
  width : Nat := 0
  numVfs : Nat := 0
  events : BitVec 9 := 0
  bindIrq : Bool := false
  irqEn : BitVec 11 := 0
  msix : Tab MsixVec := []
  funcs : Tab Func := []
  wins : Tab HostWin := []
  tdis : Tab Tdi := []
  streams : Tab IdeStream := []
  sessions : Tab Session := []
  cplTimeoutUs : Nat := 10000
  eid : Nat := 0
deriving DecidableEq, Repr, Inhabited

/-- Key slot states (R368). -/
inductive SlotState where
  | empty | live | draining | retired
deriving DecidableEq, Repr, Inhabited

/-- A key slot: its state, the serial that names its drawn keys, and the boundaries it has been RETIRED for. -/
structure KeySlot where
  state : SlotState := .empty
  serial : Nat := 0
  age : Nat := 0
deriving DecidableEq, Repr, Inhabited

/-- Tenant states (R388). -/
inductive TenantState where
  | none | admitted | rotating | removing | reclaiming
deriving DecidableEq, Repr, Inhabited

/-- A consent of a tenant (R385). -/
structure Consent where
  inForce : Bool := false
  pend : Bool := false
  ending : Bool := false
  expires : Nat := 0
deriving DecidableEq, Repr, Inhabited

/-- A removal in progress (R378). -/
structure Removal where
  start : Nat := 0
  boundaries : Nat := 0
  fenced : Bool := false
deriving DecidableEq, Repr, Inhabited

/-- A weight load in progress (R374). -/
structure WLoad where
  tenant : Nat := 0
  modelId : Nat := 0
  srcRegion : Nat := 0
  srcOffset : Nat := 0
  dstRegion : Nat := 0
  dstOffset : Nat := 0
  firstChunk : Nat := 0
  length : Nat := 0
  done : Nat := 0
  activity : Nat := 0
deriving DecidableEq, Repr, Inhabited

/-- One tenant's state in the KSI; key 0 is the module. -/
structure Tenant where
  state : TenantState := .none
  admitPend : Bool := false
  rotatePend : Bool := false
  writeEpoch : Bool := false
  models : Tab (List Byte) := []
  lastLoad : Nat := 0
  load : Option WLoad := none
  nonce : List Byte := []
  debugging : Consent := {}
  counters : Consent := {}
  removal : Option Removal := none
  resealLatch : Nat := 0
deriving DecidableEq, Repr, Inhabited

/-- The region table entry of a sealed region (R362). -/
structure RegionState where
  epoch : Bool := false
  gen : BitVec 16 := 1
  cursor : Nat := 0
deriving DecidableEq, Repr, Inhabited

/-- A measurement accumulator (R384): 64 bytes, zero after reset, and its entry count. -/
structure Measure where
  acc : List Byte := List.replicate 64 0
  count : Nat := 0
deriving DecidableEq, Repr, Inhabited

/-- Life-cycle states (R386). -/
inductive LifeCycle where
  | blank | provisioned | field | returned | scrapped
deriving DecidableEq, Repr, Inhabited

/-- The Kistiush security island (R360 to R389). -/
structure Ksi where
  lifecycle : LifeCycle := .field
  lcCount : Nat := 0
  slots : Tab KeySlot := []
  tenants : Tab Tenant := []
  events : BitVec 7 := 0
  orphans : BitVec 48 := 0
  poisons : BitVec 48 := 0
  lastRemoval : Nat := 0
  measures : Tab Measure := []
  vitrine : Vitrine := {}
  slot1Chain : Bool := false
deriving DecidableEq, Repr, Inhabited

/-- The GDDR6 payload of the channels: bytes keyed channel x 2^35 + payload address, the region table by region,
and the granules written since they became VIRGIN, keyed channel x 2^14 + granule (R362, R363). -/
structure Gddr where
  mem : List Host.Cell := []
  regions : Tab RegionState := []
  touched : Tab Bool := []
deriving DecidableEq, Repr, Inhabited

/-- The kinds of messages the block sends. -/
inductive OutKind where
  | ring | eth | msix | completion | hostWrite | hostRead | tdisp | spdm | mctp | tray | ksi | pciError | ide | pulse
deriving DecidableEq, Repr, Inhabited

/-- A message the block has sent: its kind, the port, function or transport it left by, its type or code, its status,
and its bytes. -/
structure Out where
  kind : OutKind := .ring
  port : Nat := 0
  code : Nat := 0
  status : Nat := 0
  bytes : List Byte := []
deriving DecidableEq, Repr, Inhabited

/-- The kinds of accession-record entries the rules name. -/
inductive AccKind where
  | coldBind | rebind | integrity | removal | tamper | powerDip | reset | image | serialFloor | profile | dipLog
  | takeover | suspect | digest | spot | test | mark | stress | calib | health | authKey | lifecycle | fallback | ecc | swap | trip | other
deriving DecidableEq, Repr, Inhabited

/-- An entry of the accession record: its kind and the numbers the rule asks it to hold. -/
structure AccEntry where
  kind : AccKind := .other
  vals : List Nat := []
  bytes : List Byte := []
deriving DecidableEq, Repr, Inhabited

end Sys2Proof.Machine
end

