-- ==== Sys2Proof/Machine/PartsSys.lean ====
section
/-! DEFINITION. The parts of the state that spec/18 to spec/24 name: counters, the conservator, the checking services,
power, the redundant pair, and start-up with the flash devices, the fuses and the pins. -/

namespace Sys2Proof.Machine

/-- One event counter (R390 to R397), with the snapshot of the last boundary. -/
structure Counter where
  value : BitVec 48 := 0
  ovf : Bool := false
  clearPend : Bool := false
  snapValue : BitVec 48 := 0
  snapOvf : Bool := false
  snapGated : Bool := false
deriving DecidableEq, Repr, Inhabited

/-- One sensor (R403, R404, R412). The factory gain and offset are numerators over 2^16, and so is `factory`; `plausSince`
is when plausible readings began. -/
structure Sensor where
  value : Int := 0
  factory : Int := 0
  valid : Bool := false
  fault : Bool := false
  gainF : Int := 65536
  offsetF : Int := 0
  lastRaw : Int := 0
  sameSince : Nat := 0
  pairAtSame : Int := 0
  plausSince : Option Nat := none
deriving DecidableEq, Repr, Inhabited

/-- A trim entry (R400); the identity when never written. -/
structure Trim where
  gain : Int := 0
  offset : Int := 0
deriving DecidableEq, Repr, Inhabited

/-- Health states (R411). -/
inductive HealthState where
  | ok | watch | replace
deriving DecidableEq, Repr, Inhabited

/-- A component's health (R410, R411). -/
structure Health where
  score : Nat := 1000
  state : HealthState := .ok
  pinned : Bool := false
deriving DecidableEq, Repr, Inhabited

/-- Voltages of one pair of profile and domain (R399, R407). -/
structure Rail where
  vFuse : Int := 0
  guard : Int := 0
  vMax : Int := 0
  vSet : Int := 0
  vNext : Option Int := none
deriving DecidableEq, Repr, Inhabited

/-- The conservator (R399 to R413). Rails are keyed profile x 64 + domain; `planned` says that a replan completed since reset,
`replanFrom` and `lastDay` place the timed replans in powered time, `history` is oldest first, `uncorr` holds the devices of
uncorrectable errors with their powered times. -/
structure Cons where
  replanBusy : Bool := false
  planned : Bool := false
  ceiling : Nat := 0
  ceilingNext : Option Nat := none
  projHours : Word := 0xFFFFFFFF
  events : BitVec 8 := 0
  sensors : Tab Sensor := []
  trims : Tab Trim := []
  trimsNext : Option (Tab Trim) := none
  rails : Tab Rail := []
  margins : Tab Int := []
  marginDoms : Tab Nat := []
  poweredNs : Nat := 0
  replanFrom : Nat := 0
  lastDay : Nat := 0
  history : List (Nat × Int) := []
  health : Tab Health := []
  uncorr : List (Nat × Nat) := []
deriving DecidableEq, Repr, Inhabited

/-- Unit states (R423). -/
inductive UnitHealth where
  | healthy | suspect | benched | cleared
deriving DecidableEq, Repr, Inhabited

/-- One testable unit (R419 to R425, R434). `plan` is the state the running plan goes by. -/
structure UnitRun where
  state : UnitHealth := .healthy
  held : Bool := false
  benches : Nat := 0
  streak : Nat := 0
  clean : Nat := 0
  failed : Nat := 0
  runs : Nat := 0
  planBenched : Bool := false
  stress : BitVec 16 := 0
  eventTick : Option Nat := none
deriving DecidableEq, Repr, Inhabited

/-- The field-test run in progress (R420). -/
structure TestRun where
  unit : Nat := 0
  segments : Nat := 0
  ticks : Nat := 0
  seed : List Byte := []
  inSegment : Bool := false
deriving DecidableEq, Repr, Inhabited

/-- A spot sample being recomputed (R417, R418). -/
structure SpotRun where
  source : Nat := 0
  checker : Nat := 0
  activity : Nat := 0
  seq : Nat := 0
  ticks : Nat := 0
deriving DecidableEq, Repr, Inhabited

/-- Copy states (R433). -/
inductive CopyHealth where
  | ok | suspect | reloading | reloaded
deriving DecidableEq, Repr, Inhabited

/-- One weight copy (R426 to R429): its state, the last final digest and its round's tick, the tick of a round in progress, and
the boundaries since a digest that is not decided became final. -/
structure CopyRun where
  state : CopyHealth := .ok
  alone : Bool := false
  digest : List Byte := []
  digestTick : Nat := 0
  round : Option Nat := none
  boundaries : Option Nat := none
deriving DecidableEq, Repr, Inhabited

/-- A DIGEST message held, own or received (R427, R467). -/
structure DigestMsg where
  sender : Nat := 0
  group : Nat := 0
  kind : Nat := 0
  tick : Nat := 0
  digest : List Byte := []
deriving DecidableEq, Repr, Inhabited

/-- The checking services (R414 to R434); `loadLost` holds the regions of which the log of weight loads has lost an
entry (R428). -/
structure Check where
  maintenance : Bool := false
  maintPend : Bool := false
  stress : Bool := false
  testing : Bool := false
  unit : Nat := 0
  events : BitVec 7 := 0
  units : Tab UnitRun := []
  run : Option TestRun := none
  spots : List SpotRun := []
  spotCount : Tab Nat := []
  copies : Tab CopyRun := []
  digests : List DigestMsg := []
  loadLog : List WLoad := []
  loadLost : Tab Bool := []
deriving DecidableEq, Repr, Inhabited

/-- Power, clocks and profiles (R435 to R453): `decided` and `decidedShed` hold the profiles and the shed channels chosen for
the coming boundaries, the next first; `warnOn` and `hotOn` are the latched steps of the thermal ladder and the `...At` fields say when each was last met; `capShed`,
`critShed` and `modShed` are the channels shed for a cap, for their own sites and for a module-level site. -/
structure Power where
  profile : Nat := 0
  decided : List Nat := []
  decidedShed : List (BitVec 6) := []
  warnOn : Bool := false
  hotOn : Bool := false
  warnAt : Nat := 0
  hotAt : Nat := 0
  critAt : Tab Nat := []
  capFail : Bool := false
  safe : Bool := false
  fast : Bool := false
  throttle : Bool := false
  pcapPin : Bool := false
  flowLow : Bool := false
  flowSince : Option Nat := none
  modHot : Bool := false
  shed : BitVec 6 := 0
  capShed : BitVec 6 := 0
  critShed : BitVec 6 := 0
  modShed : BitVec 6 := 0
  events : BitVec 8 := 0
  reqProfile : Nat := 0
  cap : Nat := 0
  capNext : Option Nat := none
  fastTarget : Nat := 0
  domains : Tab Nat := []
  ing : Bool := false
  dbg : Bool := false
  beating : Bool := false
  lastBeat : Nat := 0
  trayLost : Bool := false
  dipLast : DWord := 0
  dipCount : Word := 0
  droopCount : BitVec 48 := 0
  dipStart : Nat := 0
  dipMin : Nat := 0
  droops : Tab Bool := []
  droopCycles : Tab Nat := []
  degraded : Bool := false
  degradedPrev : Bool := false
deriving DecidableEq, Repr, Inhabited

/-- Ring roles of a pair (R458). -/
inductive PairRole where
  | standby | claiming | active
deriving DecidableEq, Repr, Inhabited

/-- Where a module stands in its admission (R466). -/
inductive Admit where
  | pending | shadow | admitted
deriving DecidableEq, Repr, Inhabited

/-- The redundant pair and module admission (R454 to R471). Line fields are true when asserted. `peerReleased`,
`ownAsserted` are time-base values, `fitSince`, `standbySince`, `revertAt`, `swapBase` and `activeSince` boundary launch
times; `decideAt` holds (tick, tick in which its own last digest became final). -/
structure Pair where
  role : PairRole := .standby
  cause : BitVec 4 := 0
  pin : Bool := false
  ownBus : Bool := false
  peer : Bool := false
  peerReleased : Nat := 0
  ownAsserted : Nat := 0
  absent : BitVec 6 := 0
  suspect : BitVec 6 := 0
  admittedSet : BitVec 6 := 0
  events : BitVec 8 := 0
  admission : Admit := .pending
  admitCount : Nat := 0
  admitCountLatch : Nat := 0
  unchanged : Nat := 0
  firstMarker : Option Nat := none
  lastMarker : Option Nat := none
  decideAt : List (Nat × Nat) := []
  revertWait : Nat := 0
  lastTakeover : Nat := 0
  everActive : Bool := false
  claimedFit : Bool := false
  claimAbsent : Nat := 0
  activeSince : Option Nat := none
  swapBase : Option Nat := none
  swapReleased : Option Nat := none
  fitSince : Option Nat := none
  standbySince : Option Nat := none
  revertAt : Option Nat := none
  byRevert : Bool := false
  releaseAt : Option Nat := none
  portsDown : BitVec 4 := 0
deriving DecidableEq, Repr, Inhabited

/-- Start stages (R492). -/
inductive Stage where
  | rom | images | training | binding | ringWait | running | unbound | recovery
deriving DecidableEq, Repr, Inhabited

/-- Image transfer states (R493). -/
inductive ImgState where
  | idle | erasing | opened | verifying | verified | failed
deriving DecidableEq, Repr, Inhabited

/-- The image transfer (R485 to R493); `committed` says that a verified CAL image has been stored. -/
structure Image where
  buf : Tab Byte := []
  length : Word := 0
  offset : Word := 0
  blkLen : BitVec 13 := 0
  crc : Word := 0
  state : ImgState := .idle
  busy : Bool := false
  result : Nat := 0
  owner : Nat := 0
  typ : Nat := 0
  openLen : Nat := 0
  blocks : List Nat := []
  data : Tab Byte := []
  detail : Nat := 0
  dest : Bool := false
  committed : Bool := false
deriving DecidableEq, Repr, Inhabited

/-- A firmware copy in flash (R478 to R482). -/
structure FwCopy where
  bundle : List Byte := []
  selectable : Bool := true
  rejected : Bool := false
deriving DecidableEq, Repr, Inhabited

/-- A settings format area (R491). -/
structure Settings where
  used : Bool := false
  format : Nat := 0
  trims : Tab Trim := []
  cal : Tab CalSet := []
deriving DecidableEq, Repr, Inhabited

/-- What survives a module reset: flash, fuses and the AON latch (R472, R478). -/
structure Persist where
  bootSel : Bool := false
  trial : Bool := false
  tries : Nat := 0
  copyA : FwCopy := {}
  copyB : FwCopy := {}
  slotA : List Byte := []
  slotB : List Byte := []
  slotAOk : Bool := true
  slotBOk : Bool := true
  settings0 : Settings := {}
  settings1 : Settings := {}
  confirmedFormat : Nat := 0
  svnFloor : Nat := 0
  fwKeysRevoked : BitVec 2 := 0
  cause : Nat := 0
  later : Nat := 0
  lastBoundA : Bool := false
  lastBoundB : Bool := false
  accession : List Byte := List.replicate 16 0
  build : BitVec 24 := 0
  line : BitVec 8 := 1
  tWarn : Nat := 950
  tHot : Nat := 1000
  tCrit : Nat := 1050
  tTrip : Nat := 1150
  dipMin : Nat := 0
  record : List AccEntry := []
deriving DecidableEq, Repr, Inhabited

/-- Start-up: the stage, whether a reset is held and what its hold waits for (the input, or after a thermal trip MOD_RESET_N or a power
cycle), the running copy, straps and supply pins (R472 to R484, R496). -/
structure Start where
  stage : Stage := .rom
  hold : Bool := false
  rstPin : Bool := false
  recoverNext : Bool := false
  waitInput : Bool := false
  tripHold : Bool := false
  tripFreed : Bool := false
  fwCopy : Bool := false
  fwFallback : Bool := false
  bindDone : Bool := false
  bindTime : Nat := 0
  slotId : Nat := 0
  ringSel : Bool := false
  priN : Bool := false
  p48 : Bool := true
  aux : Bool := true
  perst : Bool := false
deriving DecidableEq, Repr, Inhabited

end Sys2Proof.Machine
end

