-- ==== Sys2Proof/Machine/State.lean ====
section
/-! DEFINITION. The whole state of the block, the two stop types, and the state right after reset. -/

namespace Sys2Proof.Machine

/-- The block has no fault of its own: every outcome the spec describes, errors and refused accesses included, is a
next state. No constructor, so no command faults. -/
inductive Fault
deriving DecidableEq, Repr

/-- Reasons a command is not run. -/
inductive Refusal where
  /-- Raised by `exec` for a command that has no meaning yet. Safe: the model stops. -/
  | notModelled (mnemonic : String)
deriving DecidableEq, Repr

/-- The state of the block: plain data, one part for each subject of the spec. -/
structure State where
  /-- the time base and its discipline (spec/02) -/
  tb : TimeBase := {}
  /-- the tick and the ring's tick protocol (spec/02) -/
  tick : Tick := {}
  /-- the binding, running and staged, and its registers (spec/03) -/
  bind : Bind := {}
  /-- the register bus: pending protected writes, read mailboxes, REG_ERR, the BAR4 window (spec/05) -/
  bus : Bus := {}
  /-- mailbox channels, doorbells and role generations (spec/05) -/
  mbx : Mbx := {}
  /-- scratchpad contents, loans and modes (spec/06) -/
  spad : Spad := {}
  /-- DMA queues and FIFOs (spec/07) -/
  dma : Dma := {}
  /-- each activity's run, by activity number (spec/02, spec/04) -/
  acts : Tab Act := []
  /-- engine registers by channel (spec/08 to spec/12) -/
  engs : Tab Engines := []
  /-- leaves, their map, spill and prefetch (spec/11) -/
  leaf : Leaves := {}
  /-- codec slots, keyed 8 x channel + slot (spec/13) -/
  codec : Tab CodecSlot := []
  /-- ingest ports, flows, result records, verdict lines (spec/14) -/
  ing : Ingest := {}
  /-- the ring controller (spec/15) -/
  ring : Ring := {}
  /-- the host interface (spec/16) -/
  host : HostIf := {}
  /-- the security island, key slots and tenants (spec/17) -/
  ksi : Ksi := {}
  /-- GDDR6 contents and the region table (spec/17) -/
  gddr : Gddr := {}
  /-- event counters: 16 x channel + index, module counters from 96 (spec/18) -/
  cnt : Tab Counter := []
  /-- the conservator (spec/19) -/
  cons : Cons := {}
  /-- range checks, tests, copies and units (spec/20) -/
  chk : Check := {}
  /-- power, clocks and profiles (spec/21) -/
  pwr : Power := {}
  /-- the redundant pair and admission (spec/22) -/
  pair : Pair := {}
  /-- start stage, straps and supply pins (spec/23, spec/24) -/
  start : Start := {}
  /-- the image transfer (spec/23) -/
  img : Image := {}
  /-- flash, fuses and the AON latch: what a module reset keeps (spec/23) -/
  keep : Persist := {}
  /-- messages the block has sent, newest first (the model's own observable) -/
  sent : List Out := []
  /-- the queue of waiting commands, first in first out (the block interface) -/
  pending : List Instr := []
  /-- names the next free value (the MODEL's own field, log 2) -/
  freeCount : Nat := 0
deriving DecidableEq, Repr, Inhabited

/-- The block right after reset: every field at the value its part names, the queue empty (spec/23 R472 to R475 and the
reset columns of every register table; values the spec does not give are those of assumption log 4). -/
def State.reset : State := {}

/-- Update the time base and its discipline. -/
def State.onTb (s : State) (f : TimeBase → TimeBase) : State := { s with tb := f s.tb }

/-- Update the tick and the ring's tick protocol. -/
def State.onTick (s : State) (f : Tick → Tick) : State := { s with tick := f s.tick }

/-- Update the binding, running and staged, and its registers. -/
def State.onBind (s : State) (f : Bind → Bind) : State := { s with bind := f s.bind }

/-- Update the register bus: pending protected writes, read mailboxes, REG_ERR, the BAR4 window. -/
def State.onBus (s : State) (f : Bus → Bus) : State := { s with bus := f s.bus }

/-- Update mailbox channels, doorbells and role generations. -/
def State.onMbx (s : State) (f : Mbx → Mbx) : State := { s with mbx := f s.mbx }

/-- Update scratchpad contents, loans and modes. -/
def State.onSpad (s : State) (f : Spad → Spad) : State := { s with spad := f s.spad }

/-- Update DMA queues and FIFOs. -/
def State.onDma (s : State) (f : Dma → Dma) : State := { s with dma := f s.dma }

/-- Update each activity's run, by activity number. -/
def State.onActs (s : State) (f : (Tab Act) → (Tab Act)) : State := { s with acts := f s.acts }

/-- Update engine registers by channel. -/
def State.onEngs (s : State) (f : (Tab Engines) → (Tab Engines)) : State := { s with engs := f s.engs }

/-- Update leaves, their map, spill and prefetch. -/
def State.onLeaf (s : State) (f : Leaves → Leaves) : State := { s with leaf := f s.leaf }

/-- Update codec slots, keyed 8 x channel + slot. -/
def State.onCodec (s : State) (f : (Tab CodecSlot) → (Tab CodecSlot)) : State := { s with codec := f s.codec }

/-- Update ingest ports, flows, result records, verdict lines. -/
def State.onIng (s : State) (f : Ingest → Ingest) : State := { s with ing := f s.ing }

/-- Update the ring controller. -/
def State.onRing (s : State) (f : Ring → Ring) : State := { s with ring := f s.ring }

/-- Update the host interface. -/
def State.onHost (s : State) (f : HostIf → HostIf) : State := { s with host := f s.host }

/-- Update the security island, key slots and tenants. -/
def State.onKsi (s : State) (f : Ksi → Ksi) : State := { s with ksi := f s.ksi }

/-- Update GDDR6 contents and the region table. -/
def State.onGddr (s : State) (f : Gddr → Gddr) : State := { s with gddr := f s.gddr }

/-- Update event counters: 16 x channel + index, module counters from 96. -/
def State.onCnt (s : State) (f : (Tab Counter) → (Tab Counter)) : State := { s with cnt := f s.cnt }

/-- Update the conservator. -/
def State.onCons (s : State) (f : Cons → Cons) : State := { s with cons := f s.cons }

/-- Update range checks, tests, copies and units. -/
def State.onChk (s : State) (f : Check → Check) : State := { s with chk := f s.chk }

/-- Update power, clocks and profiles. -/
def State.onPwr (s : State) (f : Power → Power) : State := { s with pwr := f s.pwr }

/-- Update the redundant pair and admission. -/
def State.onPair (s : State) (f : Pair → Pair) : State := { s with pair := f s.pair }

/-- Update start stage, straps and supply pins. -/
def State.onStart (s : State) (f : Start → Start) : State := { s with start := f s.start }

/-- Update the image transfer. -/
def State.onImg (s : State) (f : Image → Image) : State := { s with img := f s.img }

/-- Update flash, fuses and the AON latch: what a module reset keeps. -/
def State.onKeep (s : State) (f : Persist → Persist) : State := { s with keep := f s.keep }

/-- Update messages the block has sent, newest first. -/
def State.onSent (s : State) (f : (List Out) → (List Out)) : State := { s with sent := f s.sent }

/-- Update the queue of waiting commands, first in first out. -/
def State.onPending (s : State) (f : (List Instr) → (List Instr)) : State := { s with pending := f s.pending }

/-- Update names the next free value. -/
def State.onFreeCount (s : State) (f : Nat → Nat) : State := { s with freeCount := f s.freeCount }

end Sys2Proof.Machine
end

