-- ==== Sys2Proof/Machine/Clock.lean ====
section
/-! DEFINITION. The passing of time while no command waits. -/

namespace Sys2Proof.Machine

/-- Whether the module is out of reset and has 48 V: the time base runs (R21, R472, R473). -/
def State.live (s : State) : Bool := s.start.p48 && !s.start.hold

/-- One nanosecond passes: the time base counts while the module is powered and out of reset (R21), and powered time counts
while 48 V is present (R407). -/
def idle (s : State) : State :=
  if s.live then (s.onTb fun t => { t with time := t.time + 1 }).onCons fun c => { c with poweredNs := c.poweredNs + 1 }
  else if s.start.p48 then s.onCons fun c => { c with poweredNs := c.poweredNs + 1 }
  else s

end Sys2Proof.Machine
end

