-- ==== Sys2Proof/Config.lean ====
section
/-! DEFINITION. What the spec leaves open or refers to other standards for: free values (opaque constants, so no proof
can see them) and functions whose results the spec fixes only by naming a method or a standard. -/

namespace Sys2Proof

/-- A free byte: key material, nonces, random draws and bytes whose layout or content the spec does not state; the
argument is the state's `freeCount` (log 2). -/
opaque Config.freeByte : Nat → Byte

/-- The fixed method for e^x on FP32, R204; special arguments are settled where it is used (log 5). -/
opaque Config.expBits : Word → Word

/-- The fixed method for ln on FP32, R415 (log 5). -/
opaque Config.lnBits : Word → Word

/-- The fixed method for the reciprocal square root on FP32, R271 (log 5). -/
opaque Config.rsqrtBits : Word → Word

/-- The fixed method for SILU on FP32, R177 (log 5). -/
opaque Config.siluBits : Word → Word

/-- The fixed method for GELU_TANH on FP32, R177 (log 5). -/
opaque Config.geluBits : Word → Word

/-- The four bits written for a NaN element of an MXFP4 output, a format that has no NaN and for which R178 states only the block's
scale (log 44). -/
opaque Config.fp4Nan : BitVec 4

/-- What `max` and `min` of the detection ops give when an argument is NaN (R204, R209), and whether one score stands before another
when either is NaN (R205, R208, R272): the spec states none of these (log 45). -/
opaque Config.boxMaxNan : Word → Word → Word
opaque Config.boxMinNan : Word → Word → Word
opaque Config.scoreBefore : Word → Word → Bool

/-- The token of a choice that leaves no candidate, from the sequence record and the position (R272, log 45). -/
opaque Config.noCandidate : List Byte → Nat → Nat

/-- Whether a pure Ed448 signature (RFC 8032) verifies: key, context, message, signature (R63, R385, R479; log 6). -/
opaque Config.ed448Verify : List Byte → List Byte → List Byte → List Byte → Bool

/-- Opening one AES-256-GCM chunk: key, IV, ciphertext, tag; none when the tag fails (R373; log 6). -/
opaque Config.gcmOpen : List Byte → List Byte → List Byte → List Byte → Option (List Byte)

/-- The Apauryn public keys held in ROM by header KEY code (R479; log 6). -/
opaque Config.romKey : Nat → List Byte

/-- The MCTP endpoint UUID, derived from the accession number in a way the spec does not state (R357; log 35). -/
opaque Config.endpointUuid : List Byte → List Byte

/-- The Ed448 key of the requester certificate of an SPDM session, which the session's peer brings (R385; log 6). -/
opaque Config.requesterKey : Nat → List Byte

/-- The widths in bytes at which the unit number and the run count enter a test seed, which the spec does not state (R422;
log 31). -/
opaque Config.seedUnitBytes : Nat
opaque Config.seedRunBytes : Nat

/-- A port's MAC address: derived from the fused identity in a way the spec does not state (R301; log 32). -/
opaque Config.portMac : List Byte → Nat → BitVec 48

/-- Whether a port that trained at x8 after so many retrains uses lanes 8 to 15 (R320; log 36). -/
opaque Config.narrowUpper : Nat → Nat → Bool

end Sys2Proof
end

