-- ==== Sys2Proof/Machine/Bytes.lean ====
section
/-! DEFINITION. Byte strings: little-endian fields (R4), the CRCs the spec names and SHAKE256 and SHA3-512 (FIPS 202). -/

namespace Sys2Proof.Machine

/-- The byte at an offset; 0 beyond the end. -/
def byteAt (b : List Byte) (o : Nat) : Byte := b.getD o 0

/-- An unsigned byte field. -/
def u8 (b : List Byte) (o : Nat) : Nat := (byteAt b o).toNat

/-- A little-endian field of `n` bytes. -/
def leField (b : List Byte) (o : Nat) : Nat → Nat
  | 0 => 0
  | n + 1 => u8 b o + 256 * leField b (o + 1) n

/-- Little-endian 16-bit field. -/
def u16 (b : List Byte) (o : Nat) : Nat := leField b o 2

/-- Little-endian 32-bit field. -/
def u32 (b : List Byte) (o : Nat) : Nat := leField b o 4

/-- Little-endian 64-bit field. -/
def u64 (b : List Byte) (o : Nat) : Nat := leField b o 8

/-- A big-endian field of `n` bytes (network byte order, R4). -/
def beField (b : List Byte) (o n : Nat) : Nat :=
  (List.range n).foldl (fun acc i => acc * 256 + u8 b (o + i)) 0

/-- The `n` bytes from an offset. -/
def slice (b : List Byte) (o n : Nat) : List Byte := (b.drop o).take n

/-- Exactly `n` bytes from an offset, zero beyond the end. -/
def sliceZ (b : List Byte) (o n : Nat) : List Byte := (List.range n).map fun i => byteAt b (o + i)

/-- A number as `n` little-endian bytes. -/
def toLe : Nat → Nat → List Byte
  | 0, _ => []
  | n + 1, v => BitVec.ofNat 8 v :: toLe n (v / 256)

/-- A number as `n` big-endian bytes. -/
def toBe (n v : Nat) : List Byte := (toLe n v).reverse

/-- Whether every byte of a range is zero. -/
def zeroRange (b : List Byte) (o n : Nat) : Bool := (slice b o n).all (· == 0)

/-- A signed value from an unsigned field of `w` bits. -/
def signedOf (w v : Nat) : Int := if v < 2 ^ (w - 1) then (v : Int) else (v : Int) - 2 ^ w

/-- A signed value as an unsigned field of `w` bits. -/
def unsignedOf (w : Nat) (v : Int) : Nat := (v % (2 ^ w : Int)).toNat

/-- ASCII text as bytes. -/
def ascii (t : String) : List Byte := t.toList.map fun c => BitVec.ofNat 8 c.toNat

/-- One bit of a reflected CRC. -/
def crcStep32 (poly : Word) (c : Word) : Word := if c.getLsbD 0 then (c >>> 1) ^^^ poly else c >>> 1

/-- Apply a function a number of times. -/
def iter {α : Type} (f : α → α) : Nat → α → α
  | 0, x => x
  | n + 1, x => iter f n (f x)

/-- CRC-32C (R486): reflected, initial value and final XOR all ones. -/
def crc32c (b : List Byte) : Word :=
  (b.foldl (fun c x => iter (crcStep32 0x82F63B78) 8 (c ^^^ x.setWidth 32)) 0xFFFFFFFF) ^^^ 0xFFFFFFFF

/-- The Ethernet frame check sequence: CRC-32 (IEEE 802.3). -/
def crc32 (b : List Byte) : Word :=
  (b.foldl (fun c x => iter (crcStep32 0xEDB88320) 8 (c ^^^ x.setWidth 32)) 0xFFFFFFFF) ^^^ 0xFFFFFFFF

/-- CRC-16/CCITT-FALSE (R326). -/
def crc16 (b : List Byte) : BitVec 16 :=
  b.foldl (fun c x => iter (fun c : BitVec 16 => if c.getLsbD 15 then (c <<< 1) ^^^ 0x1021 else c <<< 1) 8
    (c ^^^ ((x.setWidth 16 : BitVec 16) <<< (8 : Nat)))) 0xFFFF

/-- The Internet checksum's one's-complement sum over big-endian 16-bit words, folded (IPv4 and UDP). -/
def onesSum (b : List Byte) : Nat :=
  let t := (List.range ((b.length + 1) / 2)).foldl (fun acc i => acc + u8 b (2 * i) * 256 + u8 b (2 * i + 1)) 0
  let f := fun t : Nat => t % 65536 + t / 65536
  f (f (f t))

/-! SHAKE256 and SHA3-512 (FIPS 202). Lane (x, y) stands at index x + 5 y. -/

/-- The rotation offsets of Keccak-f[1600]. -/
def keccakRot : List Nat :=
  [0, 1, 62, 28, 27, 36, 44, 6, 55, 20, 3, 10, 43, 25, 39, 41, 45, 15, 21, 8, 18, 2, 61, 56, 14]

/-- The round constants of Keccak-f[1600]. -/
def keccakRc : List DWord :=
  [0x0000000000000001, 0x0000000000008082, 0x800000000000808A, 0x8000000080008000,
   0x000000000000808B, 0x0000000080000001, 0x8000000080008081, 0x8000000000008009,
   0x000000000000008A, 0x0000000000000088, 0x0000000080008009, 0x000000008000000A,
   0x000000008000808B, 0x800000000000008B, 0x8000000000008089, 0x8000000000008003,
   0x8000000000008002, 0x8000000000000080, 0x000000000000800A, 0x800000008000000A,
   0x8000000080008081, 0x8000000000008080, 0x0000000080000001, 0x8000000080008008]

/-- One round of Keccak-f[1600]. -/
def keccakRound (a : List DWord) (rc : DWord) : List DWord :=
  let g := fun (l : List DWord) (i : Nat) => l.getD i 0
  let c := (List.range 5).map fun x => g a x ^^^ g a (x + 5) ^^^ g a (x + 10) ^^^ g a (x + 15) ^^^ g a (x + 20)
  let d := (List.range 5).map fun x => g c ((x + 4) % 5) ^^^ (g c ((x + 1) % 5)).rotateLeft 1
  let t := (List.range 25).map fun i => (g a i ^^^ g d (i % 5)).rotateLeft (keccakRot.getD i 0)
  let b := (List.range 25).map fun i =>
    let x := i % 5
    let y := i / 5
    g t ((x + 3 * y) % 5 + 5 * x)
  (List.range 25).map fun i =>
    let x := i % 5
    let y := i / 5
    let v := g b i ^^^ (~~~ g b ((x + 1) % 5 + 5 * y) &&& g b ((x + 2) % 5 + 5 * y))
    if i = 0 then v ^^^ rc else v

/-- Keccak-f[1600]. -/
def keccakF (a : List DWord) : List DWord := keccakRc.foldl keccakRound a

/-- XOR a block of bytes into the state. -/
def keccakAbsorb (a : List DWord) (blk : List Byte) : List DWord :=
  (List.range 25).map fun i => a.getD i 0 ^^^ BitVec.ofNat 64 (u64 blk (8 * i))

/-- Absorb padded blocks of `rate` bytes, with a count of blocks for fuel. -/
def keccakBlocks (rate : Nat) : Nat → List DWord → List Byte → List DWord
  | 0, a, _ => a
  | n + 1, a, b => keccakBlocks rate n (keccakF (keccakAbsorb a (b.take rate))) (b.drop rate)

/-- The sponge with one output block: rate in bytes, domain suffix byte, output length at most the rate. -/
def sponge (rate : Nat) (suffix : Byte) (out : Nat) (m : List Byte) : List Byte :=
  let padLen := rate - m.length % rate
  let pad := if padLen = 1 then [suffix ||| 0x80] else suffix :: (List.replicate (padLen - 2) 0 ++ [0x80])
  let p := m ++ pad
  let a := keccakBlocks rate (p.length / rate) (List.replicate 25 0) p
  (a.flatMap fun l => toLe 8 l.toNat).take out

/-- SHAKE256 with a 64-byte output (R62). -/
def shake256 (m : List Byte) : List Byte := sponge 136 0x1F 64 m

/-- SHA3-512 (R356). -/
def sha3 (m : List Byte) : List Byte := sponge 72 0x06 64 m

end Sys2Proof.Machine
end

