-- ==== Sys2Proof/Machine/Operands.lean ====
section
/-! DEFINITION. Number formats and exact arithmetic (spec/08 R169 to R179, spec/10 R217, R221): every value is a NaN, an
infinity or sign, mantissa and power of two; operations are exact and rounded where the rule says. -/

namespace Sys2Proof.Machine

/-- A value: NaN, a signed infinity, or the finite value ± m × 2^e (a zero keeps its sign). -/
inductive FVal where
  | nan
  | inf (neg : Bool)
  | fin (neg : Bool) (m : Nat) (e : Int)
deriving DecidableEq, Repr, Inhabited

/-- Positive zero. -/
def FVal.zero : FVal := .fin false 0 0

/-- One. -/
def FVal.one : FVal := .fin false 1 0

/-- An integer as a value. -/
def FVal.ofInt (i : Int) : FVal := .fin (i < 0) i.natAbs 0

/-- The sign of a value (false for NaN). -/
def FVal.neg : FVal → Bool
  | .nan => false
  | .inf n => n
  | .fin n _ _ => n

/-- Negation. -/
def FVal.negate : FVal → FVal
  | .nan => .nan
  | .inf n => .inf (!n)
  | .fin n m e => .fin (!n) m e

/-- Whether the value is finite. -/
def FVal.isFin : FVal → Bool
  | .fin _ _ _ => true
  | _ => false

/-- Whether the value is a NaN. -/
def FVal.isNan : FVal → Bool
  | .nan => true
  | _ => false

/-- The integer a finite value is at the power-of-two scale `e0`, which must not exceed its exponent. -/
def FVal.scaled (neg : Bool) (m : Nat) (e e0 : Int) : Int :=
  let k : Nat := m * 2 ^ (e - e0).toNat
  if neg then -(k : Int) else (k : Int)

/-- The exact product (R174). -/
def FVal.mul : FVal → FVal → FVal
  | .nan, _ => .nan
  | _, .nan => .nan
  | .inf a, .inf b => .inf (a != b)
  | .inf a, .fin b m _ => if m = 0 then .nan else .inf (a != b)
  | .fin a m _, .inf b => if m = 0 then .nan else .inf (a != b)
  | .fin a m e, .fin b k f => .fin (a != b) (m * k) (e + f)

/-- The exact sum (R174): a zero sum is +0 unless both are -0. -/
def FVal.add : FVal → FVal → FVal
  | .nan, _ => .nan
  | _, .nan => .nan
  | .inf a, .inf b => if a = b then .inf a else .nan
  | .inf a, _ => .inf a
  | _, .inf b => .inf b
  | .fin a m e, .fin b k f =>
    if m = 0 && k = 0 then .fin (a && b) 0 0
    else
      let e0 := min e f
      let s := FVal.scaled a m e e0 + FVal.scaled b k f e0
      .fin (s < 0) s.natAbs e0

/-- The exact difference. -/
def FVal.sub (a b : FVal) : FVal := a.add b.negate

/-- Strict order on values; false when either is NaN; zeros are equal. -/
def FVal.lt : FVal → FVal → Bool
  | .nan, _ => false
  | _, .nan => false
  | .inf a, .inf b => a && !b
  | .inf a, .fin _ _ _ => a
  | .fin _ _ _, .inf b => !b
  | .fin a m e, .fin b k f =>
    let e0 := min e f
    decide (FVal.scaled a m e e0 < FVal.scaled b k f e0)

/-- Order on values; false when either is NaN. -/
def FVal.le (a b : FVal) : Bool := !a.isNan && !b.isNan && !b.lt a

/-- Equality of values; false for NaN; +0 equals -0. -/
def FVal.eqv (a b : FVal) : Bool := a.le b && b.le a

/-- Whether a value is -0. -/
def FVal.isNegZero : FVal → Bool
  | .fin true 0 _ => true
  | _ => false

/-- The greater of two values; NaN if either is NaN (R218); of two zeros, +0 when either is +0 (R177, R209, log 5). -/
def FVal.max (a b : FVal) : FVal :=
  if a.isNan || b.isNan then .nan else if a.lt b then b else if b.lt a then a else if a.isNegZero then b else a

/-- The lesser of two values; NaN if either is NaN; of two zeros, -0 when either is -0 (log 5). -/
def FVal.min (a b : FVal) : FVal :=
  if a.isNan || b.isNan then .nan else if b.lt a then b else if a.lt b then a else if b.isNegZero then b else a

/-- A quotient carried far enough, with a sticky bit, that one rounding to any format here is right. -/
def FVal.quot : FVal → FVal → FVal
  | .nan, _ => .nan
  | _, .nan => .nan
  | .inf _, .inf _ => .nan
  | .inf a, .fin b _ _ => .inf (a != b)
  | .fin a _ _, .inf b => .fin (a != b) 0 0
  | .fin a m e, .fin b k f =>
    if k = 0 then (if m = 0 then .nan else .inf (a != b))
    else if m = 0 then .fin (a != b) 0 0
    else
      let sh := 40 + Nat.log2 k
      let n := m * 2 ^ sh
      .fin (a != b) (2 * (n / k) + (if n % k = 0 then 0 else 1)) (e - f - (sh : Int) - 1)

/-- A floating-point format: mantissa field bits, exponent field bits, bias, the largest finite value maxM × 2^maxE,
and whether it has infinities (R170). -/
structure FFmt where
  man : Nat
  expBits : Nat
  bias : Int
  maxM : Nat
  maxE : Int
  hasInf : Bool
deriving DecidableEq, Repr

/-- BF16. -/
def fmtBF16 : FFmt := ⟨7, 8, 127, 255, 120, true⟩
/-- FP16. -/
def fmtFP16 : FFmt := ⟨10, 5, 15, 2047, 5, true⟩
/-- FP8 E4M3. -/
def fmtE4M3 : FFmt := ⟨3, 4, 7, 14, 5, false⟩
/-- FP8 E5M2. -/
def fmtE5M2 : FFmt := ⟨2, 5, 15, 7, 13, true⟩
/-- E2M1. -/
def fmtE2M1 : FFmt := ⟨1, 2, 1, 3, 1, false⟩
/-- FP32. -/
def fmtFP32 : FFmt := ⟨23, 8, 127, 16777215, 104, true⟩

/-- The exponent of the format's smallest step. -/
def FFmt.ulpMin (f : FFmt) : Int := 1 - f.bias - (f.man : Int)

/-- Round an integer mantissa shifted right by `sh`, to nearest even or toward zero. -/
def roundShift (m sh : Nat) (toZero : Bool) : Nat :=
  let q := m / 2 ^ sh
  let r := m % 2 ^ sh
  let half := 2 ^ sh
  if toZero then q
  else if 2 * r > half || (2 * r = half && q % 2 = 1) then q + 1 else q

/-- Round a finite magnitude to the grid of a format with unbounded range: the mantissa and its exponent. -/
def FFmt.grid (f : FFmt) (toZero : Bool) (m : Nat) (e : Int) : Nat × Int :=
  if m = 0 then (0, f.ulpMin)
  else
    let q := max (e + (Nat.log2 m : Int) - (f.man : Int)) f.ulpMin
    let (k, q) := if q ≤ e then (m * 2 ^ (e - q).toNat, q) else (roundShift m (q - e).toNat toZero, q)
    if k = 2 ^ (f.man + 1) then (k / 2, q + 1) else (k, q)

/-- Whether a magnitude exceeds the format's largest finite value. -/
def FFmt.over (f : FFmt) (m : Nat) (e : Int) : Bool :=
  let e0 := min e f.maxE
  decide (m * 2 ^ (e - e0).toNat > f.maxM * 2 ^ (f.maxE - e0).toNat)

/-- One rounding to FP32, to nearest even; beyond the largest FP32 gives infinity (R173, R174). -/
def FVal.r32 : FVal → FVal
  | .nan => .nan
  | .inf n => .inf n
  | .fin n m e =>
    let (k, q) := fmtFP32.grid false m e
    if fmtFP32.over k q then .inf n else .fin n k q

/-- Decode the bits of a format (R170). -/
def FFmt.decode (f : FFmt) (bits : Nat) : FVal :=
  let mf := bits % 2 ^ f.man
  let ef := bits / 2 ^ f.man % 2 ^ f.expBits
  let sg := bits / 2 ^ (f.man + f.expBits) % 2 = 1
  if f.hasInf && ef = 2 ^ f.expBits - 1 then (if mf = 0 then .inf sg else .nan)
  else if !f.hasInf && f.man = 3 && ef = 15 && mf = 7 then .nan
  else if ef = 0 then .fin sg mf f.ulpMin
  else .fin sg (mf + 2 ^ f.man) (f.ulpMin + (ef : Int) - 1)

/-- The bits of a value that lies on the format's grid. -/
def FFmt.encodeGrid (f : FFmt) (neg : Bool) (k : Nat) (q : Int) : Nat :=
  let sg := if neg then 2 ^ (f.man + f.expBits) else 0
  if k < 2 ^ f.man then sg + k
  else sg + (q - f.ulpMin + 1).toNat * 2 ^ f.man + (k - 2 ^ f.man)

/-- The canonical NaN of a format (R178); E2M1 has none, and what is written there is free (log 44). -/
def FFmt.nanBits (f : FFmt) : Nat :=
  if f.expBits = 2 then Config.fp4Nan.toNat
  else if f.hasInf then (2 ^ f.expBits - 1) * 2 ^ f.man + 2 ^ (f.man - 1) else 2 ^ (f.man + f.expBits) - 1

/-- The bits of the largest finite value. -/
def FFmt.maxBits (f : FFmt) (neg : Bool) : Nat := f.encodeGrid neg f.maxM f.maxE

/-- The bits of an infinity. -/
def FFmt.infBits (f : FFmt) (neg : Bool) : Nat :=
  (if neg then 2 ^ (f.man + f.expBits) else 0) + (2 ^ f.expBits - 1) * 2 ^ f.man

/-- An FP32 word from a value already on the FP32 grid. -/
def FVal.toW (v : FVal) : Word :=
  match v.r32 with
  | .nan => 0x7FC00000
  | .inf n => if n then 0xFF800000 else 0x7F800000
  | .fin n k q => BitVec.ofNat 32 (fmtFP32.encodeGrid n k q)

/-- The value of an FP32 word. -/
def FVal.ofW (w : Word) : FVal := fmtFP32.decode w.toNat

/-- FP32 addition, subtraction, multiplication, division and fused multiply-add, each one rounding to nearest even. -/
def fAdd (a b : FVal) : FVal := (a.add b).r32
def fSub (a b : FVal) : FVal := (a.sub b).r32
def fMul (a b : FVal) : FVal := (a.mul b).r32
def fDiv (a b : FVal) : FVal := (a.quot b).r32
def fFma (a b c : FVal) : FVal := ((a.mul b).add c).r32

/-! ### The fixed methods (R177, R204, R271, R415)

The spec bounds each of them by 2 units in the last place of the exact function and leaves the rest open: the result is the free
value of Config where that lies within the bound, else the exact value rounded (log 5). `Fix` values are numerators over
2^192. -/

/-- ln 2. -/
def ln2Fix : Nat := 4350955369971217654477563090224794165364344896676135745069

/-- A finite value below 2^20 in magnitude, as a numerator over 2^192, cut off toward zero. -/
def toFix (neg : Bool) (m : Nat) (e : Int) : Int :=
  let k : Nat := if -192 ≤ e then m * 2 ^ (e + 192).toNat else m / 2 ^ (-192 - e).toNat
  if neg then -(k : Int) else (k : Int)

/-- e^x: with x = n ln 2 + r, the series of e^r, times 2^n. -/
def expFix (x : Int) : FVal :=
  let n := x / (ln2Fix : Int)
  let r := (x - n * (ln2Fix : Int)).toNat
  let st := (List.range 48).foldl (fun (st : Nat × Nat) (k : Nat) =>
    let t := st.2 * r / 2 ^ 192 / (k + 1)
    (st.1 + t, t)) (2 ^ 192, 2 ^ 192)
  .fin false st.1 (n - 192)

/-- e^x of a finite value, far beyond every format's range from 256 on. -/
def expExact (neg : Bool) (m : Nat) (e : Int) : FVal :=
  if (FVal.fin false 256 0).le (.fin false m e) then .fin false 1 (if neg then -400 else 400) else expFix (toFix neg m e)

/-- ln of m × 2^e, m not 0: ln 2 times its exponent, and twice the series of atanh ((y - 1) / (y + 1)) for its mantissa y. -/
def lnExact (m : Nat) (e : Int) : FVal :=
  let l := Nat.log2 m
  let y := m * 2 ^ 192 / 2 ^ l
  let t := (y - 2 ^ 192) * 2 ^ 192 / (y + 2 ^ 192)
  let st := (List.range 70).foldl (fun (st : Nat × Nat) (k : Nat) =>
    (st.1 + st.2 / (2 * k + 1), st.2 * t / 2 ^ 192 * t / 2 ^ 192)) (0, t)
  let x : Int := (e + (l : Int)) * (ln2Fix : Int) + 2 * (st.1 : Int)
  .fin (x < 0) x.natAbs (-192)

/-- 1 ÷ √(m × 2^e), m not 0: the integer root, bit by bit, of 2^320 ÷ m. -/
def rsqrtExact (m : Nat) (e : Int) : FVal :=
  let m := if e % 2 = 0 then m else 2 * m
  let q := 2 ^ 320 / m
  let r := (List.range 161).foldl (fun (r : Nat) (i : Nat) =>
    let c := r + 2 ^ (160 - i)
    if c * c ≤ q then c else r) 0
  .fin false r (-160 - e / 2)

/-- v ÷ (1 + e^-v) (R177 SILU). -/
def siluExact (neg : Bool) (m : Nat) (e : Int) : FVal := (FVal.fin neg m e).quot (FVal.one.add (expExact (!neg) m e))

/-- R177 GELU_TANH: 0.5 (1 + tanh u) is 1 ÷ (1 + e^-2u), with u the argument of tanh; beyond 64 in magnitude e^-2u is
beyond every format's range. -/
def geluExact (neg : Bool) (m : Nat) (e : Int) : FVal :=
  let w : FVal :=
    if (FVal.fin false 64 0).le (.fin false m e) then .fin false 1 (if neg then 400 else -400)
    else
      let x := toFix neg m e
      let c := toFix neg (m * m * m) (3 * e)
      expFix (-(2 * 79788456 * (1000000 * x + 44715 * c) / 100000000000000))
  (FVal.fin neg m e).quot (FVal.one.add w)

/-- Whether a result lies within 2 units in the last place of the exact value (and 2^-20 of a unit, for the exact value's own
cutting off); an infinity stands at 2^128. -/
def nearExact (x : FVal) (c : FVal) : Bool :=
  let c := match c with
    | .inf n => FVal.fin n 1 128
    | c => c
  match x, x.sub c with
  | .fin _ m e, .fin _ d f => (FVal.fin false d f).le (.fin false 2097153 ((fmtFP32.grid false m e).2 - 20))
  | _, _ => false

/-- The result of a fixed method: the free value where it is within its bound, else the exact value rounded. -/
def fixedMethod (x : FVal) (free : Word) : FVal := if nearExact x (.ofW free) then .ofW free else x.r32

/-- exp as R204 and R218 give it: exp(±0) is 1, exp(-inf) +0, exp(+inf) +inf, exp(NaN) NaN; elsewhere the fixed
method. -/
def fExp : FVal → FVal
  | .nan => .nan
  | .inf n => if n then .zero else .inf false
  | v@(.fin n m e) => if m = 0 then .one else fixedMethod (expExact n m e) (Config.expBits v.toW)

/-- ln, the fixed method of R415; NaN for NaN, free where the spec states no result (log 5). -/
def fLn : FVal → FVal
  | .nan => .nan
  | v@(.fin n m e) => if n || m = 0 then .ofW (Config.lnBits v.toW) else fixedMethod (lnExact m e) (Config.lnBits v.toW)
  | v => .ofW (Config.lnBits v.toW)

/-- rsqrt, the fixed method of R271; NaN for NaN, free where the spec states no result (log 5). -/
def fRsqrt : FVal → FVal
  | .nan => .nan
  | v@(.fin n m e) =>
    if n || m = 0 then .ofW (Config.rsqrtBits v.toW) else fixedMethod (rsqrtExact m e) (Config.rsqrtBits v.toW)
  | v => .ofW (Config.rsqrtBits v.toW)

/-- SILU, the fixed method of R177; NaN for NaN and +inf for +inf, free for -inf (log 5). -/
def fSilu : FVal → FVal
  | .nan => .nan
  | .inf n => if n then .ofW (Config.siluBits (FVal.inf n).toW) else .inf false
  | v@(.fin n m e) => fixedMethod (siluExact n m e) (Config.siluBits v.toW)

/-- GELU_TANH, the fixed method of R177; NaN for NaN and +inf for +inf, free for -inf (log 5). -/
def fGelu : FVal → FVal
  | .nan => .nan
  | .inf n => if n then .ofW (Config.geluBits (FVal.inf n).toW) else .inf false
  | v@(.fin n m e) => fixedMethod (geluExact n m e) (Config.geluBits v.toW)

/-- What a conversion to an output format did: the element's bits, whether it saturated or turned a finite value into
infinity or NaN, whether it wrote a NaN, whether it turned a NaN into an integer 0 (R178). -/
structure Conv where
  bits : Nat := 0
  sat : Bool := false
  nan : Bool := false
  intNan : Bool := false
deriving DecidableEq, Repr, Inhabited

/-- Conversion to a plain float format under R178; `forceSat` is the MX rule (SAT = 0 acts as SAT = 1 for finite
values). -/
def FFmt.convert (f : FFmt) (toZero sat forceSat : Bool) : FVal → Conv
  | .nan => { bits := f.nanBits, nan := true }
  | .inf n =>
    if f.hasInf then { bits := f.infBits n }
    else if sat then { bits := f.maxBits n, sat := true }
    else { bits := f.nanBits, nan := true }
  | .fin n m e =>
    let (k, q) := f.grid toZero m e
    if f.over k q then
      if sat || forceSat then { bits := f.maxBits n, sat := true }
      else if f.hasInf then { bits := f.infBits n, sat := true }
      else { bits := f.nanBits, sat := true, nan := true }
    else { bits := f.encodeGrid n k q }

/-- Round a value to an integer. -/
def roundInt (toZero neg : Bool) (m : Nat) (e : Int) : Int :=
  let k := if 0 ≤ e then m * 2 ^ e.toNat else roundShift m (-e).toNat toZero
  if neg then -(k : Int) else (k : Int)

/-- Conversion to INT8 under R178. -/
def convInt8 (toZero : Bool) : FVal → Conv
  | .nan => { bits := 0, intNan := true }
  | .inf n => { bits := if n then 0x80 else 0x7F, sat := true }
  | .fin n m e =>
    let i := roundInt toZero n m e
    if i > 127 then { bits := 0x7F, sat := true }
    else if i < -128 then { bits := 0x80, sat := true }
    else { bits := unsignedOf 8 i }

/-- The float format a code's elements are stored in (R169); integers have none. -/
def elemFmt : Nat → Option FFmt
  | 0 => some fmtBF16
  | 1 => some fmtFP16
  | 2 => some fmtE4M3
  | 3 => some fmtE5M2
  | 4 => some fmtE4M3
  | 5 => some fmtE5M2
  | 6 => some fmtE2M1
  | 9 => some fmtFP32
  | _ => none

/-- Element width in bits (R169). -/
def elemBits : Nat → Nat
  | 0 => 16
  | 1 => 16
  | 6 => 4
  | 8 => 4
  | 9 => 32
  | 10 => 32
  | _ => 8

/-- Whether a format is an MX format with a scale plane (R172). -/
def isMx (f : Nat) : Bool := f = 4 || f = 5 || f = 6

/-- Whether a format holds integers. -/
def isIntFmt (f : Nat) : Bool := f = 7 || f = 8 || f = 10

/-- Bytes of `n` elements. -/
def elemBytes (f n : Nat) : Nat := (elemBits f * n + 7) / 8

/-- The raw bits of element `i` of a plane of bytes (R171). -/
def elemRaw (f : Nat) (b : List Byte) (i : Nat) : Nat :=
  match elemBits f with
  | 4 => if i % 2 = 0 then u8 b (i / 2) % 16 else u8 b (i / 2) / 16
  | 16 => u16 b (2 * i)
  | 32 => u32 b (4 * i)
  | _ => u8 b i

/-- The value of an element's bits without any scale. -/
def elemVal (f raw : Nat) : FVal :=
  match elemFmt f with
  | some g => g.decode raw
  | none => if f = 7 then .ofInt (signedOf 8 raw) else if f = 8 then .ofInt (signedOf 4 raw) else .ofInt (signedOf 32 raw)

/-- The value of an E8M0 scale byte: 2^(x - 127), or NaN (R170, R172). -/
def scaleVal (x : Nat) : FVal := if x = 0xFF then .nan else .fin false 1 ((x : Int) - 127)

/-- Element `i` of a row of bytes, with its MX scale from the row's scale bytes (R172). -/
def elemAt (f : Nat) (row scales : List Byte) (i : Nat) : FVal :=
  let v := elemVal f (elemRaw f row i)
  if isMx f then v.mul (scaleVal (u8 scales (i / 32))) else v

/-- Pack elements of a format into bytes (R171). -/
def packElems (f : Nat) : List Nat → List Byte
  | [] => []
  | [x] => toLe (elemBytes f 1) x
  | x :: y :: r => if elemBits f = 4 then BitVec.ofNat 8 (x % 16 + 16 * (y % 16)) :: packElems f r
                   else toLe (elemBits f / 8) x ++ packElems f (y :: r)

/-- The power of the largest element of an MX format (R179). -/
def mxEmax (f : Nat) : Int := if f = 4 then 8 else if f = 5 then 15 else 2

/-- floor(log2) of a finite nonzero magnitude. -/
def floorLog2 (m : Nat) (e : Int) : Int := (Nat.log2 m : Int) + e

/-- The scale byte and elements of one MX block (R179). -/
def mxBlock (f : Nat) (toZero sat : Bool) (vs : List FVal) : Nat × List Conv :=
  let amax := vs.foldl (fun a v => match v with
    | .fin _ m e => if m = 0 then a else FVal.max a (.fin false m e)
    | _ => a) .zero
  let ex : Int := match amax with
    | .fin _ m e => if m = 0 then 0 else max (-127) (min 127 (floorLog2 m e - mxEmax f))
    | _ => 0
  let g := (elemFmt f).getD fmtE4M3
  let cs := vs.map fun v => g.convert toZero sat true (v.mul (.fin false 1 (-ex)))
  let anyNan := vs.any FVal.isNan || (cs.any fun c => c.nan)
  (if anyNan then 0xFF else (ex + 127).toNat, cs)

/-- Convert one value to a plain output format (not MX). -/
def convPlain (f : Nat) (toZero sat : Bool) (v : FVal) : Conv :=
  if f = 7 then convInt8 toZero v
  else if f = 9 then { bits := v.toW.toNat, nan := v.isNan }
  else ((elemFmt f).getD fmtFP32).convert toZero sat false v

/-- Activation functions of R177. -/
def activate (act : Nat) (p0 p1 v : FVal) : FVal :=
  match act with
  | 1 => FVal.max v .zero
  | 2 => FVal.min (FVal.max v p0) p1
  | 3 => if v.isNan then .nan else if (FVal.zero).le v then v else fMul v p0
  | 4 => fSilu v
  | 5 => fGelu v
  | _ => v

/-- Steps 1 to 4 of the output stage (R177). -/
def outStage (act : Nat) (p0 p1 : FVal) (scale bias resid : Option FVal) (acc : FVal) : FVal :=
  let v := fMul acc (scale.getD .one)
  let v := fAdd v (bias.getD .zero)
  let v := activate act p0 p1 v
  match resid with
  | some r => fAdd v r
  | none => v

/-- One group's exact products summed exactly and added to an FP32 accumulator with one rounding (R173). -/
def accGroup (acc : FVal) (prods : List FVal) : FVal :=
  match prods with
  | [] => acc
  | p :: ps => (acc.add (ps.foldl FVal.add p)).r32

/-- A dot product of R217: groups of 32 positions, each one rounding, from a start value. -/
def dot32 (fuel : Nat) (acc : FVal) (xs : List (FVal × FVal)) : FVal :=
  match fuel with
  | 0 => acc
  | n + 1 =>
    if xs.isEmpty then acc
    else dot32 n (accGroup acc ((xs.take 32).map fun p => p.1.mul p.2)) (xs.drop 32)

/-- The AE's widening to FP32 (R221): exact, beyond the FP32 range infinity. -/
def widen (v : FVal) : FVal := v.r32

/-- The precision rank of R221. -/
def fmtRank : Nat → Nat
  | 0 => 5
  | 1 => 4
  | 7 => 3
  | 2 => 2
  | 4 => 2
  | 3 => 1
  | 5 => 1
  | _ => 0

end Sys2Proof.Machine
end

