-- ==== Sys2Proof/Machine/Lookup.lean ====
section
/-! DEFINITION. What the running binding says: activities, tenants, plan blocks, regions, records by number. -/

namespace Sys2Proof.Machine

/-- The running binding; empty when none runs. -/
def State.b (s : State) : Binding := match s.bind.running with
  | some r => r.b
  | none => {}

/-- Whether a binding is in force (COLD_STATE BOUND, R76). -/
def State.bound (s : State) : Bool := s.bind.cold == .bound

/-- The DMAQ record of an activity (R90). -/
def Binding.dq (b : Binding) (a : Nat) : DmaqRec := b.dmaq.getD a {}

/-- Whether an activity exists (R80). -/
def Binding.hasAct (b : Binding) (a : Nat) : Bool := a < 96 && (b.dq a).used == 1

/-- The activities that exist. -/
def Binding.actList (b : Binding) : List Nat := (List.range 96).filter b.hasAct

/-- An activity's tenant (R90). -/
def Binding.tenantOf (b : Binding) (a : Nat) : Nat := (b.dq a).tenant

/-- The CHAN record of a channel (R81). -/
def Binding.chanRec (b : Binding) (n : Nat) : ChanRec := b.chan.getD n {}

/-- The MEMX record of a region. -/
def Binding.region (b : Binding) (r : Nat) : Option MemxRec := b.memx.find? fun x => x.region == r

/-- Granule kinds: SYSTEM, WEIGHT, DATA, LEAF_POOL, LEAF_MAP, SPILL_SERVE (R83). -/
def MemxRec.granular (r : MemxRec) : Bool := r.kind != 5 && r.kind != 6

/-- The region a granule of a channel lies in. -/
def Binding.regionAt (b : Binding) (ch g : Nat) : Option MemxRec :=
  b.memx.find? fun r => r.granular && r.channel == ch && decide (r.base ≤ g ∧ g < r.base + r.size)

/-- The TENT record of a tenant (R85). -/
def Binding.tentOf (b : Binding) (k : Nat) : Option TentRec := b.tent.find? fun t => t.tenant == k

/-- The TENT record of a virtual function. -/
def Binding.tentOfVf (b : Binding) (vf : Nat) : Option TentRec := b.tent.find? fun t => t.vf == vf

/-- The ops of an activity in SEQ order. -/
def Binding.opsOf (b : Binding) (a : Nat) : List OpRec := b.ops.filter fun o => o.activity == a

/-- One op of an activity. -/
def Binding.opAt (b : Binding) (a q : Nat) : Option OpRec := b.ops.find? fun o => o.activity == a && o.seq == q

/-- The op's LAST flag (R97). -/
def OpRec.last (o : OpRec) : Bool := o.flags.testBit 1
/-- The op's STRICT flag (R97). -/
def OpRec.strict (o : OpRec) : Bool := o.flags.testBit 0
/-- The op's SPOT flag (R97). -/
def OpRec.spot (o : OpRec) : Bool := o.flags.testBit 2

/-- MAX_STRETCH of a block in slots (R35). -/
def PlanBlock.maxStretch (p : PlanBlock) : Nat :=
  if p.maxStretchRaw = 0xFFFFFFFF then p.periodMin / 4 else p.maxStretchRaw

/-- PLAN_LENGTH of a block in slots: the end of its latest single reservation (R33). -/
def PlanBlock.planLength (p : PlanBlock) : Nat :=
  p.res.foldl (fun m r => if r.rep = 0 then max m (r.start + r.length) else m) 0

/-- The units of one channel that the plan counts as benched (R103). -/
def State.chanBenched (s : State) (ch : Nat) : Bool :=
  (List.range 9).any fun k => (s.chk.units.get (9 * ch + k)).planBenched

/-- The channels with a benched unit. -/
def State.benchedChans (s : State) : List Nat := (List.range 6).filter s.chanBenched

/-- The NORMAL block of a profile. -/
def Binding.normalBlock (b : Binding) (p : Nat) : Option PlanBlock :=
  b.plan.blocks.find? fun x => x.kind == 0 && x.profile == p

/-- The FALLBACK block of a profile and channel. -/
def Binding.fallbackBlock (b : Binding) (p ch : Nat) : Option PlanBlock :=
  b.plan.blocks.find? fun x => x.kind == 1 && x.profile == p && x.benchedCh == ch

/-- The block that runs in the present profile, and whether benched channels' activities are inactive (R103). -/
def State.block (s : State) : PlanBlock × Bool :=
  let norm := (s.b.normalBlock s.pwr.profile).getD {}
  match s.benchedChans with
  | [] => (norm, false)
  | [c] => match s.b.fallbackBlock s.pwr.profile c with
    | some f => (f, false)
    | none => (norm, true)
  | _ => (norm, true)

/-- The plan record of an activity in the running block. -/
def State.actPlan (s : State) (a : Nat) : ActPlan := s.block.1.acts.getD a {}

/-- Whether a tenant's activities take part in the plan: tenant 0 always, others while ADMITTED or ROTATING, and
until B1 while a removal has begun (R372, R378). -/
def State.tenantIn (s : State) (k : Nat) : Bool :=
  k == 0 || match (s.ksi.tenants.get k).state with
    | .admitted => true
    | .rotating => true
    | .removing => match (s.ksi.tenants.get k).removal with
      | some r => r.boundaries == 0
      | none => false
    | _ => false

/-- Whether an activity is active: it exists, the block says ACTIVE, its channel is neither benched without a
FALLBACK block nor shed, its tenant takes part, and MAINTENANCE does not stop the plan (R102, R103, R372, R446). -/
def State.active (s : State) (a : Nat) : Bool :=
  s.b.hasAct a && (s.actPlan a).active && !(s.block.2 && s.chanBenched (a / 16))
    && !s.pwr.shed.getLsbD (a / 16) && s.tenantIn (s.b.tenantOf a) && !s.chk.maintenance

/-- MAX_STRETCH of the running block in ns (slots of 8 ns). -/
def State.maxStretchNs (s : State) : Nat := 8 * s.block.1.maxStretch

/-- Powered domains of a channel, in the bit order of DOMAINS (R81, R435). -/
def State.domainOn (s : State) (ch bit : Nat) : Bool := (s.pwr.domains.get ch).testBit bit

/-- The RESULT record of an activity. -/
def Binding.resultOf (b : Binding) (a : Nat) : Option NetResult := b.netw.results.find? fun r => r.activity == a

/-- The ROUTE record of a lane. -/
def Binding.routeOf (b : Binding) (l : Nat) : Option NetRoute := b.netw.routes.find? fun r => r.lane == l

/-- The PORT record of an ingest port. -/
def Binding.portRec (b : Binding) (p : Nat) : Option NetPort := b.netw.ports.find? fun r => r.port == p

/-- Whether any reservation of an activity on a resource stands in some NORMAL block. -/
def Binding.resIn (b : Binding) (a cls : Nat) (inst : Option Nat) : Bool :=
  b.plan.blocks.any fun p => p.kind == 0 && p.res.any fun r =>
    r.activity == a && r.cls == cls && (match inst with | some i => r.inst == i | none => true)

/-- Whether an activity is named by a FLOW record. -/
def Binding.inFlow (b : Binding) (a : Nat) : Bool := b.netw.flows.any fun f => f.actEven == a || f.actOdd == a

/-- Whether an activity is named by a ROUTE record. -/
def Binding.inRoute (b : Binding) (a : Nat) : Bool := b.netw.routes.any fun r => r.activity == a

/-- The serve activity of a channel (R334). -/
def Binding.serveAct (b : Binding) (ch : Nat) : Option Nat :=
  ((List.range 16).map (16 * ch + ·)).find? fun a => b.hasAct a && b.tenantOf a == 0 && (b.opsOf a).isEmpty
    && !b.inFlow a && (b.resultOf a).isNone && b.resIn a 7 (some ch)

/-- Whether a channel needs a serve activity: it holds a SPILL_SERVE region. -/
def Binding.serves (b : Binding) (ch : Nat) : Bool := b.memx.any fun r => r.kind == 7 && r.channel == ch

/-- The seal activity of a tenant in a channel (R374). -/
def Binding.sealAct (b : Binding) (k ch : Nat) : Option Nat :=
  ((List.range 16).map (16 * ch + ·)).find? fun a => b.hasAct a && b.tenantOf a == k && (b.opsOf a).isEmpty
    && !b.inFlow a && (b.resultOf a).isNone && !b.inRoute a && !(b.serves ch && b.serveAct ch == some a)
    && b.resIn a 7 (some ch) && !b.resIn a 10 none

/-- The leaf activity of a tenant in a channel (R258). -/
def Binding.leafAct (b : Binding) (k ch : Nat) : Option Nat :=
  ((List.range 16).map (16 * ch + ·)).find? fun a => b.hasAct a && b.tenantOf a == k && (b.opsOf a).isEmpty
    && !b.inFlow a && (b.resultOf a).isNone && (b.resIn a 10 none || b.resIn a 9 (some (b.dq a).ringLane))

/-- This module's MEMBER record, found by its accession number (R87). -/
def State.member (s : State) : Option NetMember :=
  s.b.netw.members.find? fun m => m.accession == s.keep.accession

/-- This module's member index, or 0 when STANDALONE. -/
def State.memberIdx (s : State) : Nat := match s.member with
  | some m => m.index
  | none => 0

/-- Member count of the ring. -/
def Binding.memberCount (b : Binding) : Nat := b.netw.members.length

/-- MARKER_LEAD, LATE_LIMIT, LATE_WINDOW, ADMIT_TICKS with their defaults (R87). -/
def Binding.markerLead (b : Binding) : Nat := if b.netw.glob.markerLead = 0 then 1000 else b.netw.glob.markerLead
def Binding.lateLimit (b : Binding) : Nat := if b.netw.glob.lateLimit = 0 then 4 else b.netw.glob.lateLimit
def Binding.lateWindow (b : Binding) : Nat := if b.netw.glob.lateWindow = 0 then 256 else b.netw.glob.lateWindow
def Binding.admitTicks (b : Binding) : Nat := if b.netw.glob.admitTicks = 0 then 10000 else b.netw.glob.admitTicks

/-- The master identities (R122). -/
def idHostPf : Nat := 0x01
def idVf (k : Nat) : Nat := 0x01 + k
def idCur : Nat := 0x10
def idKsi : Nat := 0x11
def idCons : Nat := 0x12
def idGc (n m : Nat) : Nat := 0x20 + 4 * n + m
def idRing : Nat := 0x40
def idTray : Nat := 0x41

/-- Whether an identity is a virtual function, and which. -/
def vfOf (m : Nat) : Option Nat := if 2 ≤ m ∧ m ≤ 9 then some (m - 1) else none

/-- The tenant a virtual function serves, 0 when none (R121, R342). -/
def State.tenantOfVf (s : State) (vf : Nat) : Nat := match s.b.tentOfVf vf with
  | some t => t.tenant
  | none => 0

end Sys2Proof.Machine
end

