-- ==== Sys2Proof/Machine/Flags.lean ====
section
/-! DEFINITION. Event bits and counters: an occurrence sets its sticky bit and counts under R390 to R394. -/

namespace Sys2Proof.Machine

/-- Data-revealing event codes (R391). -/
def dataRevealing (code : Nat) : Bool :=
  code == 0x50 || code == 0x51 || code == 0x60 || code == 0x61 || code == 0x70 || code == 0x71 || code == 0x72
    || code == 0x78 || code == 0x7A || code == 0x7B || code == 0x7C

/-- Channel-kind event codes (R391). -/
def channelKind (code : Nat) : Bool := 0x30 ≤ code && code < 0x90

/-- The key of a CNTR record's counter. -/
def CntrRec.key (r : CntrRec) : Nat := if r.scopeKind = 0 then 16 * r.channel + r.index else 96 + r.index

/-- Whether tenant `k`'s COUNTERS consent is in force (R385). -/
def State.countersConsent (s : State) (k : Nat) : Bool := (s.ksi.tenants.get k).counters.inForce

/-- Whether an occurrence passes a counter's consent gate (R393). -/
def State.gateOpen (s : State) (r : CntrRec) (act : Option Nat) : Bool :=
  if !dataRevealing r.event then true
  else match act with
    | none => false
    | some a =>
      let k := s.b.tenantOf a
      k == 0 || (r.owner != 0xFF && s.b.tenantOf r.owner == k && s.countersConsent k)

/-- Whether a counter selects an occurrence of a code in a channel, attributed to an activity (R392). -/
def CntrRec.selects (r : CntrRec) (code : Nat) (ch act : Option Nat) : Bool :=
  r.event == code && (r.scope == 0xFF || act == some r.scope)
    && (r.scopeKind == 1 || ch == some r.channel)

/-- Add to a counter under its mode (R394); says whether this passes 2^48 - 1 for the first time. -/
def Counter.bump (c : Counter) (stick : Bool) (n : Nat) : Counter × Bool :=
  let v := c.value.toNat + n
  if v < 2 ^ 48 then ({ c with value := BitVec.ofNat 48 v }, false)
  else ({ c with value := if stick then BitVec.ofNat 48 (2 ^ 48 - 1) else BitVec.ofNat 48 v, ovf := true }, !c.ovf)

/-- One pass over the CNTR records for `n` occurrences of a code: the new counters and the overflows to count. -/
def State.countPass (s : State) (code : Nat) (ch act : Option Nat) (n : Nat) : Tab Counter × Nat :=
  s.b.cntr.foldl (fun (acc : Tab Counter × Nat) r =>
    if r.selects code ch act && s.gateOpen r act then
      let (c, o) := (acc.1.get r.key).bump (r.mode.testBit 0) n
      (acc.1.set r.key c, if o && r.mode.testBit 1 then acc.2 + 1 else acc.2)
    else acc) (s.cnt, 0)

/-- Count occurrences of an event; an overflow with MODE [1] counts CNT_OVERFLOW, whose own overflow counts once more
(R394). -/
def State.count (s : State) (code : Nat) (ch act : Option Nat) (n : Nat) : State :=
  let (t, o) := s.countPass code ch act n
  let s1 := { s with cnt := t }
  if o = 0 then s1
  else
    let (t2, o2) := s1.countPass 0x25 none none o
    let s2 := { s1 with cnt := t2 }
    if o2 = 0 then s2 else { s2 with cnt := (s2.countPass 0x25 none none o2).1 }

/-- A bit set in a register of `w` bits. -/
def bitSet {w : Nat} (v : BitVec w) (i : Nat) : BitVec w := v ||| BitVec.ofNat w (2 ^ i)

/-- A bit cleared. -/
def bitClr {w : Nat} (v : BitVec w) (i : Nat) : BitVec w := v &&& ~~~ BitVec.ofNat w (2 ^ i)

/-- A bit put to a value. -/
def bitPut {w : Nat} (v : BitVec w) (i : Nat) (x : Bool) : BitVec w := if x then bitSet v i else bitClr v i

/-- TICK_EVENTS bit (R54, codes from 0x00). -/
def State.evTick (s : State) (i : Nat) : State :=
  (s.onTick fun t => { t with events := bitSet t.events i }).count i none none 1

/-- REG_ERR bit of a master (R117, codes from 0x10). Masters without a copy only count. -/
def State.regErr (s : State) (m i : Nat) : State :=
  let s1 := if m = idHostPf || (vfOf m).isSome || m = idTray
    then s.onBus fun u => { u with regErr := u.regErr.upd m fun v => bitSet v i } else s
  s1.count (0x10 + i) none none 1

/-- SPC_EVENTS bit of a channel (R143, codes from 0x30). -/
def State.evSpc (s : State) (ch i : Nat) (act : Option Nat) : State :=
  (s.onSpad fun p => { p with chan := p.chan.upd ch fun c => { c with events := bitSet c.events i } }).count
    (0x30 + i) (some ch) act 1

/-- Q_EVENTS bit of a queue (R164, codes from 0x40). -/
def State.evQueue (s : State) (a i : Nat) : State :=
  (s.onDma fun d => { d with queues := d.queues.upd a fun q => { q with events := bitSet q.events i } }).count
    (0x40 + i) (some (a / 16)) (some a) 1

/-- ME_EVENTS bit (R189, codes from 0x50), counted `n` times. -/
def State.evMe (s : State) (a i n : Nat) : State :=
  if n = 0 then s else
  (s.onEngs fun e => e.upd (a / 16) fun g => { g with me := { g.me with events := bitSet g.me.events i } }).count
    (0x50 + i) (some (a / 16)) (some a) n

/-- AE_EVENTS bit (R238, codes from 0x60), counted `n` times. -/
def State.evAe (s : State) (a i n : Nat) : State :=
  if n = 0 then s else
  (s.onEngs fun e => e.upd (a / 16) fun g => { g with ae := { g.ae with events := bitSet g.ae.events i } }).count
    (0x60 + i) (some (a / 16)) (some a) n

/-- PST_DET_EVENTS bit (R211, codes from 0x70), counted `n` times. -/
def State.evDet (s : State) (a i n : Nat) : State :=
  if n = 0 then s else
  (s.onEngs fun e => e.upd (a / 16) fun g => { g with detEvents := bitSet g.detEvents i }).count
    (0x70 + i) (some (a / 16)) (some a) n

/-- PST_SRV_EVENTS bit (R279, codes from 0x78). -/
def State.evSrv (s : State) (a i : Nat) : State :=
  (s.onEngs fun e => e.upd (a / 16) fun g => { g with srvEvents := bitSet g.srvEvents i }).count
    (0x78 + i) (some (a / 16)) (some a) 1

/-- The CODC record of a slot. -/
def State.codcRec (s : State) (ch slot : Nat) : Option CodcRec :=
  s.b.codc.find? fun r => r.channel == ch && r.slot == slot

/-- SLOT_EVENTS bit of a codec slot (R300, codes from 0x80). -/
def State.evSlot (s : State) (ch slot i : Nat) : State :=
  (s.onCodec fun c => c.upd (8 * ch + slot) fun x => { x with events := bitSet x.events i }).count
    (0x80 + i) (some ch) ((s.codcRec ch slot).map (·.activity)) 1

/-- LEAF_EVENTS bit (R267, codes from 0x90). -/
def State.evLeaf (s : State) (i : Nat) (act : Option Nat) : State :=
  (s.onLeaf fun l => { l with events := bitSet l.events i }).count (0x90 + i) none act 1

/-- PORT_EVENTS bit (R319, codes from 0xA0). -/
def State.evPort (s : State) (p i : Nat) (act : Option Nat) : State :=
  (s.onIng fun g => { g with ports := g.ports.upd p fun x => { x with events := bitSet x.events i } }).count
    (0xA0 + i) none act 1

/-- RPORT_EVENTS bit (R340, codes from 0xB0). -/
def State.evRport (s : State) (p i : Nat) (act : Option Nat) : State :=
  (s.onRing fun r => { r with ports := r.ports.upd p fun x => { x with events := bitSet x.events i } }).count
    (0xB0 + i) none act 1

/-- HOST_EVENTS bit (R359, codes from 0xC0). -/
def State.evHost (s : State) (i : Nat) (act : Option Nat) : State :=
  (s.onHost fun h => { h with events := bitSet h.events i }).count (0xC0 + i) none act 1

/-- KSI_EVENTS bit (R388, codes from 0xD0); POISON and ORPHAN also advance their own counts (R389). -/
def State.evKsi (s : State) (i : Nat) (act : Option Nat) : State :=
  (s.onKsi fun k => { k with
    events := bitSet k.events i
    poisons := if i = 0 then k.poisons + 1 else k.poisons
    orphans := if i = 2 then k.orphans + 1 else k.orphans }).count (0xD0 + i) none act 1

/-- PWR_EVENTS bit (R453, codes from 0xE0). -/
def State.evPwr (s : State) (i : Nat) : State :=
  (s.onPwr fun p => { p with events := bitSet p.events i }).count (0xE0 + i) none none 1

/-- PAIR_EVENTS bit (R470, codes from 0xE8). -/
def State.evPair (s : State) (i : Nat) : State :=
  (s.onPair fun p => { p with events := bitSet p.events i }).count (0xE8 + i) none none 1

/-- CONS_EVENTS bit (R412, codes from 0xF0). -/
def State.evCons (s : State) (i : Nat) : State :=
  (s.onCons fun p => { p with events := bitSet p.events i }).count (0xF0 + i) none none 1

/-- SAFE_EVENTS bit (R433, codes from 0xF8). -/
def State.evSafe (s : State) (i : Nat) (act : Option Nat) : State :=
  (s.onChk fun p => { p with events := bitSet p.events i }).count (0xF8 + i) none act 1

/-- VF_EVENTS bit of a function (R345). -/
def State.evVf (s : State) (vf i : Nat) : State :=
  s.onHost fun h => { h with funcs := h.funcs.upd vf fun f => { f with events := bitSet f.events i } }

end Sys2Proof.Machine
end

