-- ==== Sys2Proof/Machine/Ops.lean ====
section
/-! DEFINITION. The named operations every family shares: messages out, the accession record, free values, memory
under its checks, mailboxes, resets, and the settling of interrupts that ends every command. -/

namespace Sys2Proof.Machine

/-- A message leaves the block. -/
def State.out (s : State) (o : Out) : State := s.onSent fun l => o :: l

/-- An entry of the accession record, newest first. -/
def State.record (s : State) (e : AccEntry) : State := s.onKeep fun k => { k with record := e :: k.record }

/-- `n` free bytes, and the state with the free-value counter advanced (log 2). -/
def State.freeBytes (s : State) (n : Nat) : List Byte := (List.range n).map fun i => Config.freeByte (s.freeCount + i)

/-- The state after `n` free bytes were taken. -/
def State.tookFree (s : State) (n : Nat) : State := s.onFreeCount (· + n)

/-! ### Bytes of a memory -/

/-- `n` bytes of a memory from an address. -/
def rdBytes (m : Tab Byte) (a n : Nat) : List Byte := (List.range n).map fun i => m.get (a + i)

/-- Bytes written to a memory from an address upward; the canonical form is kept. -/
def wrBytes (m : Tab Byte) (a : Nat) : List Byte → Tab Byte
  | [] => m
  | b :: r => wrBytes (m.set a b) (a + 1) r

/-- Every byte of a range erased: it reads as an unlisted byte does. -/
def clearRange (m : Tab Byte) (a n : Nat) : Tab Byte := m.keep fun k _ => !(decide (a ≤ k) && decide (k < a + n))

/-! ### Scratchpad (R130 to R144) -/

/-- Bytes of one channel's scratchpad. -/
def spChanBytes : Nat := 0x1800000

/-- Bytes of a bank. -/
def bankBytes : Nat := 0x80000

/-- The key of a scratchpad byte: channel and local address without its window. -/
def spKey (ch addr : Nat) : Nat := ch * spChanBytes + addr % 0x2000000

/-- Whether a bank is unpowered (R144). -/
def State.bankOff (s : State) (ch bank : Nat) : Bool := decide (24 ≤ bank) && !(s.spad.chan.get ch).sphOn

/-- The LOAN register of a bank. -/
def State.loanOf (s : State) (ch bank : Nat) : LoanReg := s.spad.loans.get (48 * ch + bank)

/-- What a check of an access says (R131, R132, R144, R130). -/
inductive Acc where
  | ok | loan | off | bad
deriving DecidableEq, Repr, Inhabited

/-- An activity's access to one bank (R131). -/
def State.bankAcc (s : State) (a : Nat) (isWrite : Bool) (bank : Nat) : Acc :=
  if 48 ≤ bank then .bad
  else if s.bankOff (a / 16) bank then .off
  else
    let l := s.loanOf (a / 16) bank
    if l.owned && l.owner.toNat == a % 16 then .ok
    else if !isWrite && l.share.getLsbD (a % 16) then .ok
    else .loan

/-- An activity's access to `n` bytes from a local address: the first bank in address order that refuses it (R130 to
R132). -/
def State.spAcc (s : State) (a : Nat) (isWrite : Bool) (addr n : Nat) : Acc :=
  if addr / 0x2000000 % 4 = 3 || 0x8000000 ≤ addr then .bad
  else
    let lo := addr % 0x2000000
    let b0 := lo / bankBytes
    let b1 := (lo + (n - 1)) / bankBytes
    ((List.range (b1 - b0 + 1)).map fun i => s.bankAcc a isWrite (b0 + i)).foldl
      (fun r x => if r == .ok then x else r) .ok

/-- The events of an op's or a queue's refused scratchpad access (R132, R143, R144). -/
def State.spRefused (s : State) (a : Nat) : Acc → State
  | .ok => s
  | .loan => s.evSpc (a / 16) 0 (some a)
  | .off => s.evSpc (a / 16) 2 none
  | .bad => (s.evSpc (a / 16) 3 none).evSpc (a / 16) 0 (some a)

/-- `n` bytes of a channel's scratchpad. -/
def State.spGet (s : State) (ch addr n : Nat) : List Byte := rdBytes s.spad.mem (spKey ch addr) n

/-- Write bytes through the normal window. -/
def State.spPut (s : State) (ch addr : Nat) (b : List Byte) : State :=
  s.onSpad fun p => { p with mem := wrBytes p.mem (spKey ch addr) b }

/-- Write bytes through the window the local address names: normal, bit-set or bit-clear (R137). -/
def State.spWrite (s : State) (ch addr : Nat) (b : List Byte) : State :=
  match addr / 0x2000000 % 4 with
  | 1 => s.spPut ch addr (List.zipWith (· ||| ·) (s.spGet ch addr b.length) b)
  | 2 => s.spPut ch addr (List.zipWith (fun x y => x &&& ~~~ y) (s.spGet ch addr b.length) b)
  | _ => s.spPut ch addr b

/-- One bank's 512 KiB zeroed. -/
def State.zeroBank (s : State) (ch bank : Nat) : State :=
  s.onSpad fun p => { p with mem := clearRange p.mem (spKey ch (bank * bankBytes)) bankBytes }

/-! ### Key slots and sealed lines (R360 to R370) -/

/-- The weight key slot (`cache` false) or cache key slot of an epoch of a tenant (R367); 40 names no slot. -/
def State.keySlotOf (s : State) (k : Nat) (epoch cache : Bool) : Nat :=
  if k = 0 then (if cache then 33 else 32)
  else match s.b.tentOf k with
    | some t => t.slotBase + (if epoch then 2 else 0) + (if cache then 1 else 0)
    | none => 40

/-- Whether a key slot is LIVE. -/
def State.slotLive (s : State) (n : Nat) : Bool := (s.ksi.slots.get n).state == .live

/-- The tenant's present write epoch (R375). -/
def State.writeEpoch (s : State) (k : Nat) : Bool := (s.ksi.tenants.get k).writeEpoch

/-- The key of a GDDR6 byte. -/
def gdKey (ch addr : Nat) : Nat := ch * 2 ^ 35 + addr

/-- Bytes of a granule (R82). -/
def granBytes : Nat := 0x200000

/-- Whether a granule is VIRGIN: its region is WEIGHT or DATA and nothing was written since it became so (R363). -/
def State.virgin (s : State) (r : MemxRec) (g : Nat) : Bool :=
  (r.kind == 1 || r.kind == 2) && !s.gddr.touched.get (r.channel * 16384 + g)

/-- The epoch a line of a WEIGHT or DATA region is under: below the cursor, the other one (R362). -/
def State.lineEpoch (s : State) (r : MemxRec) (addr : Nat) : Bool :=
  let t := s.gddr.regions.get r.region
  if (addr - r.base * granBytes) / 128 < t.cursor then !t.epoch else t.epoch

/-- The leaf whose content a local slot of a channel holds. -/
def State.leafAt (s : State) (ch slot : Nat) : Option (Nat × LeafEntry) :=
  s.leaf.map.find? fun e => e.2.tier == .loc && e.2.site == ch && e.2.slot == slot && e.2.state != .free
    && e.2.state != .retired

/-- The tenant and key slot a line of GDDR6 is sealed under; none when it is not sealed (R360, R362). -/
def State.lineSlot (s : State) (r : MemxRec) (ch addr : Nat) : Option (Nat × Nat) :=
  match r.kind with
  | 1 => some (r.tenant, s.keySlotOf r.tenant (s.lineEpoch r addr) false)
  | 2 => some (r.tenant, s.keySlotOf r.tenant (s.lineEpoch r addr) true)
  | 3 => match s.leafAt ch (addr / 8192) with
    | some e => some (e.2.tenant, s.keySlotOf e.2.tenant e.2.epoch true)
    | none => some (r.tenant, 40)
  | 7 => some (0, 33)
  | _ => none

/-- What a read of memory came to (R364, R431). -/
inductive MemRes where
  | ok | denied | dead | uncorr | mac
deriving DecidableEq, Repr, Inhabited

/-- The checks of R364 on one line, for a requester of tenant `t`; `line` is what the devices returned: 0 clean, 1
corrected, 2 uncorrectable, 3 MAC mismatch. -/
def State.lineRead (s : State) (t ch addr line : Nat) : MemRes :=
  match s.b.regionAt ch (addr / granBytes) with
  | none => if line = 2 then .uncorr else .ok
  | some r =>
    match s.lineSlot r ch addr with
    | none => if line = 2 then .uncorr else .ok
    | some (k, slot) =>
      if k ≠ t then .denied
      else if !s.slotLive slot then .dead
      else if s.virgin r (addr / granBytes) then .ok
      else if line = 2 then .uncorr
      else if line = 3 then .mac
      else .ok

/-- The addresses of the 128-byte lines a range touches. -/
def linesOf (addr n : Nat) : List Nat :=
  if n = 0 then [] else (List.range ((addr + n - 1) / 128 - addr / 128 + 1)).map fun i => 128 * (addr / 128 + i)

/-- The checks over a range: the first line that fails; the device outcome applies to the first line. -/
def State.rangeRead (s : State) (t ch addr n line : Nat) : MemRes :=
  (linesOf addr n).foldl (fun r x => if r == .ok then s.lineRead t ch x (if x = 128 * (addr / 128) then line else 0)
    else r) .ok

/-- `n` bytes of a channel's GDDR6 payload. -/
def State.gdGet (s : State) (ch addr n : Nat) : List Byte := rdBytes s.gddr.mem (gdKey ch addr) n

/-- Write bytes to GDDR6; a granule that was VIRGIN is filled with zeros first and stops being so (R363). -/
def State.gdPut (s : State) (ch addr : Nat) (b : List Byte) : State :=
  let grans := if b.isEmpty then []
    else (List.range ((addr + b.length - 1) / granBytes - addr / granBytes + 1)).map (addr / granBytes + ·)
  let s1 := grans.foldl (fun (s : State) g => match s.b.regionAt ch g with
    | some r => if s.virgin r g then s.onGddr fun x =>
        { x with
          mem := clearRange x.mem (gdKey ch (g * granBytes)) granBytes
          touched := x.touched.set (ch * 16384 + g) true } else s
    | none => s) s
  s1.onGddr fun x => { x with mem := wrBytes x.mem (gdKey ch addr) b }

/-- Whether a write of a line by a requester of tenant `t` proceeds (R365). -/
def State.lineWritable (s : State) (t ch addr : Nat) : Bool :=
  match s.b.regionAt ch (addr / granBytes) with
  | none => true
  | some r => match s.lineSlot r ch addr with
    | none => true
    | some (k, slot) => k == t && s.slotLive slot

/-- A requester's write: bytes of lines that may be written land, others are dropped and counted as ORPHAN (R365). -/
def State.gdWrite (s : State) (a t ch addr : Nat) (b : List Byte) : State :=
  (linesOf addr b.length).foldl (fun (s : State) x =>
    let lo := max x addr
    let hi := min (x + 128) (addr + b.length)
    if s.lineWritable t ch x then s.gdPut ch lo (slice b (lo - addr) (hi - lo))
    else s.evKsi 2 (some a)) s

/-! ### Resets (R370, R431, R472 to R474) -/

/-- What a module reset leaves of the conservator: fused values, and what the accession record holds (R399, R408 to R411). -/
def Cons.kept (c : Cons) : Cons :=
  { ceiling := c.ceilingNext.getD c.ceiling
    sensors := c.sensors.foldl (fun (t : Tab Sensor) e =>
      t.set e.1 { gainF := e.2.gainF, offsetF := e.2.offsetF, factory := e.2.factory }) []
    rails := c.rails.foldl (fun (t : Tab Rail) e =>
      t.set e.1 { vFuse := e.2.vFuse, guard := e.2.guard, vMax := e.2.vMax }) []
    poweredNs := c.poweredNs, lastDay := c.lastDay
    history := c.history, health := c.health, uncorr := c.uncorr }

/-- A module reset with its cause (R473, R474): the AON latch keeps the first cause and counts later ones, everything
but the AON domain, the fuses and the flash goes to its reset value, and the hold begins. Pins driven from outside keep
their levels; removals in progress end, noted in the accession record (R380). -/
def State.resetModule (s : State) (cause : Nat) : State :=
  let ended : List AccEntry := ((List.range 9).filter fun k => (s.ksi.tenants.get k).removal.isSome).map fun k =>
    { kind := .removal, vals := [k, 1] }
  let keep := if s.start.hold then { s.keep with later := min 0xFFFF (s.keep.later + 1) }
    else { s.keep with cause := cause, later := 0 }
  { State.reset with
    keep := { keep with record := ended ++ keep.record }
    tb := { ref10Present := s.tb.ref10Present, ref10Ok := s.tb.ref10Ok }
    tick := { encLevel := s.tick.encLevel }
    bind := { activeSlot := s.bind.activeSlot, keys := s.bind.keys, serialFloor := s.bind.serialFloor }
    ksi := { lifecycle := s.ksi.lifecycle, lcCount := s.ksi.lcCount }
    cons := s.cons.kept
    pwr := { pcapPin := s.pwr.pcapPin }
    pair := { peer := s.pair.peer, ownBus := s.pair.ownBus }
    host := { eid := s.host.eid }
    start := { hold := true, rstPin := s.start.rstPin, p48 := s.start.p48, aux := s.start.aux, perst := s.start.perst,
               recoverNext := s.start.recoverNext, waitInput := s.start.waitInput || cause == 8
               tripHold := s.start.tripHold || cause == 9, tripFreed := s.start.tripFreed && cause != 9 }
    sent := s.sent, pending := s.pending, freeCount := s.freeCount }

/-- 720 powered hours in ns. -/
def ns720h : Nat := 2592000000000000

/-- An uncorrectable error of a GDDR6 device: the second within 720 powered hours sets its health to REPLACE for good (R431).
`c` is the device's health index. -/
def State.deviceError (s : State) (c : Nat) : State :=
  let again := s.cons.uncorr.any fun e => e.1 == c && decide (s.cons.poweredNs ≤ e.2 + ns720h)
  s.onCons fun k => { k with
    uncorr := (c, k.poweredNs) :: k.uncorr
    health := if again then k.health.upd c fun h => { h with state := .replace, pinned := true } else k.health }

/-- An uncorrectable ECC error: an entry with the memory, the address and the tick, then a reset (R431). Memory 0 is
GDDR6, 1 a scratchpad bank. Which device of the channel a failed line counts against is a free value: the spec does not place a
line's symbols (log 37). -/
def State.uncorrectable (s : State) (memory addr : Nat) : State :=
  let s1 := s.record { kind := .ecc, vals := [memory, addr, s.tick.num] }
  let s2 := if memory = 0 then
      (s1.deviceError (1 + 6 * (addr / 2 ^ 35) + ((s1.freeBytes 1).getD 0 0).toNat % 6)).tookFree 1
    else s1
  s2.resetModule 5

/-- A wipe of vitrine areas (R147): cause 1 tamper, 2 life cycle, 3 reset, 4 tenant removal, 5 integrity; area 0 all. -/
def State.wipeVitrine (s : State) (cause area : Nat) : State :=
  s.onKsi fun k => { k with vitrine := { k.vitrine with
    wipes := min 0xFFFF (k.vitrine.wipes + 1), lastCause := cause, lastArea := area } }

/-- An integrity violation charged to a tenant: an entry with tenant, slot, channel, line and tick, the tenant's
vitrine area wiped, and a module reset (R370). -/
def State.integrity (s : State) (k slot ch lid : Nat) : State :=
  ((s.record { kind := .integrity, vals := [k, slot, ch, lid, s.tick.num] }).wipeVitrine 5 k).resetModule 4

/-- What a failed sealed read by an activity does beyond aborting it (R364, R370, R431). -/
def State.readFailed (s : State) (a ch addr : Nat) : MemRes → State
  | .ok => s
  | .denied => s.evKsi 1 (some a)
  | .dead => s.evKsi 0 (some a)
  | .uncorr => s.uncorrectable 0 (gdKey ch addr)
  | .mac => s.integrity (s.b.tenantOf a)
      (match s.b.regionAt ch (addr / granBytes) with
        | some r => (s.lineSlot r ch addr).elim 40 (·.2)
        | none => 40) ch (addr / 128)

/-! ### Mailboxes (R122 to R128) -/

/-- The MBOX record of an enabled mailbox channel. -/
def State.mbRec (s : State) (m : Nat) : Option MboxRec := s.b.mbox.find? fun r => r.mailbox == m && r.enable == 1

/-- The owner of a side. -/
def MboxRec.owner (r : MboxRec) (sideB : Bool) : Nat := if sideB then r.masterB else r.masterA

/-- The key of a side. -/
def sideKey (m : Nat) (sideB : Bool) : Nat := 2 * m + if sideB then 1 else 0

/-- A side's registers. -/
def State.mbSide (s : State) (m : Nat) (sideB : Bool) : MbSide := s.mbx.sides.get (sideKey m sideB)

/-- Update a side. -/
def State.onSide (s : State) (m : Nat) (sideB : Bool) (f : MbSide → MbSide) : State :=
  s.onMbx fun x => { x with sides := x.sides.upd (sideKey m sideB) f }

/-- A master's role generation. -/
def State.genOf (s : State) (id : Nat) : BitVec 16 := (s.mbx.gens.get id).gen

/-- Words a message occupies (R124). -/
def Msg.words (g : Msg) : Nat := 1 + g.pay.length

/-- Words queued on a side. -/
def MbSide.words (x : MbSide) : Nat := x.queue.foldl (fun n g => n + g.words) 0

/-- Saturating 8-bit count. -/
def sat8 (n : Nat) : Nat := min 255 n

/-- Whether an identity is a general core, and of which channel. -/
def gcChan (id : Nat) : Option Nat := if 0x20 ≤ id ∧ id < 0x38 then some ((id - 0x20) / 4) else none

/-- Whether the running profile's PROFILE_DOMAINS power a channel's general cores (R95, R126). -/
def State.gcAllowed (s : State) (ch : Nat) : Bool := (s.b.powr.profileDomains.getD (6 * s.pwr.profile + ch) 0).testBit 2

/-- Whether a channel's general cores are powered. -/
def State.gcOn (s : State) (ch : Nat) : Bool := s.domainOn ch 2

/-- A channel's general cores power up (R126, R435). Their roles changed when the domain went off, so what was queued since stays
and is seen (R126). -/
def State.gcPowerUp (s : State) (ch : Nat) : State :=
  s.onPwr fun p => { p with domains := p.domains.upd ch fun d => d ||| 4 }

/-- The wake event of R126 for a receiver on a mailbox channel: host functions get a doorbell bit, general cores power up where the
profile allows, firmware services are notified. -/
def State.wake (s : State) (id m : Nat) : State :=
  if id = idHostPf || (vfOf id).isSome then
    s.onMbx fun x => { x with bells := x.bells.upd id fun d => { d with pending := bitSet d.pending m } }
  else match gcChan id with
    | some ch =>
      if s.gcOn ch then s
      else if s.gcAllowed ch then s.gcPowerUp ch
      else s.count 0x23 none none 1
    | none => s.onMbx fun x => { x with wakes := x.wakes.upd id (· + 1) }

/-- A role change of a master as one step (R127): its queued messages go, counted in STALE_DROPS, its generation
increases, and each partner gets PEER_GEN, NOTICE and a wake event. -/
def State.roleChange (s : State) (id : Nat) : State :=
  let s1 := s.onMbx fun x => { x with gens := x.gens.upd id fun g =>
    { gen := if g.gen = 0xFFFF then 1 else g.gen + 1 } }
  s1.b.mbox.foldl (fun (s : State) r =>
    if r.enable ≠ 1 then s
    else
      let one := fun (s : State) (sideB : Bool) =>
        if r.owner sideB ≠ id then s
        else
          let s2 := s.onSide r.mailbox sideB fun x =>
            { x with staleDrops := sat8 (x.staleDrops + x.queue.length), queue := [] }
          let s3 := s2.onSide r.mailbox (!sideB) fun x => { x with notice := true }
          s3.wake (r.owner (!sideB)) r.mailbox
      one (one s false) true) s1

/-! ### Activities and the flags of their outputs (R42, R416, R428) -/

/-- An activity's run. -/
def State.act (s : State) (a : Nat) : Act := s.acts.get a

/-- Update an activity's run. -/
def State.onAct (s : State) (a : Nat) (f : Act → Act) : State := s.onActs fun t => t.upd a f

/-- The flags an activity's outputs of the work in hand carry: those of the open tick, or while it carries, those of
the tick it carries. -/
def State.flagAct (s : State) (a : Nat) (f : OutFlags → OutFlags) : State :=
  s.onAct a fun x => if x.carry then { x with flagsPrev := f x.flagsPrev } else { x with flags := f x.flags }

/-- Outputs flagged LATE (R42). -/
def State.flagLate (s : State) (a : Nat) : State := (s.flagAct a fun f => { f with late := true }).evTick 0

/-- Outputs flagged RANGE by the range checker (R416, R418, R428). -/
def State.flagRange (s : State) (a : Nat) : State := s.flagAct a fun f => { f with range := true }

/-- A GDDR6 read by an activity that touches a SUSPECT or RELOADING weight copy flags its outputs (R428). -/
def State.copyTouch (s : State) (a ch addr n : Nat) : State :=
  if (List.range s.b.safe.copies.length).any fun i =>
      ((s.chk.copies.get i).state == .suspect || (s.chk.copies.get i).state == .reloading)
        && match s.b.region ((s.b.safe.copies.getD i {}).region) with
          | some r => r.channel == ch && decide (r.base * granBytes < addr + n)
              && decide (addr < (r.base + r.size) * granBytes)
          | none => false
  then s.flagRange a else s

/-! ### Interrupts (R343 to R345) -/

/-- IRQ_SUM (R344). -/
def State.irqSum (s : State) : BitVec 11 :=
  let put := fun (v : BitVec 11) (i : Nat) (x : Bool) => bitPut v i x
  let eng := s.engs.any fun e => e.2.me.events != 0 || e.2.ae.events != 0 || e.2.detEvents != 0 || e.2.srvEvents != 0
  let v := put 0 0 (s.tick.events != 0)
  let v := put v 1 s.host.bindIrq
  let v := put v 2 (s.leaf.events != 0)
  let v := put v 3 (s.spad.chan.any fun e => e.2.events != 0)
  let v := put v 4 (s.dma.queues.any fun e => e.2.events.getLsbD 1)
  let v := put v 5 (eng || s.codec.any fun e => e.2.events != 0)
  let v := put v 6 (s.ing.ports.any fun e => e.2.events != 0)
  let v := put v 7 (s.ring.ports.any fun e => e.2.events != 0)
  let v := put v 8 (s.pwr.events != 0)
  let v := put v 9 (s.cons.events != 0 || s.chk.events != 0)
  put v 10 (s.ksi.events != 0)

/-- The identity of a function: 0 the PF, k VF k. -/
def idFn (fn : Nat) : Nat := idHostPf + fn

/-- The condition of a vector of a function (R343). -/
def State.vecCond (s : State) (fn vec : Nat) : Bool :=
  let d := s.mbx.bells.get (idFn fn)
  match vec with
  | 0 => d.pending &&& d.mask != 0
  | 1 => if fn = 0 then s.irqSum &&& s.host.irqEn != 0
    else (s.host.funcs.get fn).events &&& (s.host.funcs.get fn).eventsEn != 0
  | 2 => fn == 0 && s.host.events != 0
  | _ => false

/-- The key of a vector. -/
def vecKey (fn vec : Nat) : Nat := 4 * fn + vec

/-- The vectors a host can receive: three of the PF and two of each VF that exists (R342, R343). -/
def State.vectors (s : State) : List (Nat × Nat) :=
  [(0, 0), (0, 1), (0, 2)] ++ (List.range s.host.numVfs).flatMap fun k => [(k + 1, 0), (k + 1, 1)]

/-- The interrupt message of a vector. -/
def msixOut (fn vec : Nat) : Out := { kind := .msix, port := fn, code := vec }

/-- A vector with its condition taken anew: one that went from false to true on a masked vector becomes pending (R343). -/
def MsixVec.settle (x : MsixVec) (c : Bool) : MsixVec :=
  if c && !x.cond && x.masked then { x with cond := true, pend := true } else { x with cond := c }

/-- What settling the vectors leaves: the vector table, written anew for the vectors a host can receive, and the messages sent. -/
def State.settled (s : State) : Tab MsixVec × List Out :=
  s.vectors.foldl (fun (acc : Tab MsixVec × List Out) v =>
    let x := s.host.msix.get (vecKey v.1 v.2)
    let c := s.vecCond v.1 v.2
    (if x.settle c = default then acc.1 else acc.1.put (vecKey v.1 v.2) (x.settle c),
     if c && !x.cond && !x.masked && s.host.linkUp then msixOut v.1 v.2 :: acc.2 else acc.2))
    (s.host.msix.keep fun k _ => !(s.vectors.any fun v => vecKey v.1 v.2 == k), s.sent)

/-- The end of every command: each interrupt condition is taken anew, and a vector whose condition went from false to
true sends its message or becomes pending (R343). Nothing else changes. -/
def commit (s : State) : State :=
  (s.onHost fun h => { h with msix := s.settled.1 }).onSent fun _ => s.settled.2

/-- A write to a register that governs a vector: where the condition stays true the message is sent again (R343), so
the condition is taken as new. -/
def State.reArm (s : State) (fn vec : Nat) : State :=
  s.onHost fun h => { h with msix := h.msix.upd (vecKey fn vec) fun x => { x with cond := false } }

/-- A command with no effect: the event it names does not occur in this state. -/
def noEvent (s : State) : State := s

end Sys2Proof.Machine
end

