-- ==== Sys2Proof/Machine/Dma.lean ====
section
/-! DEFINITION. The DMA queues (spec/07): programs, checks, beats, pacing, descriptor chains, completion. -/

namespace Sys2Proof.Machine

/-! ### Address words (R149) -/

/-- ADDR. -/
def adAddr (w : DWord) : Nat := w.toNat % 2 ^ 40
/-- CHANNEL. -/
def adChan (w : DWord) : Nat := w.toNat / 2 ^ 40 % 8
/-- SPACE: 0 SCRATCH, 1 GDDR6, 2 HOST, 3 FIFO, 4 PEER. -/
def adSpace (w : DWord) : Nat := w.toNat / 2 ^ 48 % 16
/-- WINDOW. -/
def adWin (w : DWord) : Nat := w.toNat / 2 ^ 52 % 16

/-- FIFO numbers that are sources (R155). -/
def fifoIsSrc (f : Nat) : Bool := f ≤ 3 || (0x18 ≤ f && f ≤ 0x1F)
/-- FIFO numbers that are destinations (R155). -/
def fifoIsDst (f : Nat) : Bool := (0x10 ≤ f && f ≤ 0x17) || (0x20 ≤ f && f ≤ 0x23)
/-- The log2 width of a FIFO (R155). -/
def fifoWidth (f : Nat) : Nat := if f ≤ 3 then 3 else if f < 0x20 then 4 else 6
/-- The capacity of a FIFO in 64-byte words (R155). -/
def fifoCap (f : Nat) : Nat := if f ≤ 3 then 1024 else if f < 0x18 then 4096 else if f < 0x20 then 2048 else 128

/-- Whether an address word keeps R149. -/
def adOk (w : DWord) : Bool :=
  w.toNat / 2 ^ 43 % 32 == 0 && w.toNat / 2 ^ 56 == 0 && decide (adSpace w ≤ 4)
    && (if adSpace w = 1 then decide (adChan w ≤ 5) else adChan w == 0)
    && (if adSpace w = 2 then true else if adSpace w = 4 then decide (adWin w ≤ 5) else adWin w == 0)
    && (adSpace w != 0 || adAddr w / 2 ^ 27 == 0)
    && (adSpace w != 3 || (adAddr w / 256 == 0 && (fifoIsSrc (adAddr w) || fifoIsDst (adAddr w))))

/-- The signed steps of the source side, innermost first. -/
def Prog.srcSteps (p : Prog) : List Int := [p.step0.toInt, p.step2.toInt, p.step4.toInt]
/-- The signed steps of the destination side. -/
def Prog.dstSteps (p : Prog) : List Int := [p.step1.toInt, p.step3.toInt, p.step5.toInt]
/-- The loop counts, innermost first. -/
def Prog.loops (p : Prog) : List Nat := [p.n0, p.n1, p.n2]

/-- The lowest and highest address a side's rows start at, over all iterations (R150). -/
def sideSpan (base : Nat) (ns : List Nat) (st : List Int) : Int × Int :=
  (ns.zip st).foldl (fun (acc : Int × Int) x =>
    let d : Int := ((x.1 : Int) - 1) * x.2
    (acc.1 + min 0 d, acc.2 + max 0 d)) ((base : Int), (base : Int))

/-- One side's part of R152: width, alignment, FIFO width and steps, SCRATCH extent. -/
def sideOk (w : DWord) (wid : Nat) (ns : List Nat) (st : List Int) (count : Nat) : Bool :=
  if adSpace w = 3 then wid == fifoWidth (adAddr w) && st.all (· == 0)
  else
    let u : Int := 2 ^ wid
    let sp := sideSpan (if adSpace w = 0 then adAddr w % 0x2000000 else adAddr w) ns st
    (adAddr w : Int) % u == 0 && st.all (fun x => x % u == 0)
      && (adSpace w != 0 || (decide (0 ≤ sp.1) && decide (sp.2 + count ≤ (spChanBytes : Int))))

/-- A program's rules: R149, R152, and with PACE the paced FIFO on one side (R155). -/
def progOk (p : Prog) (paceFifo : Nat) : Bool :=
  adOk p.src && adOk p.dst && decide (p.srcW ≤ 6) && decide (p.dstW ≤ 6)
    && decide (1 ≤ p.count ∧ p.count ≤ 16777216) && p.count % 2 ^ p.srcW == 0 && p.count % 2 ^ p.dstW == 0
    && p.loops.all (fun n => decide (1 ≤ n))
    && sideOk p.src p.srcW p.loops p.srcSteps p.count && sideOk p.dst p.dstW p.loops p.dstSteps p.count
    && (!p.pace || (adSpace p.src == 3 && adAddr p.src == paceFifo) || (adSpace p.dst == 3 && adAddr p.dst == paceFifo))

/-- Bytes of a spill slot: 68 lines of 128 (R335, R347). -/
def spillSlotBytes : Nat := 8704

/-- One side's range check (R150): its whole extent lies where the queue's activity may go. -/
def State.sideInRange (s : State) (a : Nat) (w : DWord) (ns : List Nat) (st : List Int) (count : Nat)
    (isWrite : Bool) : Bool :=
  let k := s.b.tenantOf a
  let n := a / 16
  let sp := sideSpan (adAddr w) ns st
  let lo := sp.1
  let hi := sp.2 + count - 1
  match adSpace w with
  | 0 => true
  | 1 =>
    let t := adChan w
    decide (0 ≤ lo) && decide (hi < 10922 * (granBytes : Int))
      && (t == n || (!isWrite && (s.b.dq a).remote.testBit t))
      && (List.range ((hi / granBytes - lo / granBytes).toNat + 1)).all fun i =>
        match s.b.regionAt t ((lo / granBytes).toNat + i) with
        | none => false
        | some r => (r.tenant == k) && (!isWrite || !r.flags.testBit 1) && (t == n || r.readers.testBit n)
  | 2 =>
    decide (0 ≤ lo) && decide (hi < (spillSlotBytes * (s.host.wins.get (adWin w)).slots.toNat : Nat))
      && s.b.memx.any fun r => r.kind == 5 && r.tenant == k && r.link == adWin w
        && decide ((spillSlotBytes * r.base : Nat) ≤ lo) && decide (hi < (spillSlotBytes * (r.base + r.size) : Nat))
  | 3 => if isWrite then fifoIsDst (adAddr w) else fifoIsSrc (adAddr w)
  | 4 => decide (0 ≤ lo) && s.b.memx.any fun r => r.kind == 6 && r.tenant == k && r.link == adWin w
        && decide (hi < (spillSlotBytes * r.size : Nat))
  | _ => false

/-- The range check of both sides (R150). -/
def State.progInRange (s : State) (a : Nat) (p : Prog) : Bool :=
  s.sideInRange a p.src p.loops p.srcSteps p.count false && s.sideInRange a p.dst p.loops p.dstSteps p.count true

/-! ### Queue state -/

/-- A queue. -/
def State.queue (s : State) (a : Nat) : Queue := s.dma.queues.get a

/-- Update a queue. -/
def State.onQueue (s : State) (a : Nat) (f : Queue → Queue) : State :=
  s.onDma fun d => { d with queues := d.queues.upd a f }

/-- Whether a queue has a transfer or chain in hand. -/
def Queue.busy (q : Queue) : Bool := q.state == .active || q.state == .paced

/-- Bytes in a FIFO of an activity's home channel as its queue sees it: its own receive buffer for 0x00 to 0x03 (R304),
the codec FIFOs, the port's transmit FIFO. -/
def State.fifoFill (s : State) (a f : Nat) : Nat :=
  if f ≤ 3 then (s.ing.rx.get (4 * a + f)).data.length
  else if f < 0x20 then (s.dma.fifos.get (a / 16 * 256 + f)).data.length
  else 64 * (s.ing.tx.get (f - 0x20)).length

/-- Whether an end of block is pending in a source FIFO (R156). -/
def State.fifoMark (s : State) (a f : Nat) : Bool :=
  if f ≤ 3 then !(s.ing.rx.get (4 * a + f)).marks.isEmpty
  else !(s.dma.fifos.get (a / 16 * 256 + f)).marks.isEmpty

/-- A FIFO after `n` bytes left it. -/
def Fifo.pop (f : Fifo) (n : Nat) : Fifo :=
  { data := f.data.drop n, marks := (f.marks.filter (n < ·)).map (· - n) }

/-- The opening and closing of a paced queue by its FIFO's fill (R156). -/
def State.paceUpdate (s : State) (a : Nat) : State :=
  let q := s.queue a
  if !(q.busy && q.prog.pace) then s
  else
    let f := (s.b.dq a).paceFifo
    let fill := s.fifoFill a f
    let hi := 64 * (s.b.dq a).paceHigh
    let lo := 64 * (s.b.dq a).paceLow
    let opened := if fifoIsSrc f then
        (if q.isOpen then !(decide (fill ≤ lo) && !s.fifoMark a f) else decide (hi ≤ fill) || s.fifoMark a f)
      else (if q.isOpen then !decide (hi ≤ fill) else decide (fill ≤ lo))
    s.onQueue a fun q => { q with isOpen := opened, state := if opened then .active else .paced }

/-- The op in progress that uses the queue learns its outcome: a COPY ends with it (R161, R163), a CONV that loads its
weight block goes on with OK and aborts with any other code (R199). -/
def State.copyOutcome (s : State) (a code : Nat) : State :=
  s.onActs fun t => t.upd a fun x => match x.run with
    | some r =>
      if r.code.isSome then x
      else if r.opcode = 0x0301 then { x with run := some { r with code := some code } }
      else if r.loading then
        { x with run := some (if code = 0 then { r with loading := false } else { r with loading := false, code := some code }) }
      else x
    | none => x

/-- The queue goes IDLE (OK) or HALTED with its last outcome (R158 step 4, R164). -/
def State.queueEnd (s : State) (a code : Nat) : State :=
  ((s.onQueue a fun q => { q with
    state := if code = 0 then .idle else .halted, code := code, codeTick := s.tick.num % 65536
    descAt := none, pendCode := none, stop := .none, hold := [], chained := false }).evQueue a
      (if code = 0 then 0 else 1)).copyOutcome a code

/-- The STATUS word of an outcome (R161). -/
def statusWord (code : Nat) (late : Bool) (tick : Nat) : Word :=
  BitVec.ofNat 32 (code + (if late then 256 else 0) + 65536 * (tick % 65536))

/-- The queue writes STATUS and then clears OWN in its descriptor, each under the loan check (R158 step 3). -/
def State.descWriteBack (s : State) (a at' code : Nat) (late : Bool) : State :=
  let w := fun (s : State) (addr : Nat) (b : List Byte) =>
    match s.spAcc a true addr b.length with
    | .ok => s.spWrite (a / 16) addr b
    | r => s.spRefused a r
  w (w s (at' + 4) (toLe 4 (statusWord code late s.tick.num).toNat)) (at' + 2 * 0x2000000) [1, 0, 0, 0]

/-- The program a descriptor's 64 bytes spell (R157). -/
def descProg (d : List Byte) : Prog :=
  { src := BitVec.ofNat 64 (u64 d 8), dst := BitVec.ofNat 64 (u64 d 16), count := u32 d 24,
    srcW := u32 d 0 / 16 % 8, dstW := u32 d 0 / 256 % 8, pace := (u32 d 0).testBit 2,
    n0 := u16 d 28, n1 := u16 d 30, n2 := u16 d 32,
    step0 := BitVec.ofNat 32 (u32 d 36), step1 := BitVec.ofNat 32 (u32 d 40), step2 := BitVec.ofNat 32 (u32 d 44),
    step3 := BitVec.ofNat 32 (u32 d 48), step4 := BitVec.ofNat 32 (u32 d 52), step5 := BitVec.ofNat 32 (u32 d 56) }

/-- Whether an activity owns a powered or unpowered bank of its channel. -/
def State.ownsBank (s : State) (a bank : Nat) : Bool :=
  decide (bank < 48) && (s.loanOf (a / 16) bank).owned && (s.loanOf (a / 16) bank).owner.toNat == a % 16

/-- A local address that may hold a descriptor: WINDOW and BYTE 0, in a bank the activity owns (R158). -/
def State.descAddrOk (s : State) (a addr : Nat) : Bool :=
  addr % 64 == 0 && addr / 0x2000000 == 0 && s.ownsBank a (addr / bankBytes)

/-- Whether a descriptor is malformed (R158): reserved bits of CTRL or NEXT, bytes 34 and 35, or a NEXT that names no
word of a bank the activity owns; a LAST descriptor names no next one (log 20). -/
def State.descBad (s : State) (a : Nat) (d : List Byte) : Bool :=
  let c := u32 d 0
  let nx := u32 d 60
  c.testBit 3 || c.testBit 7 || c / 2048 != 0 || u16 d 34 != 0 || nx / 2 ^ 25 != 0 || nx % 64 != 0
    || (!c.testBit 1 && !s.descAddrOk a nx)

/-- What the check of a program says: BAD_PROGRAM before RANGE_FAULT (R150). -/
def State.progCode (s : State) (a : Nat) (p : Prog) : Nat :=
  if !progOk p (s.b.dq a).paceFifo then 6 else if !s.progInRange a p then 4 else 0

/-- The queue with a program in hand, before its first beat. -/
def State.progStart (s : State) (a : Nat) (p : Prog) : State :=
  (s.onQueue a fun q => { q with
    state := .active, prog := p, pos := 0, started := false, isOpen := false, pendCode := none, hold := [] }).paceUpdate a

/-- One descriptor of a chain is read and started, or ends the chain (R158); `chained` says it is not the head. -/
def State.descRun (s : State) (a addr : Nat) (chained : Bool) : State :=
  if !s.descAddrOk a addr then s.queueEnd a 9
  else match s.spAcc a false addr 64 with
  | .ok =>
    let d := s.spGet (a / 16) addr 64
    if !(u32 d 0).testBit 0 then
      if chained then s.queueEnd a 0
      else ((s.onQueue a fun q => { q with state := .idle, descAt := none, stop := .none, empty := true }).evQueue a
        3).copyOutcome a 0
    else
      let s1 := s.onQueue a fun q => { q with
        descAt := some addr, descLast := (u32 d 0).testBit 1, descNext := BitVec.ofNat 27 (u32 d 60), chained := chained }
      let code := if s1.descBad a d then 9 else s1.progCode a (descProg d)
      if code = 0 then s1.progStart a (descProg d)
      else (s1.descWriteBack a addr code false).queueEnd a code
  | r => (s.spRefused a r).queueEnd a 3

/-- GO reaches the queue (R158, R164): dropped with GO_BUSY while a transfer is in hand, else the register program or
the chain starts. -/
def State.queueGo (s : State) (a : Nat) : State :=
  if (s.queue a).busy then s.evQueue a 2
  else
    let s1 := s.onQueue a fun q => { q with
      state := .active, bytes := 0, stop := .none, descAt := none, chained := false, empty := false, pendCode := none }
    if (s.b.dq a).mode = 1 then s1.descRun a (s.queue a).chainHead.toNat false
    else
      let p := (s.queue a).regs
      let code := s1.progCode a p
      if code = 0 then s1.progStart a p else s1.queueEnd a code

/-- An op loads the queue with a program and starts it, in place of a GO (R148, R163, R199). -/
def State.queueLoad (s : State) (a : Nat) (p : Prog) : State :=
  if (s.queue a).busy then s.evQueue a 2
  else
    let s1 := s.onQueue a fun q => { q with
      regs := p, state := .active, bytes := 0, stop := .none, descAt := none, chained := false, empty := false
      pendCode := none }
    let code := s1.progCode a p
    if code = 0 then s1.progStart a p else s1.queueEnd a code

/-- The rank of a stop: a later cause replaces only a lower one (R161). -/
def QStop.rank : QStop → Nat
  | .none => 0
  | .cut => 1
  | .aborted => 2
  | .revoked => 3

/-- The outcome code of a stop (R160). -/
def QStop.code : QStop → Nat
  | .none => 0
  | .cut => 1
  | .revoked => 2
  | .aborted => 10

/-- A stop asked of a queue (R158, R162): between two descriptors it ends the chain at once and touches neither the
finished nor the next one; otherwise it waits for the next beat. -/
def State.queueStop (s : State) (a : Nat) (w : QStop) : State :=
  let q := s.queue a
  if !q.busy then s
  else if q.chained && !q.started && q.pendCode.isNone then s.queueEnd a w.code
  else if q.stop.rank < w.rank then s.onQueue a fun q => { q with stop := w } else s

/-! ### Beats (R151 to R154, R160 to R162) -/

/-- The row and the offset in it of the destination byte at a position. -/
def Prog.rowStart (p : Prog) (isDst : Bool) (row : Nat) : Int :=
  let i0 := row % p.n0
  let i1 := row / p.n0 % p.n1
  let i2 := row / (p.n0 * p.n1)
  let st := if isDst then p.dstSteps else p.srcSteps
  let base := if isDst then adAddr p.dst else adAddr p.src
  (base : Int) + i0 * st.getD 0 0 + i1 * st.getD 1 0 + i2 * st.getD 2 0

/-- Bytes a program moves in all. -/
def Prog.total (p : Prog) : Nat := p.count * p.n0 * p.n1 * p.n2

/-- Whether an activity holds a reservation now (R32). -/
def State.holds (s : State) (a cls inst : Nat) : Bool :=
  (s.acts.get a).held.any fun h => h.cls == cls && h.inst == inst

/-- The reservations a beat crosses (R154). -/
def State.beatLicensed (s : State) (a : Nat) (p : Prog) : Bool :=
  let n := a / 16
  let lane := (s.b.dq a).ringLane
  (match adSpace p.src with
    | 1 => s.holds a 7 (adChan p.src) && (adChan p.src == n || s.holds a 8 n)
    | 2 => s.holds a 10 0 && s.holds a 8 n
    | 3 => fifoIsDst (adAddr p.src) || decide (4 ≤ adAddr p.src) || s.holds a 8 n
    | 4 => s.holds a 9 lane && s.holds a 8 n
    | _ => true)
  && (match adSpace p.dst with
    | 1 => s.holds a 7 n
    | 2 => s.holds a 10 0 && s.holds a 8 0x11
    | 3 => decide (adAddr p.dst < 0x20) || s.holds a 8 0x10
    | 4 => s.holds a 9 lane && s.holds a 8 0x12
    | _ => true)

/-- Whether a host window serves transfers: enabled, the link up, and for a tenant whose TDI is RUN the selective
stream Secure (R350). -/
def State.winServes (s : State) (w k : Nat) : Bool :=
  (s.host.wins.get w).enabled && s.host.linkUp
    && (k == 0 || match s.b.tentOf k with
      | some t => (s.host.tdis.get t.vf).state != .run || (s.host.streams.get t.vf).secure
      | none => true)

/-- A window's transfer ended with HOST_ERROR (R345, R350). -/
def State.winFault (s : State) (w k : Nat) : State :=
  let s1 := s.onHost fun h => { h with wins := h.wins.upd w fun x => { x with fault := true } }
  match s.b.tentOf k with
  | some t => s1.evVf t.vf 3
  | none => s1

/-- Whether an activity's ring lane has an UP path in its direction (R333). -/
def State.laneUp (s : State) (a : Nat) : Bool :=
  match s.ring.laneDir.get (s.b.dq a).ringLane with
  | 0 => false
  | d => (s.ring.ports.get (d - 1)).state == .up

/-- Whether a lane whose direction changed must wait: frames of it in the old direction are not yet acknowledged (R333). -/
def State.laneWaits (s : State) (a : Nat) : Bool :=
  match s.ring.laneDir.get (s.b.dq a).ringLane with
  | 0 => false
  | d => (s.ring.ports.get (2 - d)).replay.any fun f => f.lane == (s.b.dq a).ringLane

/-- What a source access gives: bytes, or an outcome code with the state its refusal leaves; `none` for the bytes of a
beat that must wait. -/
structure Fetch where
  st : State
  bytes : List Byte := []
  code : Nat := 0
  wait : Bool := false
  reset : Bool := false

/-- One source read of `n` bytes at an offset of the side's space (R153, R154). -/
def State.srcRead (s : State) (a : Nat) (p : Prog) (addr n line : Nat) (inBytes : List Byte) : Fetch :=
  let k := s.b.tenantOf a
  match adSpace p.src with
  | 0 => match s.spAcc a false addr n with
    | .ok => { st := s, bytes := s.spGet (a / 16) addr n }
    | r => { st := s.spRefused a r, code := 3 }
  | 1 =>
    let t := adChan p.src
    match s.rangeRead k t addr n line with
    | .ok => { st := s.copyTouch a t addr n, bytes := s.gdGet t addr n }
    | r => { st := s.readFailed a t addr r, code := 5, reset := r == .uncorr || r == .mac }
  | 2 => if s.winServes (adWin p.src) k then { st := s, bytes := sliceZ inBytes 0 n }
    else { st := s.winFault (adWin p.src) k, code := 7 }
  | 3 =>
    let f := adAddr p.src
    if s.fifoFill a f < n then { st := s, wait := true }
    else if f ≤ 3 then
      { st := s.onIng fun g => { g with rx := g.rx.upd (4 * a + f) fun x => x.pop n }
        bytes := (s.ing.rx.get (4 * a + f)).data.take n }
    else
      { st := s.onDma fun d => { d with fifos := d.fifos.upd (a / 16 * 256 + f) fun x => x.pop n }
        bytes := (s.dma.fifos.get (a / 16 * 256 + f)).data.take n }
  | _ => if s.laneUp a then { st := s, bytes := sliceZ inBytes 0 n } else { st := s, code := 8 }

/-- Whether a destination FIFO has room for a beat (R156). -/
def State.dstRoom (s : State) (a : Nat) (p : Prog) (n : Nat) : Bool :=
  adSpace p.dst != 3 || decide (s.fifoFill a (adAddr p.dst) + n ≤ 64 * fifoCap (adAddr p.dst))

/-- The destination write of a beat (R153, R154, R365). -/
def State.dstWrite (s : State) (a : Nat) (p : Prog) (addr : Nat) (b : List Byte) : State × Nat :=
  let k := s.b.tenantOf a
  match adSpace p.dst with
  | 0 => match s.spAcc a true addr b.length with
    | .ok => (s.spWrite (a / 16) addr b, 0)
    | r => (s.spRefused a r, 3)
  | 1 => (s.gdWrite a k (adChan p.dst) addr b, 0)
  | 2 => if s.winServes (adWin p.dst) k
    then (s.out { kind := .hostWrite, port := adWin p.dst, code := addr, bytes := b }, 0)
    else (s.winFault (adWin p.dst) k, 7)
  | 3 =>
    let f := adAddr p.dst
    if f < 0x20 then (s.onDma fun d => { d with fifos := d.fifos.upd (a / 16 * 256 + f) fun x =>
      { x with data := x.data ++ b } }, 0)
    else (s.onIng fun g => { g with tx := g.tx.upd (f - 0x20) fun l =>
      l ++ [{ activity := a, bytes := b }] }, 0)
  | _ => if s.laneUp a then (s.out { kind := .ring, port := adWin p.dst, code := addr, bytes := b }, 0) else (s, 8)

/-- The transfer ends early with a code once its issued writes are acknowledged (R159, R161). -/
def State.beatStops (s : State) (a code : Nat) : State :=
  s.onQueue a fun q => { q with pendCode := some code, stop := .none }

/-- One beat of a queue (R154): the sources that fill it, then its destination write. A beat that must wait for a
reservation, for FIFO bytes or for room does not occur. -/
def State.beat (s : State) (a line : Nat) (inBytes : List Byte) : State :=
  let q := s.queue a
  let p := q.prog
  let dw := 2 ^ p.dstW
  let row := q.pos / p.count
  let off := q.pos % p.count
  let need := if dw ≤ q.hold.length then 0 else (dw - q.hold.length + 2 ^ p.srcW - 1) / 2 ^ p.srcW * 2 ^ p.srcW
  let srcAddr := (p.rowStart false row + if adSpace p.src = 3 then 0 else ((off + q.hold.length : Nat) : Int)).toNat
  let dstAddr := (p.rowStart true row + (off : Int)).toNat
  let waits := (adSpace p.src == 4 || adSpace p.dst == 4) && s.laneWaits a
  if !s.beatLicensed a p || !s.dstRoom a p dw || !(q.state == .active) || waits then
    (if q.stop == .none then s else s.beatStops a q.stop.code)
  else
    let f : Fetch := if need = 0 then { st := s } else s.srcRead a p srcAddr need line inBytes
    if f.reset then f.st
    else if f.wait then (if q.stop == .none then s else s.beatStops a q.stop.code)
    else if f.code ≠ 0 then f.st.beatStops a f.code
    else
      let data := q.hold ++ f.bytes
      let dstBad := adSpace p.dst == 0 && s.spAcc a true dstAddr dw != .ok
      if q.stop != .none && !dstBad then s.beatStops a q.stop.code
      else
        let (s2, code) := f.st.dstWrite a p dstAddr (data.take dw)
        if code ≠ 0 then s2.beatStops a code
        else
          let done := q.pos + dw == p.total
          (s2.onQueue a fun q => { q with
            pos := q.pos + dw, hold := data.drop dw, started := true
            firstTick := if q.started then q.firstTick else s.tick.num
            bytes := q.bytes + BitVec.ofNat 48 dw
            pendCode := if done then some 0 else none }).paceUpdate a

/-- The outcome of a transfer becomes final once every write it issued is acknowledged (R158, R159, R161): STATUS and
OWN are written in a chain, and the chain goes on, ends, or ends with a stop that arrived meanwhile. -/
def State.transferDone (s : State) (a ack : Nat) : State :=
  let q := s.queue a
  match q.pendCode with
  | none => s
  | some c =>
    let code := if c = 0 then ack else c
    let late := q.started && q.firstTick != s.tick.num
    let s0 := if code = 7 && c = 0 && adSpace q.prog.dst = 2 then s.winFault (adWin q.prog.dst) (s.b.tenantOf a) else s
    let s1 := s0.onQueue a fun q => { q with late := late, pendCode := none }
    match q.descAt with
    | none => s1.queueEnd a code
    | some d =>
      let s2 := s1.descWriteBack a d code late
      if code ≠ 0 then s2.queueEnd a code
      else if q.stop != .none && !q.descLast then s2.queueEnd a q.stop.code
      else if q.descLast then s2.queueEnd a 0
      else s2.descRun a q.descNext.toNat true

/-! ### Who drives a queue (R148) -/

/-- Whether a master may write a queue's registers: outside NORMAL the curator only; in NORMAL the general cores of the
channel for an activity with ops, else the services, which run on the curator and the KSI (log 21). -/
def State.drives (s : State) (master a : Nat) : Bool :=
  if (s.spad.chan.get (a / 16)).mode != .normal then master == idCur
  else if (s.b.opsOf a).isEmpty then master == idCur || master == idKsi
  else gcChan master == some (a / 16)

/-- DMA_GO: a write of GO to Q_CTRL (R158, R164). -/
def execDmaGo (master ch q : Nat) (s : State) : Host.Outcome State Fault Refusal :=
  let a := 16 * ch + q
  .next (if !s.live then s else commit (if s.drives master a then s.queueGo a else s.regErr master 6))

/-- The carried work of an activity without ops ends with its queue: the tick it belongs to is flagged LATE (R41, R42, R99). -/
def State.carrySettle (s : State) (a : Nat) : State :=
  if (s.acts.get a).carry && (s.b.opsOf a).isEmpty && !(s.queue a).busy then
    (s.flagLate a).onAct a fun x => { x with carry := false, workTick := s.tick.num }
  else s

/-- DMA_ABORT: a write of ABORT to Q_CTRL (R160, R164). -/
def execDmaAbort (master ch q : Nat) (s : State) : Host.Outcome State Fault Refusal :=
  let a := 16 * ch + q
  .next (if !s.live then s else commit (if s.drives master a then (s.queueStop a .aborted).carrySettle a else s.regErr master 6))

/-- DMA_BEAT: one beat of a queue that has a transfer in hand (R154). The transfer of a LEAF_EDIT is one step of that op
(log 27), so its queue has no beats of its own. -/
def execDmaBeat (ch q line : Nat) (inBytes : List Byte) (s : State) : Host.Outcome State Fault Refusal :=
  let a := 16 * ch + q
  .next (if !s.live then s
    else commit (if (s.queue a).busy && (s.queue a).pendCode.isNone
        && !((s.acts.get a).run.elim false fun r => r.edit.isSome) then s.beat a line inBytes else s))

/-- DMA_TRANSFER_DONE: every write of a transfer is acknowledged, or its last one failed (R159). -/
def execDmaTransferDone (ch q ack : Nat) (s : State) : Host.Outcome State Fault Refusal :=
  let a := 16 * ch + q
  .next (if !s.live then s else commit ((s.transferDone a ack).carrySettle a))

end Sys2Proof.Machine
end

