-- ==== Sys2Proof/Machine/Work.lean ====
section
/-! DEFINITION. Ops in general: when one may start, how its outcome is held until it ends, the flags of an activity's
outputs, and the states of the testable units (R32, R37 to R42, R97 to R99, R423). -/

namespace Sys2Proof.Machine

/-- Update a channel's engines. -/
def State.onEng (s : State) (ch : Nat) (f : Engines → Engines) : State := s.onEngs fun t => t.upd ch f

/-! ### Units (R419, R423 to R425) -/

/-- The unit number of unit `k` of a channel (R419). -/
def unitOf (ch k : Nat) : Nat := 9 * ch + k

/-- The unit an op runs on: ME, AE, PST, or the general core (R416). -/
def opUnit (ch opcode core : Nat) : Nat :=
  if opcode / 256 = 1 then unitOf ch 0
  else if opcode / 256 = 2 then unitOf ch 1
  else if opcode / 256 = 4 then unitOf ch 6
  else unitOf ch (2 + core)

/-- Enter BENCHED: counted, and held at the third entry since cold bind (R423). -/
def State.bench (s : State) (u : Nat) : State :=
  (s.onChk fun c => { c with units := c.units.upd u fun x =>
    { x with state := .benched, streak := 0, benches := x.benches + 1, held := x.held || decide (2 ≤ x.benches)
             eventTick := some s.tick.num } }).evSafe 3 none

/-- An event of the HEALTHY row of R423 for a unit, or with `failedRun` a failed run; one transition per tick. -/
def State.unitEvent (s : State) (u : Nat) (failedRun : Bool) : State :=
  let x := s.chk.units.get u
  if x.eventTick == some s.tick.num then s
  else match x.state with
    | .healthy => s.onChk fun c => { c with units := c.units.upd u fun x =>
        { x with state := .suspect, streak := 0, eventTick := some s.tick.num } }
    | .suspect => if failedRun then s.bench u else s
    | .cleared => s.bench u
    | .benched => s

/-- Whether the plan counts a unit as benched, so that its reservations stay idle (R103, R424). -/
def State.unitIdle (s : State) (u : Nat) : Bool := (s.chk.units.get u).planBenched

/-! ### Ops -/

/-- Whether an activity's work of the tick in hand is unfinished (R37, R99): ops not finished, or without ops a queue with
work left that no overrun policy has stopped. -/
def State.unfinished (s : State) (a : Nat) : Bool :=
  s.active a && !(s.tick.filler && (s.actPlan a).skipFiller && !(s.act a).carry) && !(s.act a).abandoned
    && (if (s.b.opsOf a).isEmpty then (s.queue a).busy && (s.queue a).stop != .cut else !(s.act a).finished)

/-- Whether an activity is outstanding (R37): its work is unfinished. A tenant being removed has none (R378). -/
def State.outstanding (s : State) (a : Nat) : Bool :=
  s.unfinished a && (s.ksi.tenants.get (s.b.tenantOf a)).state != .removing

/-- Whether a boundary is held (R38, R39): the hold of this module's own source; at a ring follower, which is not told the nominal
boundary, from PERIOD_MIN on while a STRETCH activity is outstanding (log 30). -/
def State.boundaryHeld (s : State) : Bool :=
  s.tick.stretching || (s.tick.role == .follower && s.tick.running && s.tick.launch.isNone
    && decide (s.tick.start + 8 * s.block.1.periodMin ≤ s.tb.time)
    && s.b.actList.any fun a => (s.actPlan a).overrun == 0 && s.outstanding a)

/-- Whether an activity may do op work now: it exists and is active in the running plan, its tick work is not over,
it is not idle in a filler tick, and in a hold only an outstanding STRETCH activity goes on (R27, R39, R99). -/
def State.mayWork (s : State) (a : Nat) : Bool :=
  let x := s.act a
  s.live && s.bound && s.tick.running && s.active a && !x.finished && !x.abandoned
    && (!(s.tick.filler && (s.actPlan a).skipFiller) || x.carry)
    && (!s.boundaryHeld || (s.actPlan a).overrun == 0)

/-- Whether an op that the next one waits for has ended in the tick of the work (R97, R99). -/
def State.depEnded (s : State) (a : Nat) (o : OpRec) : Bool :=
  o.depActivity == 0xFF ||
    ((s.act o.depActivity).workTick == (s.act a).workTick && (s.act o.depActivity).ended.contains o.depSeq)

/-- Whether an activity holds a reservation on a resource of its own channel for an op (R98). -/
def State.holdsFor (s : State) (a cls inst seq : Nat) : Bool :=
  (s.act a).held.any fun h => h.cls == cls && h.inst == inst && (h.opseq == seq || h.opseq == 0xFF)

/-- The op of a given opcode that may start now: the next of the activity's sequence, none in progress, its dependency
ended, a reservation on its primary resource held, the unit not idle (R32, R97 to R99, R424). -/
def State.opReady (s : State) (a opcode cls inst : Nat) : Option OpRec :=
  let x := s.act a
  match s.b.opAt a x.seqNext with
  | none => none
  | some o =>
    if o.opcode == opcode && x.run.isNone && s.mayWork a && s.depEnded a o && s.holdsFor a cls inst o.seq
        && !(decide (cls ≤ 4) && s.unitIdle (opUnit (a / 16) opcode inst)) then some o else none

/-- The op in progress with a given opcode that has no outcome yet. -/
def State.opInHand (s : State) (a opcode : Nat) : Option OpRun :=
  match (s.act a).run with
  | some r => if r.opcode == opcode && r.code.isNone then some r else none
  | none => none

/-- The op starts. -/
def State.opBegin (s : State) (a : Nat) (o : OpRec) : State :=
  s.onAct a fun x => { x with run := some { seq := o.seq, opcode := o.opcode } }

/-- Change the op in progress. -/
def State.onRun (s : State) (a : Nat) (f : OpRun → OpRun) : State :=
  s.onAct a fun x => { x with run := x.run.map f }

/-- The outcome of the op in progress is known; OP_END takes it (R99, R161). -/
def State.opOutcome (s : State) (a code : Nat) : State := s.onRun a fun r => { r with code := some code }

/-- The op of an activity that is in progress or next. -/
def State.opOf (s : State) (a : Nat) : OpRec :=
  match (s.act a).run with
  | some r => (s.b.opAt a r.seq).getD {}
  | none => (s.b.opAt a (s.act a).seqNext).getD {}

/-- ME registers while an op is in hand. -/
def State.meSet (s : State) (ch : Nat) (f : EngineRegs → EngineRegs) : State :=
  s.onEng ch fun e => { e with me := f e.me }

/-- AE registers while an op is in hand. -/
def State.aeSet (s : State) (ch : Nat) (f : EngineRegs → EngineRegs) : State :=
  s.onEng ch fun e => { e with ae := f e.ae }

/-- Busy cycles of the ME: its register counts them, and ME_BUSY counts one per cycle (R189, R391). -/
def State.meCycles (s : State) (a cycles : Nat) : State :=
  (s.meSet (a / 16) fun r => { r with busyCyc := r.busyCyc + BitVec.ofNat 48 cycles }).count 0x56 (some (a / 16))
    (some a) cycles

/-- Busy cycles of the AE (R238, R391). -/
def State.aeCycles (s : State) (a cycles : Nat) : State :=
  (s.aeSet (a / 16) fun r => { r with busyCyc := r.busyCyc + BitVec.ofNat 48 cycles }).count 0x6B (some (a / 16))
    (some a) cycles

/-- A scratchpad read by an op: its bytes, or the state its refusal leaves (R131, R132). -/
def State.opRead (s : State) (a addr n : Nat) : Except State (List Byte) :=
  match s.spAcc a false addr n with
  | .ok => .ok (s.spGet (a / 16) addr n)
  | r => .error (s.spRefused a r)

/-- A scratchpad write by an op. -/
def State.opWrite (s : State) (a addr : Nat) (b : List Byte) : Except State State :=
  match s.spAcc a true addr b.length with
  | .ok => .ok (s.spWrite (a / 16) addr b)
  | r => .error (s.spRefused a r)

/-- The first refusal among ranges an op reads or writes: (address, bytes). -/
def State.firstRefusal (s : State) (a : Nat) (isWrite : Bool) (rs : List (Nat × Nat)) : Acc :=
  rs.foldl (fun r x => if r == .ok && x.2 ≠ 0 then s.spAcc a isWrite x.1 x.2 else r) .ok

/-- The op aborts because a scratchpad access was refused (R132, R160 LOAN_FAULT). -/
def State.loanFault (s : State) (a : Nat) (r : Acc) : State := (s.spRefused a r).opOutcome a 3

/-- Whether an address parameter is absent. -/
def absent (x : Nat) : Bool := x == 0xFFFFFFFF

end Sys2Proof.Machine
end

