-- ==== Sys2Proof/Machine/Matrix.lean ====
section
/-! DEFINITION. The matrix engine (spec/08): pairs, k-tiles, accumulation, the output stage, saving and resuming, and
the MATMUL op. CONV (spec/09) runs as the same kind of job. -/

namespace Sys2Proof.Machine

/-- ceil(a / b). -/
def cdiv (a b : Nat) : Nat := (a + b - 1) / b

/-- The raw bits of element `i` of a plane in a channel's scratchpad (R171). -/
def State.rawAt (s : State) (ch f base i : Nat) : Nat :=
  match elemBits f with
  | 4 => if i % 2 = 0 then u8 (s.spGet ch (base + i / 2) 1) 0 % 16 else u8 (s.spGet ch (base + i / 2) 1) 0 / 16
  | 16 => u16 (s.spGet ch (base + 2 * i) 2) 0
  | 32 => u32 (s.spGet ch (base + 4 * i) 4) 0
  | _ => u8 (s.spGet ch (base + i) 1) 0

/-- The value of element `i` of a plane, with the MX scale at `sc + i / 32` (R172). -/
def State.valAt (s : State) (ch f base sc i : Nat) : FVal :=
  let v := elemVal f (s.rawAt ch f base i)
  if isMx f then v.mul (scaleVal (u8 (s.spGet ch (sc + i / 32) 1) 0)) else v

/-- The FP32 word `i` of a vector. -/
def State.f32At (s : State) (ch base i : Nat) : FVal := .ofW (BitVec.ofNat 32 (u32 (s.spGet ch (base + 4 * i) 4) 0))

/-- The integer a finite integral value is. -/
def FVal.intOf : FVal → Int
  | .fin n m e => FVal.scaled n m e (if e < 0 then e else 0)
  | _ => 0

/-- The rate class: 1, 2 or 4 positions per group, by the wider element width (R166, R173, R176). -/
def rateG (a b : Nat) : Nat := let w := max (elemBits a) (elemBits b); if w = 16 then 1 else if w = 8 then 2 else 4

/-- The k-tile length (R166). -/
def tileK (g : Nat) (sparse : Bool) : Nat := 48 * g * if sparse then 2 else 1

/-- Positions a group of R173 covers: G dense, one metadata group (8-bit) or two (4-bit) sparse. -/
def groupLen (g : Nat) (sparse : Bool) : Nat := if sparse then 2 * g else g

/-- A list cut into runs of a length. -/
def chunksOf {α : Type} (n : Nat) : Nat → List α → List (List α)
  | 0, _ => []
  | f + 1, l => if l.isEmpty then [] else l.take n :: chunksOf n f (l.drop n)

/-- A metadata nibble's indices: the positions of the two kept values (R181). -/
def metaIdx (nib : Nat) : Nat × Nat := (nib % 4, nib / 4 % 4)

/-- What an ME op computes, pair by pair: numbers of rows, columns and k-tiles, the operand positions of each k-tile,
initial values, the ranges each step reads and writes, and where its rows lie. Columns are absolute. -/
structure MeJob where
  pairs : Nat
  isInt : Bool
  gs : Nat
  rowsOf : Nat → Nat
  col0 : Nat → Nat
  colsOf : Nat → Nat
  ktilesAt : Nat → Nat → Nat
  pos : Nat → Nat → Nat → Nat → List (Option (FVal × FVal))
  init : Nat → Nat → Nat → Word
  reads : Nat → Nat → List (Nat × Nat)
  initReads : Nat → List (Nat × Nat)
  convReads : Nat → List (Nat × Nat)
  writes : Nat → List (Nat × Nat)
  bad : Nat → Nat → Bool
  lastCol : Nat → Nat
  cFmt : Nat
  round : Bool
  sat : Bool
  strict : Bool
  act : Nat
  p0 : FVal
  p1 : FVal
  colScale : Nat → Option FVal
  bias : Nat → Option FVal
  resid : Nat → Nat → Nat → Option FVal
  rowAddr : Nat → Nat → Nat
  scaleAddr : Nat → Nat → Nat
  saveAddr : Nat

/-- One k-tile's contribution to one accumulator (R173 to R175): groups in ascending order, positions that sparsity or
the block diagonal removed skipped. -/
def MeJob.stepAcc (j : MeJob) (acc : Word) (ps : List (Option (FVal × FVal))) : Word :=
  let groups := (chunksOf j.gs ps.length ps).map fun g => (g.filterMap id).map fun p => p.1.mul p.2
  if j.isInt then groups.foldl (fun a g => a + BitVec.ofInt 32 (g.foldl (fun t p => t + p.intOf) 0)) acc
  else groups.foldl (fun a g => if g.isEmpty then a else (accGroup (FVal.ofW a) g).toW) acc

/-- The accumulators of a pair after a k-tile, row by row, 48 columns each (R167). -/
def MeJob.stepPair (j : MeJob) (pair kt : Nat) (accs : List Word) : List Word :=
  (List.range (j.rowsOf pair)).flatMap fun r => (List.range 48).map fun c =>
    let a := accs.getD (48 * r + c) 0
    if c < j.colsOf pair then j.stepAcc a (j.pos pair kt r (j.col0 pair + c)) else a

/-- The initial accumulators of a pair: +0 or C_IN (R173). -/
def MeJob.initPair (j : MeJob) (pair : Nat) : List Word :=
  (List.range (j.rowsOf pair)).flatMap fun r => (List.range 48).map fun c =>
    if c < j.colsOf pair then j.init pair r (j.col0 pair + c) else 0

/-- One accumulator computed in full, for a column of an earlier tile that shares an MX block with this one. -/
def MeJob.fullAcc (j : MeJob) (pair r c : Nat) : Word :=
  (List.range (j.ktilesAt pair c)).foldl (fun a kt => j.stepAcc a (j.pos pair kt r c)) (j.init pair r c)

/-- The columns a pair's conversion writes: its own, or for an MX output the whole blocks of 32 that end in its tile
(log 22). -/
def MeJob.outCols (j : MeJob) (pair : Nat) : Nat × Nat :=
  let c0 := j.col0 pair
  let c1 := c0 + j.colsOf pair
  if isMx j.cFmt then (c0 / 32 * 32, if c1 = j.lastCol pair then c1 else c1 / 32 * 32) else (c0, c1)

/-- The value of an output element after step 4 of R177. -/
def MeJob.outVal (j : MeJob) (pair r c : Nat) (acc : Word) : FVal :=
  let v : FVal := if j.isInt then (FVal.ofInt acc.toInt).r32 else .ofW acc
  outStage j.act j.p0 j.p1 (j.colScale c) (j.bias c) (j.resid pair r c) v

/-- The converted elements of one row of a pair and, for an MX output, the scale bytes (R178, R179). -/
def MeJob.outRow (j : MeJob) (pair r : Nat) (accs : List Word) : List Conv × List Nat :=
  let (c0, c1) := j.outCols pair
  let accOf := fun c => if c < j.col0 pair then j.fullAcc pair r c else accs.getD (48 * r + (c - j.col0 pair)) 0
  let cols := (List.range (c1 - c0)).map (c0 + ·)
  if j.cFmt = 10 then (cols.map fun c => { bits := (accOf c).toNat }, [])
  else
    let vs := cols.map fun c => j.outVal pair r c (accOf c)
    if isMx j.cFmt then
      let bs := (chunksOf 32 vs.length vs).map (mxBlock j.cFmt j.round j.sat)
      (bs.flatMap (·.2), bs.map (·.1))
    else (vs.map (convPlain j.cFmt j.round j.sat), [])

/-- The conversion and write of a pair (R177 to R180, R185). -/
def State.meConvert (s : State) (a : Nat) (j : MeJob) (pair : Nat) (accs : List Word) : State :=
  let (c0, c1) := j.outCols pair
  let rows := (List.range (j.rowsOf pair)).map fun r => (r, j.outRow pair r accs)
  match s.firstRefusal a false (j.convReads pair) with
  | .ok =>
    match s.firstRefusal a true (j.writes pair) with
    | .ok =>
      let cs := rows.flatMap fun x => x.2.1
      let sat := (cs.filter (·.sat)).length
      if j.strict && 0 < sat then (s.evMe a 4 1).opOutcome a 0x21
      else if c1 ≤ c0 then s
      else
        let s1 := rows.foldl (fun (s : State) x =>
          let s2 := s.spPut (a / 16) (j.rowAddr pair x.1 + elemBytes j.cFmt c0)
            (packElems j.cFmt (x.2.1.map (·.bits)))
          if isMx j.cFmt then s2.spPut (a / 16) (j.scaleAddr pair x.1 + c0 / 32) (x.2.2.map (BitVec.ofNat 8 ·))
          else s2) s
        ((s1.evMe a 1 sat).evMe a 0 (cs.filter (·.nan)).length).evMe a 2 (cs.filter (·.intNan)).length
    | r => s.loanFault a r
  | r => s.loanFault a r

/-- One k-tile of the op in hand: at a pair's first one the accumulators start, after its last one the pair is
converted and written, and after the last pair the op is complete (R167, R181, R185). -/
def State.meStep (s : State) (a : Nat) (j : MeJob) (run : OpRun) : State :=
  let accs := if run.kt = 0 then j.initPair run.unit else run.acc
  let n := j.ktilesAt run.unit (j.col0 run.unit)
  if j.pairs ≤ run.unit then s.opOutcome a 0
  else
    let rd := (if run.kt = 0 then j.initReads run.unit else []) ++ if run.kt < n then j.reads run.unit run.kt else []
    match s.firstRefusal a false rd with
    | .ok =>
      if run.kt < n && j.bad run.unit run.kt then (s.evMe a 3 1).opOutcome a 0x20
      else
        let accs := if run.kt < n then j.stepPair run.unit run.kt accs else accs
        if run.kt + 1 < n then s.onRun a fun r => { r with kt := run.kt + 1, acc := accs }
        else
          let s1 := s.meConvert a j run.unit accs
          match s1.opInHand a run.opcode with
          | none => s1
          | some _ =>
            let s2 := s1.onRun a fun r => { r with unit := run.unit + 1, kt := 0, acc := [] }
            if run.unit + 1 = j.pairs then s2.opOutcome a 0 else s2
    | r => s.loanFault a r

/-- Up to `budget` k-tiles of the op in hand; the job is read anew at each, because memory changes. -/
def meRun (jobOf : State → MeJob) (a opcode : Nat) : Nat → State → State
  | 0, s => s
  | n + 1, s => match s.opInHand a opcode with
    | none => s
    | some run => meRun jobOf a opcode n (s.meStep a (jobOf s) run)

/-- The accumulators of the pair in hand go to the save area with the word that records where it stopped, whose
content the spec does not lay out (R187). -/
def State.meSave (s : State) (a saveAddr : Nat) (run : OpRun) : State :=
  match s.firstRefusal a true [(saveAddr, 4 * run.acc.length + 64)] with
  | .ok =>
    let s1 := s.spPut (a / 16) saveAddr (run.acc.flatMap fun w => toLe 4 w.toNat)
    let s2 := (s1.spPut (a / 16) (saveAddr + 4 * run.acc.length) (s1.freeBytes 64)).tookFree 64
    (s2.onRun a fun r => { r with saved := true, acc := [] }).meSet (a / 16) fun e => { e with saved := true, busy := false }
  | r => s.loanFault a r

/-- The save area is read back and the op resumes where it stopped (R187); `words` is the number of accumulators. -/
def State.meRestore (s : State) (a saveAddr words : Nat) : State :=
  match s.firstRefusal a false [(saveAddr, 4 * words + 64)] with
  | .ok =>
    let b := s.spGet (a / 16) saveAddr (4 * words)
    (s.onRun a fun r => { r with saved := false, acc := (List.range words).map fun i => BitVec.ofNat 32 (u32 b (4 * i)) }).meSet
      (a / 16) fun e => { e with saved := false, busy := true }
  | r => s.loanFault a r

/-! ### MATMUL (R183 to R188) -/

/-- A 4-byte parameter. -/
def OpRec.p32 (o : OpRec) (off : Nat) : Nat := u32 o.params off

/-- The FP32 value of a parameter. -/
def OpRec.pF (o : OpRec) (off : Nat) : FVal := .ofW (BitVec.ofNat 32 (u32 o.params off))

/-- The MATMUL of an op record as a job on a channel's scratchpad. -/
def matmulJob (s : State) (ch : Nat) (o : OpRec) : MeJob :=
  let p := o.params
  let af := u8 p 0
  let bf := u8 p 1
  let cf := u8 p 2
  let fl := u8 p 3
  let sparse := fl.testBit 0
  let m := o.p32 8
  let n := o.p32 12
  let k := o.p32 16
  let g := rateG af bf
  let kt := tileK g sparse
  let chunks := cdiv m 512
  let aRow := fun r => o.p32 20 + r * o.p32 24
  let bCol := fun c => o.p32 28 + c * o.p32 32
  let cRow := fun r => o.p32 36 + r * o.p32 40
  let aSc := fun r => o.p32 48 + r * o.p32 52
  let bSc := fun c => o.p32 56 + c * o.p32 60
  let mt := fun c => o.p32 64 + c * o.p32 68
  let cinRow := fun r => o.p32 72 + r * o.p32 76
  let resRow := fun r => o.p32 80 + r * o.p32 84
  let scaleOf := fun base stride r => base + m * stride + r * (stride / if cf = 6 then 4 else 8)
  let nib := fun c grp => u8 (s.spGet ch (mt c + grp / 2) 1) 0 / (if grp % 2 = 0 then 1 else 16) % 16
  let row := fun pair r => 512 * (pair % chunks) + r
  let tile := fun pair => pair / chunks
  let tw := fun pair => min 48 (n - 48 * tile pair)
  let mc := fun pair => min 512 (m - 512 * (pair % chunks))
  let kb := fun t => min k ((t + 1) * kt) - t * kt
  let rowsList := fun pair => (List.range (mc pair)).map (row pair)
  let colsList := fun pair => (List.range (tw pair)).map (48 * tile pair + ·)
  { pairs := cdiv n 48 * chunks
    isInt := isIntFmt af
    gs := groupLen g sparse
    rowsOf := mc
    col0 := fun pair => 48 * tile pair
    colsOf := tw
    ktilesAt := fun _ _ => cdiv k kt
    pos := fun pair t r c => (List.range (kb t)).map fun i =>
      let kk := t * kt + i
      let av := s.valAt ch af (aRow (row pair r)) (aSc (row pair r)) kk
      if sparse then
        let ix := metaIdx (nib c (kk / 4))
        if kk % 4 = ix.1 || kk % 4 = ix.2 then
          let e := 2 * (kk / 4) + (if kk % 4 = ix.1 then 0 else 1)
          let bv := elemVal bf (s.rawAt ch bf (bCol c) e)
          some (av, if isMx bf then bv.mul (scaleVal (u8 (s.spGet ch (bSc c + kk / 32) 1) 0)) else bv)
        else none
      else some (av, s.valAt ch bf (bCol c) (bSc c) kk)
    init := fun pair r c => if fl.testBit 1 then BitVec.ofNat 32 (s.rawAt ch 9 (cinRow (row pair r)) c) else 0
    reads := fun pair t =>
      (rowsList pair).map (fun r => (aRow r + elemBytes af (t * kt), elemBytes af (kb t)))
      ++ (if isMx af then (rowsList pair).map fun r => (aSc r + t * kt / 32, cdiv (kb t) 32) else [])
      ++ (colsList pair).map (fun c => if sparse then (bCol c + elemBytes bf (t * kt / 2), elemBytes bf (kb t / 2))
            else (bCol c + elemBytes bf (t * kt), elemBytes bf (kb t)))
      ++ (if isMx bf then (colsList pair).map fun c => (bSc c + t * kt / 32, cdiv (kb t) 32) else [])
      ++ (if sparse then (colsList pair).map fun c => (mt c + t * kt / 8, cdiv (kb t) 8) else [])
    initReads := fun pair => if fl.testBit 1
      then (rowsList pair).map fun r => (cinRow r + 192 * tile pair, 4 * tw pair) else []
    convReads := fun pair =>
      (if fl.testBit 2 then (rowsList pair).map fun r => (resRow r + elemBytes cf (48 * tile pair), elemBytes cf (tw pair))
        else [])
      ++ (if absent (o.p32 88) then [] else [(o.p32 88 + 192 * tile pair, 4 * tw pair)])
      ++ (if absent (o.p32 92) then [] else [(o.p32 92 + 192 * tile pair, 4 * tw pair)])
    writes := fun pair => (rowsList pair).flatMap fun r =>
      (cRow r + elemBytes cf (48 * tile pair), elemBytes cf (tw pair)) ::
        (if isMx cf then [(scaleOf (o.p32 36) (o.p32 40) r + 48 * tile pair / 32, 1)] else [])
    bad := fun pair t => sparse && (colsList pair).any fun c => (List.range (kb t / 4)).any fun i =>
      let ix := metaIdx (nib c (t * kt / 4 + i))
      decide (ix.2 ≤ ix.1)
    lastCol := fun _ => n
    cFmt := cf
    round := fl.testBit 3
    sat := fl.testBit 4
    strict := o.strict
    act := u8 p 4
    p0 := o.pF 96
    p1 := o.pF 100
    colScale := fun c => if absent (o.p32 88) then none else some (s.f32At ch (o.p32 88) c)
    bias := fun c => if absent (o.p32 92) then none else some (s.f32At ch (o.p32 92) c)
    resid := fun pair r c => if fl.testBit 2 then
      some ((s.valAt ch cf (resRow (row pair r)) (scaleOf (o.p32 80) (o.p32 84) (row pair r)) c).r32) else none
    rowAddr := fun pair r => cRow (row pair r)
    scaleAddr := fun pair r => scaleOf (o.p32 36) (o.p32 40) (row pair r)
    saveAddr := o.p32 44 }

/-! ### Spot recomputation (R417) -/

/-- Slots of a channel's ME that no reservation of the running block covers. -/
def State.meFree (s : State) (ch : Nat) : Nat :=
  let blk := s.block.1
  blk.periodMin - blk.res.foldl (fun t r =>
    if r.channel == ch && r.cls == 1 then
      t + (if r.rep = 0 then r.length else cdiv (blk.periodMin - r.start) r.rep * r.length)
    else t) 0

/-- The checker channel for a source (R417): ME powered, not SUSPECT or BENCHED, most unreserved ME time, ties to the
lower number. -/
def State.checker (s : State) (src : Nat) : Option Nat :=
  let ok := (List.range 6).filter fun c => c != src && s.domainOn c 0
    && (s.chk.units.get (unitOf c 0)).state != .suspect && (s.chk.units.get (unitOf c 0)).state != .benched
  ok.foldl (fun best c => match best with
    | none => some c
    | some b => if s.meFree b < s.meFree c then some c else some b) none

/-- One eligible op in how many is sampled at a checking level (R421). -/
def spotEvery (level : Nat) : Nat := if level = 1 then 64 else if level = 2 then 16 else 4

/-- The sampling of a MATMUL or CONV op with SPOT (R417): every N-th one in its channel is captured to the checker
channel's unowned powered banks; with no checker or no bank it is abandoned as TEST_STARVED. -/
def State.spotSample (s : State) (a : Nat) (o : OpRec) : State :=
  let lvl := s.b.safe.checkLevel
  if lvl = 0 || !o.spot then s
  else
    let ch := a / 16
    let n := s.chk.spotCount.get ch + 1
    if n < spotEvery lvl then s.onChk fun c => { c with spotCount := c.spotCount.set ch n }
    else
      let s1 := s.onChk fun c => { c with spotCount := c.spotCount.set ch 0 }
      match s1.checker ch with
      | none => s1.evSafe 6 none
      | some k =>
        if (List.range 48).any fun b => !(s1.loanOf k b).owned && !s1.bankOff k b then
          s1.onChk fun c => { c with spots := c.spots ++ [{ source := ch, checker := k, activity := a, seq := o.seq }] }
        else s1.evSafe 6 none

/-! ### The op -/

/-- An ME op takes the engine (R189). -/
def State.meTake (s : State) (a : Nat) : State :=
  s.meSet (a / 16) fun r => { r with busy := true, saved := false, activity := a }

/-- The engine's registers after the op's outcome is known (R189). -/
def State.meSettle (s : State) (a : Nat) : State :=
  match (s.act a).run with
  | some r => match r.code with
    | some c => s.meSet (a / 16) fun e => { e with busy := false, saved := false, code := c }
    | none => s
  | none => s

/-- An uncorrectable ECC error in the scratchpad words an op reads resets the module (R431): `line` 2. -/
def State.opEcc (s : State) (a line : Nat) : State :=
  if line = 2 then s.uncorrectable 1 (spKey (a / 16) 0) else s

/-- MATMUL: the op starts in its ME reservation and runs as many k-tiles as the reservation has time for; `cycles` of
the ME pass, `line` is what the scratchpad's ECC found, and `stall` says that two tensors shared a bank (R183 to R187,
R431). -/
def State.matmulEff (s : State) (a budget cycles line : Nat) (stall : Bool) : State :=
  match s.opReady a 0x0101 1 0 with
  | none => s
  | some o =>
    let s1 := ((s.opBegin a o).meTake a).spotSample a o
    let s2 := meRun (fun s => matmulJob s (a / 16) o) a 0x0101 budget s1
    (((s2.meCycles a cycles).evMe a 5 (if stall then 1 else 0)).meSettle a).opEcc a line

/-- MATMUL. -/
def execMatmul (a budget cycles line : Nat) (stall : Bool) (s : State) : Host.Outcome State Fault Refusal :=
  .next (if !s.live then s else commit (s.matmulEff a budget cycles line stall))

end Sys2Proof.Machine
end

