-- ==== Sys2Proof/Machine/Conv.lean ====
section
/-! DEFINITION. CONV and the tensor rearrangements (spec/09): windows, passes, phases, the weight block, SPACE2DEPTH,
DEPTH2SPACE and TCONV_PREP. -/

namespace Sys2Proof.Machine

/-- n rounded up to a multiple of 64. -/
def up64 (n : Nat) : Nat := (n + 63) / 64 * 64

/-- The shape of a CONV, from its parameters (R190, R193, R197, R199). -/
structure ConvShape where
  groups : Nat
  ih : Nat
  iw : Nat
  cin : Nat
  cout : Nat
  kh : Nat
  kw : Nat
  sh : Nat
  sw : Nat
  dh : Nat
  dw : Nat
  pt : Nat
  pb : Nat
  pl : Nat
  pr : Nat
  transposed : Bool

/-- The shape an op record gives. -/
def convShape (p : List Byte) : ConvShape :=
  { groups := u16 p 6, ih := u16 p 8, iw := u16 p 10, cin := u16 p 12, cout := u16 p 14, kh := u8 p 16, kw := u8 p 17,
    sh := u8 p 18, sw := u8 p 19, dh := u8 p 20, dw := u8 p 21, pt := u8 p 22, pb := u8 p 23, pl := u8 p 24, pr := u8 p 25,
    transposed := (u8 p 3).testBit 0 }

/-- Channels of a group, in and out. -/
def ConvShape.gi (c : ConvShape) : Nat := c.cin / c.groups
def ConvShape.go (c : ConvShape) : Nat := c.cout / c.groups
/-- Output rows and columns (R190, R197). -/
def ConvShape.oh (c : ConvShape) : Nat :=
  if c.transposed then (c.ih - 1) * c.sh + c.kh - c.pt - c.pb
  else (c.ih + c.pt + c.pb - c.dh * (c.kh - 1) - 1) / c.sh + 1
def ConvShape.ow (c : ConvShape) : Nat :=
  if c.transposed then (c.iw - 1) * c.sw + c.kw - c.pl - c.pr
  else (c.iw + c.pl + c.pr - c.dw * (c.kw - 1) - 1) / c.sw + 1
/-- Phases (R197). -/
def ConvShape.phases (c : ConvShape) : Nat := if c.transposed then c.sh * c.sw else 1

/-- The first output index of a phase along an axis: (o + pad) mod stride = r. -/
def phaseFirst (stride pad r : Nat) : Nat := (r + stride * (pad + 1) - pad) % stride
/-- The number of outputs of a phase along an axis. -/
def phaseCount (n stride first : Nat) : Nat := if first < n then (n - 1 - first) / stride + 1 else 0
/-- The taps of a phase along an axis, in K order (R190, R197). -/
def phaseTaps (transposed : Bool) (k stride r : Nat) : List Nat :=
  if transposed then ((List.range k).filter (· % stride == r)).reverse else List.range k

/-- What one phase of a CONV works on: its first outputs, output counts and taps along each axis. -/
structure ConvPhase where
  oy0 : Nat
  ox0 : Nat
  ny : Nat
  nx : Nat
  kys : List Nat
  kxs : List Nat

/-- A phase of a shape. -/
def ConvShape.phase (c : ConvShape) (ph : Nat) : ConvPhase :=
  if c.transposed then
    let ry := ph / c.sw
    let rx := ph % c.sw
    let oy0 := phaseFirst c.sh c.pt ry
    let ox0 := phaseFirst c.sw c.pl rx
    { oy0 := oy0, ox0 := ox0, ny := phaseCount c.oh c.sh oy0, nx := phaseCount c.ow c.sw ox0,
      kys := phaseTaps true c.kh c.sh ry, kxs := phaseTaps true c.kw c.sw rx }
  else { oy0 := 0, ox0 := 0, ny := c.oh, nx := c.ow, kys := List.range c.kh, kxs := List.range c.kw }

/-- Rows of A in a phase. -/
def ConvPhase.rows (p : ConvPhase) : Nat := p.ny * p.nx
/-- The passes of a phase: tap indices along each axis, seven at a time, row-major (R196). -/
def ConvPhase.passes (p : ConvPhase) : List (List Nat × List Nat) :=
  let ys := chunksOf 7 p.kys.length (List.range p.kys.length)
  let xs := chunksOf 7 p.kxs.length (List.range p.kxs.length)
  ys.flatMap fun y => xs.map fun x => (y, x)

/-- Groups per output tile (R193). -/
def ConvShape.perTile (c : ConvShape) : Nat := if c.go ≤ 16 then min (48 / c.go) c.groups else 1
/-- Output tiles (R193). -/
def ConvShape.tiles (c : ConvShape) : Nat :=
  if c.go ≤ 16 then cdiv c.groups c.perTile else c.groups * cdiv c.go 48
/-- A tile's first column, columns, first input channel and input channels (R193). -/
def ConvShape.tile (c : ConvShape) (t : Nat) : Nat × Nat × Nat × Nat :=
  if c.go ≤ 16 then
    let g0 := t * c.perTile
    let n := min c.perTile (c.groups - g0)
    (g0 * c.go, n * c.go, g0 * c.gi, n * c.gi)
  else
    let nt := cdiv c.go 48
    let g := t / nt
    (g * c.go + 48 * (t % nt), min 48 (c.go - 48 * (t % nt)), g * c.gi, c.gi)
/-- The tile a column lies in. -/
def ConvShape.tileOf (c : ConvShape) (col : Nat) : Nat :=
  if c.go ≤ 16 then col / (c.perTile * c.go) else col / c.go * cdiv c.go 48 + col % c.go / 48

/-- The elements of a column in a phase's sub-block. -/
def ConvShape.colK (c : ConvShape) (ph : Nat) : Nat := (c.phase ph).kys.length * (c.phase ph).kxs.length * c.gi

/-- The offsets of the parts of a weight block (R191, R197; for several phases the parts hold them in order, log 23):
columns of each phase, metadata, scales, COLSCALE, BIAS. -/
structure ConvBlock where
  cols : List Nat
  metaPl : List Nat
  scales : List Nat
  colScale : Nat
  bias : Nat
  strides : List Nat

/-- Running sums from a start. -/
def sumsFrom (start : Nat) : List Nat → List Nat
  | [] => []
  | x :: r => start :: sumsFrom (start + x) r

/-- The layout of a shape's weight block. -/
def ConvShape.block (c : ConvShape) (wf : Nat) (sparse : Bool) : ConvBlock :=
  let phs := List.range c.phases
  let strides := phs.map fun ph => up64 (elemBytes wf (if sparse then c.colK ph / 2 else c.colK ph))
  let colsSz := strides.map (c.cout * ·)
  let metaAt := up64 colsSz.sum
  let metaSz := phs.map fun ph => if sparse then c.cout * cdiv (c.colK ph) 8 else 0
  let scAt := up64 (metaAt + metaSz.sum)
  let scSz := phs.map fun ph => if isMx wf then c.cout * (c.colK ph / 32) else 0
  let csAt := up64 (scAt + scSz.sum)
  { cols := sumsFrom 0 colsSz, metaPl := sumsFrom metaAt metaSz, scales := sumsFrom scAt scSz, colScale := csAt
    bias := up64 (csAt + 4 * c.cout), strides := strides }

/-- The phase and the index in it of a pair (R194, R197): phases in order, in each tile by tile and chunk by chunk. -/
def ConvShape.pairAt (c : ConvShape) : Nat → Nat → Nat → Nat × Nat
  | 0, ph, u => (ph, u)
  | n + 1, ph, u =>
    let k := c.tiles * cdiv (c.phase ph).rows 512
    if u < k then (ph, u) else c.pairAt n (ph + 1) (u - k)

/-- All pairs of a shape. -/
def ConvShape.pairs (c : ConvShape) : Nat :=
  ((List.range c.phases).map fun ph => c.tiles * cdiv (c.phase ph).rows 512).sum

/-- The k-tiles of a phase for a tile: each pass begins a new one (R194). -/
def ConvShape.ktiles (c : ConvShape) (ph t kt : Nat) : List ((List Nat × List Nat) × Nat) :=
  (c.phase ph).passes.flatMap fun p =>
    (List.range (cdiv (p.1.length * p.2.length * (c.tile t).2.2.2) kt)).map fun i => (p, i)

/-- The CONV of an op record as a job on a channel's scratchpad (R190 to R200). -/
def convJob (s : State) (ch : Nat) (o : OpRec) : MeJob :=
  let p := o.params
  let c := convShape p
  let af := u8 p 0
  let wf := u8 p 1
  let cf := u8 p 2
  let fl := u8 p 3
  let sparse := fl.testBit 4
  let g := rateG af wf
  let kt := tileK g sparse
  let blk := c.block wf sparse
  let w0 := o.p32 48
  let inPix := u16 p 32
  let outPix := u16 p 34
  let sdiv := fun f => if f = 6 then 16 else 32
  let dec := fun (u : Nat) => c.pairAt c.phases 0 u
  let chunksIn := fun ph => cdiv (c.phase ph).rows 512
  let tileIdx := fun u => (dec u).2 / chunksIn (dec u).1
  let row0 := fun u => 512 * ((dec u).2 % chunksIn (dec u).1)
  let mc := fun u => min 512 ((c.phase (dec u).1).rows - row0 u)
  let oyx := fun (u r : Nat) =>
    let f := c.phase (dec u).1
    let i := row0 u + r
    let stepY := if c.transposed then c.sh else 1
    let stepX := if c.transposed then c.sw else 1
    (f.oy0 + stepY * (i / f.nx), f.ox0 + stepX * (i % f.nx))
  let inPos := fun (o k stride dil pad : Nat) =>
    if c.transposed then (((o + pad : Nat) : Int) - k) / stride else ((o * stride + k * dil : Nat) : Int) - pad
  let pixel := fun (u r ky kx : Nat) =>
    let q := oyx u r
    let y := inPos q.1 ky c.sh c.dh c.pt
    let x := inPos q.2 kx c.sw c.dw c.pl
    if 0 ≤ y ∧ y < c.ih ∧ 0 ≤ x ∧ x < c.iw then some (y.toNat, x.toNat) else none
  let inAddr := fun (q : Nat × Nat) => o.p32 28 + q.1 * o.p32 36 + q.2 * inPix
  let inSc := fun (q : Nat × Nat) => o.p32 72 + q.1 * (o.p32 36 / sdiv af) + q.2 * (inPix / sdiv af)
  let outAt := fun base u r => base + (oyx u r).1 * o.p32 44 + (oyx u r).2 * outPix
  let outSc := fun base u r => base + c.oh * o.p32 44 + (oyx u r).1 * (o.p32 44 / sdiv cf) + (oyx u r).2 * (outPix / sdiv cf)
  let taps := fun (u t i : Nat) =>
    let f := c.phase (dec u).1
    match (c.ktiles (dec u).1 t kt)[i]? with
    | none => ([] : List (Nat × Nat × Nat × Nat))
    | some (ps, j) =>
      let nch := (c.tile t).2.2.2
      let all := ps.1.length * ps.2.length * nch
      (List.range (min all ((j + 1) * kt) - j * kt)).map fun d =>
        let q := j * kt + d
        let yi := ps.1.getD (q / nch / ps.2.length) 0
        let xi := ps.2.getD (q / nch % ps.2.length) 0
        (f.kys.getD yi 0, f.kxs.getD xi 0, yi * f.kxs.length + xi, (c.tile t).2.2.1 + q % nch)
  let wCol := fun ph col => w0 + blk.cols.getD ph 0 + col * blk.strides.getD ph 0
  let wMeta := fun ph col => w0 + blk.metaPl.getD ph 0 + col * cdiv (c.colK ph) 8
  let wSc := fun ph col => w0 + blk.scales.getD ph 0 + col * (c.colK ph / 32)
  let nib := fun ph col grp => u8 (s.spGet ch (wMeta ph col + grp / 2) 1) 0 / (if grp % 2 = 0 then 1 else 16) % 16
  let colsList := fun u => (List.range (c.tile (tileIdx u)).2.1).map ((c.tile (tileIdx u)).1 + ·)
  { pairs := c.pairs
    isInt := isIntFmt af
    gs := groupLen g sparse
    rowsOf := mc
    col0 := fun u => (c.tile (tileIdx u)).1
    colsOf := fun u => (c.tile (tileIdx u)).2.1
    ktilesAt := fun u col => (c.ktiles (dec u).1 (c.tileOf col) kt).length
    pos := fun u i r col => (taps u (c.tileOf col) i).map fun q =>
      let ph := (dec u).1
      let chn := q.2.2.2
      if chn / c.gi != col / c.go then none
      else
        let k := q.2.2.1 * c.gi + chn % c.gi
        let av := match pixel u r q.1 q.2.1 with
          | some px => s.valAt ch af (inAddr px) (inSc px) chn
          | none => .zero
        if sparse then
          let ix := metaIdx (nib ph col (k / 4))
          if k % 4 = ix.1 || k % 4 = ix.2 then
            let bv := elemVal wf (s.rawAt ch wf (wCol ph col) (2 * (k / 4) + (if k % 4 = ix.1 then 0 else 1)))
            some (av, if isMx wf then bv.mul (scaleVal (u8 (s.spGet ch (wSc ph col + k / 32) 1) 0)) else bv)
          else none
        else some (av, s.valAt ch wf (wCol ph col) (wSc ph col) k)
    init := fun _ _ _ => 0
    reads := fun u i =>
      let ph := (dec u).1
      let t := tileIdx u
      ((List.range (mc u)).flatMap fun r => (taps u t i).flatMap fun q => match pixel u r q.1 q.2.1 with
        | some px => (inAddr px + elemBytes af q.2.2.2, elemBytes af 1)
            :: if isMx af then [(inSc px + q.2.2.2 / 32, 1)] else []
        | none => [])
      ++ (colsList u).flatMap fun col =>
        (wCol ph col, elemBytes wf (if sparse then c.colK ph / 2 else c.colK ph))
          :: ((if sparse then [(wMeta ph col, cdiv (c.colK ph) 8)] else [])
            ++ if isMx wf then [(wSc ph col, c.colK ph / 32)] else [])
    initReads := fun _ => []
    convReads := fun u =>
      (if fl.testBit 1 then (List.range (mc u)).map fun r =>
        (outAt (o.p32 68) u r + elemBytes cf (c.tile (tileIdx u)).1, elemBytes cf (c.tile (tileIdx u)).2.1) else [])
      ++ [(w0 + blk.colScale, 4 * c.cout), (w0 + blk.bias, 4 * c.cout)]
    writes := fun u => (List.range (mc u)).flatMap fun r =>
      (outAt (o.p32 40) u r + elemBytes cf (c.tile (tileIdx u)).1, elemBytes cf (c.tile (tileIdx u)).2.1)
        :: if isMx cf then [(outSc (o.p32 40) u r + (c.tile (tileIdx u)).1 / 32, 1)] else []
    bad := fun u i => sparse && (colsList u).any fun col => (taps u (tileIdx u) i).any fun q =>
      let ix := metaIdx (nib (dec u).1 col ((q.2.2.1 * c.gi + q.2.2.2 % c.gi) / 4))
      q.2.2.2 / c.gi == col / c.go && decide (ix.2 ≤ ix.1)
    lastCol := fun _ => c.cout
    cFmt := cf
    round := fl.testBit 2
    sat := fl.testBit 3
    strict := o.strict
    act := u8 p 4
    p0 := o.pF 76
    p1 := o.pF 80
    colScale := fun col => some (s.f32At ch (w0 + blk.colScale) col)
    bias := fun col => some (s.f32At ch (w0 + blk.bias) col)
    resid := fun u r col => if fl.testBit 1 then
      some ((s.valAt ch cf (outAt (o.p32 68) u r) (outSc (o.p32 68) u r) col).r32) else none
    rowAddr := fun u r => outAt (o.p32 40) u r
    scaleAddr := fun u r => outSc (o.p32 40) u r
    saveAddr := o.p32 64 }

/-- The largest access width, as log2, that divides a number (R152). -/
def widthFor (n : Nat) : Nat := (List.range 7).foldl (fun b w => if n % 2 ^ w = 0 then w else b) 0

/-- The transfer that loads a remote weight block (R199). -/
def convLoadProg (o : OpRec) : Prog :=
  let n := o.p32 52
  let src := BitVec.ofNat 64 (u64 o.params 56)
  let big := 16777216 < n
  let cnt := if big then n / 2 else n
  let w := min (widthFor cnt) (min (widthFor (adAddr src)) (widthFor (o.p32 48)))
  { src := src, dst := BitVec.ofNat 64 (o.p32 48), count := cnt, srcW := w, dstW := w, n0 := if big then 2 else 1, n1 := 1
    n2 := 1, step0 := BitVec.ofNat 32 (if big then cnt else 0), step1 := BitVec.ofNat 32 (if big then cnt else 0) }

/-- CONV: the op starts in its ME reservation. With W_REMOTE it first has its queue load the weight block, and a later
CONV in the same or a later reservation starts the first pair once the load has ended (R199, log 24). -/
def State.convEff (s : State) (a budget cycles line : Nat) (stall : Bool) : State :=
  let go := fun (s : State) (o : OpRec) =>
    ((((meRun (fun s => convJob s (a / 16) o) a 0x0102 budget s).meCycles a cycles).evMe a 5 (if stall then 1 else 0)).meSettle
      a).opEcc a line
  match s.opReady a 0x0102 1 0 with
  | some o =>
    let s1 := ((s.opBegin a o).meTake a).spotSample a o
    if (u8 o.params 3).testBit 5 then
      (((s1.onRun a fun r => { r with loading := true }).queueLoad a (convLoadProg o)).meCycles a cycles).meSettle a
    else go s1 o
  | none => match s.opInHand a 0x0102 with
    | some r => if !r.loading && !r.saved && r.unit == 0 && r.kt == 0 && s.holdsFor a 1 0 r.seq
      then go (s.meTake a) (s.opOf a) else s
    | none => s

/-- CONV. -/
def execConv (a budget cycles line : Nat) (stall : Bool) (s : State) : Host.Outcome State Fault Refusal :=
  .next (if !s.live then s else commit (s.convEff a budget cycles line stall))

/-! ### SPACE2DEPTH, DEPTH2SPACE, TCONV_PREP (R198, R201, R202) -/

/-- A general-core op that restarts from its beginning when its reservation ends first (R202): with `fits` false it
starts and leaves nothing done. -/
def State.restartOp (s : State) (a opcode cls inst : Nat) (fits : Bool) (f : State → OpRec → State) : State :=
  match s.opReady a opcode cls inst with
  | some o => if fits then f (s.opBegin a o) o else s.opBegin a o
  | none => match s.opInHand a opcode with
    | some r => if s.holdsFor a cls inst r.seq && fits then f s (s.opOf a) else s
    | none => s

/-- The regrouping of R201: pairs of (source element address, destination element address), in output order. -/
def s2dMoves (inverse : Bool) (p : List Byte) (inBits outBits : Nat) : List (Nat × Nat) :=
  let b := u8 p 2
  let h := u16 p 4
  let w := u16 p 6
  let c := u16 p 8
  let inA := fun y x e => u32 p 12 + y * u32 p 16 + x * u16 p 28 + e * inBits / 8
  let outA := fun y x e => u32 p 20 + y * u32 p 24 + x * u16 p 30 + e * outBits / 8
  if !inverse then
    (List.range (h / b)).flatMap fun y => (List.range (w / b)).flatMap fun x =>
      (List.range b).flatMap fun dy => (List.range b).flatMap fun dx => (List.range c).map fun e =>
        (inA (y * b + dy) (x * b + dx) e, outA y x ((dy * b + dx) * c + e))
  else
    let co := c / (b * b)
    (List.range h).flatMap fun y => (List.range w).flatMap fun x =>
      (List.range b).flatMap fun dy => (List.range b).flatMap fun dx => (List.range co).map fun e =>
        (inA y x ((dy * b + dx) * co + e), outA (y * b + dy) (x * b + dx) e)

/-- The work of SPACE2DEPTH and DEPTH2SPACE: the input read and the output written under the loans, bytes moved
unchanged or, with PIX_U8, unsigned pixels offset, scaled and converted (R201, R202). -/
def State.regroup (s : State) (a : Nat) (inverse : Bool) (o : OpRec) : State :=
  let p := o.params
  let pix := !inverse && (u8 p 3).testBit 0
  let sat := (u8 p 3).testBit 1
  let outF := u8 p 1
  let inB := if pix then 8 else elemBits (u8 p 0)
  let outB := elemBits outF
  let mv := s2dMoves inverse p inB outB
  match s.firstRefusal a false (mv.map fun m => (m.1, inB / 8)) with
  | .ok => match s.firstRefusal a true (mv.map fun m => (m.2, outB / 8)) with
    | .ok =>
      let ch := a / 16
      let off := o.pF 32
      let scl := o.pF 36
      (mv.foldl (fun (t : State) m =>
        let b := t.spGet ch m.1 (inB / 8)
        let b := if pix then
            toLe (outB / 8) (convPlain outF false sat (fMul (fSub (.ofInt (u8 b 0)) off) scl)).bits
          else b
        t.spPut ch m.2 b) s).opOutcome a 0
    | r => s.loanFault a r
  | r => s.loanFault a r

/-- SPACE2DEPTH on a general core. -/
def execSpace2depth (a core : Nat) (fits : Bool) (s : State) : Host.Outcome State Fault Refusal :=
  .next (if !s.live then s else commit (s.restartOp a 0x0302 3 core fits fun s o => s.regroup a false o))

/-- DEPTH2SPACE on a general core. -/
def execDepth2space (a core : Nat) (fits : Bool) (s : State) : Host.Outcome State Fault Refusal :=
  .next (if !s.live then s else commit (s.restartOp a 0x0303 3 core fits fun s o => s.regroup a true o))

/-- The shape TCONV_PREP works on (R198). -/
def tconvShape (p : List Byte) (transposed : Bool) : ConvShape :=
  { groups := u16 p 8, ih := 1, iw := 1, cin := u16 p 10, cout := u16 p 12, kh := u8 p 1, kw := u8 p 2, sh := u8 p 3
    sw := u8 p 4, dh := 1, dw := 1, pt := u8 p 5, pb := 0, pl := u8 p 6, pr := 0, transposed := transposed }

/-- The work of TCONV_PREP: the block of R191 rewritten phase by phase, COLSCALE and BIAS copied (R198). -/
def State.tconvPrep (s : State) (a : Nat) (o : OpRec) : State :=
  let p := o.params
  let wf := u8 p 0
  let src := o.p32 16
  let dst := o.p32 20
  let ch := a / 16
  let cS := tconvShape p false
  let cD := tconvShape p true
  let bS := cS.block wf false
  let bD := cD.block wf false
  let bytesS := bS.bias + 4 * cS.cout
  let bytesD := bD.bias + 4 * cD.cout
  match s.firstRefusal a false [(src, bytesS)] with
  | .ok => match s.firstRefusal a true [(dst, bytesD)] with
    | .ok =>
      let cols := (List.range cD.phases).flatMap fun ph => (List.range cD.cout).map fun col => (ph, col)
      let s1 := cols.foldl (fun (t : State) pc =>
        let f := cD.phase pc.1
        let ks := f.kys.flatMap fun ky => f.kxs.flatMap fun kx => (List.range cD.gi).map fun ci => (ky * cS.kw + kx) * cS.gi + ci
        let from' := src + pc.2 * bS.strides.getD 0 0
        let t1 := t.spPut ch (dst + bD.cols.getD pc.1 0 + pc.2 * bD.strides.getD pc.1 0)
          (packElems wf (ks.map fun k => s.rawAt ch wf from' k))
        if isMx wf then
          let scs := (chunksOf 32 ks.length ks).map fun blk => s.spGet ch (src + bS.scales.getD 0 0 + pc.2 * (cS.colK 0 / 32)
            + blk.headD 0 / 32) 1
          t1.spPut ch (dst + bD.scales.getD pc.1 0 + pc.2 * (cD.colK pc.1 / 32)) scs.flatten
        else t1) s
      ((s1.spPut ch (dst + bD.colScale) (s.spGet ch (src + bS.colScale) (4 * cS.cout))).spPut ch (dst + bD.bias)
        (s.spGet ch (src + bS.bias) (4 * cS.cout))).opOutcome a 0
    | r => s.loanFault a r
  | r => s.loanFault a r

/-- TCONV_PREP on a general core. -/
def execTconvPrep (a core : Nat) (fits : Bool) (s : State) : Host.Outcome State Fault Refusal :=
  .next (if !s.live then s else commit (s.restartOp a 0x0304 3 core fits fun s o => s.tconvPrep a o))

end Sys2Proof.Machine
end

