-- ==== Sys2Proof/Machine/Link.lean ====
section
/-! DEFINITION. The ring as every service uses it (spec/15): frames and their headers, ring order and reach, and sending
lane-0 messages and lane frames. -/

namespace Sys2Proof.Machine

/-! ### Frames (R326) -/

/-- Bits [47:0] of a header. -/
def RFrame.low48 (f : RFrame) : Nat :=
  f.lane + f.dest * 2 ^ 5 + f.src * 2 ^ 8 + f.hops * 2 ^ 11 + f.typ * 2 ^ 14 + f.payload.length / 64 * 2 ^ 18 + f.seq * 2 ^ 24

/-- The eight bytes of a header. -/
def RFrame.header (f : RFrame) : List Byte :=
  let lo := toLe 6 f.low48
  lo ++ toLe 2 (crc16 lo).toNat

/-- A frame's bytes: header, payload, and a CRC-32C over the payload where there is one; a stomped copy carries its
complement (R326, R327). -/
def RFrame.wire (f : RFrame) : List Byte :=
  f.header ++ f.payload ++
    if f.payload.isEmpty then [] else toLe 4 (if f.stomped then ~~~ crc32c f.payload else crc32c f.payload).toNat

/-- The fields of a received header. -/
def frameOf (h : Nat) (payload : List Byte) : RFrame :=
  { lane := h % 32, dest := h / 2 ^ 5 % 8, src := h / 2 ^ 8 % 8, hops := h / 2 ^ 11 % 8, typ := h / 2 ^ 14 % 16
    seq := h / 2 ^ 24 % 4096, payload := payload }

/-- Whether a header's HCRC is right. -/
def headerOk (h : Nat) : Bool := (crc16 (toLe 6 (h % 2 ^ 48))).toNat == h / 2 ^ 48

/-! ### Ring order and reach (R321, R333, R339) -/

/-- Member indices in ring order. -/
def Binding.ringOrder (b : Binding) : List Nat := sortBy (fun (x y : Nat) => decide (x < y)) (b.netw.members.map (·.index))

/-- Whether the module is a ring member. -/
def State.isMember (s : State) : Bool := s.bound && s.member.isSome

/-- The member `k` places east (or west) of another in ring order. -/
def Binding.placeFrom (b : Binding) (idx k : Nat) (east : Bool) : Nat :=
  let o := b.ringOrder
  let n := o.length
  let p := o.findIdx (· == idx)
  if n = 0 then 0 else o.getD (if east then (p + k) % n else (p + n * k - k) % n) 0

/-- A MEMBER record by index. -/
def Binding.memberRec (b : Binding) (idx : Nat) : Option NetMember := b.netw.members.find? fun m => m.index == idx

/-- A ring port. -/
def State.rport (s : State) (p : Nat) : RPort := s.ring.ports.get p

/-- Update a ring port. -/
def State.onRport (s : State) (p : Nat) (f : RPort → RPort) : State :=
  s.onRing fun r => { r with ports := r.ports.upd p f }

/-- Whether a port carries frames: data only when UP, lane 0 also in MGMT (R322). -/
def RPort.carries (x : RPort) (data : Bool) : Bool := x.state == .up || (!data && x.state == .mgmt)

/-- The code of a port state. -/
def RPortState.code : RPortState → Nat
  | .down => 0
  | .train => 1
  | .up => 2
  | .mgmt => 3

/-- The next member an UP path reaches from a member in one direction: this module's own port, or what that member last
reported; a member that has reported nothing is taken to pass frames (log 30). -/
def State.nextHop (s : State) (idx : Nat) (east data : Bool) : Option Nat :=
  if idx = s.memberIdx then
    let x := s.rport (if east then 0 else 1)
    if x.carries data then some (s.b.placeFrom idx (x.skip + 1) east) else none
  else
    let r := s.ring.reports.get idx
    let st := if east then r.east else r.west
    let k := if east then r.eastSkip else r.westSkip
    if !r.seen then some (s.b.placeFrom idx 1 east)
    else if st = 2 || (!data && st = 3) then some (s.b.placeFrom idx (k + 1) east) else none

/-- The members a path passes in one direction, in order, without returning to this module. -/
def State.pathFrom (s : State) (east data : Bool) : Nat → Nat → List Nat
  | 0, _ => []
  | f + 1, idx => match s.nextHop idx east data with
    | none => []
    | some n => if n = s.memberIdx then [] else n :: s.pathFrom east data f n

/-- Hops to a member in one direction, where a path reaches it. -/
def State.hopsTo (s : State) (east data : Bool) (dest : Nat) : Option Nat :=
  let p := s.pathFrom east data 6 s.memberIdx
  if p.contains dest then some (p.findIdx (· == dest) + 1) else none

/-- The port a route's direction gives toward a member: 0 east, 1 west, 2 the shorter, east on a tie (R333). -/
def State.routePort (s : State) (dir dest : Nat) (data : Bool) : Option Nat :=
  let e := s.hopsTo true data dest
  let w := s.hopsTo false data dest
  match dir with
  | 0 => e.map fun _ => 0
  | 1 => w.map fun _ => 1
  | _ => match e, w with
    | some x, some y => some (if x ≤ y then 0 else 1)
    | some _, none => some 0
    | none, some _ => some 1
    | none, none => none

/-- REACH: the members an UP path reaches, this one included (R339). -/
def State.reach (s : State) : BitVec 6 :=
  if !s.isMember then 0
  else (s.memberIdx :: (s.pathFrom true true 6 s.memberIdx ++ s.pathFrom false true 6 s.memberIdx)).foldl bitSet 0

/-! ### Sending (R326 to R332) -/

/-- A frame leaves by a port: it takes the port's next SEQ, stands in the replay buffer, and is counted; during a retrain it
waits there (R329). -/
def State.frameOut (s : State) (p : Nat) (f : RFrame) : State :=
  let g := { f with seq := (s.rport p).nextSeq }
  let s1 := s.onRport p fun x => { x with nextSeq := (x.nextSeq + 1) % 4096, replay := x.replay ++ [g], frames := x.frames + 1 }
  if (s.rport p).retraining then s1
  else s1.out { kind := .ring, port := p, code := f.typ, status := f.lane, bytes := g.wire }

/-- A payload padded with zero bytes to whole 64-byte units. -/
def padTo64 (b : List Byte) : List Byte := sliceZ b 0 ((b.length + 63) / 64 * 64)

/-- A lane-0 message to one member, by the shorter usable path; none, and it is not sent. -/
def State.laneZero (s : State) (dest typ : Nat) (payload : List Byte) : State :=
  match s.routePort 2 dest false with
  | some p => s.frameOut p { dest := dest, src := s.memberIdx, hops := s.b.memberCount - 1, typ := typ, payload := padTo64 payload }
  | none => s

/-- A link-local message: DEST is the far end and HOPS 0 (R328). -/
def State.linkMsg (s : State) (p typ : Nat) (payload : List Byte) : State :=
  s.frameOut p { dest := (s.rport p).farMember % 8, src := s.memberIdx, typ := typ, payload := padTo64 payload }

/-- A broadcast, in both ring directions where a port carries lane 0, with HOPS the member count less 1 (R327, log 30). -/
def State.broadcast (s : State) (typ : Nat) (payload : List Byte) : State :=
  (List.range 2).foldl (fun (s : State) p =>
    if (s.rport p).carries false then
      s.frameOut p { dest := 7, src := s.memberIdx, hops := s.b.memberCount - 1, typ := typ, payload := padTo64 payload }
    else s) s

/-- RING_EVENT (R328): KIND 0 ABSENT, 1 SUSPECT, 2 ADMITTED, 3 CLEARED. -/
def State.sendRingEvent (s : State) (kind member tick : Nat) : State :=
  if !s.isMember then s
  else s.broadcast 5 (toLe 1 kind ++ toLe 1 member ++ List.replicate 6 0 ++ toLe 8 tick)

/-- LINK_REPORT of this module's ports (R325, R328). -/
def State.sendLinkReport (s : State) : State :=
  if !s.isMember then s
  else
    let e := s.rport 0
    let w := s.rport 1
    (s.broadcast 4 (toLe 1 s.memberIdx ++ toLe 1 e.state.code ++ toLe 1 w.state.code ++ toLe 1 e.skip ++ toLe 1 w.skip)).onRing
      fun r => { r with ports := r.ports.updAll [0, 1] fun _ x => { x with reported := true } }

/-- REVOKE (R328, R378). -/
def State.sendRevoke (s : State) (tenant : Nat) : State :=
  if !s.isMember then s
  else s.broadcast 6 (toLe 1 tenant ++ List.replicate 7 0 ++ toLe 8 s.tick.num)

/-- DIGEST (R328, R426, R430): KIND 0 weight, 1 result. -/
def State.sendDigest (s : State) (group kind tick : Nat) (d : List Byte) : State :=
  if !s.isMember then s
  else s.broadcast 7 (toLe 2 group ++ toLe 1 kind ++ List.replicate 5 0 ++ toLe 8 tick ++ d)

/-- PLAN_GEN of the running binding (R57). -/
def State.planGen (s : State) : Nat := s.b.col.planGen

/-- READY to the leader (R43). -/
def State.sendReady (s : State) : State :=
  s.laneZero s.tick.leader 2 (toLe 8 s.tick.num ++ toLe 1 s.memberIdx ++ [0] ++ toLe 2 s.planGen)

/-- A lane's frame out of a port. -/
def State.laneFrame (s : State) (p lane dest typ : Nat) (payload : List Byte) : State :=
  s.frameOut p { lane := lane, dest := dest, src := s.memberIdx, hops := s.b.memberCount - 1, typ := typ, payload := padTo64 payload }

/-- A frame of a lane in the direction fixed for it at the boundary; without a path it is not sent (R333). -/
def State.laneSend (s : State) (lane dest typ : Nat) (payload : List Byte) : State :=
  match s.ring.laneDir.get lane with
  | 0 => s
  | d => if (s.rport (d - 1)).carries true then s.laneFrame (d - 1) lane dest typ payload else s

/-- The direction of a lane's route, from the links that are UP now (R333). -/
def State.laneDirOf (s : State) (r : NetRoute) : Nat :=
  match s.routePort r.direction r.destMember true with
  | some p => p + 1
  | none => 0

/-- Every route's direction is fixed at a boundary (R333). -/
def State.routeBoundary (s : State) : State :=
  s.onRing fun g => { g with laneDir := s.b.netw.routes.foldl (fun t r => Tab.set t r.lane (s.laneDirOf r)) [] }

end Sys2Proof.Machine
end

