-- ==== Sys2Proof/Machine/LeafBase.lean ====
section
/-! DEFINITION. Leaves as every service sees them (spec/11): rows, the leaf map and its shadow, lists, holdings, local
slots, tiers, and the start and end of spills and fetches. -/

namespace Sys2Proof.Machine

/-! ### Rows (R240) -/

/-- ROW_BYTES of a format for rows of `w` elements. -/
def rowBytes (f w : Nat) : Nat := elemBytes f w + if isMx f then w / 32 else if f = 7 then 4 else 0

/-- PPL. -/
def rowsPerLeaf (f w : Nat) : Nat := 8192 / rowBytes f w

/-- The values of a stored row widened to FP32 (R221). -/
def rowVals (f w : Nat) (b : List Byte) : List FVal :=
  let sc := b.drop (elemBytes f w)
  let rs := FVal.ofW (BitVec.ofNat 32 (u32 b (elemBytes f w)))
  (List.range w).map fun i => if f = 7 then fMul (elemVal 7 (elemRaw 7 b i)) rs else widen (elemAt f b sc i)

/-! ### The map and lists (R243, R246) -/

/-- The published entry of a leaf. -/
def State.leafE (s : State) (l : Nat) : LeafEntry := s.leaf.map.get l

/-- The entry a LEAF_EDIT sees: the shadow one where the edit table holds one. -/
def State.leafShadow (s : State) (l : Nat) : LeafEntry :=
  let x := s.leaf.shadow.get l
  if x.used then x.entry else s.leafE l

/-- Whether an entry holds content. -/
def LeafEntry.holds (e : LeafEntry) : Bool := e.state != .free && e.state != .retired

/-- The states that pass the check of R226. -/
def LeafEntry.readable (e : LeafEntry) : Bool := e.state == .live || e.state == .spilling

/-- The tier region a tenant's slots on a site lie in: its HOST_SPILL or PEER_SPILL region with that LINK. -/
def Binding.tierRegion (b : Binding) (t : Tier) (k site : Nat) : Option MemxRec :=
  b.memx.find? fun r => r.kind == (if t = .host then 5 else 6) && r.tenant == k && r.link == site

/-- The key of a tier slot: its region and the index within it (R243 SLOT). -/
def State.tierKey (s : State) (t : Tier) (k site slot : Nat) : Nat :=
  match s.b.tierRegion t k site with
  | some r => r.region * 2 ^ 22 + slot
  | none => 1024 * 2 ^ 22 + slot

/-- The content an entry's local slot holds. -/
def State.leafBytes (s : State) (e : LeafEntry) : List Byte := s.gdGet e.site (8192 * e.slot) 8192

/-- A leaf list: its head's fields, its list leaves and its data leaves in order (R246). -/
structure LeafList where
  num : Nat := 0
  w : Nat := 0
  tenant : Nat := 0
  committed : Nat := 0
  written : Nat := 0
  chain : List Nat := []
  data : List Nat := []
deriving DecidableEq, Repr, Inhabited

/-- The list leaves from one on, by NEXT. -/
def listWalk (next : Nat → Nat) : Nat → Nat → List Nat
  | 0, _ => []
  | n + 1, x => if absent x then [] else x :: listWalk next n (next x)

/-- The list a number names, seen through a map and the content of its list leaves; none where the entry is no LIVE
head list leaf. -/
def listOf (ent : Nat → LeafEntry) (rd : LeafEntry → List Byte) (num : Nat) : Option LeafList :=
  let e := ent num
  let h := rd e
  if !(e.isList && e.state == .live) || u8 h 3 ≠ 0 then none
  else
    let chain := listWalk (fun x => u32 (rd (ent x)) 16) 16 num
    let nums := chain.flatMap fun x => (List.range 2032).map fun i => u32 (rd (ent x)) (64 + 4 * i)
    some { num := num, w := u16 h 0, tenant := e.tenant, committed := u32 h 4, written := u32 h 8, chain := chain
           data := nums.take (u32 h 12) }

/-- The published list of a number. -/
def State.pubList (s : State) (num : Nat) : Option LeafList := listOf s.leafE s.leafBytes num

/-- A list's data leaves with the first position of each (R241). -/
def placed (ent : Nat → LeafEntry) (w : Nat) : Nat → List Nat → List (Nat × Nat)
  | _, [] => []
  | p, l :: r => (l, p) :: placed ent w (p + rowsPerLeaf (ent l).fmt w) r

/-- The data leaves of a list that hold a position below a length. -/
def LeafList.below (ent : Nat → LeafEntry) (x : LeafList) (len : Nat) : List Nat :=
  ((placed ent x.w 0 x.data).filter fun y => decide (y.2 < len)).map (·.1)

/-! ### Holdings and slots (R256, R257) -/

/-- The plans of LEAF_EDIT ops between their check and their record phase. -/
def State.openPlans (s : State) : List EditPlan := s.acts.filterMap fun a => match a.2.run with
  | some r => r.edit
  | none => none

/-- Every leaf number that is not FREE for allocation: published, shadow, or reserved by an op in hand. -/
def State.leafTaken (s : State) : List (Nat × Nat) :=
  ((s.leaf.map.filter fun e => e.2.state != .free).map fun e => (e.1, e.2.tenant))
    ++ ((s.leaf.shadow.filter fun e => e.2.used && e.2.entry.state != .free).map fun e => (e.1, e.2.entry.tenant))
    ++ s.openPlans.flatMap fun p => p.writes.map fun w => (w.leaf, w.entry.tenant)

/-- The holding of a tenant (R256). -/
def State.holding (s : State) (k : Nat) : Nat :=
  ((s.leafTaken.filter fun e => e.2 == k && (s.leafShadow e.1).state != .retired).map (·.1)).eraseDups.length

/-- MIN_LEAVES and MAX_LEAVES of a tenant; tenant 0 has no maximum (R256). -/
def State.quota (s : State) (k : Nat) : Nat × Nat :=
  if k = 0 then (0, 16777216)
  else match s.b.leaf.find? fun r => r.kind == 1 && r.tenant == k with
    | some r => (r.minLeaves, r.maxLeaves)
    | none => (0, 0)

/-- The pool regions of a channel that serve a tenant, in ascending region number (R256, R257). -/
def State.pools (s : State) (ch : Nat) (k : Option Nat) : List MemxRec :=
  sortBy (fun (x y : MemxRec) => decide (x.region < y.region)) (s.b.memx.filter fun r =>
    r.kind == 3 && r.channel == ch && (r.tenant == 0 || k.isNone || k == some r.tenant))

/-- The local slots of a channel that are not free: those of published and shadow entries, retained ones, and those
reserved by edits and fetches in hand. -/
def State.slotsUsed (s : State) (ch : Nat) : List Nat :=
  let loc := fun (e : LeafEntry) => e.holds && e.tier == .loc && e.site == ch
  (((s.leaf.map.filter fun e => loc e.2).map (·.2.slot))
    ++ ((s.leaf.shadow.filter fun e => e.2.used && loc e.2.entry).map (·.2.entry.slot))
    ++ ((s.leaf.retained.filter fun r => r.channel == ch).map (·.slot))
    ++ (s.leaf.xfers.filterMap fun x => if x.channel = ch then x.localSlot else none)
    ++ s.openPlans.flatMap fun p => (p.writes.filter fun w => loc w.entry).map (·.entry.slot)).eraseDups

/-- All local slots of a channel. -/
def State.slotsAll (s : State) (ch : Nat) : Nat := ((s.pools ch none).map fun r => 256 * r.size).sum

/-- Free local slots of a channel. -/
def State.slotsFree (s : State) (ch : Nat) : Nat := s.slotsAll ch - (s.slotsUsed ch).length

/-- The lowest slot of a range that is not used. -/
def firstFree (used : List Nat) (hi : Nat) : Nat → Nat → Option Nat
  | 0, _ => none
  | f + 1, x => if hi ≤ x then none else if used.contains x then firstFree used hi f (x + 1) else some x

/-- The slot R257 gives a tenant in a channel beside slots already taken by the op, under the condition of R256. -/
def State.slotFor (s : State) (k ch : Nat) (taken : List Nat) (extra : Nat) : Option Nat :=
  let used := taken ++ s.slotsUsed ch
  let owed := ((s.b.leaf.filter fun r => r.kind == 1 && r.tenant != k).map fun r => r.minLeaves - s.holding r.tenant).sum
  if s.holding k + extra < (s.quota k).1 || owed < s.slotsFree ch - taken.length then
    (s.pools ch (some k)).foldl (fun (r : Option Nat) p => match r with
      | some x => some x
      | none => firstFree used (256 * (p.base + p.size)) (used.length + 1) (256 * p.base)) none
  else none

/-! ### Snapshots (R223, R224) -/

/-- The live snapshots. -/
def State.snaps (s : State) : List Snapshot := s.acts.filterMap fun a => match a.2.run with
  | some r => match r.snap with
    | some x => if x.cache then some x else none
    | none => none
  | none => none

/-- Whether a live snapshot names a leaf. -/
def State.snapped (s : State) (l : Nat) : Bool :=
  s.snaps.any fun x => x.segs.any fun g => g.list == l || g.leaves.any fun e => e.1 == l

/-! ### Spills and fetches (R258 to R264) -/

/-- Change a leaf's map entry. -/
def State.onLeafE (s : State) (l : Nat) (f : LeafEntry → LeafEntry) : State :=
  s.onLeaf fun x => { x with map := x.map.upd l f }

/-- The lane on which a tenant's leaf activity of a channel reaches a lender (R331). -/
def State.leafLane (s : State) (k ch site : Nat) : Option Nat :=
  match s.b.leafAct k ch with
  | some a => match s.b.routeOf (s.b.dq a).ringLane with
    | some r => if r.destMember = site then some r.lane else none
    | none => none
  | none => none

/-- The slot number of a tier slot in its window or serve space: the region's BASE and the index (R82). -/
def State.tierIndex (s : State) (t : Tier) (k site slot : Nat) : Nat :=
  match s.b.tierRegion t k site with
  | some r => r.base + slot
  | none => slot

/-- The requests of a spill: the ciphertext and MACs, which are free bytes, go to the window, or to the lender as
SPILL_WRITE and 17 DATA frames (R260, R261, R330). -/
def State.tierWrite (s : State) (t : Tier) (k ch site slot : Nat) : State :=
  let i := s.tierIndex t k site slot
  let d := s.freeBytes 8704
  let s1 := s.tookFree 8704
  match t with
  | .host => s1.out { kind := .hostWrite, port := site, code := 8704 * i, bytes := d }
  | .peer => match s.leafLane k ch site with
    | some l => (List.range 17).foldl (fun (s : State) n => s.laneSend l site 13 (slice d (512 * n) 512))
        (s1.laneSend l site 8 (toLe 4 i ++ toLe 1 k ++ toLe 1 ch))
    | none => s1
  | .loc => s

/-- The request of a fetch (R264, R330). -/
def State.tierRead (s : State) (t : Tier) (k ch site slot : Nat) : State :=
  let i := s.tierIndex t k site slot
  match t with
  | .host => s.out { kind := .hostRead, port := site, code := 8704 * i, status := 8704 }
  | .peer => match s.leafLane k ch site with
    | some l => s.laneSend l site 9 (toLe 4 i ++ toLe 1 k)
    | none => s
  | .loc => s

/-- A tier slot is freed; a lender is told (R330). -/
def State.tierFree (s : State) (t : Tier) (k site slot : Nat) : State :=
  let s1 := s.onLeaf fun x => { x with tiers := x.tiers.erase (s.tierKey t k site slot) }
  match t with
  | .peer => match (List.range 6).findSome? fun ch => s.leafLane k ch site with
    | some l => s1.laneSend l site 12 (toLe 4 (s.tierIndex t k site slot) ++ toLe 1 k)
    | none => s1
  | _ => s1

/-- The transfer of a leaf in progress. -/
def State.xferOf (s : State) (l : Nat) : Option Xfer := s.leaf.xfers.find? fun x => x.leaf == l

/-- A leaf's transfer is over. -/
def State.xferDrop (s : State) (l : Nat) : State :=
  s.onLeaf fun x => { x with xfers := x.xfers.filter fun y => y.leaf != l }

/-- A local slot is retained until no older snapshot lives (R255). -/
def State.retain (s : State) (ch slot pub : Nat) : State :=
  s.onLeaf fun x => { x with retained := x.retained ++ [{ channel := ch, slot := slot, pub := pub }] }

/-- A spill is abandoned: the leaf stays LIVE in its slot and the tier slot is freed (R261). -/
def State.spillAbandon (s : State) (l : Nat) : State :=
  match s.xferOf l with
  | some x => if x.isFetch then s
    else ((s.tierFree x.tier (s.leafE l).tenant x.site x.tierSlot).xferDrop l).onLeafE l fun e => { e with state := .live }
  | none => s

/-- The tiers in the order TIER_ORDER gives. -/
def State.tierOrder (s : State) : List Tier :=
  match s.b.leaf.find? fun r => r.kind == 0 with
  | some r => match r.tierOrder with
    | 0 => [.host, .peer]
    | 1 => [.peer, .host]
    | 2 => [.host]
    | _ => [.peer]
  | none => []

/-- A free slot of a tier for a tenant: site and slot. A host window that is disabled and a lender that is ABSENT serve
none, nor does a tier that failed since the last boundary (R261, R262). -/
def State.tierSlotFor (s : State) (t : Tier) (k : Nat) : Option (Nat × Nat) :=
  let rs := s.b.memx.filter fun r => r.kind == (if t = .host then 5 else 6) && r.tenant == k
    && !s.leaf.tierBad.contains (t, r.link)
    && (if t = .host then s.winServes r.link k else !s.ring.absent.getLsbD r.link)
    && s.b.tierRegion t k r.link == some r
  let used := fun (r : MemxRec) => (s.leaf.tiers.filter fun e => e.1 / 2 ^ 22 == r.region).map fun e => e.1 % 2 ^ 22
  rs.foldl (fun (x : Option (Nat × Nat)) r => match x with
    | some y => some y
    | none => (firstFree (used r) r.size ((used r).length + 1) 0).map fun i => (r.link, i)) none

/-- A spill starts: the leaf is SPILLING and its sealed content goes to the tier slot (R261 steps 1 and 2). -/
def State.spillStart (s : State) (l : Nat) (t : Tier) (site slot : Nat) : State :=
  let e := s.leafE l
  let key := s.tierKey t e.tenant site slot
  let s1 := (s.onLeafE l fun e => { e with state := .spilling }).tierWrite t e.tenant e.site site slot
  s1.onLeaf fun x => { x with
    tiers := x.tiers.set key { used := true, leaf := l, gen := e.gen, epoch := e.epoch, tenant := e.tenant
                               content := s.leafBytes e }
    xfers := x.xfers ++ [{ leaf := l, isFetch := false, channel := e.site, tier := t, site := site, tierSlot := slot }] }

/-- A spill ends: with an acknowledgement the entry is SPILLED at once and its local slot is retained; with HOST_ERROR
or PEER_ERROR, or when a snapshot names the leaf, it is abandoned (R261). -/
def State.spillEnd (s : State) (l ack : Nat) : State :=
  match s.xferOf l with
  | none => s
  | some x =>
    if x.isFetch then s
    else if ack ≠ 0 then
      ((s.spillAbandon l).onLeaf fun y => { y with tierBad := (x.tier, x.site) :: y.tierBad }).evLeaf 7 none
    else if s.snapped l then s.spillAbandon l
    else
      let e := s.leafE l
      ((s.retain e.site e.slot s.leaf.pubCount).xferDrop l).onLeafE l fun e =>
        { e with state := .spilled, tier := x.tier, site := x.site, slot := x.tierSlot }

/-- Insert a fetch in ascending use tick, after equal ones. -/
def fetchInsert (x : Xfer) : List Xfer → List Xfer
  | [] => [x]
  | y :: r => if y.isFetch && decide (x.useTick < y.useTick) then x :: y :: r else y :: fetchInsert x r

/-- A fetch in progress that is now asked for earlier runs in its new place (R264). -/
def State.fetchHaste (s : State) (l useTick : Nat) : State :=
  match s.xferOf l with
  | some x => if x.isFetch && decide (useTick < x.useTick) then s.onLeaf fun y => { y with
      xfers := fetchInsert { x with useTick := useTick } (y.xfers.filter fun z => z.leaf != l) } else s
  | none => s

/-- A fetch of a SPILLED leaf into a channel starts: the leaf is FETCHING, and a local slot is taken where R256 allows
one (R264 steps 1 and 2); without a leaf activity there it cannot be (R258). -/
def State.fetchStart (s : State) (l ch useTick : Nat) : State :=
  let e := s.leafE l
  if e.state ≠ .spilled then s.fetchHaste l useTick
  else if (s.b.leafAct e.tenant ch).isNone then s.evLeaf 4 none
  else
    let slot := s.slotFor e.tenant ch [] 0
    ((if slot.isSome then s.tierRead e.tier e.tenant ch e.site e.slot else s).onLeafE l fun e => { e with state := .fetching }).onLeaf fun x => { x with
      xfers := fetchInsert { leaf := l, isFetch := true, channel := ch, tier := e.tier, site := e.site, tierSlot := e.slot
                             localSlot := slot, useTick := useTick } x.xfers }

/-- A leaf is lost (R262). -/
def State.leafLose (s : State) (l : Nat) : State :=
  let e := s.leafE l
  let s1 := if e.tier == .loc then s else s.tierFree e.tier e.tenant e.site e.slot
  ((s1.xferDrop l).onLeafE l fun e => { e with state := .lost }).evLeaf 5 none

/-- Every leaf that a tier site holds is lost: the lender is gone or the window disabled (R262, R349); spills on the way
there are abandoned. -/
def State.tierLost (s : State) (t : Tier) (site : Nat) (k : Option Nat) : State :=
  s.leaf.map.foldl (fun (s : State) e =>
    if k.isSome && k != some e.2.tenant then s
    else if (e.2.state == .spilled || e.2.state == .fetching) && e.2.tier == t && e.2.site == site then s.leafLose e.1
    else match s.xferOf e.1 with
      | some x => if !x.isFetch && x.tier == t && x.site == site then (s.spillEnd e.1 (if t = .host then 7 else 8)) else s
      | none => s) s

/-- A fetch ends: with an acknowledgement the content lies in the local slot and the entry is LIVE at once; with an
error it is SPILLED again, or LOST at the second one in a row (R262, R264). A MAC that fails with the key slot LIVE is
an integrity violation (R370). -/
def State.fetchEnd (s : State) (l ack : Nat) (macOk : Bool) : State :=
  match s.xferOf l with
  | none => s
  | some x => match x.localSlot with
    | none => s
    | some slot =>
      if !x.isFetch then s
      else
        let e := s.leafE l
        let ks := s.keySlotOf e.tenant e.epoch true
        if ack ≠ 0 then
          let n := s.leaf.fails.get l + 1
          let s1 := s.evLeaf 7 none
          if n < 2 then ((s1.xferDrop l).onLeafE l fun e => { e with state := .spilled }).onLeaf fun y =>
            { y with fails := y.fails.set l n }
          else (s1.leafLose l).onLeaf fun y => { y with fails := y.fails.set l 0 }
        else if !macOk && s.slotLive ks then s.integrity e.tenant ks x.channel (64 * l)
        else
          let c := (s.leaf.tiers.get (s.tierKey x.tier e.tenant x.site x.tierSlot)).content
          ((((s.gdPut x.channel (8192 * slot) c).tierFree x.tier e.tenant x.site x.tierSlot).xferDrop l).onLeafE l fun e =>
            { e with state := .live, tier := .loc, site := x.channel, slot := slot }).onLeaf fun y =>
            { y with fails := y.fails.set l 0 }

/-- Whether a fetch is the one its leaf activity runs now: the first with a local slot of its tenant and channel. -/
def State.fetchTurn (s : State) (l : Nat) : Bool :=
  match s.xferOf l with
  | some x => match s.leaf.xfers.find? fun y => y.isFetch && y.channel == x.channel && y.localSlot.isSome
      && (s.leafE y.leaf).tenant == (s.leafE l).tenant with
    | some y => y.leaf == l
    | none => false
  | none => false

/-- A waiting fetch takes a slot that has come free, in the order fetches run (R264). -/
def State.fetchSlot (s : State) (l : Nat) : State :=
  match s.xferOf l with
  | some x =>
    let first := s.leaf.xfers.find? fun y => y.isFetch && y.channel == x.channel && y.localSlot.isNone
    if x.isFetch && x.localSlot.isNone && first.map (·.leaf) == some l then
      match s.slotFor (s.leafE l).tenant x.channel [] 0 with
      | some slot => (s.tierRead x.tier (s.leafE l).tenant x.channel x.site x.tierSlot).onLeaf fun y =>
          { y with xfers := y.xfers.map fun z => if z.leaf = l then { z with localSlot := some slot } else z }
      | none => s
    else s
  | none => s

end Sys2Proof.Machine
end

