-- ==== Sys2Proof/Machine/Attn.lean ====
section
/-! DEFINITION. The attention engine (spec/10): visibility, the two latent forms, the online soft-maximum, snapshots and
their checks, and the streaming GEMV. -/

namespace Sys2Proof.Machine

/-- The parameters of an ATTN op (R227). -/
structure AttnShape where
  qf : Nat
  outF : Nat
  floor : Nat
  absorb : Bool
  causal : Bool
  tree : Bool
  cache : Bool
  round : Bool
  sat : Bool
  strict : Bool
  heads : Nat
  upf : Nat
  lat : Nat
  posd : Nat
  hd : Nat
  qrows : Nat
  segs : Nat
  scale : FVal
  q : Nat
  qStride : Nat
  qinfo : Nat
  segtab : Nat
  uk : Nat
  uv : Nat
  out : Nat
  outStride : Nat
  freshF : Nat
  freshN : Nat
  fresh : Nat
  freshStride : Nat
  finfo : Nat
  treeAddr : Nat
  save : Nat

/-- The parameters read from an op record. -/
def attnShape (o : OpRec) : AttnShape :=
  let p := o.params
  let fl := u8 p 3
  { qf := u8 p 0, outF := u8 p 1, floor := u8 p 2, absorb := fl.testBit 0, causal := fl.testBit 1, tree := fl.testBit 2
    round := fl.testBit 3, sat := fl.testBit 4, cache := fl.testBit 5, strict := o.strict, heads := u8 p 4, upf := u8 p 5
    lat := u16 p 6, posd := u16 p 8, hd := u16 p 10, qrows := u16 p 12, segs := u16 p 14, scale := o.pF 16, q := o.p32 20
    qStride := o.p32 24, qinfo := o.p32 28, segtab := o.p32 32, uk := o.p32 36, uv := o.p32 40, out := o.p32 44
    outStride := o.p32 48, freshF := u8 p 52, freshN := u16 p 54, fresh := o.p32 56, freshStride := o.p32 60
    finfo := o.p32 64, treeAddr := o.p32 68, save := o.p32 72 }

/-- DQK (R216). -/
def AttnShape.dqk (x : AttnShape) : Nat := (if x.absorb then x.lat else x.hd) + x.posd
/-- DV (R216). -/
def AttnShape.dv (x : AttnShape) : Nat := if x.absorb then x.lat else x.hd
/-- Elements of a cache or fresh row. -/
def AttnShape.w (x : AttnShape) : Nat := x.lat + x.posd
/-- UP_ROW (R227). -/
def AttnShape.upRow (x : AttnShape) : Nat := (elemBytes x.upf x.lat + 63) / 64 * 64
/-- Row groups of 64 rows. -/
def AttnShape.groups (x : AttnShape) : Nat := cdiv (x.qrows * x.heads) 64
/-- The rows of a group as (token, head). -/
def AttnShape.rowsOf (x : AttnShape) (g : Nat) : List (Nat × Nat) :=
  (List.range (min 64 (x.qrows * x.heads - 64 * g))).map fun i => ((64 * g + i) / x.heads, (64 * g + i) % x.heads)
/-- Words of the state a row holds: m, l, o and the query. -/
def AttnShape.rowWords (x : AttnShape) : Nat := 2 + x.dv + x.dqk

/-- A token record: SEG, NODE, POS (R228). -/
structure TokInfo where
  seg : Nat
  node : Nat
  pos : Nat

/-- A token record in scratchpad. -/
def State.tokAt (s : State) (ch base i : Nat) : TokInfo :=
  let b := s.spGet ch (base + 8 * i) 8
  { seg := u16 b 0, node := u8 b 2, pos := u32 b 4 }

/-- The segment table: (SEG, LIST). -/
def State.segTable (s : State) (ch : Nat) (x : AttnShape) : List (Nat × Nat) :=
  (List.range x.segs).map fun i => (u16 (s.spGet ch (x.segtab + 16 * i) 16) 0, u32 (s.spGet ch (x.segtab + 16 * i) 16) 4)

/-- The ancestor mask of a node; 0 without TREE. -/
def State.ancOf (s : State) (ch : Nat) (x : AttnShape) (i : Nat) : Nat :=
  if x.tree && decide (i < 16) then u16 (s.spGet ch (x.treeAddr + 2 * i) 2) 0 else 0

/-- A key: a row of a leaf at a position of its segment's list, or a fresh row. -/
inductive AttnKey where
  | cache (seg leaf : Nat) (e : LeafEntry) (row pos : Nat)
  | fresh (i : Nat)

/-- Visibility of R215 for a query and a key of the same segment. -/
def keyVisible (causal : Bool) (anc : Nat → Nat) (q : TokInfo) (fresh : Bool) (k : TokInfo) : Bool :=
  if !fresh then (if q.node = 0xFF then !causal || decide (k.pos ≤ q.pos) else true)
  else if k.node = 0xFF then (if q.node = 0xFF then !causal || decide (k.pos ≤ q.pos) else decide (k.pos ≤ q.pos))
  else if q.node = 0xFF then false
  else (anc q.node).testBit k.node

/-- The cache keys of a segment below COMMITTED, in ascending position. -/
def cacheKeys (seg w committed : Nat) : Nat → List (Nat × LeafEntry) → List AttnKey
  | _, [] => []
  | p, (l, e) :: r =>
    ((List.range (min (rowsPerLeaf e.fmt w) (committed - p))).map fun i => AttnKey.cache seg l e i (p + i))
      ++ cacheKeys seg w committed (p + rowsPerLeaf e.fmt w) r

/-- The key blocks of a row group in fetch order (R219). -/
def State.attnBlocks (s : State) (ch : Nat) (x : AttnShape) (snap : Snapshot) (g : Nat) : List (List AttnKey) :=
  let segs := (x.rowsOf g).map fun r => (s.tokAt ch x.qinfo r.1).seg
  (snap.segs.filter fun sg => sg.seg != 0xFFFF && segs.contains sg.seg).flatMap fun sg =>
    let ck := cacheKeys sg.seg x.w sg.committed 0 sg.leaves
    let fk := ((List.range x.freshN).filter fun i => (s.tokAt ch x.finfo i).seg == sg.seg).map AttnKey.fresh
    chunksOf 64 ck.length ck ++ chunksOf 64 fk.length fk

/-- The token record a key carries. -/
def State.keyTok (s : State) (ch : Nat) (x : AttnShape) : AttnKey → TokInfo
  | .cache seg _ _ _ pos => { seg := seg, node := 0xFF, pos := pos }
  | .fresh i => s.tokAt ch x.finfo i

/-- The stored values of a key, widened (R221). -/
def State.keyVals (s : State) (ch : Nat) (x : AttnShape) : AttnKey → List FVal
  | .cache _ _ e row _ => rowVals e.fmt x.w (s.gdGet e.site (8192 * e.slot + row * rowBytes e.fmt x.w) (rowBytes e.fmt x.w))
  | .fresh i => (List.range x.w).map fun k =>
      widen (s.valAt ch x.freshF (x.fresh + i * x.freshStride) (x.fresh + x.freshN * x.freshStride + i * (x.w / 32)) k)

/-- A dot product of R217 from +0. -/
def dotR (a b : List FVal) : FVal := dot32 (a.length + 1) .zero (a.zip b)

/-- The values of row `e` of head `h` of an up-projection. -/
def State.upVals (s : State) (ch : Nat) (x : AttnShape) (base h e : Nat) : List FVal :=
  (List.range x.lat).map fun j => widen (s.valAt ch x.upf (base + (h * x.hd + e) * x.upRow) 0 j)

/-- U[h] c, or c where the up-projection is absent (R227). -/
def State.upMul (s : State) (ch : Nat) (x : AttnShape) (base h : Nat) (c : List FVal) : List FVal :=
  if absent base then c else (List.range x.hd).map fun e => dotR (s.upVals ch x base h e) c

/-- The query part of a row's score vector: q' or q_n, then q_p (R216). -/
def State.attnQuery (s : State) (ch : Nat) (x : AttnShape) (t h : Nat) : List FVal :=
  let v := (List.range (x.hd + x.posd)).map fun i => widen (s.valAt ch x.qf (x.q + t * x.qStride) 0 (h * (x.hd + x.posd) + i))
  if !x.absorb then v
  else
    let qn := v.take x.hd
    let rows := (List.range x.hd).map fun e => s.upVals ch x x.uk h e
    ((List.range x.lat).map fun j => dotR (rows.map fun r => r.getD j .nan) qn) ++ v.drop x.hd

/-- The state of one row: m, l, o and its query. -/
structure AttnRow where
  m : FVal
  l : FVal
  o : List FVal
  q : List FVal

/-- A row's state from its words. -/
def AttnRow.ofWords (x : AttnShape) (w : List Word) : AttnRow :=
  { m := .ofW (w.getD 0 0), l := .ofW (w.getD 1 0), o := ((w.drop 2).take x.dv).map FVal.ofW
    q := (w.drop (2 + x.dv)).map FVal.ofW }

/-- A row's state as words. -/
def AttnRow.words (r : AttnRow) : List Word := r.m.toW :: r.l.toW :: (r.o.map FVal.toW ++ r.q.map FVal.toW)

/-- One key block on one row: the scores and values of its visible keys (R218). -/
def AttnRow.block (scale : FVal) (r : AttnRow) (vis : List (List FVal × List FVal)) : AttnRow :=
  if vis.isEmpty then r
  else
    let sc := vis.map fun kv => (fMul (dotR r.q kv.1) scale, kv.2)
    let mn := FVal.max r.m ((sc.map (·.1)).foldl FVal.max (.inf true))
    let a := fExp (fSub r.m mn)
    let r1 := { r with l := fMul r.l a, o := r.o.map (fMul · a) }
    let r2 := sc.foldl (fun (r : AttnRow) sv =>
      let p := fExp (fSub sv.1 mn)
      { r with l := fAdd r.l p, o := (r.o.zip sv.2).map fun ov => fFma p ov.2 ov.1 }) r1
    { r2 with m := mn }

/-- The result of a row after the last key, and whether it saw none (R218). -/
def State.attnResult (s : State) (ch : Nat) (x : AttnShape) (h : Nat) (r : AttnRow) : List FVal × Bool :=
  if r.m = .inf true then (List.replicate x.hd .zero, true)
  else if x.absorb then ((s.upMul ch x x.uv h r.o).map (fDiv · r.l), false)
  else (r.o.map (fDiv · r.l), false)

/-! ### The snapshot and its checks (R222 to R226) -/

/-- The segment records of the published state (R223). -/
def State.segSnaps (s : State) (ch : Nat) (x : AttnShape) : List SegSnap :=
  (s.segTable ch x).map fun e =>
    match (if absent e.2 || !x.cache then none else s.pubList e.2) with
    | some l => { seg := e.1, list := e.2, committed := l.committed
                  leaves := (l.below s.leafE l.committed).map fun d => (d, s.leafE d) }
    | none => { seg := e.1, list := e.2 }

/-- The leaves a snapshot still waits for (R225): those in a tier or on the way from one. -/
def missingLeaves (segs : List SegSnap) : List Nat :=
  segs.flatMap fun sg => (sg.leaves.filter fun e => e.2.state == .spilled || e.2.state == .fetching).map (·.1)

/-- Whether an activity may read a leaf's granule (R150). -/
def State.leafReadable (s : State) (a : Nat) (e : LeafEntry) : Bool :=
  match s.b.regionAt e.site (e.slot / 256) with
  | some r => r.kind == 3 && (r.tenant == 0 || r.tenant == s.b.tenantOf a)
      && (e.site == a / 16 || ((s.b.dq a).remote.testBit e.site && r.readers.testBit (a / 16)))
  | none => false

/-- The rule of the ancestor masks (R226 TREE). -/
def treeOk (anc : Nat → Nat) : Bool :=
  (List.range 16).all fun i => (anc i).testBit i && anc i / 2 ^ (i + 1) == 0
    && (List.range 16).all fun j => !(anc i).testBit j || (anc j &&& anc i) == anc j

/-- The formats an op's keys come in: one for each leaf and for the fresh block (R222). -/
def attnFormats (x : AttnShape) (segs : List SegSnap) : List Nat :=
  ((segs.flatMap (·.leaves)).eraseDups).map (·.2.fmt) ++ if 0 < x.freshN then [x.freshF] else []

/-- The outcome of the checks of R226 and R222, 0 when all hold: the first row of R226's table that fails, then
KV_NARROW (log 25). -/
def State.attnCheck (s : State) (a : Nat) (x : AttnShape) (segs : List SegSnap) : Nat :=
  let ch := a / 16
  let k := s.b.tenantOf a
  let lvs := segs.flatMap (·.leaves)
  let known := segs.map (·.seg)
  let toks := (List.range x.qrows).map (s.tokAt ch x.qinfo ·) ++ (List.range x.freshN).map (s.tokAt ch x.finfo ·)
  if lvs.any fun e => !e.2.readable || e.2.tenant != k then 0x31
  else if lvs.any fun e => !s.leafReadable a e.2 then 4
  else if segs.any fun sg => x.cache && !absent sg.list && (match s.pubList sg.list with
      | some l => l.tenant != k || l.w != x.w
      | none => true) then 0x33
  else if known.eraseDups.length ≠ known.length || toks.any fun t => t.seg != 0xFFFF && !known.contains t.seg then 0x33
  else if x.tree && !treeOk (s.ancOf ch x) then 0x32
  else if x.strict && x.floor ≠ 0xFF && (attnFormats x segs).any fun f => decide (fmtRank f < fmtRank x.floor) then 0x30
  else 0

/-- The AE event a failed check sets (R238). -/
def attnEvent (code : Nat) : Option Nat :=
  if code = 0x31 then some 5 else if code = 0x32 then some 7 else if code = 0x30 then some 3
  else if code = 0x21 then some 8 else if code = 5 then some 9 else none

/-- The op ends with a failed check. -/
def State.aeFail (s : State) (a code : Nat) : State :=
  (match attnEvent code with
    | some i => s.evAe a i 1
    | none => s).opOutcome a code

/-- The scratchpad ranges the checks read. -/
def attnInfoReads (x : AttnShape) : List (Nat × Nat) :=
  [(x.qinfo, 8 * x.qrows), (x.segtab, 16 * x.segs)] ++ (if 0 < x.freshN then [(x.finfo, 8 * x.freshN)] else [])
    ++ if x.tree then [(x.treeAddr, 32)] else []

/-- The snapshot is taken (R223): lists named count as used, spills of named leaves are abandoned (R261), narrow formats
are counted (R222); or the op ends with the check that failed. -/
def State.takeSnapshot (s : State) (a : Nat) (x : AttnShape) (segs : List SegSnap) : State :=
  let code := s.attnCheck a x segs
  if code ≠ 0 then s.aeFail a code
  else
    let s1 := (segs.flatMap (·.leaves)).foldl (fun (s : State) e => s.spillAbandon e.1) s
    let segs1 := segs.map fun sg => { sg with leaves := sg.leaves.map fun e => (e.1, s1.leafE e.1) }
    let s2 := if x.cache then s1.onLeaf fun y => { y with
        lastUse := segs.foldl (fun t sg => if absent sg.list then t else t.set sg.list s.tick.num) y.lastUse } else s1
    let narrow := ((attnFormats x segs).filter fun f => decide (fmtRank f < fmtRank x.qf)).length
    ((s2.onRun a fun r => { r with waiting := false
                                   snap := some { cache := x.cache, pub := s.leaf.pubCount, segs := segs1 } }).aeSet (a / 16)
      fun e => { e with waiting := false, busy := true }).evAe a 2 narrow

/-! ### Row groups (R216 to R220, R230, R231) -/

/-- What the devices and the key slot say of a leaf's lines (R226, R364, R431). -/
def State.leafLine (s : State) (e : LeafEntry) (line : Nat) : MemRes :=
  if !s.slotLive (s.keySlotOf e.tenant e.epoch true) then .dead
  else if line = 2 then .uncorr else if line = 3 then .mac else .ok

/-- The channels whose GDDR6 a block reads. -/
def blockChans (b : List AttnKey) : List Nat := b.filterMap fun k => match k with
  | .cache _ _ e _ _ => some e.site
  | .fresh _ => none

/-- The scratchpad ranges a row group reads before its first key. -/
def attnGroupReads (x : AttnShape) (g : Nat) : List (Nat × Nat) :=
  (x.rowsOf g).flatMap fun r => (x.q + r.1 * x.qStride + elemBytes x.qf (r.2 * (x.hd + x.posd)), elemBytes x.qf (x.hd + x.posd))
    :: if x.absorb then [(x.uk + r.2 * x.hd * x.upRow, x.hd * x.upRow)] else []

/-- The scratchpad ranges a key block reads. -/
def attnBlockReads (x : AttnShape) (g : Nat) (b : List AttnKey) : List (Nat × Nat) :=
  (b.flatMap fun k => match k with
    | .fresh i => (x.fresh + i * x.freshStride, elemBytes x.freshF x.w)
        :: if isMx x.freshF then [(x.fresh + x.freshN * x.freshStride + i * (x.w / 32), x.w / 32)] else []
    | .cache _ _ _ _ _ => [])
  ++ if x.absorb || absent x.uk then []
    else (x.rowsOf g).flatMap fun r =>
      [(x.uk + r.2 * x.hd * x.upRow, x.hd * x.upRow), (x.uv + r.2 * x.hd * x.upRow, x.hd * x.upRow)]

/-- The scratchpad ranges a finished row group reads. -/
def attnEndReads (x : AttnShape) (g : Nat) : List (Nat × Nat) :=
  if x.absorb then (x.rowsOf g).map fun r => (x.uv + r.2 * x.hd * x.upRow, x.hd * x.upRow) else []

/-- The scratchpad ranges a finished row group writes. -/
def attnWrites (x : AttnShape) (g : Nat) : List (Nat × Nat) :=
  (x.rowsOf g).map fun r => (x.out + r.1 * x.outStride + elemBytes x.outF (r.2 * x.hd), elemBytes x.outF x.hd)

/-- The state a row group starts with. -/
def State.attnInit (s : State) (ch : Nat) (x : AttnShape) (g : Nat) : List Word :=
  (x.rowsOf g).flatMap fun r =>
    ({ m := .inf true, l := .zero, o := List.replicate x.dv .zero, q := s.attnQuery ch x r.1 r.2 } : AttnRow).words

/-- One key block on every row of a group. -/
def State.attnBlock (s : State) (ch : Nat) (x : AttnShape) (g : Nat) (b : List AttnKey)
    (acc : List Word) : List Word :=
  let keys := b.map fun k => (k, s.keyTok ch x k, s.keyVals ch x k)
  (((x.rowsOf g).zip (List.range 64)).flatMap fun ri =>
    let row := AttnRow.ofWords x ((acc.drop (ri.2 * x.rowWords)).take x.rowWords)
    let q := s.tokAt ch x.qinfo ri.1.1
    let vis := keys.filter fun k => q.seg != 0xFFFF && q.seg == k.2.1.seg
      && keyVisible x.causal (s.ancOf ch x) q (match k.1 with | .fresh _ => true | .cache _ _ _ _ _ => false) k.2.1
    (row.block x.scale (vis.map fun k =>
      let c := k.2.2.take x.lat
      let r := k.2.2.drop x.lat
      if x.absorb then (c ++ r, c) else (s.upMul ch x x.uk ri.1.2 c ++ r, s.upMul ch x x.uv ri.1.2 c))).words)

/-- A row group's results are converted and written (R218, R220). -/
def State.attnFinish (s : State) (a : Nat) (x : AttnShape) (g : Nat) (acc : List Word) : State :=
  let ch := a / 16
  match s.firstRefusal a false (attnEndReads x g) with
  | .ok => match s.firstRefusal a true (attnWrites x g) with
    | .ok =>
      let outs := ((x.rowsOf g).zip (List.range 64)).map fun ri =>
        if (s.tokAt ch x.qinfo ri.1.1).seg = 0xFFFF then (ri.1, List.replicate x.hd ({} : Conv), false)
        else
          let r := s.attnResult ch x ri.1.2 (AttnRow.ofWords x ((acc.drop (ri.2 * x.rowWords)).take x.rowWords))
          (ri.1, r.1.map (convPlain x.outF x.round x.sat), r.2)
      let cs := outs.flatMap (·.2.1)
      let sat := (cs.filter (·.sat)).length
      if x.strict && 0 < sat then s.aeFail a 0x21
      else
        let s1 := outs.foldl (fun (s : State) y =>
          s.spWrite ch (x.out + y.1.1 * x.outStride + elemBytes x.outF (y.1.2 * x.hd)) (packElems x.outF (y.2.1.map (·.bits)))) s
        ((s1.evAe a 1 sat).evAe a 0 (cs.filter (·.nan)).length).evAe a 4 (outs.filter (·.2.2)).length
    | r => s.loanFault a r
  | r => s.loanFault a r

/-- The op goes on to the next row group, or is complete. -/
def State.attnNext (s : State) (a : Nat) (x : AttnShape) (g : Nat) : State :=
  match s.opInHand a 0x0201 with
  | none => s
  | some _ =>
    let s1 := s.onRun a fun r => { r with unit := g + 1, kt := 0, acc := [] }
    if g + 1 = x.groups then s1.opOutcome a 0 else s1

/-- One key block of the row group in hand, with the group's start and end where it is the first or last; none while
the activity holds no reservation on a GDDR6 controller the block reads (R214). -/
def State.attnStep (s : State) (a : Nat) (x : AttnShape) (line : Nat) (run : OpRun) : Option State :=
  let ch := a / 16
  let snap := run.snap.getD {}
  let blocks := s.attnBlocks ch x snap run.unit
  let b := blocks.getD run.kt []
  if (blockChans b).any fun t => !s.holds a 7 t || !(t == ch || s.holds a 8 ch) then none
  else
    some <|
    match s.firstRefusal a false ((if run.kt = 0 then attnGroupReads x run.unit else []) ++ attnBlockReads x run.unit b) with
    | .ok =>
      let bad : Option (Nat × LeafEntry × Nat × MemRes) := (b.filterMap fun k => match k with
        | .cache _ l e row _ => some (l, e, row, s.leafLine e line)
        | .fresh _ => none).find? fun y => y.2.2.2 != .ok
      match bad with
      | some (_, e, row, .uncorr) => s.uncorrectable 0 (gdKey e.site (8192 * e.slot + row * rowBytes e.fmt x.w / 128 * 128))
      | some (l, e, row, .mac) => s.integrity e.tenant (s.keySlotOf e.tenant e.epoch true) e.site
          (64 * l + row * rowBytes e.fmt x.w / 128)
      | some _ => (s.evKsi 0 (some a)).aeFail a 5
      | none =>
        let acc0 := if run.kt = 0 then s.attnInit ch x run.unit else run.acc
        let acc := if b.isEmpty then acc0 else s.attnBlock ch x run.unit b acc0
        if run.kt + 1 < blocks.length then s.onRun a fun r => { r with kt := run.kt + 1, acc := acc }
        else (s.attnFinish a x run.unit acc).attnNext a x run.unit
    | r => s.loanFault a r

/-- Up to `budget` steps of the op in hand; says whether it stalled before its first one. -/
def aeRun (step : State → OpRun → Option State) (a opcode : Nat) : Nat → Bool → State → State × Bool
  | 0, _, s => (s, false)
  | n + 1, first, s => match s.opInHand a opcode with
    | none => (s, false)
    | some run => match step s run with
      | none => (s, first)
      | some s1 => aeRun step a opcode n false s1

/-- The engine's registers after the op's outcome is known (R238). -/
def State.aeSettle (s : State) (a : Nat) : State :=
  match (s.act a).run with
  | some r => match r.code with
    | some c => s.aeSet (a / 16) fun e => { e with busy := false, saved := false, waiting := false, code := c }
    | none => s
  | none => s

/-- The AE computes for an op: blocks, busy cycles, and AE_MEM_STALL where it could do nothing (R214, R238). -/
def State.aeWork (s : State) (step : State → OpRun → Option State) (a opcode budget cycles : Nat) : State :=
  let r := aeRun step a opcode budget true s
  ((r.1.aeCycles a cycles).evAe a 10 (if r.2 then cycles else 0)).aeSettle a

/-- An AE op takes the engine (R238). -/
def State.aeTake (s : State) (a : Nat) : State :=
  s.aeSet (a / 16) fun r => { r with busy := true, saved := false, waiting := false, activity := a }

/-- ATTN: the op starts in its AE reservation; while leaves of its lists are not resident it waits and their fetch is
asked for ahead of every declared one (R225, R264). -/
def State.attnEff (s : State) (a : Nat) : State :=
  match s.opReady a 0x0201 2 0 with
  | none => s
  | some o =>
    let x := attnShape o
    let s1 := (s.opBegin a o).aeTake a
    match s1.firstRefusal a false (attnInfoReads x) with
    | .ok =>
      let miss := missingLeaves (s1.segSnaps (a / 16) x)
      if miss.isEmpty then s1
      else
        let s2 := ((s1.onRun a fun r => { r with waiting := true }).aeSet (a / 16) fun e => { e with waiting := true
                                                                                                     busy := false }).evAe a 6 1
        miss.foldl (fun (s : State) l => s.fetchStart l (a / 16) 0) s2
    | r => (s1.loanFault a r).aeSettle a

/-- ATTN. -/
def execAttn (a : Nat) (s : State) : Host.Outcome State Fault Refusal :=
  .next (if !s.live then s else commit (s.attnEff a))

/-- ATTN_SNAPSHOT: once every needed leaf is resident the op in hand takes its snapshot, passes its checks, and computes
as many key blocks as the reservation has time for (R223 to R231). -/
def State.attnSnapEff (s : State) (a budget cycles line : Nat) : State :=
  match s.opInHand a 0x0201 with
  | none => s
  | some run =>
    let x := attnShape (s.opOf a)
    if !s.holdsFor a 2 0 run.seq || run.saved then s
    else
      let s1 := if run.snap.isSome then s
        else match s.firstRefusal a false (attnInfoReads x) with
          | .ok =>
            let segs := s.segSnaps (a / 16) x
            if (missingLeaves segs).isEmpty then s.takeSnapshot a x segs else s
          | r => s.loanFault a r
      match s1.opInHand a 0x0201 with
      | some r1 => if r1.snap.isSome then s1.aeWork (fun s r => s.attnStep a x line r) a 0x0201 budget cycles else s1
      | none => s1.aeSettle a

/-- ATTN_SNAPSHOT. -/
def execAttnSnapshot (a budget cycles line : Nat) (s : State) : Host.Outcome State Fault Refusal :=
  .next (if !s.live then s else commit (s.attnSnapEff a budget cycles line))

/-- The row group in hand goes to the save area, whose layout the spec does not give (R231, log 26). -/
def State.attnSave (s : State) (a : Nat) (x : AttnShape) : State :=
  let n := 64 + 256 * (x.dqk + x.dv + 2)
  match s.firstRefusal a true [(x.save, n)] with
  | .ok =>
    let s1 := (s.spPut (a / 16) x.save (s.freeBytes n)).tookFree n
    (s1.onRun a fun r => { r with saved := true }).aeSet (a / 16) fun e => { e with saved := true, busy := false }
  | r => (s.loanFault a r).aeSettle a

/-- The row group in hand is read back and the op goes on with the same snapshot (R231). -/
def State.attnRestore (s : State) (a : Nat) (x : AttnShape) : State :=
  match s.firstRefusal a false [(x.save, 64 + 256 * (x.dqk + x.dv + 2))] with
  | .ok => (s.onRun a fun r => { r with saved := false }).aeSet (a / 16) fun e => { e with saved := false, busy := true }
  | r => (s.loanFault a r).aeSettle a

/-! ### GEMV_STREAM (R235 to R237) -/

/-- The address words of a GEMV_STREAM's weights and scales. -/
def gemvSrc (o : OpRec) (off : Nat) : DWord := BitVec.ofNat 64 (u64 o.params off)

/-- Whether the op's GDDR6 sides lie where its activity may read (R235). -/
def State.gemvInRange (s : State) (a : Nat) (o : OpRec) : Bool :=
  let wf := u8 o.params 0
  let n := o.p32 8
  let k := o.p32 12
  s.sideInRange a (gemvSrc o 16) [n] [(o.p32 24 : Int)] (elemBytes wf k) false
    && (!isMx wf || s.sideInRange a (gemvSrc o 32) [n] [(o.p32 40 : Int)] (k / 32) false)

/-- The rows of a block. -/
def gemvRows (o : OpRec) (u : Nat) : List Nat := (List.range (min 64 (o.p32 8 - 64 * u))).map (64 * u + ·)

/-- The GDDR6 ranges of a block: (channel, address, bytes). -/
def gemvReads (o : OpRec) (u : Nat) : List (Nat × Nat × Nat) :=
  let wf := u8 o.params 0
  let k := o.p32 12
  (gemvRows o u).flatMap fun n =>
    (adChan (gemvSrc o 16), adAddr (gemvSrc o 16) + n * o.p32 24, elemBytes wf k)
      :: if isMx wf then [(adChan (gemvSrc o 32), adAddr (gemvSrc o 32) + n * o.p32 40, k / 32)] else []

/-- The scratchpad ranges a block reads and writes. -/
def gemvSpReads (o : OpRec) (u : Nat) : List (Nat × Nat) :=
  let p := o.params
  let k := o.p32 12
  let yf := u8 p 2
  let cnt := (gemvRows o u).length
  let vs := List.range (u8 p 5)
  vs.map (fun b => (o.p32 44 + b * o.p32 48, elemBytes (u8 p 1) k))
  ++ (if (u8 p 3).testBit 0 then vs.map fun b => (o.p32 52 + b * o.p32 56 + 256 * u, 4 * cnt) else [])
  ++ (if absent (o.p32 60) then [] else [(o.p32 60 + 256 * u, 4 * cnt)])
  ++ (if absent (o.p32 64) then [] else [(o.p32 64 + 256 * u, 4 * cnt)])
  ++ (if (u8 p 3).testBit 1 then vs.map fun b => (o.p32 68 + b * o.p32 56 + elemBytes yf (64 * u), elemBytes yf cnt) else [])

/-- The scratchpad ranges a block writes. -/
def gemvSpWrites (o : OpRec) (u : Nat) : List (Nat × Nat) :=
  (List.range (u8 o.params 5)).map fun b =>
    (o.p32 52 + b * o.p32 56 + elemBytes (u8 o.params 2) (64 * u), elemBytes (u8 o.params 2) (gemvRows o u).length)

/-- One output element (R235): the dot product, then steps 1 to 5 of R177. -/
def State.gemvElem (s : State) (ch : Nat) (o : OpRec) (row : List FVal) (b n : Nat) : Conv :=
  let p := o.params
  let fl := u8 p 3
  let xs := (List.range (o.p32 12)).map fun i => widen (s.valAt ch (u8 p 1) (o.p32 44 + b * o.p32 48) 0 i)
  let acc0 := if fl.testBit 0 then s.f32At ch (o.p32 52 + b * o.p32 56) n else FVal.zero
  let acc := dot32 (row.length + 1) acc0 (row.zip xs)
  let cs := if absent (o.p32 60) then none else some (s.f32At ch (o.p32 60) n)
  let bi := if absent (o.p32 64) then none else some (s.f32At ch (o.p32 64) n)
  let re := if fl.testBit 1 then some (widen (s.valAt ch (u8 p 2) (o.p32 68 + b * o.p32 56) 0 n)) else none
  convPlain (u8 p 2) (fl.testBit 2) (fl.testBit 3) (outStage (u8 p 4) (o.pF 72) (o.pF 76) cs bi re acc)

/-- One block of 64 rows, in ascending order; none while the op holds no reservation on the controller it streams from
(R214, R235). -/
def State.gemvStep (s : State) (a : Nat) (o : OpRec) (line : Nat) (run : OpRun) : Option State :=
  let ch := a / 16
  let rds := gemvReads o run.unit
  if rds.any fun r => !s.holds a 7 r.1 || !(r.1 == ch || s.holds a 8 ch) then none
  else
    some <|
    match s.firstRefusal a false (gemvSpReads o run.unit) with
    | .ok => match s.firstRefusal a true (gemvSpWrites o run.unit) with
      | .ok =>
        let bad : Option ((Nat × Nat × Nat) × MemRes) := (rds.map fun r => (r, s.rangeRead (s.b.tenantOf a) r.1 r.2.1 r.2.2 line)).find? fun r => r.2 != .ok
        match bad with
        | some (r, .uncorr) => s.readFailed a r.1 r.2.1 .uncorr
        | some (r, .mac) => s.readFailed a r.1 r.2.1 .mac
        | some (r, x) => (s.readFailed a r.1 r.2.1 x).aeFail a 5
        | none =>
          let p := o.params
          let wf := u8 p 0
          let k := o.p32 12
          let outs := (gemvRows o run.unit).map fun n =>
            let raw := s.gdGet (adChan (gemvSrc o 16)) (adAddr (gemvSrc o 16) + n * o.p32 24) (elemBytes wf k)
            let sc := if isMx wf then s.gdGet (adChan (gemvSrc o 32)) (adAddr (gemvSrc o 32) + n * o.p32 40) (k / 32) else []
            let row := (List.range k).map fun i => widen (elemAt wf raw sc i)
            (List.range (u8 p 5)).map fun b => s.gemvElem ch o row b n
          let cs := outs.flatten
          let sat := (cs.filter (·.sat)).length
          if o.strict && 0 < sat then s.aeFail a 0x21
          else
            let s1 := (List.range (u8 p 5)).foldl (fun (t : State) b =>
              t.spWrite ch (o.p32 52 + b * o.p32 56 + elemBytes (u8 p 2) (64 * run.unit))
                (packElems (u8 p 2) (outs.map fun l => (l.getD b {}).bits)))
              (rds.foldl (fun (t : State) r => t.copyTouch a r.1 r.2.1 r.2.2) s)
            let s2 := ((s1.evAe a 1 sat).evAe a 0 (cs.filter (·.nan)).length).onRun a fun r => { r with unit := run.unit + 1 }
            if run.unit + 1 = cdiv (o.p32 8) 64 then s2.opOutcome a 0 else s2
      | r => s.loanFault a r
    | r => s.loanFault a r

/-- GEMV_STREAM: the op starts in its AE reservation, its ranges are checked, and it computes as many blocks as the
reservation has time for (R235, R237). -/
def State.gemvEff (s : State) (a budget cycles line : Nat) : State :=
  let go := fun (s : State) (o : OpRec) => s.aeWork (fun s r => s.gemvStep a o line r) a 0x0202 budget cycles
  match s.opReady a 0x0202 2 0 with
  | some o =>
    let s1 := (s.opBegin a o).aeTake a
    if s1.gemvInRange a o then go s1 o else (s1.opOutcome a 4).aeSettle a
  | none => match s.opInHand a 0x0202 with
    | some r => if s.holdsFor a 2 0 r.seq then go s (s.opOf a) else s
    | none => s

/-- GEMV_STREAM. -/
def execGemvStream (a budget cycles line : Nat) (s : State) : Host.Outcome State Fault Refusal :=
  .next (if !s.live then s else commit (s.gemvEff a budget cycles line))

end Sys2Proof.Machine
end

