-- ==== Sys2Proof/Machine/BindParse.lean ====
section
/-! DEFINITION. Reading a binding: the colophon, the gatherings and their records as typed data (spec/03 R56 to R60, spec/04
R79 to R103). -/

namespace Sys2Proof.Machine

/-! ### Types and sizes (R58, R60, R61, R79) -/

/-- The gatherings in canonical order with their names (R60). -/
def gathNames : List (Gath × String) :=
  [(.chan, "CHAN"), (.memx, "MEMX"), (.leaf, "LEAF"), (.tent, "TENT"), (.pair, "PAIR"), (.netw, "NETW"), (.mbox, "MBOX"),
   (.dmaq, "DMAQ"), (.loan, "LOAN"), (.cntr, "CNTR"), (.codc, "CODC"), (.powr, "POWR"), (.safe, "SAFE"), (.ops, "OPS"),
   (.plan, "PLAN")]

/-- The four bytes of a gathering's TYPE: ASCII, as a little-endian number; "OPS" is padded with a NUL byte (log 38). -/
def gathCode (n : String) : Nat := leField (ascii n) 0 4

/-- The gathering of a TYPE field. -/
def gathOf (code : Nat) : Option Gath := (gathNames.find? fun e => gathCode e.2 == code).map (·.1)

/-- A gathering's place in the canonical order. -/
def gathRank (g : Gath) : Nat := (gathNames.findIdx fun e => e.1 == g)

/-- Required in a cold binding (R60). -/
def gathRequired : Gath → Bool
  | .leaf | .tent | .pair | .cntr | .codc => false
  | _ => true

/-- Replaceable by a rebind (R60). -/
def gathRebind : Gath → Bool
  | .netw | .loan | .cntr | .codc | .safe | .plan => true
  | _ => false

/-- The size limit of a gathering (R61). -/
def gathLimit : Gath → Nat
  | .plan => 0x400000
  | .ops => 0x200000
  | .netw | .memx | .loan => 0x40000
  | _ => 0x10000

/-- The record size of a gathering (R79). -/
def gathRecord : Gath → Nat
  | .chan => 72
  | .memx | .leaf | .tent | .dmaq | .codc => 32
  | .pair | .netw | .safe | .ops => 64
  | .powr => 240
  | _ => 16

/-- A gathering's bytes in a raw binding. -/
def rawOf (r : Raw) (g : Gath) : List Byte := match r.find? fun e => e.1 == g with
  | some e => e.2
  | none => []

/-- The records of a gathering that is not PLAN. -/
def recsOf (r : Raw) (g : Gath) : List (List Byte) :=
  let b := rawOf r g
  (List.range ((b.length - 16) / gathRecord g)).map fun i => slice b (16 + i * gathRecord g) (gathRecord g)

/-! ### The colophon (R57, R58) -/

/-- A directory entry. -/
def dirEntry (b : List Byte) (i : Nat) : DirEntry :=
  let e := slice b (0x100 + 96 * i) 96
  { typ := u32 e 0, version := u16 e 4, offset := u32 e 8, length := u32 e 12, digest := slice e 32 64 }

/-- The colophon of a binding. -/
def colophonOf (b : List Byte) : Colophon :=
  { kind := u8 b 0xC, authKey := u8 b 0xD, count := u16 b 0xE, totalLength := u32 b 0x10, serial := u32 b 0x14
    bindingId := BitVec.ofNat 64 (u64 b 0x18), target := slice b 0x20 16, minCurator := u32 b 0x30
    activateTick := u64 b 0x38, baseDigest := slice b 0x40 64, planGen := u16 b 0x80
    dir := (List.range (u16 b 0xE)).map (dirEntry b) }

/-- The colophon digest (R62). -/
def colophonDigest (b : List Byte) : List Byte := shake256 (b.take 0x1000)

/-! ### Records -/

/-- CHAN (R81). -/
def parseChan (r : List Byte) : ChanRec :=
  { channel := u8 r 0, enable := u8 r 1, lockGroup := u8 r 2, gcMask := u8 r 3, domains := u16 r 4 }

/-- MEMX (R82). -/
def parseMemx (r : List Byte) : MemxRec :=
  { region := u16 r 0, kind := u8 r 2, channel := u8 r 3, tenant := u8 r 4, flags := u8 r 5, readers := u8 r 6
    base := u32 r 8, size := u32 r 12, link := u32 r 16 }

/-- LEAF (R84). -/
def parseLeaf (r : List Byte) : LeafRec :=
  { kind := u8 r 0, tenant := u8 r 1, mapRegion := u16 r 2, prefetchLead := u8 r 4, spillHigh := u8 r 5, spillLow := u8 r 6
    tierOrder := u8 r 7, minLeaves := u32 r 8, maxLeaves := u32 r 12 }

/-- TENT (R85). -/
def parseTent (r : List Byte) : TentRec := { tenant := u8 r 0, vf := u8 r 1, slotBase := u8 r 2, channels := u8 r 3 }

/-- PAIR (R86). -/
def parsePair (r : List Byte) : PairRec :=
  { ring := u8 r 0, startRole := u8 r 1, revertHoldoff := u32 r 4, swapPeriod := u32 r 8 }

/-- NETW GLOBAL (R87). -/
def parseGlobal (r : List Byte) : NetGlobal :=
  { discSrc := u8 r 1, ptpPort := u8 r 2, ptpDomain := u8 r 3, markerLead := u16 r 4, lateLimit := u16 r 6
    lateWindow := u16 r 8, admitTicks := u32 r 12 }

/-- NETW PORT. -/
def parsePort (r : List Byte) : NetPort :=
  { port := u8 r 1, mode := u8 r 2, vlan := u16 r 4, ipv4 := beField r 8 4, pfxLen := u8 r 12, mtu := u16 r 14 }

/-- NETW FLOW. -/
def parseFlow (r : List Byte) : NetFlow :=
  { flow := u8 r 1, port := u8 r 2, proto := u8 r 3, srcIp := beField r 4 4, dstUdp := beField r 8 2, stream := beField r 12 4
    actEven := u8 r 16, actOdd := u8 r 17, codecSlot := u8 r 18, calSet := u8 r 19 }

/-- NETW RESULT. -/
def parseResult (r : List Byte) : NetResult :=
  { activity := u8 r 1, port := u8 r 2, vdlMask := u8 r 3, dstIp := beField r 4 4, dstUdp := beField r 8 2, srcUdp := beField r 10 2 }

/-- NETW MEMBER. -/
def parseMember (r : List Byte) : NetMember :=
  { index := u8 r 1, succession := u8 r 2, startRole := u8 r 3, buddy := u8 r 4, accession := slice r 16 16 }

/-- NETW LINK. -/
def parseLink (r : List Byte) : NetLink := { port := u8 r 1, farRing := u8 r 2, farPort := u8 r 3, farAccession := slice r 16 16 }

/-- NETW ROUTE. -/
def parseRoute (r : List Byte) : NetRoute := { lane := u8 r 1, activity := u8 r 2, destMember := u8 r 3, direction := u8 r 4 }

/-- NETW RGROUP. -/
def parseGroup (r : List Byte) : NetGroup := { localGroup := u8 r 1, groupId := u16 r 2 }

/-- Records of one KIND. -/
def ofKind (k : Nat) (rs : List (List Byte)) : List (List Byte) := rs.filter fun r => u8 r 0 == k

/-- NETW (R87). -/
def parseNetw (rs : List (List Byte)) : Netw :=
  { glob := match ofKind 0 rs with
      | r :: _ => parseGlobal r
      | [] => {}
    ports := (ofKind 1 rs).map parsePort, flows := (ofKind 2 rs).map parseFlow, results := (ofKind 3 rs).map parseResult
    members := (ofKind 4 rs).map parseMember, links := (ofKind 5 rs).map parseLink, routes := (ofKind 6 rs).map parseRoute
    groups := (ofKind 7 rs).map parseGroup }

/-- MBOX (R89). -/
def parseMbox (r : List Byte) : MboxRec := { mailbox := u8 r 0, enable := u8 r 1, masterA := u8 r 2, masterB := u8 r 3 }

/-- DMAQ (R90). -/
def parseDmaq (r : List Byte) : DmaqRec :=
  { used := u8 r 0, tenant := u8 r 1, mode := u8 r 2, paceFifo := u8 r 3, paceHigh := u16 r 4, paceLow := u16 r 6
    ringLane := u8 r 8, remote := u8 r 9 }

/-- LOAN (R91). -/
def parseLoan (r : List Byte) : LoanRec :=
  { channel := u8 r 0, bank := u8 r 1, phases := u8 r 2, flags := u8 r 3, ownerEven := u8 r 4, ownerOdd := u8 r 5
    shareEven := u16 r 8, shareOdd := u16 r 10 }

/-- CNTR (R93). -/
def parseCntr (r : List Byte) : CntrRec :=
  { scopeKind := u8 r 0, channel := u8 r 1, index := u8 r 2, event := u8 r 3, scope := u8 r 4, mode := u8 r 5, owner := u8 r 6 }

/-- CODC (R94). -/
def parseCodc (r : List Byte) : CodcRec :=
  { channel := u8 r 0, slot := u8 r 1, direction := u8 r 2, flags := u8 r 3, codec := u8 r 4, profileIdc := u8 r 5, levelIdc := u8 r 6
    priority := u8 r 7, maxWidth := u16 r 8, maxHeight := u16 r 10, maxFps := u8 r 12, refPics := u8 r 13, activity := u8 r 14
    targetQp := u8 r 15, rateCap := u32 r 16 }

/-- POWR (R95). -/
def parsePowr (r : List Byte) : PowrRec :=
  { startProfile := u8 r 0, profileMask := u8 r 1, capStart := u32 r 4, safeCap := u32 r 8, capTimeout := u32 r 12
    shedOrder := (List.range 6).map fun i => u8 r (16 + i), tWarn := u16 r 24, tHot := u16 r 26, tCrit := u16 r 28
    profileChannels := (List.range 5).map fun i => u8 r (32 + i), profileDomains := (List.range 30).map fun i => u8 r (40 + i) }

/-- SAFE RANGE (R96). -/
def parseRange (r : List Byte) : SafeRange :=
  { activity := u8 r 1, seq := u8 r 2, check := u8 r 3, action := u8 r 4
    lo := BitVec.ofNat 32 (u32 r 8), hi := BitVec.ofNat 32 (u32 r 12) }

/-- SAFE COPY (R96). -/
def parseCopy (r : List Byte) : SafeCopy := { region := u16 r 1, group := u16 r 4, interval := u32 r 8 }

/-- SAFE (R96). -/
def parseSafe (rs : List (List Byte)) : Safe :=
  let g := (ofKind 0 rs).headD []
  { checkLevel := u8 g 1, digestInterval := u32 g 4, ranges := (ofKind 1 rs).map parseRange
    copies := (ofKind 2 rs).map parseCopy, digests := (ofKind 3 rs).map fun r => u8 r 1 }

/-- Head records of OPS with their record indices, and the records that run past the end (R97); the first argument bounds the
walk. -/
def opHeads : Nat → Nat → List (List Byte) → List (Nat × OpRec)
  | 0, _, _ => []
  | _, _, [] => []
  | n + 1, i, r :: rs =>
    let p := u8 r 4
    (i, { activity := u8 r 0, seq := u8 r 1, opcode := u16 r 2, paramRecords := p, flags := u8 r 5, depActivity := u8 r 6
          depSeq := u8 r 7, params := r.drop 16 ++ (rs.take p).flatten }) :: opHeads n (i + 1 + p) (rs.drop p)

/-- Ops with their head record indices. -/
def opsIdx (rs : List (List Byte)) : List (Nat × OpRec) := opHeads rs.length 0 rs

/-! ### PLAN (R30, R100 to R102) -/

/-- A reservation. -/
def parseRes (ch : Nat) (r : List Byte) : Reservation :=
  { channel := ch, start := u32 r 0 % 2 ^ 28, length := u32 r 4 % 2 ^ 28, rep := u32 r 8 % 2 ^ 28, cls := u8 r 13, inst := u8 r 12
    activity := u8 r 14, opseq := u8 r 15 }

/-- The common section. -/
def parseCommon (b : List Byte) : PlanCommon :=
  let c := slice b 16 64
  { source := u8 c 0, encEdge := u8 c 1, encDeb := u8 c 2, toFlags := u8 c 3, encDiv := u32 c 4, encMaxGap := u32 c 8
    toDiv := u32 c 12, toOffset := u32 c 16, toWidth := u32 c 20, epoch := u64 c 24 }

/-- RES_COUNT of a plan header. -/
def resCounts (h : List Byte) : List Nat := (List.range 6).map fun i => u32 h (16 + 4 * i)

/-- The raw plan blocks: each block's header and activity records, and its reservations' bytes with their channels. -/
def planRaw : Nat → List Byte → List (List Byte × List (Nat × List Byte))
  | 0, _ => []
  | n + 1, b =>
    let h := b.take 1600
    let cs := resCounts h
    let chans := (List.range 6).flatMap fun c => List.replicate (min (cs.getD c 0) (b.length / 16)) c
    let rs := (List.range chans.length).map fun i => (chans.getD i 0, slice b (1600 + 16 * i) 16)
    (h, rs) :: planRaw n (b.drop (1600 + 16 * chans.length))

/-- The raw plan blocks of a PLAN gathering. -/
def planBlocks (b : List Byte) : List (List Byte × List (Nat × List Byte)) := planRaw (u16 b (16 + 32)) (b.drop 80)

/-- One plan block. -/
def parseBlock (x : List Byte × List (Nat × List Byte)) : PlanBlock :=
  let h := x.1
  { kind := u8 h 0, profile := u8 h 1, benchedCh := u8 h 2, periodMin := u32 h 4, maxStretchRaw := u32 h 8
    acts := (List.range 96).map fun a =>
      { overrun := u8 h (64 + 16 * a), active := (u8 h (65 + 16 * a)).testBit 0, skipFiller := (u8 h (65 + 16 * a)).testBit 1 }
    res := x.2.map fun r => parseRes r.1 r.2 }

/-- PLAN. -/
def parsePlan (b : List Byte) : Plan := { common := parseCommon b, blocks := (planBlocks b).map parseBlock }

/-- A binding from its colophon and its gatherings' bytes. -/
def parseBinding (col : Colophon) (r : Raw) : Binding :=
  { col := col
    chan := (recsOf r .chan).map parseChan, memx := (recsOf r .memx).map parseMemx, leaf := (recsOf r .leaf).map parseLeaf
    tent := (recsOf r .tent).map parseTent, pair := (recsOf r .pair).head?.map parsePair, netw := parseNetw (recsOf r .netw)
    mbox := (recsOf r .mbox).map parseMbox, dmaq := (recsOf r .dmaq).map parseDmaq, loan := (recsOf r .loan).map parseLoan
    cntr := (recsOf r .cntr).map parseCntr, codc := (recsOf r .codc).map parseCodc, powr := parsePowr ((recsOf r .powr).headD [])
    safe := parseSafe (recsOf r .safe), ops := (opsIdx (recsOf r .ops)).map (·.2), plan := parsePlan (rawOf r .plan) }

/-- The gatherings' bytes of a binding, by its directory. -/
def rawBinding (b : List Byte) (c : Colophon) : Raw :=
  c.dir.filterMap fun e => (gathOf e.typ).map fun g => (g, slice b e.offset e.length)

end Sys2Proof.Machine
end

