-- ==== Sys2Proof/Machine/Detect.lean ====
section
/-! DEFINITION. Detection post-processing on the PST (spec/09 R203 to R211): box decoding and suppression. -/

namespace Sys2Proof.Machine

/-- A candidate or kept record (R206). -/
structure BoxCand where
  x1 : FVal
  y1 : FVal
  x2 : FVal
  y2 : FVal
  score : FVal
  anchor : Nat
  cls : Nat
  level : Nat
  /-- The record's 32 bytes as they were read, for NMS_TIDY, which writes the records it keeps. -/
  raw : List Byte := []
deriving DecidableEq, Repr, Inhabited

/-- `max` of R204 and R209; free for a NaN (log 45). -/
def boxMax (a b : FVal) : FVal :=
  if a.isNan || b.isNan then .ofW (Config.boxMaxNan a.toW b.toW) else FVal.max a b

/-- `min` of R204 and R209; free for a NaN (log 45). -/
def boxMin (a b : FVal) : FVal :=
  if a.isNan || b.isNan then .ofW (Config.boxMinNan a.toW b.toW) else FVal.min a b

/-- Candidate order (R205): score descending, then anchor, then class ascending; free where a score is NaN (log 45). -/
def BoxCand.before (a b : BoxCand) : Bool :=
  if a.score.isNan || b.score.isNan then Config.scoreBefore a.score.toW b.score.toW
  else if b.score.lt a.score then true
  else if a.score.lt b.score then false
  else if a.anchor != b.anchor then decide (a.anchor < b.anchor)
  else decide (a.cls < b.cls)

/-- The 32 bytes of a record (R206). -/
def BoxCand.bytes (c : BoxCand) : List Byte :=
  let w := fun v : FVal => toLe 4 v.toW.toNat
  w c.x1 ++ w c.y1 ++ w c.x2 ++ w c.y2 ++ w c.score ++ toLe 4 c.anchor ++ toLe 2 c.cls ++ toLe 1 c.level
    ++ [0, 0, 0, 0, 0]

/-- The record that 32 bytes hold. -/
def boxOf (b : List Byte) : BoxCand :=
  let f := fun o => FVal.ofW (BitVec.ofNat 32 (u32 b o))
  { x1 := f 0, y1 := f 4, x2 := f 8, y2 := f 12, score := f 16, anchor := u32 b 20, cls := u16 b 24, level := u8 b 26
    raw := sliceZ b 0 32 }

/-- The CLASS_MASK of a list of records. -/
def classMask (l : List BoxCand) : Nat :=
  (List.range 64).foldl (fun m c => if l.any (·.cls == c) then m + 2 ^ c else m) 0

/-- The 64-byte summary of R206. -/
def summaryBytes (count seen dropped : Nat) (trunc : Bool) (mask tick : Nat) : List Byte :=
  toLe 4 count ++ toLe 4 seen ++ toLe 4 dropped ++ [if trunc then 1 else 0, 0, 0, 0] ++ toLe 8 mask ++ toLe 8 tick
    ++ List.replicate 32 0

/-- The box of one anchor (R204): x1, y1, x2, y2 before any clamp. -/
def boxForm (o : OpRec) (t : Nat → FVal) (gx gy : Nat) (sx sy ox oy aw ah : FVal) : FVal × FVal × FVal × FVal :=
  let half : FVal := .fin false 1 (-1)
  let acx := fAdd (fMul (fAdd (.ofInt gx) half) sx) ox
  let acy := fAdd (fMul (fAdd (.ofInt gy) half) sy) oy
  let vx := o.pF 12
  let vy := o.pF 16
  if u8 o.params 1 = 0 then
    let cx := fAdd acx (fMul (fMul (t 0) vx) aw)
    let w := fMul aw (fExp (boxMin (fMul (t 2) (o.pF 20)) (o.pF 28)))
    let cy := fAdd acy (fMul (fMul (t 1) vy) ah)
    let h := fMul ah (fExp (boxMin (fMul (t 3) (o.pF 24)) (o.pF 28)))
    (fSub cx (fMul half w), fSub cy (fMul half h), fAdd cx (fMul half w), fAdd cy (fMul half h))
  else
    (fSub acx (fMul (fMul (t 0) vx) sx), fSub acy (fMul (fMul (t 1) vy) sy),
      fAdd acx (fMul (fMul (t 2) vx) sx), fAdd acy (fMul (fMul (t 3) vy) sy))

/-- The score of a logit (R204). -/
def boxScore (fn : Nat) (l : FVal) : FVal := if fn = 0 then l else fDiv .one (fAdd .one (fExp l.negate))

/-- What one anchor yields: nothing for a NaN (R204), else its candidates (R205). -/
def anchorCands (o : OpRec) (vals : List FVal) (box : FVal × FVal × FVal × FVal) (idx level : Nat) :
    Option (List BoxCand) :=
  if vals.any FVal.isNan then none
  else
    let nc := u16 o.params 4
    let clamp := fun (v hi : FVal) => if (u8 o.params 7).testBit 0 then boxMin (boxMax v .zero) hi else v
    let mk := fun c => ({ x1 := clamp box.1 (o.pF 32), y1 := clamp box.2.1 (o.pF 36), x2 := clamp box.2.2.1 (o.pF 32)
                          y2 := clamp box.2.2.2 (o.pF 36), score := boxScore (u8 o.params 2) (vals.getD (4 + c) .nan)
                          anchor := idx, cls := c, level := level } : BoxCand)
    let all := (List.range nc).map mk
    let pick := if u8 o.params 3 = 0 then all
      else match all with
        | [] => []
        | x :: r => [r.foldl (fun b c => if b.score.lt c.score then c else b) x]
    some (pick.filter fun c => (o.pF 8).le c.score)

/-- One level: the candidates of its anchors in order, and how many were dropped (R203). -/
def State.boxLevel (s : State) (ch : Nat) (o : OpRec) (rec : List Byte) (level base : Nat) : List BoxCand × Nat :=
  let f := u8 o.params 0
  let nc := u16 o.params 4
  let gh := u16 rec 0
  let gw := u16 rec 2
  let ap := u8 rec 4
  let posBytes := (elemBytes f (ap * (4 + nc)) + 15) / 16 * 16
  let fl := fun off => FVal.ofW (BitVec.ofNat 32 (u32 rec off))
  let anchors := (List.range gh).flatMap fun gy => (List.range gw).flatMap fun gx => (List.range ap).map fun j => (gy, gx, j)
  anchors.foldl (fun (acc : List BoxCand × Nat) q =>
    let at' := u32 rec 24 + q.1 * u32 rec 28 + q.2.1 * posBytes
    let vals := (List.range (4 + nc)).map fun k => (elemVal f (s.rawAt ch f at' (q.2.2 * (4 + nc) + k))).r32
    let box := boxForm o (fun i => vals.getD i .nan) q.2.1 q.1 (fl 8) (fl 12) (fl 16) (fl 20) (fl (32 + 8 * q.2.2))
      (fl (36 + 8 * q.2.2))
    match anchorCands o vals box (base + (q.1 * gw + q.2.1) * ap + q.2.2) level with
    | none => (acc.1, acc.2 + 1)
    | some l => (acc.1 ++ l, acc.2)) ([], 0)

/-- Anchors of the levels before one. -/
def levelBase (recs : List (List Byte)) (n : Nat) : Nat :=
  ((recs.take n).map fun r => u16 r 0 * u16 r 2 * u8 r 4).sum

/-- The work of BOXDEC (R203 to R207). -/
def State.boxdec (s : State) (a : Nat) (o : OpRec) : State :=
  let ch := a / 16
  let p := o.params
  let n := u8 p 6
  match s.firstRefusal a false [(o.p32 40, 64 * n)] with
  | .ok =>
    let recs := (List.range n).map fun i => s.spGet ch (o.p32 40 + 64 * i) 64
    let f := u8 p 0
    let heads := recs.flatMap fun r => (List.range (u16 r 0)).map fun gy =>
      (u32 r 24 + gy * u32 r 28, u16 r 2 * ((elemBytes f (u8 r 4 * (4 + u16 p 4)) + 15) / 16 * 16))
    match s.firstRefusal a false heads with
    | .ok =>
      let parts := (List.range n).map fun i => s.boxLevel ch o (recs.getD i []) i (levelBase recs i)
      let cands := sortBy BoxCand.before (parts.flatMap (·.1))
      let dropped := (parts.map (·.2)).sum
      let maxC := u16 p 52
      let out := cands.take maxC
      let trunc := decide (maxC < cands.length)
      match s.firstRefusal a true [(o.p32 44, 32 * out.length), (o.p32 48, 64)] with
      | .ok =>
        let s1 := s.spPut ch (o.p32 44) (out.flatMap (·.bytes))
        let s2 := s1.spPut ch (o.p32 48)
          (summaryBytes out.length cands.length dropped trunc (classMask out) (s.act a).workTick)
        ((s2.evDet a 0 dropped).evDet a 1 (if trunc then 1 else 0)).opOutcome a 0
      | r => s.loanFault a r
    | r => s.loanFault a r
  | r => s.loanFault a r

/-- BOXDEC in its PST reservation; unfinished, it restarts from the beginning (R210). -/
def execBoxdec (a : Nat) (fits : Bool) (s : State) : Host.Outcome State Fault Refusal :=
  .next (if !s.live then s else commit (s.restartOp a 0x0401 4 0 fits fun s o => s.boxdec a o))

/-- The overlap of two boxes (R209). -/
def boxIou (a b : BoxCand) : FVal :=
  let z := FVal.zero
  let iw := boxMax z (fSub (boxMin a.x2 b.x2) (boxMax a.x1 b.x1))
  let ih := boxMax z (fSub (boxMin a.y2 b.y2) (boxMax a.y1 b.y1))
  let inter := fMul iw ih
  let area := fun (c : BoxCand) => fMul (boxMax z (fSub c.x2 c.x1)) (boxMax z (fSub c.y2 c.y1))
  let union := fSub (fAdd (area a) (area b)) inter
  if z.lt union then fDiv inter union else z

/-- The greedy pass of R208: the kept records and whether it stopped at MAX_OUT. -/
def nmsKeep (agnostic : Bool) (iouT : FVal) (maxOut : Nat) : List BoxCand → List BoxCand → List BoxCand × Bool
  | kept, [] => (kept, false)
  | kept, c :: r =>
    if kept.length = maxOut then (kept, true)
    else if kept.any fun k => (agnostic || k.cls == c.cls) && iouT.lt (boxIou k c) then nmsKeep agnostic iouT maxOut kept r
    else nmsKeep agnostic iouT maxOut (kept ++ [c]) r

/-- The work of NMS_TIDY (R208 to R210). -/
def State.nms (s : State) (a : Nat) (o : OpRec) : State :=
  let ch := a / 16
  match s.firstRefusal a false [(o.p32 12, 64)] with
  | .ok =>
    let n := u32 (s.spGet ch (o.p32 12) 4) 0
    if 4096 < n then s.opOutcome a 4
    else match s.firstRefusal a false [(o.p32 8, 32 * n)] with
      | .ok =>
        let recs := (List.range n).map fun i => s.spGet ch (o.p32 8 + 32 * i) 32
        let sorted := sortBy BoxCand.before (recs.map boxOf)
        let (kept, trunc) := nmsKeep (u8 o.params 0 == 1) (o.pF 4) (u16 o.params 24) [] sorted
        match s.firstRefusal a true [(o.p32 16, 32 * kept.length), (o.p32 20, 64)] with
        | .ok =>
          let s1 := s.spPut ch (o.p32 16) (kept.flatMap (·.raw))
          let s2 := s1.spPut ch (o.p32 20) (summaryBytes kept.length n 0 trunc (classMask kept) (s.act a).workTick)
          (s2.evDet a 2 (if trunc then 1 else 0)).opOutcome a 0
        | r => s.loanFault a r
      | r => s.loanFault a r
  | r => s.loanFault a r

/-- NMS_TIDY in its PST reservation. -/
def execNmsTidy (a : Nat) (fits : Bool) (s : State) : Host.Outcome State Fault Refusal :=
  .next (if !s.live then s else commit (s.restartOp a 0x0402 4 0 fits fun s o => s.nms a o))

end Sys2Proof.Machine
end

