-- ==== Sys2Proof/Machine/Leaf.lean ====
section
/-! DEFINITION. LEAF_EDIT, publication, spill and prefetch (spec/11 R248 to R268). -/

namespace Sys2Proof.Machine

/-! ### The shadow state an edit works on (R249, R250) -/

/-- What an edit has done so far: lists as its actions left them, leaves to write with their new entries and contents,
leaves freed and retired, leaf numbers newly allocated, scratchpad ranges to read, uses, and whether an old leaf was
read under a key slot that is not LIVE. -/
structure EditSt where
  lists : List LeafList := []
  gone : List Nat := []
  leaves : List EditWrite := []
  frees : List Nat := []
  retire : List Nat := []
  fresh : List Nat := []
  next : Nat := 0
  reads : List (Nat × Nat) := []
  uses : List UseDecl := []
  named : List Nat := []
  poison : Bool := false

/-- Who edits: the activity, its tenant and home channel. -/
structure EditBy where
  act : Nat
  k : Nat
  ch : Nat

/-- The entry of a leaf as the edit sees it. -/
def EditSt.ent (t : EditSt) (s : State) (l : Nat) : LeafEntry :=
  match t.leaves.find? fun w => w.leaf == l with
  | some w => w.entry
  | none => s.leafShadow l

/-- The content of a leaf as the edit sees it. -/
def EditSt.content (t : EditSt) (s : State) (l : Nat) : List Byte :=
  match t.leaves.find? fun w => w.leaf == l with
  | some w => w.content
  | none => s.leafBytes (s.leafShadow l)

/-- Entries the edit table holds or has been promised, with those of this edit (R253). -/
def EditSt.table (t : EditSt) (s : State) : Nat :=
  (s.leaf.shadow.filter fun e => e.2.used).length
    + (s.openPlans.map fun p => p.writes.length + p.frees.length + p.retire.length).sum
    + t.leaves.length + t.frees.length + t.retire.length

/-- The lowest number from `x` on, wrapping at 2^24, that is not in a list. -/
def nextNumber (taken : List Nat) : Nat → Nat → Option Nat
  | 0, _ => none
  | f + 1, x => if taken.contains (x % 16777216) then nextNumber taken f (x + 1) else some (x % 16777216)

/-- A new leaf number under MAX_LEAVES (R256, R257). A FREE entry whose GEN is exhausted is never written (R245). -/
def EditSt.number (t : EditSt) (s : State) (by' : EditBy) : Except Nat (EditSt × Nat) :=
  if (s.quota by'.k).2 < s.holding by'.k + t.fresh.length + 1 then .error 0x41
  else
    let taken := s.leafTaken.map (·.1) ++ t.fresh ++ (s.leaf.map.filter fun e => e.2.gen == 0xFFFF).map (·.1)
    match nextNumber taken (taken.length + 1) t.next with
    | some n => .ok ({ t with fresh := n :: t.fresh, next := (n + 1) % 16777216 }, n)
    | none => .error 0x40

/-- A fresh slot and room in the edit table for one more write (R252, R253, R257). -/
def EditSt.slot (t : EditSt) (s : State) (by' : EditBy) : Except Nat Nat :=
  if 4096 ≤ t.table s then .error 0x42
  else match s.slotFor by'.k by'.ch (t.leaves.map (·.entry.slot)) t.fresh.length with
    | some x => .ok x
    | none => .error 0x40

/-- A new leaf joins the edit: GEN + 1, under the tenant's write epoch, zero content (R245, R252). -/
def EditSt.newLeaf (t : EditSt) (s : State) (by' : EditBy) (isList : Bool) (fmt : Nat) : Except Nat (EditSt × Nat) := do
  let x ← t.slot s by'
  let (t, n) ← t.number s by'
  let e : LeafEntry := { state := .live, isList := isList, tier := .loc, site := by'.ch, slot := x
                         gen := (s.leafShadow n).gen + 1, fmt := fmt, epoch := s.writeEpoch by'.k, tenant := by'.k }
  .ok ({ t with leaves := t.leaves ++ [{ leaf := n, entry := e, content := List.replicate 8192 0 }] }, n)

/-- A published leaf joins the edit to be rewritten in a fresh slot; one whose GEN is exhausted moves to a new number
(R245, R252). The number it has then. -/
def EditSt.touch (t : EditSt) (s : State) (by' : EditBy) (l : Nat) : Except Nat (EditSt × Nat) :=
  if t.leaves.any fun w => w.leaf == l then .ok (t, l)
  else
    let e := s.leafShadow l
    if !e.readable then .error 0x31
    else if !s.leafReadable by'.act e then .error 4
    else do
      let t := { t with poison := t.poison || !s.slotLive (s.keySlotOf e.tenant e.epoch true) }
      let c := s.leafBytes e
      if e.gen = 0xFFFF then
        let (t, n) ← t.newLeaf s by' e.isList e.fmt
        .ok ({ t with retire := l :: t.retire
                      leaves := t.leaves.map fun w => if w.leaf = n then { w with content := c } else w }, n)
      else
        let x ← t.slot s by'
        let e' := { e with state := .live, tier := .loc, site := by'.ch, slot := x, gen := e.gen + 1
                           epoch := s.writeEpoch by'.k }
        .ok ({ t with leaves := t.leaves ++ [{ leaf := l, entry := e', content := c }] }, l)

/-- Change the content of a leaf that the edit writes. -/
def EditSt.put (t : EditSt) (l : Nat) (f : List Byte → List Byte) : EditSt :=
  { t with leaves := t.leaves.map fun w => if w.leaf = l then { w with content := f w.content } else w }

/-- Bytes replaced at an offset. -/
def splice (off : Nat) (r b : List Byte) : List Byte := b.take off ++ r ++ b.drop (off + r.length)

/-- A leaf leaves its list and is freed (R249); one the edit itself allocated was never there. -/
def EditSt.drop (t : EditSt) (l : Nat) : EditSt :=
  let t1 := { t with leaves := t.leaves.filter fun w => w.leaf != l }
  if t.fresh.contains l then { t1 with fresh := t.fresh.filter (· != l) } else { t1 with frees := t.frees ++ [l] }

/-! ### Lists -/

/-- The bytes of list leaf `i` of a list (R246). -/
def LeafList.leafBytes (x : LeafList) (i next : Nat) : List Byte :=
  let ents := (List.range 2032).flatMap fun j => toLe 4 (x.data.getD (2032 * i + j) 0xFFFFFFFF)
  (if i = 0 then toLe 2 x.w ++ toLe 1 x.tenant ++ [0] ++ toLe 4 x.committed ++ toLe 4 x.written ++ toLe 4 x.data.length
    else [0, 0, 0] ++ toLe 1 i ++ List.replicate 12 0)
  ++ toLe 4 next ++ List.replicate 44 0 ++ ents

/-- List leaves whose bytes changed are rewritten, from the last to the head, which always is (R252). -/
def EditSt.flush (s : State) (by' : EditBy) (x : LeafList) : List Nat → Nat → EditSt → Except Nat (EditSt × List Nat)
  | [], _, t => .ok (t, [])
  | c :: r, i, t => do
    let (t, r') ← EditSt.flush s by' x r (i + 1) t
    let bytes := x.leafBytes i (r'.headD 0xFFFFFFFF)
    if i = 0 || t.content s c != bytes then
      let (t, c') ← t.touch s by' c
      .ok (t.put c' fun _ => bytes, c' :: r')
    else .ok (t, c :: r')

/-- List leaves added until the chain holds every data leaf (R246). -/
def EditSt.grow (s : State) (by' : EditBy) : Nat → LeafList → EditSt → Except Nat (EditSt × LeafList)
  | 0, x, t => .ok (t, x)
  | f + 1, x, t =>
    if x.data.length ≤ 2032 * x.chain.length then .ok (t, x)
    else if 16 ≤ x.chain.length then .error 0x47
    else do
      let (t, n) ← t.newLeaf s by' true 0
      EditSt.grow s by' f { x with chain := x.chain ++ [n] } t

/-- A list after an action: its list leaves are written and the edit's view of it is this one. -/
def EditSt.store (t : EditSt) (s : State) (by' : EditBy) (old : Nat) (x : LeafList) : Except Nat EditSt := do
  let (t, x) ← EditSt.grow s by' 16 x t
  let (t, chain) ← EditSt.flush s by' x x.chain 0 t
  let x := { x with chain := chain, num := chain.headD x.num }
  .ok { t with lists := x :: t.lists.filter fun y => y.num != old }

/-- The list an action names: of the edit's own view, or of the shadow state; it must be the tenant's and not locked by
another op (R251, R254). -/
def EditSt.list (t : EditSt) (s : State) (by' : EditBy) (num : Nat) : Except Nat LeafList :=
  if t.gone.contains num then .error 0x44
  else match t.lists.find? fun x => x.num == num with
    | some x => .ok x
    | none => match listOf s.leafShadow s.leafBytes num with
      | none => .error 0x44
      | some x => if x.tenant ≠ by'.k then .error 0x44
        else if s.leaf.locks.any fun y => y.1 == num then .error 0x43 else .ok x

/-- The data leaf that holds a position, with its first position. -/
def EditSt.leafOf (t : EditSt) (s : State) (x : LeafList) (pos : Nat) : Option (Nat × Nat) :=
  (placed (t.ent s) x.w 0 x.data).find? fun y => decide (y.2 ≤ pos ∧ pos < y.2 + rowsPerLeaf (t.ent s y.1).fmt x.w)

/-- A data leaf of a list has a new number. -/
def LeafList.renum (x : LeafList) (old new : Nat) : LeafList :=
  { x with data := x.data.map fun d => if d = old then new else d }

/-- Rows put at a place in a data leaf of a list that the edit then rewrites. -/
def EditSt.rows (t : EditSt) (s : State) (by' : EditBy) (x : LeafList) (l r0 : Nat) (rows : List (List Byte)) :
    Except Nat (EditSt × LeafList) := do
  let f := (t.ent s l).fmt
  let (t, l') ← t.touch s by' l
  .ok (t.put l' (splice (r0 * rowBytes f x.w) rows.flatten), x.renum l l')

/-- Data leaves that hold no position below WRITTEN leave the list and are freed; the last one left is rewritten (R249,
R252). -/
def EditSt.trim (t : EditSt) (s : State) (by' : EditBy) (x : LeafList) : Except Nat (EditSt × LeafList) := do
  let keep := x.below (t.ent s) x.written
  let t := (x.data.drop keep.length).foldl EditSt.drop t
  let x := { x with data := keep }
  match keep.getLast? with
  | some l => t.rows s by' x l 0 []
  | none => .ok (t, x)

/-! ### Actions (R248, R249) -/

/-- Rows appended: the last data leaf is filled, then new leaves (R249). -/
def EditSt.append (s : State) (by' : EditBy) (fmt : Nat) : Nat → List (List Byte) → LeafList → EditSt →
    Except Nat (EditSt × LeafList)
  | 0, _, x, t => .ok (t, x)
  | f + 1, rows, x, t =>
    if rows.isEmpty then .ok (t, x)
    else
      let last := (placed (t.ent s) x.w 0 x.data).getLast?
      let room := match last with
        | some (l, p) => rowsPerLeaf (t.ent s l).fmt x.w - (x.written - p)
        | none => 0
      match last with
      | some (l, p) =>
        if 0 < room then
          if (t.ent s l).fmt ≠ fmt then .error 0x45
          else do
            let (t, x) ← t.rows s by' x l (x.written - p) (rows.take room)
            EditSt.append s by' fmt f (rows.drop room) { x with written := x.written + min room rows.length } t
        else do
          let (t, n) ← t.newLeaf s by' false fmt
          let ppl := rowsPerLeaf fmt x.w
          let x := { x with data := x.data ++ [n], written := x.written + min ppl rows.length }
          EditSt.append s by' fmt f (rows.drop ppl) x (t.put n (splice 0 (rows.take ppl).flatten))
      | none => do
        let (t, n) ← t.newLeaf s by' false fmt
        let ppl := rowsPerLeaf fmt x.w
        let x := { x with data := x.data ++ [n], written := x.written + min ppl rows.length }
        EditSt.append s by' fmt f (rows.drop ppl) x (t.put n (splice 0 (rows.take ppl).flatten))

/-- Whether a path is ascending with every index below a bound (R248). -/
def pathOk (bound : Nat) : List Nat → Bool
  | [] => true
  | [x] => decide (x < bound)
  | x :: y :: r => decide (x < bound) && decide (x < y) && pathOk bound (y :: r)

/-- The rows a path names: format and bytes, read before any is moved. -/
def EditSt.pathRows (t : EditSt) (s : State) (x : LeafList) : List Nat → Except Nat (List (Nat × List Byte))
  | [] => .ok []
  | p :: r => match t.leafOf s x (x.committed + p) with
    | none => .error 0x46
    | some (l, p0) =>
      let e := t.ent s l
      if !e.readable then .error 0x31
      else do
        let tl ← t.pathRows s x r
        let rb := rowBytes e.fmt x.w
        .ok ((e.fmt, slice (t.content s l) ((x.committed + p - p0) * rb) rb) :: tl)

/-- The rows of a path move to the positions from COMMITTED on (R249). -/
def EditSt.moveRows (s : State) (by' : EditBy) : List (Nat × Nat × List Byte) → Nat → LeafList → EditSt →
    Except Nat (EditSt × LeafList)
  | [], _, x, t => .ok (t, x)
  | (p, f, b) :: r, i, x, t =>
    if p = i then EditSt.moveRows s by' r (i + 1) x t
    else match t.leafOf s x (x.committed + i) with
      | none => .error 0x46
      | some (l, p0) =>
        if (t.ent s l).fmt ≠ f then .error 0x45
        else do
          let (t, x) ← t.rows s by' x l (x.committed + i - p0) [b]
          EditSt.moveRows s by' r (i + 1) x t

/-- One action on the edit's view; with the VALUE of its result where the spec states one. -/
def EditSt.action (t : EditSt) (s : State) (by' : EditBy) (b : List Byte) : Except Nat (EditSt × Option Nat) :=
  match u8 b 0 with
  | 1 =>
    let w := u16 b 8
    if w < 64 || 1152 < w || w % 16 ≠ 0 then .error 0x44
    else do
      let (t, n) ← t.newLeaf s by' true 0
      let t ← t.store s by' n { num := n, w := w, tenant := by'.k, chain := [n] }
      .ok (t, some n)
  | 2 => do
    let num := u32 b 4
    let x ← t.list s by' num
    let t := { t with named := num :: t.named }
    let fmt := u8 b 1
    let n := u16 b 2
    if 7 < fmt || (isMx fmt && x.w % 32 != 0) then .error 0x45
    else if n = 0 || 512 < n || 1048576 < x.written + n then .error 0x47
    else do
      let rg := (List.range n).map fun i => (u32 b 8 + i * u32 b 12, rowBytes fmt x.w)
      let rows := rg.map fun r => s.spGet by'.ch r.1 r.2
      let pos := x.written
      let (t, x) ← EditSt.append s by' fmt (n + 1) rows x { t with reads := t.reads ++ rg }
      let t ← t.store s by' num x
      .ok (t, some pos)
  | 3 => do
    let num := u32 b 4
    let x ← t.list s by' num
    let t := { t with named := num :: t.named }
    let keep := u16 b 2
    let path := (List.range (min 16 keep)).map fun i => u8 b (16 + i)
    if 16 < keep || !pathOk (x.written - x.committed) path then .error 0x46
    else do
      let rows ← t.pathRows s x path
      let (t, x) ← EditSt.moveRows s by' (path.zip rows) 0 x t
      let x := { x with committed := x.committed + keep, written := x.committed + keep }
      let (t, x) ← t.trim s by' x
      let t ← t.store s by' num x
      .ok (t, some x.committed)
  | 4 => do
    let num := u32 b 4
    let x ← t.list s by' num
    let t := { t with named := num :: t.named }
    let len := u32 b 12
    if x.committed < len then .error 0x47
    else do
      let (t, x) ← t.trim s by' { x with committed := len, written := len }
      let t ← t.store s by' num x
      .ok (t, some len)
  | 5 => do
    let num := u32 b 4
    let x ← t.list s by' num
    if 4096 < t.table s + x.data.length + x.chain.length then .error 0x42
    else
      let t := (x.data ++ x.chain).foldl EditSt.drop { t with named := num :: t.named }
      .ok ({ t with gone := num :: t.gone, lists := t.lists.filter fun y => y.num != num }, none)
  | 6 => do
    let num := u32 b 4
    let _ ← t.list s by' num
    if 1024 ≤ s.leaf.uses.length + (s.openPlans.map fun p => p.uses.length).sum + t.uses.length then .error 0x42
    else .ok ({ t with named := num :: t.named
                       uses := t.uses ++ [{ list := num, tick := u64 b 16, activity := by'.act }] }, none)
  | _ => .error 0x44

/-- Every action tested in turn: the edit, each result, and the first failing code (R250). -/
def editRun (s : State) (by' : EditBy) : List (List Byte) → EditSt → List (Nat × Option Nat) → Nat →
    EditSt × List (Nat × Option Nat) × Nat
  | [], t, rs, c => (t, rs, c)
  | b :: r, t, rs, c => match t.action s by' b with
    | .ok (t1, v) => editRun s by' r t1 (rs ++ [(0, v)]) c
    | .error e => editRun s by' r t (rs ++ [(e, none)]) (if c = 0 then e else c)

/-! ### The op -/

/-- The result records (R248): STATUS, reserved bytes, VALUE; a VALUE the spec does not state is free. -/
def State.editResults (s : State) (a out : Nat) (rs : List (Nat × Option Nat)) : Except State State :=
  match s.firstRefusal a true [(out, 8 * rs.length)] with
  | .ok => .ok ((rs.zip (List.range rs.length)).foldl (fun (s : State) r =>
      let rec' := fun (s : State) (v : List Byte) => s.spWrite (a / 16) (out + 8 * r.2) (toLe 1 r.1.1 ++ [0, 0, 0] ++ v)
      match r.1.2 with
      | some v => rec' s (toLe 4 v)
      | none => (rec' s (s.freeBytes 4)).tookFree 4) s)
  | r => .error (s.loanFault a r)

/-- The event of an outcome of R251, where it has one. -/
def State.editEvent (s : State) (a code : Nat) : State :=
  if 0x40 ≤ code ∧ code ≤ 0x43 then s.evLeaf (code - 0x40) (some a) else s

/-- An edit in hand is given up: its locks and reserved slots go (R250). -/
def State.editDrop (s : State) (a : Nat) : State :=
  match (s.act a).run with
  | some r => match r.edit with
    | some p => (s.onLeaf fun x => { x with locks := x.locks.filter fun y => y.2 != 0 || !p.locks.contains y.1 }).onRun a
        fun r => { r with edit := none }
    | none => s
  | none => s

/-- The check phase, and where it passes the transfer phase: each changed leaf is written once, to its fresh slot (R250,
R252); the queue shows the transfer as ACTIVE (log 27). -/
def State.editCheck (s : State) (a : Nat) (o : OpRec) : State :=
  let p := o.params
  let n := u8 p 0
  let act := o.p32 4
  let out := o.p32 8
  let by' : EditBy := { act := a, k := s.b.tenantOf a, ch := a / 16 }
  match s.firstRefusal a false [(act, 32 * n)] with
  | .ok =>
    let (t, rs, code) := editRun s by' ((List.range n).map fun i => s.spGet (a / 16) (act + 32 * i) 32)
      { next := s.leaf.nextLeaf } [] 0
    if code ≠ 0 then
      match s.editResults a out rs with
      | .ok s1 => (s1.editEvent a code).opOutcome a code
      | .error s1 => s1
    else match s.firstRefusal a false t.reads with
      | .ok =>
        if t.poison then (s.evKsi 0 (some a)).opOutcome a 5
        else
          let plan : EditPlan := { writes := t.leaves, retire := t.retire, frees := t.frees, locks := t.named.eraseDups
                                   uses := t.uses, results := rs, outAddr := out }
          let s1 := t.leaves.foldl (fun (s : State) w => s.gdPut (a / 16) (8192 * w.entry.slot) w.content) s
          let s2 := (s1.onRun a fun r => { r with edit := some plan }).onLeaf fun x => { x with
            nextLeaf := t.next, locks := x.locks ++ plan.locks.map fun l => (l, 0) }
          s2.onQueue a fun q => { q with state := .active, stop := .none, pendCode := none, descAt := none, chained := false }
      | r => s.loanFault a r
  | r => s.loanFault a r

/-- LEAF_EDIT on a general core: the check phase in one reservation, restarting where it does not fit (R250). -/
def State.leafEditEff (s : State) (a core : Nat) (fits : Bool) : State :=
  s.restartOp a 0x0305 3 core fits fun s o =>
    if ((s.act a).run.elim true fun r => r.edit.isSome) || (s.queue a).busy then s else s.editCheck a o

/-- LEAF_EDIT. -/
def execLeafEdit (a core : Nat) (fits : Bool) (s : State) : Host.Outcome State Fault Refusal :=
  .next (if !s.live then s else commit (s.leafEditEff a core fits))

/-- PREFETCH_LEAD with its default (R84). -/
def State.prefetchLead (s : State) : Nat :=
  match s.b.leaf.find? fun r => r.kind == 0 with
  | some r => if r.prefetchLead = 0 then 2 else r.prefetchLead
  | none => 2

/-- A declared use whose boundary has passed: every SPILLED leaf of the list's committed range is fetched (R263). -/
def State.prefetch (s : State) (u : UseDecl) : State :=
  if s.tick.num + s.prefetchLead < u.tick then s
  else match s.pubList u.list with
    | some l => (l.below s.leafE l.committed).foldl (fun (s : State) d => s.fetchStart d (u.activity / 16) u.tick) s
    | none => s

/-- The record phase (R250, R253): shadow entries, results, uses, all in one step. -/
def State.editRecord (s : State) (a : Nat) (p : EditPlan) : State :=
  match s.editResults a p.outAddr p.results with
  | .error s1 => s1.editDrop a
  | .ok s1 =>
    let sh := p.writes.foldl (fun t w => Tab.set t w.leaf ({ used := true, entry := w.entry } : Shadow)) s1.leaf.shadow
    let sh := p.frees.foldl (fun t l => Tab.set t l ({ used := true, entry := { gen := (s1.leafE l).gen } } : Shadow)) sh
    let sh := p.retire.foldl (fun t l => Tab.set t l ({ used := true, entry := { state := .retired, gen := 0xFFFF } } : Shadow)) sh
    let s2 := s1.onLeaf fun x => { x with
      shadow := sh, uses := x.uses ++ p.uses
      locks := x.locks.map fun y => if p.locks.contains y.1 then (y.1, 1) else y }
    let s3 := p.retire.foldl (fun (s : State) _ => s.evLeaf 6 (some a)) s2
    let s4 := (s3.onRun a fun r => { r with edit := none }).opOutcome a 0
    p.uses.foldl State.prefetch s4

/-- LEAF_EDIT_RECORD: every write is acknowledged, or the transfer ended with a code of R160. -/
def State.leafRecordEff (s : State) (a ack : Nat) : State :=
  match s.opInHand a 0x0305 with
  | none => s
  | some r => match r.edit with
    | none => s
    | some p =>
      let q := s.queue a
      let code := if q.stop = .none then ack else q.stop.code
      let s1 := s.queueEnd a code
      if code ≠ 0 then (s1.editDrop a).opOutcome a code else s1.editRecord a p

/-- LEAF_EDIT_RECORD. -/
def execLeafEditRecord (a ack : Nat) (s : State) : Host.Outcome State Fault Refusal :=
  .next (if !s.live then s else commit (s.leafRecordEff a ack))

/-! ### Spill and prefetch (R258 to R265) -/

/-- SPILL_COMPLETE: the copy of a SPILLING leaf is acknowledged or failed (R261). -/
def execSpillComplete (leaf ack : Nat) (s : State) : Host.Outcome State Fault Refusal :=
  .next (if !s.live then s else commit (s.spillEnd leaf ack))

/-- FETCH_SLOT_TAKEN: a waiting fetch takes a slot (R264). -/
def execFetchSlotTaken (leaf : Nat) (s : State) : Host.Outcome State Fault Refusal :=
  .next (if !s.live then s else commit (s.fetchSlot leaf))

/-- FETCH_COMPLETE: the fetch its leaf activity runs is acknowledged or failed (R262, R264, R370). -/
def execFetchComplete (leaf ack : Nat) (macOk : Bool) (s : State) : Host.Outcome State Fault Refusal :=
  .next (if !s.live then s else commit (if s.fetchTurn leaf then s.fetchEnd leaf ack macOk else s))

/-! ### At a boundary (R253, R255, R259, R263) -/

/-- Shadow entries become the published values: slots of old contents are retained, tier slots and transfers of leaves
that changed go, the publication number advances, and the locks of recorded edits are released (R253 to R255). -/
def State.leafPublish (s : State) : State :=
  if s.leaf.shadow.isEmpty then s.onLeaf fun x => { x with locks := x.locks.filter fun y => y.2 == 0 }
  else
    let pub := s.leaf.pubCount + 1
    let s1 := s.leaf.shadow.foldl (fun (s : State) e =>
      let old := s.leafE e.1
      let s1 := match s.xferOf e.1 with
        | some x => if x.isFetch then s else s.tierFree x.tier old.tenant x.site x.tierSlot
        | none => s
      let s2 := s1.xferDrop e.1
      let s3 := if !old.holds then s2
        else if old.tier == .loc then s2.retain old.site old.slot pub
        else s2.tierFree old.tier old.tenant old.site old.slot
      s3.onLeafE e.1 fun _ => e.2.entry) s
    s1.onLeaf fun x => { x with shadow := [], pubCount := pub, locks := x.locks.filter fun y => y.2 == 0 }

/-- Retained slots go free once no live snapshot is older than the publication that released them (R255). -/
def State.slotRelease (s : State) : State :=
  s.onLeaf fun x => { x with retained := x.retained.filter fun r => s.snaps.any fun n => decide (n.pub < r.pub) }

/-- Pool occupancy in percent (R259). -/
def State.occupancy (s : State) (ch : Nat) : Nat :=
  if s.slotsAll ch = 0 then 0 else 100 * (s.slotsAll ch - s.slotsFree ch) / s.slotsAll ch

/-- The spill candidates of a channel in the order they are taken (R259). -/
def State.spillCands (s : State) (ch : Nat) : List Nat :=
  let heads := (s.leaf.map.filter fun e => e.2.isList && e.2.state == .live).map (·.1)
  let ls := sortBy (fun (x y : Nat × LeafList) => decide (x.1 < y.1))
    ((heads.filterMap s.pubList).map fun l => (s.leaf.lastUse.get l.num, l))
  ls.flatMap fun l =>
    if s.leaf.uses.any fun u => u.list == l.2.num && decide (s.tick.num ≤ u.tick) then []
    else ((placed s.leafE l.2.w 0 l.2.data).filter fun y =>
      let e := s.leafE y.1
      e.state == .live && e.site == ch && !s.snapped y.1
        && decide (y.2 + rowsPerLeaf e.fmt l.2.w ≤ l.2.committed - 1)).map (·.1)

/-- One candidate is spilled to the first tier of the order with a free slot; without a leaf activity or a free slot
SPILL_BLOCKED is set (R258, R259, R265). -/
def State.spillOne (s : State) (ch l : Nat) : State × Bool :=
  let k := (s.leafE l).tenant
  if (s.b.leafAct k ch).isNone then (s.evLeaf 4 none, false)
  else match s.tierOrder.findSome? fun t => (s.tierSlotFor t k).map fun x => (t, x.1, x.2) with
    | some (t, site, slot) => (s.spillStart l t site slot, true)
    | none => (s.evLeaf 4 none, false)

/-- Spilling at a boundary: a channel at or above SPILL_HIGH spills until it will be at or below SPILL_LOW (R259). -/
def State.spillChannel (s : State) (ch : Nat) : State :=
  match s.b.leaf.find? fun r => r.kind == 0 with
  | none => s
  | some g =>
    let total := s.slotsAll ch
    let used := total - s.slotsFree ch
    let on := total != 0 && if s.leaf.spilling.getLsbD ch then !decide (100 * used ≤ g.spillLow * total)
      else decide (g.spillHigh * total ≤ 100 * used)
    let s1 := s.onLeaf fun x => { x with spilling := bitPut x.spilling ch on }
    if !on then s1
    else
      let going := (s.leaf.xfers.filter fun x => !x.isFetch && x.channel == ch).length
        + (s.leaf.retained.filter fun r => r.channel == ch).length
      let target := g.spillLow * total / 100
      let cands := s1.spillCands ch
      let s2 := (cands.foldl (fun (acc : State × Nat) l =>
        if acc.2 ≤ target then acc
        else
          let r := acc.1.spillOne ch l
          (r.1, if r.2 then acc.2 - 1 else acc.2)) (s1, used - going)).1
      s2

/-- What a boundary does to the leaves, after the tick number has advanced. -/
def State.leafBoundary (s : State) : State :=
  let s1 := s.leafPublish.slotRelease
  let s2 := s1.onLeaf fun x => { x with
    uses := x.uses.filter fun u => decide (s.tick.num ≤ u.tick), tierBad := [] }
  let s3 := (List.range 6).foldl State.spillChannel s2
  let s4 := s3.leaf.uses.foldl State.prefetch s3
  let s5 := s4.acts.foldl (fun (s : State) a => match a.2.run with
    | some r => if r.waiting then
        (missingLeaves (s.segSnaps (a.1 / 16) (attnShape (s.opOf a.1)))).foldl (fun (s : State) l =>
          s.fetchStart l (a.1 / 16) 0) s
      else s
    | none => s) s4
  s5.onLeaf fun x => { x with
    freeLatch := (List.range 6).foldl (fun t ch => Tab.set t ch (s5.slotsFree ch)) []
    occLatch := (List.range 6).foldl (fun t ch => Tab.set t ch (s5.occupancy ch)) []
    holdLatch := (List.range 9).foldl (fun t k => Tab.set t k (s5.holding k)) [] }

end Sys2Proof.Machine
end

