-- ==== Sys2Proof/Machine/Serve.lean ====
section
/-! DEFINITION. SAMPLE_POST (spec/12): the sequence record, token choice, verification, drafts, adaptive depth, RMSNORM
and SWIGLU. -/

namespace Sys2Proof.Machine

/-! ### The sequence record (R269) -/

/-- A sequence record's bytes with the accessors of R269. -/
abbrev SeqRec := List Byte

/-- ACTIVE. -/
def SeqRec.active (r : SeqRec) : Bool := (u8 r 2).testBit 0
/-- An FP32 field. -/
def SeqRec.f (r : SeqRec) (o : Nat) : FVal := .ofW (BitVec.ofNat 32 (u32 r o))
/-- SHAPE[j]. -/
def SeqRec.shape (r : SeqRec) (j : Nat) : Nat := u8 r (184 + j)
/-- PARENT of node j. -/
def SeqRec.parent (r : SeqRec) (j : Nat) : Nat := r.shape j % 16
/-- RANK of node j. -/
def SeqRec.rank (r : SeqRec) (j : Nat) : Nat := r.shape j / 16
/-- TOKEN[j]. -/
def SeqRec.token (r : SeqRec) (j : Nat) : Nat := u32 r (120 + 4 * j)
/-- The depth of node j: 0 for the root, else one more than its parent's; the first argument bounds the walk. -/
def SeqRec.depthN (r : SeqRec) : Nat → Nat → Nat
  | 0, _ => 0
  | f + 1, j => if j = 0 then 0 else 1 + SeqRec.depthN r f (r.parent j)
/-- The depth of node j. -/
def SeqRec.depth (r : SeqRec) (j : Nat) : Nat := r.depthN 16 j
/-- The used nodes of SHAPE. -/
def SeqRec.used (r : SeqRec) : List Nat := (List.range 16).filter fun j => r.shape j != 0xFF

/-- A valid SHAPE (R269). -/
def SeqRec.shapeOk (r : SeqRec) : Bool :=
  let n := r.used.length
  r.shape 0 == 0 && r.used == List.range n
    && (r.used.drop 1).all fun j => decide (r.parent j < j) && decide (r.depth j ≤ u8 r 3)
      && decide (r.depth (j - 1) ≤ r.depth j)
      && (List.range j).all fun i => i == 0 || r.parent i != r.parent j || r.rank i != r.rank j

/-- Whether a record keeps R269, with the bias and stop tokens below VOCAB (R272). -/
def SeqRec.ok (r : SeqRec) (bias : List (Nat × FVal)) (vocab : Nat) : Bool :=
  let z := FVal.zero
  u16 r 0 != 0xFFFF && u8 r 2 / 8 == 0 && decide (u8 r 3 ≤ 4) && decide (u8 r 4 ≤ u8 r 3)
    && decide (1 ≤ u8 r 5 ∧ u8 r 5 ≤ 16) && (r.f 36).isFin && z.le (r.f 36) && decide (u16 r 40 ≤ 1024)
    && decide (u8 r 42 ≤ 64) && decide (u8 r 43 ≤ 8) && z.lt (r.f 44) && (r.f 44).le .one && z.le (r.f 48)
    && (r.f 48).lt .one && z.lt (r.f 52) && decide (u16 r 60 ≤ 1024) && decide (16 ≤ u16 r 70 ∧ u16 r 70 ≤ 4096)
    && decide (1 ≤ u32 r 80) && r.shapeOk && zeroRange r 200 56
    && bias.all (fun b => decide (b.1 < vocab)) && (List.range (u8 r 43)).all fun i => decide (u32 r (88 + 4 * i) < vocab)

/-! ### Choosing a token (R272, R273) -/

/-- The uniform number of a draw (R273). -/
def drawU (r : SeqRec) (pos : Nat) : FVal :=
  let h := shake256 (slice r 8 16 ++ slice r 24 8 ++ toLe 4 pos ++ slice r 0 2 ++ [0x53, 0x58])
  .fin false (u64 h 0 / 2 ^ 40) (-24)

/-- Running sums with one rounding each. -/
def fSum (l : List FVal) : FVal := l.foldl fAdd .zero

/-- How many candidates TOP_P keeps: the least count whose sum reaches TOP_P x S (R272). -/
def topP (goal : FVal) : Nat → FVal → List FVal → Nat
  | i, _, [] => i
  | i, c, w :: r => let c := fAdd c w; if goal.le c then i + 1 else topP goal (i + 1) c r

/-- The candidate the draw picks; the last one when no running sum exceeds the target. -/
def pickAt (target : FVal) : Nat → FVal → List FVal → Nat
  | i, _, [] => i - 1
  | i, c, w :: r => let c := fAdd c w; if target.lt c then i else pickAt target (i + 1) c r

/-- Token order: value descending, then token ascending; free where bias or penalty made a value NaN (log 45). -/
def tokBefore (a b : Nat × FVal) : Bool :=
  if a.2.isNan || b.2.isNan then Config.scoreBefore a.2.toW b.2.toW
  else b.2.lt a.2 || (!a.2.lt b.2 && decide (a.1 < b.1))

/-- The choice at one node from its logit row (R272): none is the fault SAMPLE_NAN. Where no weight reaches MIN_P, which an infinite
best value brings about, R272 states no token: a free one of the vocabulary (log 45). -/
def choose (r : SeqRec) (logits : List (Nat × FVal)) (bias : List (Nat × FVal)) (window : List Nat) (pos : Nat) :
    Option Nat :=
  let l0 := logits.filter fun x => !x.2.isNan
  let l1 := bias.foldl (fun l b => l.map fun x => if x.1 = b.1 then (x.1, fAdd x.2 b.2) else x) l0
  let rep := r.f 52
  let pres := r.f 56
  let l2 := l1.map fun x =>
    if window.contains x.1 then
      let v := if rep.eqv .one then x.2 else if (FVal.zero).lt x.2 then fDiv x.2 rep else fMul x.2 rep
      (x.1, if pres.eqv .zero then v else fSub v pres)
    else x
  let sorted := sortBy tokBefore l2
  match sorted with
  | [] => none
  | best :: _ =>
    if best.2 = .inf true then none
    else if (r.f 36).eqv .zero then some best.1
    else
      let k := if u16 r 40 = 0 then 1024 else u16 r 40
      let cand := sorted.take k
      let z := cand.map fun x => fDiv x.2 (r.f 36)
      let w := z.map fun v => fExp (fSub v (z.headD .nan))
      let wn := w.takeWhile fun v => (r.f 48).le v
      let m := topP (fMul (r.f 44) (fSum wn)) 0 .zero wn
      let wm := wn.take m
      if wm.isEmpty then some (Config.noCandidate r pos % logits.length)
      else some ((cand.getD (pickAt (fMul (drawU r pos) (fSum wm)) 0 .zero wm) best).1)

/-! ### One step of a sequence (R274 to R277) -/

/-- A step in progress: tokens emitted, the path, the node, the history, and how it ended. -/
structure SeqStep where
  emitted : List Nat := []
  path : List Nat := [0]
  node : Nat := 0
  last : Nat := 0
  hist : List Nat := []
  head : Nat := 0
  count : Nat := 0
  stopped : Bool := false
  nan : Bool := false

/-- A token is emitted: the output count, the history ring, and whether emission ends with it (R274, R277). -/
def SeqStep.emit (x : SeqStep) (r : SeqRec) (t : Nat) : SeqStep :=
  let w := u16 r 60
  let n := (x.count + 1) % 2 ^ 32
  { x with
    emitted := x.emitted ++ [t], last := t, count := n
    hist := if w = 0 then x.hist else x.hist.set (x.head % w) t
    head := if w = 0 then x.head else (x.head + 1) % w
    stopped := (List.range (u8 r 43)).any (fun i => u32 r (88 + 4 * i) == t) || n == u32 r 80 }

/-- The distinct tokens of the history ring. -/
def windowOf (hist : List Nat) : List Nat := (hist.filter (! absent ·)).eraseDups

/-- The loop of R274: at most one choice for each node and one more. -/
def seqLoop (r : SeqRec) (vocab : Nat) (row : Nat → List FVal) (bias : List (Nat × FVal)) : Nat → SeqStep → SeqStep
  | 0, x => x
  | f + 1, x =>
    let lg := (List.range vocab).zip (row x.node)
    match choose r lg bias (windowOf x.hist) (u32 r 32 + r.depth x.node + 1) with
    | none => { x with nan := true }
    | some t =>
      match (List.range (u8 r 5)).find? fun j => j != 0 && r.parent j == x.node && r.token j == t with
      | some c =>
        let y := x.emit r t
        let y := { y with path := y.path ++ [c], node := c }
        if y.stopped then y else seqLoop r vocab row bias f y
      | none => x.emit r t

/-- Bytes of a record replaced. -/
def SeqRec.put (r : SeqRec) (o n v : Nat) : SeqRec := splice o (toLe n v) r

/-- The adaptive depth of a sequence after a step that kept `keep` rows, with its events (R276). -/
def SeqRec.adapt (r : SeqRec) (nodes keep : Nat) : SeqRec × Bool × Bool :=
  if 1 < nodes ∧ 1 < keep then (r.put 6 2 0, false, false)
  else if 1 < nodes then
    let n := min 65535 (u16 r 6 + 1)
    if 64 ≤ n then (((r.put 6 2 n).put 4 1 0).put 62 2 256, true, false) else (r.put 6 2 n, false, false)
  else if u8 r 4 = 0 ∧ 0 < u8 r 3 then
    let p := (u16 r 62 + 65535) % 65536
    if p = 0 then ((r.put 62 2 0).put 4 1 (u8 r 3), false, true) else (r.put 62 2 p, false, false)
  else (r, false, false)

/-- The next-step block (R274): the nodes in use with their tokens; the fields of unused nodes that the rule does not
state are free bytes. -/
def nextBlock (r : SeqRec) (nodes : List Nat) (free : List Byte) : List Byte :=
  ((List.range 16).flatMap fun j =>
    if nodes.contains j then slice r 0 2 ++ toLe 1 j ++ [0] ++ toLe 4 (u32 r 32 + r.depth j)
    else [0xFF, 0xFF] ++ sliceZ free (5 * j) 1 ++ [0] ++ sliceZ free (5 * j + 1) 4)
  ++ (((List.range 16).foldl (fun (ms : List Nat) j =>
      ms ++ [if nodes.contains j then (2 ^ j ||| (if j = 0 then 0 else ms.getD (r.parent j) 0)) else 0]) []).flatMap (toLe 2))
  ++ toLe 1 nodes.length ++ List.replicate 31 0
  ++ (List.range 16).flatMap fun j => if nodes.contains j then toLe 4 (r.token j) else sliceZ free (80 + 4 * j) 4

/-- Free bytes a next-step block may take. -/
def nextFree : Nat := 144

/-! ### SAMPLE and DRAFT -/

/-- The sequence record of sequence `i`. -/
def State.seqRec (s : State) (ch : Nat) (o : OpRec) (i : Nat) : SeqRec := s.spGet ch (o.p32 8 + 256 * i) 256

/-- A logit row widened to FP32 (R272). -/
def State.logits (s : State) (ch : Nat) (o : OpRec) (row : Nat) : List FVal :=
  (List.range (o.p32 4)).map fun t => (s.valAt ch (u8 o.params 1) (o.p32 12 + row * o.p32 16) 0 t).r32

/-- The bias list of a record. -/
def State.biasOf (s : State) (ch : Nat) (r : SeqRec) : List (Nat × FVal) :=
  (List.range (u8 r 42)).map fun i =>
    let b := s.spGet ch (u32 r 84 + 8 * i) 8
    (u32 b 0, .ofW (BitVec.ofNat 32 (u32 b 4)))

/-- Where the descriptors of a sequence lie: 16 for each, the first active sequence's at DESC_ADDR, where the chain
starts (log 28). -/
def descBase (o : OpRec) (act : List Nat) (i : Nat) : Nat := o.p32 48 + if act.head? = some i then 0 else 1024 * i

/-- The COPY descriptors of a sequence's nodes (R157, R274); the last of the last active sequence is LAST. -/
def descWrites (o : OpRec) (act : List Nat) (i : Nat) (toks : List Nat) : List (Nat × List Byte) :=
  let base := descBase o act i
  let follow := act.find? (i < ·)
  (toks.zip (List.range toks.length)).map fun tj =>
    let src := BitVec.ofNat 64 (u64 o.params 56 + tj.1 * o.p32 52)
    let dst := o.p32 64 + (16 * i + tj.2) * o.p32 52
    let w := min (widthFor (o.p32 52)) (min (widthFor (adAddr src)) (widthFor dst))
    let final := tj.2 + 1 == toks.length
    let next := if !final then base + 64 * (tj.2 + 1) else (follow.map (descBase o act)).getD 0
    let ctrl := 1 + (if final && follow.isNone then 2 else 0) + 16 * w + 256 * w
    (base + 64 * tj.2, toLe 4 ctrl ++ toLe 4 0 ++ toLe 8 src.toNat ++ toLe 8 dst ++ toLe 4 (o.p32 52) ++ toLe 2 1 ++ toLe 2 1
      ++ toLe 2 1 ++ toLe 2 0 ++ List.replicate 24 0 ++ toLe 4 next)

/-- The action pair of one list entry (R248, R274). -/
def editPair (ent : List Byte) (path : List Nat) (rows : Nat) : List Byte :=
  [3, 0] ++ toLe 2 path.length ++ slice ent 0 4 ++ List.replicate 8 0 ++ (List.range 16).flatMap (fun i => toLe 1 (path.getD i 0))
  ++ [2] ++ slice ent 12 1 ++ toLe 2 rows ++ slice ent 0 4 ++ slice ent 4 8 ++ List.replicate 16 0

/-- What one sequence's group writes: (address, bytes); its events; free bytes taken. -/
structure SeqOut where
  writes : List (Nat × List Byte) := []
  events : List Nat := []
  free : Nat := 0

/-- The action pairs of a sequence. -/
def State.pairWrites (s : State) (ch : Nat) (o : OpRec) (i : Nat) (path : List Nat) : List (Nat × List Byte) :=
  let n := u8 o.params 32
  (List.range n).map fun k =>
    (o.p32 24 + 64 * (i * n + k), editPair (s.spGet ch (o.p32 28 + 16 * (i * n + k)) 16) path 1)

/-- The indices of the sequences that are active before and after a step stay in the chain. -/
def State.activeSeqs (s : State) (ch : Nat) (o : OpRec) : List Nat :=
  (List.range (u16 o.params 2)).filter fun i => (s.seqRec ch o i).active

/-- The SAMPLE step of sequence `i` (R274 to R277); `chain` names the active sequences whose descriptors are chained. -/
def State.sampleSeq (s : State) (ch : Nat) (o : OpRec) (chain : List Nat) (i : Nat) : SeqOut :=
  let r := s.seqRec ch o i
  let rec' := o.p32 8 + 256 * i
  let blkAt := o.p32 20 + 256 * i
  let free := s.freeBytes nextFree
  if !r.active then { writes := [(blkAt, nextBlock r [] free)], free := nextFree }
  else
    let vocab := o.p32 4
    let bias := s.biasOf ch r
    let fault := fun (e : Nat) =>
      ({ writes := [(rec', r.put 2 1 (u8 r 2 % 2 ^ 8 / 2 * 2 ||| 6)), (blkAt, nextBlock r [] free)] ++ s.pairWrites ch o i [0]
         events := [e], free := nextFree } : SeqOut)
    if !r.ok bias vocab then fault 1
    else
      let hist := (List.range (u16 r 60)).map fun j => u32 (s.spGet ch (u32 r 64 + 4 * j) 4) 0
      let x := seqLoop r vocab (fun j => s.logits ch o (16 * i + j)) bias 17
        { hist := hist, head := u16 r 68, count := u32 r 76 }
      if x.nan then fault 0
      else
        let keep := x.path.length
        let (ra, drop, probe) := r.adapt (u8 r 5) keep
        let r1 := ((((((ra.put 120 4 x.last).put 32 4 (u32 r 32 + keep)).put 5 1 1).put 24 8 (u64 r 24 + 1)).put 68 2 x.head).put
          76 4 x.count).put 2 1 (if x.stopped then (u8 r 2 / 2 * 2) ||| 2 else u8 r 2)
        let outs := (x.emitted.zip (List.range x.emitted.length)).map fun tj =>
          (u32 r 72 + 4 * ((u32 r 76 + tj.2) % 2 ^ 32 % u16 r 70), toLe 4 tj.1)
        let his := if u16 r 60 = 0 then [] else [(u32 r 64, x.hist.flatMap (toLe 4))]
        let sel := (o.p32 44 + i * o.p32 40, s.spGet ch (o.p32 36 + (16 * i + x.node) * o.p32 40) (o.p32 40))
        { writes := outs ++ his ++ [sel] ++ s.pairWrites ch o i x.path
            ++ [(blkAt, nextBlock r1 (if x.stopped then [] else [0]) free)]
            ++ (if x.stopped then [] else descWrites o chain i [x.last]) ++ [(rec', r1)]
          events := (if x.stopped then [2] else []) ++ (if drop then [3] else []) ++ (if probe then [4] else [])
          free := nextFree }

/-- Whether a sequence's SAMPLE step leaves it active. -/
def State.sampleStays (s : State) (ch : Nat) (o : OpRec) (i : Nat) : Bool :=
  let r := s.seqRec ch o i
  r.active && ((s.sampleSeq ch o [] i).writes.any fun w => w.1 == o.p32 8 + 256 * i && SeqRec.active w.2)

/-- The DRAFT step of sequence `i` (R275). -/
def State.draftSeq (s : State) (ch : Nat) (o : OpRec) (chain : List Nat) (i : Nat) : SeqOut :=
  let r := s.seqRec ch o i
  if !r.active || u8 r 4 = 0 then {}
  else
    let nodes := r.used.filter fun j => decide (r.depth j ≤ u8 r 4)
    let extra := s.freeBytes (nextFree + 64)
    let tok := fun j =>
      let d := r.depth j
      let l := ((List.range (o.p32 4)).zip (s.logits ch o (4 * i + d - 1))).filter fun x => !x.2.isNan
      match (sortBy tokBefore l)[r.rank j]? with
      | some x => x.1
      | none => u32 extra (nextFree + 4 * j)
    let r1 := (nodes.drop 1).foldl (fun (x : SeqRec) j => x.put (120 + 4 * j) 4 (tok j)) (r.put 5 1 nodes.length)
    let n := u8 o.params 32
    { writes := [(o.p32 20 + 256 * i, nextBlock r1 nodes extra)]
        ++ ((List.range n).map fun k => (o.p32 24 + 64 * (i * n + k) + 34, toLe 2 nodes.length))
        ++ descWrites o chain i (nodes.map r1.token) ++ [(o.p32 8 + 256 * i, r1)]
      free := nextFree + 64 }

/-- The scratchpad ranges a sequence's step reads. -/
def State.seqReads (s : State) (ch : Nat) (o : OpRec) (i : Nat) (draft : Bool) : List (Nat × Nat) :=
  let r := s.seqRec ch o i
  let n := u8 o.params 32
  let row := elemBytes (u8 o.params 1) (o.p32 4)
  (o.p32 8 + 256 * i, 256) ::
    if !r.active then []
    else if draft then (List.range (u8 r 4)).map fun d => (o.p32 12 + (4 * i + d) * o.p32 16, row)
    else ((List.range (u8 r 5)).map fun j => (o.p32 12 + (16 * i + j) * o.p32 16, row))
      ++ [(u32 r 64, 4 * u16 r 60), (u32 r 84, 8 * u8 r 42), (o.p32 28 + 16 * i * n, 16 * n)]
      ++ (List.range (u8 r 5)).map fun j => (o.p32 36 + (16 * i + j) * o.p32 40, o.p32 40)

/-- One sequence: reads and writes are checked against the loans, then its group is written (R270, R278). -/
def State.seqStep (s : State) (a : Nat) (o : OpRec) (draft : Bool) (run : OpRun) : State :=
  let ch := a / 16
  let n := u16 o.params 2
  match s.firstRefusal a false (s.seqReads ch o run.unit draft) with
  | .ok =>
    let chain := if draft then s.activeSeqs ch o
      else (List.range n).filter fun i => if i < run.unit then (s.seqRec ch o i).active else s.sampleStays ch o i
    let x := if draft then s.draftSeq ch o chain run.unit else s.sampleSeq ch o chain run.unit
    match s.firstRefusal a true (x.writes.map fun w => (w.1, w.2.length)) with
    | .ok =>
      let s1 := (x.writes.foldl (fun (s : State) w => s.spWrite ch w.1 w.2) s).tookFree x.free
      let s2 := x.events.foldl (fun (s : State) e => s.evSrv a e) s1
      let s3 := s2.onRun a fun r => { r with unit := run.unit + 1 }
      if run.unit + 1 = n then s3.opOutcome a 0
      else s3
    | r => s.loanFault a r
  | r => s.loanFault a r

/-- Up to `budget` sequences of the op in hand. -/
def seqRun (a : Nat) (draft : Bool) : Nat → State → State
  | 0, s => s
  | n + 1, s => match s.opInHand a 0x0403 with
    | none => s
    | some run => seqRun a draft n (s.seqStep a (s.opOf a) draft run)

/-- The SAMPLE_POST function of an op (R270). -/
def OpRec.fn (o : OpRec) : Nat := u8 o.params 0

/-- SAMPLE or DRAFT: the op starts in its PST reservation, or goes on at the first sequence whose group is not written
(R278). -/
def State.seqEff (s : State) (a budget : Nat) (draft : Bool) : State :=
  let fn := if draft then 1 else 0
  match s.opReady a 0x0403 4 0 with
  | some o => if o.fn = fn then seqRun a draft budget (s.opBegin a o) else s
  | none => match s.opInHand a 0x0403 with
    | some r => if (s.opOf a).fn = fn && s.holdsFor a 4 0 r.seq then seqRun a draft budget s else s
    | none => s

/-- SAMPLE. -/
def execSample (a budget : Nat) (s : State) : Host.Outcome State Fault Refusal :=
  .next (if !s.live then s else commit (s.seqEff a budget false))

/-- DRAFT. -/
def execDraft (a budget : Nat) (s : State) : Host.Outcome State Fault Refusal :=
  .next (if !s.live then s else commit (s.seqEff a budget true))

/-! ### RMSNORM and SWIGLU (R271) -/

/-- One row of RMSNORM. -/
def rmsRow (xs gamma : List FVal) (len : Nat) (eps : FVal) : List FVal :=
  let t := xs.foldl (fun a v => fAdd a (fMul v v)) .zero
  let r := fRsqrt (fAdd (fDiv t (.ofInt len)) eps)
  (xs.zip gamma).map fun xg => fMul (fMul xg.1 r) xg.2

/-- One row of SWIGLU. -/
def swigluRow (xs : List FVal) (len : Nat) : List FVal := ((xs.take len).zip (xs.drop len)).map fun gu => fMul (fSilu gu.1) gu.2

/-- The work of RMSNORM or SWIGLU: every row read, computed, converted and written (R271, R178, R180). -/
def State.vecOp (s : State) (a : Nat) (o : OpRec) (gated : Bool) : State :=
  let ch := a / 16
  let p := o.params
  let inF := u8 p 1
  let outF := u8 p 2
  let rows := o.p32 4
  let len := o.p32 8
  let nIn := if gated then 2 * len else len
  let rd := ((List.range rows).map fun r => (o.p32 12 + r * o.p32 16, elemBytes inF nIn))
    ++ if gated then [] else [(o.p32 28, 4 * len)]
  let wr := (List.range rows).map fun r => (o.p32 20 + r * o.p32 24, elemBytes outF len)
  match s.firstRefusal a false rd with
  | .ok => match s.firstRefusal a true wr with
    | .ok =>
      let gamma := (List.range len).map fun j => s.f32At ch (o.p32 28) j
      let outs := (List.range rows).map fun r =>
        let xs := (List.range nIn).map fun j => (s.valAt ch inF (o.p32 12 + r * o.p32 16) 0 j).r32
        ((if gated then swigluRow xs len else rmsRow xs gamma len (o.pF 32)).map
          (convPlain outF ((u8 p 3).testBit 0) ((u8 p 3).testBit 1)))
      if o.strict && outs.any fun l => l.any (·.sat) then s.opOutcome a 0x21
      else
        ((outs.zip (List.range rows)).foldl (fun (t : State) x =>
          t.spWrite ch (o.p32 20 + x.2 * o.p32 24) (packElems outF (x.1.map (·.bits)))) s).opOutcome a 0
    | r => s.loanFault a r
  | r => s.loanFault a r

/-- RMSNORM and SWIGLU run where the op in hand or next has that function; they restart from their beginning (R278). -/
def State.vecEff (s : State) (a : Nat) (gated fits : Bool) : State :=
  if (s.opOf a).fn = (if gated then 3 else 2) then s.restartOp a 0x0403 4 0 fits fun s o => s.vecOp a o gated else s

/-- RMSNORM. -/
def execRmsnorm (a : Nat) (fits : Bool) (s : State) : Host.Outcome State Fault Refusal :=
  .next (if !s.live then s else commit (s.vecEff a false fits))

/-- SWIGLU. -/
def execSwiglu (a : Nat) (fits : Bool) (s : State) : Host.Outcome State Fault Refusal :=
  .next (if !s.live then s else commit (s.vecEff a true fits))

end Sys2Proof.Machine
end

