-- ==== Sys2Proof/Machine/Codec.lean ====
section
/-! DEFINITION. Codec slots (spec/13): load and suspension, CODEC_CTL, access units, pictures, rate control. The samples
and the coded bytes of a picture follow the H.264 and H.265 standards and come with the command (log 29). -/

namespace Sys2Proof.Machine

/-- A codec slot. -/
def State.slot (s : State) (ch k : Nat) : CodecSlot := s.codec.get (8 * ch + k)

/-- Update a codec slot. -/
def State.onSlot (s : State) (ch k : Nat) (f : CodecSlot → CodecSlot) : State := s.onCodec fun t => t.upd (8 * ch + k) f

/-! ### Load (R283, R285) -/

/-- S: luma samples with both sides rounded up to 16. -/
def lumaS (w h : Nat) : Nat := (w + 15) / 16 * 16 * ((h + 15) / 16 * 16)

/-- MaxBR in bits per second, from the level tables of H.264 (factor 1,250 for High) and H.265 Main tier (log 29). -/
def maxBr (codec profile level : Nat) : Nat :=
  if codec = 0 then
    let f := if profile = 100 then 1250 else 1000
    f * match level with
      | 9 => 128 | 10 => 64 | 11 => 192 | 12 => 384 | 13 => 768 | 20 => 2000 | 21 => 4000 | 22 => 4000
      | 30 => 10000 | 31 => 14000 | 32 => 20000 | 40 => 20000 | 41 => 50000 | 42 => 50000 | 50 => 135000
      | _ => 240000
  else 1000 * match level with
      | 30 => 128 | 60 => 1500 | 63 => 3000 | 90 => 6000 | 93 => 10000 | 120 => 12000 | 123 => 20000 | 150 => 25000
      | _ => 40000

/-- The VPE load of a slot. -/
def CodcRec.vpeLoad (r : CodcRec) : Nat :=
  let s := lumaS r.maxWidth r.maxHeight
  if r.direction = 0 then r.maxFps * (s + 2048) else r.maxFps * (4 * s + 8192)

/-- Four times the VEE load of a slot (0.75 MaxBR is a quarter of an integer). -/
def CodcRec.veeLoad4 (r : CodcRec) : Nat :=
  if r.direction = 0 then 3 * maxBr r.codec r.profileIdc r.levelIdc
  else 4 * 750 * if r.rateCap = 0 then 40000 else r.rateCap

/-- Whether slots fit the budgets of R283; `hold` halves them. -/
def slotsFit (hold : Bool) (rs : List CodcRec) : Bool :=
  let b := if hold then 504000000 else 1008000000
  decide ((rs.map CodcRec.vpeLoad).sum ≤ b) && decide ((rs.map CodcRec.veeLoad4).sum ≤ 4 * b)

/-- Suspend records in order until the rest fit. -/
def suspendUntil : List CodcRec → List CodcRec
  | [] => []
  | r :: l => if slotsFit true (r :: l) then [] else r :: suspendUntil l

/-- The slots of a channel that the present profile suspends (R285). -/
def State.suspends (s : State) (ch : Nat) : List Nat :=
  let rs := s.b.codc.filter fun r => r.channel == ch
  if !s.domainOn ch 3 || !s.domainOn ch 4 then rs.map (·.slot)
  else if s.pwr.profile ≠ 4 then []
  else (suspendUntil (sortBy (fun (x y : CodcRec) => decide (y.priority < x.priority)
    || (x.priority == y.priority && decide (y.slot < x.slot))) rs)).map (·.slot)

/-- The state a slot that is set up and not suspended starts in. -/
def CodecSlot.started (x : CodecSlot) : CodecState := if x.encode then .running else .waitRap

/-- Stream state and pool discarded (R288 RESTART, R296). -/
def CodecSlot.restart (x : CodecSlot) : CodecSlot :=
  if x.encode then { x with state := .running, forceIdr := true }
  else { x with state := .waitRap, waiting := [], held := [], pool := 0, tainted := false, cutPending := false, cycles := 0 }

/-- Suspension and resumption at the boundary at which a profile takes effect (R285). -/
def State.codecSuspend (s : State) : State :=
  s.b.codc.foldl (fun (s : State) r =>
    let x := s.slot r.channel r.slot
    let off := (s.suspends r.channel).contains r.slot
    if !x.isSetup then s
    else if off then s.onSlot r.channel r.slot fun x => { x with state := .suspended }
    else if x.state == .suspended then s.onSlot r.channel r.slot fun x => { x.restart with state := x.started }
    else s) s

/-- A slot over its picture budget at a boundary is killed (R296). -/
def State.codecKill (s : State) : State :=
  s.b.codc.foldl (fun (s : State) r =>
    let x := s.slot r.channel r.slot
    if x.state == .running && !x.isSealed && !x.encode
        && decide (4 * (6144 + 3 * lumaS r.maxWidth r.maxHeight) < x.cycles) then
      (s.onSlot r.channel r.slot CodecSlot.restart).evSlot r.channel r.slot 7
    else s) s

/-- A slot closes (R74, R378). -/
def State.codecClose (s : State) (ch k : Nat) : State := s.onCodec fun t => t.set (8 * ch + k) {}

/-! ### Areas (R286, R287) -/

/-- Bytes of a luma sample as stored. -/
def CodcRec.sampleBytes (r : CodcRec) : Nat := if r.codec = 1 && r.profileIdc = 2 then 2 else 1

/-- P_BYTES. -/
def CodcRec.pBytes (r : CodcRec) : Nat :=
  (r.maxWidth * r.sampleBytes + 63) / 64 * 64 * ((r.maxHeight + 15) / 16 * 16) * 3 / 2 + lumaS r.maxWidth r.maxHeight / 4

/-- WORK. -/
def CodcRec.work (r : CodcRec) : Nat := (r.refPics + 1) * r.pBytes + 3 * (lumaS r.maxWidth r.maxHeight + 65536)

/-! ### CODEC_CTL (R288, R289) -/

/-- SETUP: RANGE_FAULT for a small work area or one the activity may not write, else the areas are bound. -/
def State.codecSetup (s : State) (a : Nat) (o : OpRec) : State :=
  let p := o.params
  let ch := a / 16
  let k := u8 p 1
  let r := (s.codcRec ch k).getD {}
  let work := BitVec.ofNat 64 (u64 p 8)
  let out := BitVec.ofNat 64 (u64 p 16)
  let n := u32 p 24
  if n < r.work || !s.sideInRange a work [1] [0] n true || !s.sideInRange a out [1] [0] (u16 p 28 * r.pBytes) true
  then s.opOutcome a 4
  else
    let off := (s.suspends ch).contains k
    (s.onSlot ch k fun x =>
      let y : CodecSlot := { x with
        isSetup := true, isSealed := r.flags.testBit 0, encode := r.direction == 1, work := work, out := out, workBytes := n
        outBufs := u16 p 28, backlogMax := u8 p 30, idrPeriod := u16 p 32, filled := 0, nextBuf := 0 }
      let y := y.restart
      if off then { y with state := .suspended } else y).opOutcome a 0

/-- The 64 bytes of a picture record (R289). -/
def PicRec.record (r : PicRec) : List Byte :=
  toLe 8 r.tick ++ toLe 4 r.pts ++ toLe 4 (unsignedOf 32 r.poc) ++ toLe 2 r.width ++ toLe 2 r.height ++ toLe 1 r.buf
    ++ toLe 1 r.flags ++ toLe 1 r.depth ++ toLe 1 r.qp ++ toLe 4 r.concBlocks ++ toLe 4 r.dropped ++ toLe 4 r.bytes
    ++ List.replicate 28 0

/-- COLLECT: buffers released in ring order, records written in output order, then the word with their count, whose
other bytes the spec does not state. -/
def State.codecCollect (s : State) (a : Nat) (o : OpRec) : State :=
  let p := o.params
  let ch := a / 16
  let k := u8 p 1
  let at' := u32 p 4
  let maxN := u8 p 8
  match s.firstRefusal a true [(at', 64 * maxN + 64)] with
  | .ok =>
    let x := s.slot ch k
    let out := x.recs.take maxN
    let s1 := s.onSlot ch k fun x => { x with filled := x.filled - u8 p 9, recs := x.recs.drop maxN }
    let s2 := s1.spWrite ch at' (out.flatMap PicRec.record)
    let s3 := (s2.spWrite ch (at' + 64 * maxN) (toLe 4 out.length ++ s2.freeBytes 60)).tookFree 60
    (if out.any fun r => r.flags.testBit 0 then s3.flagAct a fun f => { f with concealed := true } else s3).opOutcome a 0
  | r => s.loanFault a r

/-- SUBMIT: a picture to encode waits, at most BACKLOG of them; a further one is counted as OUT_DROP. -/
def State.codecSubmit (s : State) (a : Nat) (o : OpRec) : State :=
  let ch := a / 16
  let k := u8 o.params 1
  let x := s.slot ch k
  let s1 := if !x.encode || !x.isSetup || x.state == .suspended then s
    else if x.backlogMax ≤ x.waiting.length then s.evSlot ch k 4
    else s.onSlot ch k fun x => { x with waiting := x.waiting ++ [(u32 o.params 16, 0)] }
  s1.opOutcome a 0

/-- RESTART. -/
def State.codecRestart (s : State) (a : Nat) (o : OpRec) : State :=
  let ch := a / 16
  let k := u8 o.params 1
  (if (s.slot ch k).isSetup then s.onSlot ch k fun x =>
    if x.state == .suspended then { x.restart with state := .suspended } else x.restart
  else s).opOutcome a 0

/-- A CODEC_CTL op of one function runs on a general core. -/
def State.codecCtl (s : State) (a core fn : Nat) (f : State → OpRec → State) : State :=
  match s.opReady a 0x0306 3 core with
  | some o => if u8 o.params 0 = fn then f (s.opBegin a o) o else s
  | none => s

/-- CODEC_SETUP. -/
def execCodecSetup (a core : Nat) (s : State) : Host.Outcome State Fault Refusal :=
  .next (if !s.live then s else commit (s.codecCtl a core 0 fun s o => s.codecSetup a o))

/-- CODEC_COLLECT. -/
def execCodecCollect (a core : Nat) (s : State) : Host.Outcome State Fault Refusal :=
  .next (if !s.live then s else commit (s.codecCtl a core 1 fun s o => s.codecCollect a o))

/-- CODEC_SUBMIT. -/
def execCodecSubmit (a core : Nat) (s : State) : Host.Outcome State Fault Refusal :=
  .next (if !s.live then s else commit (s.codecCtl a core 2 fun s o => s.codecSubmit a o))

/-- CODEC_RESTART. -/
def execCodecRestart (a core : Nat) (s : State) : Host.Outcome State Fault Refusal :=
  .next (if !s.live then s else commit (s.codecCtl a core 3 fun s o => s.codecRestart a o))

/-! ### Access units (R282, R290 to R292) -/

/-- An access unit is discarded as under "Starting and restarting" (R290). -/
def State.auDrop (s : State) (ch k : Nat) : State :=
  (s.onSlot ch k fun x => { x with dropped := x.dropped + 1 }).evSlot ch k 9

/-- ACCESS_UNIT: a complete access unit of `size` bytes lies in the slot's bitstream FIFO and leaves it. -/
def State.accessUnit (s : State) (ch k : Nat) (isRap supported isReference isRasl : Bool) (pts size : Nat) : State :=
  let f := ch * 256 + 0x10 + k
  let x := s.slot ch k
  if (s.dma.fifos.get f).data.length < size || x.encode then s
  else
    let s1 := s.onDma fun d => { d with fifos := d.fifos.upd f fun y => y.pop size }
    if !x.isSetup then s1
    else if x.state == .suspended then s1.onSlot ch k fun x => { x with dropped := x.dropped + 1 }
    else
      let s2 := if supported then s1 else s1.evSlot ch k 2
      if !supported || isRasl || (x.state == .waitRap && !isRap) then s2.auDrop ch k
      else if x.backlogMax < x.waiting.length + 1 && !isReference then
        (s2.onSlot ch k fun x => { x with dropped := x.dropped + 1 }).evSlot ch k 3
      else s2.onSlot ch k fun x => { x with state := .running, waiting := x.waiting ++ [(pts, size)] }

/-- ACCESS_UNIT. -/
def execAccessUnit (ch k : Nat) (isRap supported isReference isRasl : Bool) (pts size : Nat) (s : State) :
    Host.Outcome State Fault Refusal :=
  .next (if !s.live then s else commit (s.accessUnit ch k isRap supported isReference isRasl pts size))

/-! ### Pictures (R287, R289, R293 to R299) -/

/-- Pictures held for output in output order: POC ascending after the last IDR picture (R291). -/
def heldInsert (r : PicRec × List Byte) (l : List (PicRec × List Byte)) : List (PicRec × List Byte) :=
  if r.1.flags.testBit 6 then l ++ [r]
  else
    let tail := (l.reverse.takeWhile fun x => !x.1.flags.testBit 6).reverse
    l.take (l.length - tail.length) ++ insertBy (fun (x y : PicRec × List Byte) => decide (x.1.poc < y.1.poc)) r tail

/-- One picture due for output: to the next free buffer, or dropped (R287). -/
def State.picOutput (s : State) (ch k act : Nat) (pBytes : Nat) : State :=
  let x := s.slot ch k
  match x.held with
  | [] => s
  | (r, data) :: rest =>
    if x.filled < x.outBufs then
      let s1 := s.onSlot ch k fun x => { x with
        held := rest, filled := x.filled + 1, nextBuf := (x.nextBuf + 1) % x.outBufs, pics := x.pics + 1
        recs := x.recs ++ [{ r with buf := x.nextBuf, dropped := x.dropped }], dropped := 0 }
      s1.gdWrite act (s.b.tenantOf act) (adChan x.out) (adAddr x.out + x.nextBuf * pBytes) (data.take pBytes)
    else (s.onSlot ch k fun x => { x with held := rest, dropped := x.dropped + 1 }).evSlot ch k 4

/-- Events of a picture, each counted once where it holds. -/
def State.slotEvents (s : State) (ch k : Nat) (es : List (Bool × Nat)) : State :=
  es.foldl (fun (s : State) e => if e.1 then s.evSlot ch k e.2 else s) s

/-- The flags byte of a picture record (R289). -/
def picFlags (concealed missing syntaxErr cut fence skip idr : Bool) : Nat :=
  (if concealed then 1 else 0) + (if missing then 2 else 0) + (if syntaxErr then 4 else 0) + (if cut then 8 else 0)
    + (if fence then 16 else 0) + (if skip then 32 else 0) + (if idr then 64 else 0)

/-- A decoded picture is complete (R289 to R296); `predicts` says that it predicts from a concealed picture, `outputs` pictures have
become due for output. -/
def State.decodeDone (s : State) (ch k : Nat) (r : CodcRec) (poc : Int) (width height depth concBlocks pool outputs : Nat)
    (syntaxError missingRef fence predicts isRap isIdr : Bool) (data : List Byte) : State :=
  let x := s.slot ch k
  match x.waiting with
  | [] => s
  | (pts, size) :: rest =>
    let fence := fence && x.isSealed
    let own := syntaxError || missingRef || x.cutPending || fence
    let conc := own || (x.tainted && predicts && !isRap)
    let rec' : PicRec := { tick := s.tick.num, pts := pts, poc := poc, width := width, height := height
                           flags := picFlags conc missingRef syntaxError x.cutPending fence false isIdr, depth := depth
                           concBlocks := if own then concBlocks else 0, bytes := size }
    let s1 := s.onSlot ch k fun x => { x with
      waiting := rest, held := heldInsert (rec', data) x.held, pool := pool % 32, tainted := own || (x.tainted && !isRap), cutPending := false
      cycles := 0, conc := if conc then x.conc + 1 else x.conc }
    let s2 := s1.slotEvents ch k [(syntaxError, 0), (missingRef, 1), (fence, 6)]
    iter (fun (s : State) => s.picOutput ch k r.activity r.pBytes) outputs s2

/-- The QP of a picture and whether it is skipped (R299); the fill is kept times MAX_FPS. -/
def rateQp (r : CodcRec) (fill : Nat) (idr : Bool) : Nat × Bool :=
  let bmax := 1000 * r.rateCap
  if idr then (r.targetQp - 3, false)
  else if r.rateCap = 0 then (min 51 r.targetQp, false)
  else if bmax * r.maxFps < fill then (min 51 r.targetQp, true)
  else if 2 * fill ≤ bmax * r.maxFps then (min 51 r.targetQp, false)
  else (min 51 (r.targetQp + cdiv (10 * (2 * fill - bmax * r.maxFps)) (2 * bmax * r.maxFps)), false)

/-- An encoded picture is complete (R297, R299): its bytes leave through the slot's output FIFO with an end-of-block mark. -/
def State.encodeDone (s : State) (ch k : Nat) (r : CodcRec) (poc : Int) (data : List Byte) : State :=
  let x := s.slot ch k
  match x.waiting with
  | [] => s
  | (pts, _) :: rest =>
    let idr := x.forceIdr || x.picIndex == 0 || (x.idrPeriod != 0 && x.picIndex % x.idrPeriod == 0)
    let (qp, skip) := rateQp r x.fill idr
    let rec' : PicRec := { tick := s.tick.num, pts := pts, poc := poc, width := r.maxWidth, height := r.maxHeight, buf := 0xFF
                           flags := picFlags false false false false false skip idr, depth := 8, qp := qp
                           dropped := x.dropped, bytes := data.length }
    let s1 := s.onSlot ch k fun x => { x with
      waiting := rest, recs := x.recs ++ [rec'], dropped := 0, pics := x.pics + 1, picIndex := x.picIndex + 1
      forceIdr := false, fill := if r.rateCap = 0 then 0
        else x.fill + 8 * data.length * r.maxFps - 1000 * r.rateCap }
    let s2 := if skip then s1.evSlot ch k 8 else s1
    s2.onDma fun d => { d with fifos := d.fifos.upd (ch * 256 + 0x18 + k) fun f =>
      { data := f.data ++ data, marks := f.marks ++ [f.data.length + data.length] } }

/-- PICTURE_DONE: the engines complete the picture in hand of a running slot, in a reservation of its activity (R284). -/
def State.pictureDone (s : State) (ch k : Nat) (poc : Int) (width height depth concBlocks pool outputs : Nat)
    (syntaxError missingRef fence predicts stall isRap isIdr : Bool) (data : List Byte) : State :=
  match s.codcRec ch k with
  | none => s
  | some r =>
    let x := s.slot ch k
    if x.state ≠ .running || !(s.holds r.activity 5 k || s.holds r.activity 6 k) then s
    else
      let s1 := if stall then s.evSlot ch k 10 else s
      if x.encode then s1.encodeDone ch k r poc data
      else s1.decodeDone ch k r poc width height depth concBlocks pool outputs syntaxError missingRef fence predicts isRap isIdr data

/-- PICTURE_DONE. -/
def execPictureDone (ch k : Nat) (poc : Int) (width height depth concBlocks pool outputs : Nat)
    (syntaxError missingRef fence predicts stall isRap isIdr : Bool) (data : List Byte) (s : State) :
    Host.Outcome State Fault Refusal :=
  .next (if !s.live then s
    else commit (s.pictureDone ch k poc width height depth concBlocks pool outputs syntaxError missingRef fence predicts stall
      isRap isIdr data))

/-- TIME_CUT: the VEE bound of a sealed slot's picture is reached; the rest of it is concealed (R295). -/
def State.timeCut (s : State) (ch k : Nat) : State :=
  let x := s.slot ch k
  if x.isSealed && x.state == .running && !x.encode && !x.waiting.isEmpty && !x.cutPending then
    (s.onSlot ch k fun x => { x with cutPending := true }).evSlot ch k 5
  else s

/-- TIME_CUT. -/
def execTimeCut (ch k : Nat) (s : State) : Host.Outcome State Fault Refusal :=
  .next (if !s.live then s else commit (s.timeCut ch k))

end Sys2Proof.Machine
end

