-- ==== Sys2Proof/Machine/Pairing.lean ====
section
/-! DEFINITION. The redundant pair and admission (spec/22): fitness, ring roles, claims and releases, digests compared
in SHADOW. -/

namespace Sys2Proof.Machine

/-- Update the pair. -/
def State.pairBit (s : State) (f : Pair → Pair) : State := s.onPair f

/-- Whether PAIR is bound (R86). -/
def State.paired (s : State) : Bool := s.bound && s.b.pair.isSome

/-- The PAIR record. -/
def State.pairRec (s : State) : PairRec := s.b.pair.getD {}

/-- Whether the module is of ring B. -/
def State.ringB (s : State) : Bool := s.pairRec.ring == 1

/-- REVERT_HOLDOFF in seconds (R86). -/
def State.holdoff (s : State) : Nat := if s.pairRec.revertHoldoff = 0 then 600 else s.pairRec.revertHoldoff

/-- Whether an unfit condition of R456 holds. -/
def State.unfit (s : State) : Bool := !s.bound || s.start.hold || s.pair.cause != 0

/-- Whether the module is an admitted member; a STANDALONE module needs no admission (R454, R466). -/
def State.admitted (s : State) : Bool := !s.isMember || s.pair.admission == .admitted

/-- FIT (R457): every counted member admitted, none ABSENT or SUSPECT; a module without MEMBER records is its own ring. -/
def State.ringFit (s : State) : Bool :=
  !s.unfit && s.b.netw.members.all fun m =>
    let a := s.pair.admittedSet.getLsbD m.index
    if !a && m.startRole == 1 then true
    else a && !s.pair.absent.getLsbD m.index && !s.pair.suspect.getLsbD m.index

/-- ABSENT or SUSPECT members. -/
def State.impairedCount (s : State) : Nat :=
  ((List.range 6).filter fun i => s.pair.absent.getLsbD i || s.pair.suspect.getLsbD i).length

/-- Whether the module may drive outputs (R454, R86, R432, R466). -/
def State.mayDrive (s : State) : Bool :=
  s.bound && !s.start.hold && !s.chk.maintenance && s.admitted
    && (!s.paired || (s.pair.role == .active && s.pair.ownBus && !s.pair.peer))

/-- The claim pin is asserted: the own bus is then asserted too. -/
def State.assertPin (s : State) : State :=
  s.onPair fun p => { p with pin := true, ownBus := true, ownAsserted := if p.ownBus then p.ownAsserted else s.tb.time }

/-- STANDBY: the pin is released (R458). -/
def State.toStandby (s : State) : State :=
  s.onPair fun p => { p with
    role := .standby, pin := false, standbySince := some s.tick.start, activeSince := none, swapBase := none, byRevert := false }

/-- CLAIMING: the pin is asserted, and the ring's fitness at the claim is kept for R460. -/
def State.toClaiming (s : State) (byRevert : Bool) : State :=
  (s.assertPin).onPair fun p => { p with
    role := .claiming, claimedFit := s.ringFit, claimAbsent := s.impairedCount, byRevert := byRevert }

/-- ACTIVE: TAKEOVER is counted (R458). -/
def State.toActive (s : State) : State :=
  (s.onPair fun p => { p with
    role := .active, everActive := true, lastTakeover := s.tb.time, activeSince := some s.tick.start, swapBase := none
    revertAt := if p.byRevert then some s.tick.start else p.revertAt }).evPair 0

/-- An ACTIVE ring releases for a cause of R460: RELEASE is counted, and a release within REVERT_HOLDOFF of a revert
doubles REVERT_WAIT (R465). -/
def State.pairRelease (s : State) : State :=
  let soon := match s.pair.revertAt with
    | some t => decide (s.tick.start < t + s.holdoff * 1000000000)
    | none => false
  let s1 := (s.toStandby).onPair fun p => { p with
    releaseAt := some s.tb.time
    revertWait := if soon && !s.ringB then min 86400 (2 * p.revertWait) else p.revertWait }
  s1.evPair 1

/-- The ring role after fitness or the view of the ring changed; an ACTIVE member that becomes unfit sees its ring leave FIT or one
member more ABSENT, so its STANDBY is a release (R458, R460). -/
def State.pairUpdate (s : State) : State :=
  let s0 := s.onPair fun p => { p with fitSince := if s.ringFit then some (p.fitSince.getD s.tick.start) else none }
  if !s0.paired then s0
  else if s0.unfit then (match s0.pair.role with
    | .standby => s0
    | .claiming => s0.toStandby
    | .active => s0.pairRelease)
  else match s0.pair.role with
    | .active =>
      if (s0.pair.claimedFit && !s0.ringFit) || (!s0.pair.claimedFit && decide (s0.pair.claimAbsent < s0.impairedCount))
      then s0.pairRelease else s0
    | .claiming =>
      if !s0.ringB && s0.pair.peer && !s0.ringFit && decide (s0.pair.ownAsserted + 2000 ≤ s0.tb.time) then s0.toStandby
      else s0
    | .standby => s0

/-- A condition of R456 arises or clears: 0 REPLACE, 1 result activity inactive, 2 port down, 3 MAINTENANCE. A member
that becomes unfit releases its pin, names itself ABSENT on the ring, and must be admitted again. -/
def State.setCause (s : State) (i : Nat) (v : Bool) : State :=
  let was := s.pair.cause != 0
  let s1 := s.onPair fun p => { p with cause := bitPut p.cause i v }
  if !was && s1.pair.cause != 0 then
    let s2 := if s1.isMember then
        (s1.sendRingEvent 0 s1.memberIdx s1.tick.num).onPair fun p => { p with
          admission := .shadow, admitCount := 0, absent := bitSet p.absent s1.memberIdx
          admittedSet := bitClr p.admittedSet s1.memberIdx }
      else s1
    s2.pairUpdate
  else s1.pairUpdate

/-! ### Interlock commands (R458 to R465) -/

/-- ILK_PEER_CHANGE: ring B stops when ring A asserts; a waiting ring A becomes ACTIVE when the peer releases. -/
def State.ilkPeer (s : State) (asserted : Bool) : State :=
  if s.pair.peer = asserted then s
  else
    let s1 := s.onPair fun p => { p with peer := asserted, peerReleased := if asserted then p.peerReleased else s.tb.time }
    if !s1.paired then s1
    else if asserted then
      (if s1.ringB && s1.pair.role == .active then
        ((s1.toStandby).onPair fun p => { p with releaseAt := some s1.tb.time }).evPair 3 else s1)
    else if !s1.ringB && s1.pair.role == .claiming && decide (s1.pair.ownAsserted + 2000 ≤ s1.tb.time) then s1.toActive
    else s1

/-- ILK_PEER_CHANGE. -/
def execIlkPeerChange (asserted : Bool) (s : State) : Host.Outcome State Fault Refusal :=
  .next (commit (s.ilkPeer asserted))

/-- OWN_BUS_CHANGE: a self-fit STANDBY member follows another member's claim (R458); the bus stays asserted while this
module drives it. -/
def State.ownBusEff (s : State) (asserted : Bool) : State :=
  let now := asserted || s.pair.pin
  if s.pair.ownBus = now then s
  else
    let s1 := s.onPair fun p => { p with ownBus := now, ownAsserted := if now then s.tb.time else p.ownAsserted
                                         releaseAt := if now then p.releaseAt else none }
    if s1.live && s1.paired && now && s1.pair.role == .standby && !s1.unfit && s1.pair.releaseAt.isNone then s1.toClaiming false else s1

/-- OWN_BUS_CHANGE. -/
def execOwnBusChange (asserted : Bool) (s : State) : Host.Outcome State Fault Refusal :=
  .next (commit (s.ownBusEff asserted))

/-- The guard of R459 in ns. -/
def State.guardNs (s : State) : Nat :=
  if s.pairRec.startRole = 1 && !s.pair.everActive then 1000000000
  else if !s.ringFit then 1000000000
  else match s.pair.swapReleased with
    | some t => if s.tb.time ≤ t + 1000000000 then 1000000 else 100000
    | none => 100000

/-- CLAIM_GUARD: the guard has passed with ILK_PEER_N released since its release or tick 0 (R459). -/
def State.claimGuard (s : State) : State :=
  if s.paired && s.tick.running && s.pair.role == .standby && !s.unfit && !s.pair.peer
      && decide (max s.pair.peerReleased s.tick.t0 + s.guardNs ≤ s.tb.time) then s.toClaiming false else s

/-- CLAIM_GUARD. -/
def execClaimGuard (s : State) : Host.Outcome State Fault Refusal :=
  .next (if !s.live then s else commit s.claimGuard)

/-- CLAIM_CONFIRM: 2 us after assertion the claiming ring is ACTIVE, or ring B has lost the tie (R458). -/
def State.claimConfirm (s : State) : State :=
  if s.paired && s.pair.role == .claiming && s.pair.ownBus && decide (s.pair.ownAsserted + 2000 ≤ s.tb.time) then
    if !s.pair.peer then s.toActive
    else if s.ringB then (s.toStandby).evPair 2
    else s
  else s

/-- CLAIM_CONFIRM. -/
def execClaimConfirm (s : State) : Host.Outcome State Fault Refusal :=
  .next (if !s.live then s else commit s.claimConfirm)

/-- STUCK_LINE: the own bus stays asserted 10 us after a release (R460). -/
def State.stuckLine (s : State) : State :=
  match s.pair.releaseAt with
  | some t => if s.paired && !s.pair.pin && s.pair.ownBus && decide (t + 10000 ≤ s.tb.time)
    then (s.onPair fun p => { p with releaseAt := none }).evPair 7 else s
  | none => s

/-- STUCK_LINE. -/
def execStuckLine (s : State) : Host.Outcome State Fault Refusal :=
  .next (if !s.live then s else commit s.stuckLine)

/-- REVERT_CLAIM: ring A, FIT and STANDBY for REVERT_WAIT, asserts while ring B is ACTIVE (R465). -/
def State.revertClaim (s : State) : State :=
  let w := s.pair.revertWait * 1000000000
  let since := fun (t : Option Nat) => match t with
    | some x => decide (x + w ≤ s.tick.start)
    | none => false
  if s.paired && !s.ringB && s.pair.role == .standby && s.pair.peer && !s.unfit && s.ringFit && since s.pair.fitSince
      && since s.pair.standbySince && (s.pairRec.startRole == 0 || s.pair.everActive) then s.toClaiming true else s

/-- REVERT_CLAIM. -/
def execRevertClaim (s : State) : Host.Outcome State Fault Refusal :=
  .next (if !s.live then s else commit s.revertClaim)

/-- The pair at a boundary: the swap base, planned swaps, and REVERT_WAIT after 24 h (R464, R465). -/
def State.pairBoundary (s : State) : State :=
  let s1 := s.onPair fun p => { p with
    revertWait := (match p.activeSince with
      | some t => if p.role == .active && decide (t + 86400 * 1000000000 ≤ s.tick.start) then s.holdoff else p.revertWait
      | none => p.revertWait) }
  if !(s1.paired && s1.pair.role == .active && !s1.ringB) then s1
  else match s1.pair.swapBase with
    | none => s1.onPair fun p => { p with swapBase := some s1.tick.start }
    | some b =>
      if s1.pairRec.swapPeriod ≠ 0 && decide (b + s1.pairRec.swapPeriod * 3600 * 1000000000 ≤ s1.tick.start) then
        ((s1.pairRelease).onPair fun p => { p with swapReleased := some s1.tb.time }).evPair 4
      else s1

/-! ### Admission (R466 to R468) -/

/-- A module's health state REPLACE (R411): any component. -/
def State.healthReplace (s : State) : Bool := s.cons.health.any fun e => e.2.state == .replace

/-- ADMIT_COUNT reaches ADMIT_TICKS: READY is sent from the next tick on (R468); a module whose health is REPLACE stays
in SHADOW at 0. -/
def State.admitCheck (s : State) : State :=
  if s.healthReplace then s.onPair fun p => { p with admitCount := 0 }
  else if s.b.admitTicks ≤ s.pair.admitCount then s.onPair fun p => { p with admission := .pending } else s

/-- A result digest held for a sender, activity and tick. -/
def State.digestOf (s : State) (sender act tick : Nat) : Option (List Byte) :=
  (s.chk.digests.find? fun d => d.kind == 1 && d.sender == sender && d.group == act && d.tick == tick).map (·.digest)

/-- The shadow's decision on a tick (R467). -/
def State.admitDecide (s : State) (tick : Nat) : State :=
  match s.member with
  | none => s
  | some m =>
    let due := s.pair.decideAt.any fun d => d.1 == tick && decide (d.2 + 16 ≤ s.tick.num)
    if !due || s.pair.admission != .shadow then s
    else
      let acts := s.b.safe.digests
      let pairs := acts.map fun a => (a, s.digestOf m.index a tick, s.digestOf m.buddy a tick)
      let differ := pairs.find? fun x => match x.2.1, x.2.2 with
        | some p, some q => p != q
        | _, _ => false
      let missing := pairs.any fun x => x.2.1.isNone || x.2.2.isNone
      let s0 := (s.onPair fun p => { p with decideAt := p.decideAt.filter fun d => d.1 != tick }).onChk fun c =>
        { c with digests := c.digests.filter fun d => d.kind != 1 || d.tick != tick }
      if s.pair.absent.getLsbD m.buddy then s0
      else match differ with
        | some x => ((s0.onPair fun p => { p with admitCount := 0 }).evPair 6).record { kind := .digest, vals := [tick, x.1] }
        | none => if missing then s0
          else (s0.onPair fun p => { p with admitCount := p.admitCount + 1 }).admitCheck

/-- ADMIT_DECISION. -/
def execAdmitDecision (tick : Nat) (s : State) : Host.Outcome State Fault Refusal :=
  .next (if !s.live then s else commit (s.admitDecide tick))

/-- Admission at a boundary of a SHADOW module: without a BUDDY every marker taken in order counts; TEST_STARVED after 64
ticks without a change (R467, R468). -/
def State.admitBoundary (s : State) : State :=
  match s.member with
  | none => s
  | some m =>
    let s0 := if s.pair.admission == .shadow && m.buddy == 0xFF then
        (s.onPair fun p => { p with admitCount := match p.lastMarker with
          | some t => if t + 1 = s.tick.num then p.admitCount + 1 else 0
          | none => 1 }).admitCheck
      else s
    let s1 := s0.onPair fun p => { p with
      lastMarker := some s.tick.num, admitCountLatch := p.admitCount
      unchanged := if p.admission == .shadow && p.admitCount == p.admitCountLatch then p.unchanged + 1 else 0 }
    if s1.pair.unchanged = 64 then (s1.onPair fun p => { p with unchanged := 0 }).evSafe 6 none else s1

end Sys2Proof.Machine
end

