-- ==== Sys2Proof/Machine/Checks.lean ====
section
/-! DEFINITION. Range checks, result digests, spot recomputation, field tests, the marking of units, and MAINTENANCE with
its stress test (spec/20). -/

namespace Sys2Proof.Machine

/-! ### CHECK (R414 to R416) -/

/-- The RANGE records that apply to an entry of a CHECK op: those of its activity and SEQ. -/
def State.rangesFor (s : State) (a seq : Nat) : List SafeRange :=
  s.b.safe.ranges.filter fun r => r.activity == a && r.seq == seq

/-- The bytes of entry `i` of a CHECK op. -/
def checkEntry (o : OpRec) (i : Nat) : List Byte := slice o.params (4 + 20 * i) 20

/-- The scratchpad ranges an entry reads for a record: the summary's for BOX_COUNT, else the tensor's rows. -/
def checkReads (e : List Byte) (check : Nat) : List (Nat × Nat) :=
  if check = 2 then [(u32 e 8, 64)]
  else (List.range (u16 e 2)).map fun r => (u32 e 8 + r * u32 e 12, elemBytes (u8 e 1) (u32 e 4))

/-- A row of an entry's tensor in FP32. -/
def State.checkRow (s : State) (ch : Nat) (e : List Byte) (r : Nat) : List FVal :=
  (List.range (u32 e 4)).map fun i => (s.valAt ch (u8 e 1) (u32 e 8 + r * u32 e 12) 0 i).r32

/-- The entropy of a row of logits (R415). -/
def rowEntropy (l : List FVal) : FVal :=
  let m := l.foldl FVal.max (.inf true)
  let d := l.map fun v => fSub v m
  let sum := fSum (d.map fExp)
  let t := fSum (d.map fun v => fMul (fExp v) v)
  fSub (fLn sum) (fDiv t sum)

/-- The quantities a record tests in an entry (R415). -/
def State.checkVals (s : State) (ch : Nat) (e : List Byte) (check : Nat) : List FVal :=
  let rows := (List.range (u16 e 2)).map fun r => s.checkRow ch e r
  match check with
  | 0 => rows.flatten
  | 1 => rows.map fSum
  | 2 => [(FVal.ofInt (u32 (s.spGet ch (u32 e 8) 4) 0)).r32]
  | _ => rows.map rowEntropy

/-- Whether a record fails: some quantity is outside LO to HI, or a NaN. -/
def State.rangeFails (s : State) (ch : Nat) (e : List Byte) (r : SafeRange) : Bool :=
  (s.checkVals ch e r.check).any fun x => !((FVal.ofW r.lo).le x && x.le (.ofW r.hi))

/-- The general core an op of an activity runs on: the one its reservation in the running block names. -/
def State.coreOf (s : State) (a seq : Nat) : Nat :=
  match s.block.1.res.find? fun r => r.activity == a && r.cls == 3 && (r.opseq == seq || r.opseq == 0xFF) with
  | some r => r.inst
  | none => 0

/-- A record failed: the activity's outputs are flagged, RANGE_FAIL is counted, and with ACTION 1 the unit that ran the op
becomes SUSPECT (R416). -/
def State.rangeFail (s : State) (a : Nat) (r : SafeRange) : State :=
  let s1 := (s.flagRange a).evSafe 0 (some a)
  if r.action = 1 then match s1.b.opAt a r.seq with
    | some o => if o.opcode / 256 = 5 then s1 else s1.unitEvent (opUnit (a / 16) o.opcode (s1.coreOf a r.seq)) false
    | none => s1
  else s1

/-- The entries of a CHECK op with the records that apply to each. -/
def State.checkPairs (s : State) (a : Nat) (o : OpRec) : List (List Byte × SafeRange) :=
  (List.range (u8 o.params 0)).flatMap fun i =>
    let e := checkEntry o i
    (s.rangesFor a (u8 e 0)).map fun r => (e, r)

/-- The work of CHECK: each record that fails in some entry fails once; whatever it finds, it ends with OK (R416). -/
def State.checkOp (s : State) (a : Nat) (o : OpRec) : State :=
  let prs := s.checkPairs a o
  match s.firstRefusal a false (prs.flatMap fun x => checkReads x.1 x.2.check) with
  | .ok =>
    let failed := s.b.safe.ranges.filter fun r => prs.any fun x => x.2 == r && s.rangeFails (a / 16) x.1 r
    (failed.foldl (fun (s : State) r => s.rangeFail a r) s).opOutcome a 0
  | r => s.loanFault a r

/-- CHECK in its PST reservation; unfinished, it restarts from its beginning (R416). -/
def execCheck (a : Nat) (fits : Bool) (s : State) : Host.Outcome State Fault Refusal :=
  .next (if !s.live then s else commit (s.restartOp a 0x0404 4 0 fits fun s o => s.checkOp a o))

/-! ### DIGEST (R430, R467) -/

/-- The areas of a DIGEST op. -/
def digestAreas (o : OpRec) : List (Nat × Nat) :=
  (List.range (u8 o.params 1)).map fun i => (u32 o.params (16 + 8 * i), u32 o.params (20 + 8 * i))

/-- A shadow with a BUDDY holds its own result digest; with the last RESULT_DIGEST of the tick the decision is due at the
16th boundary after (R467). -/
def State.holdOwn (s : State) (p : Nat) (d : List Byte) : State :=
  match s.member with
  | none => s
  | some m =>
    if s.pair.admission != .shadow || m.buddy == 0xFF then s
    else
      let t := s.tick.num
      let s1 := s.onChk fun c => { c with digests := c.digests ++ [{ sender := m.index, group := p, kind := 1, tick := t, digest := d }] }
      if s1.b.safe.digests.all (fun a => (s1.digestOf m.index a t).isSome) && !s1.pair.decideAt.any (fun x => x.1 == t) then
        s1.onPair fun q => { q with decideAt := q.decideAt ++ [(t, t)] }
      else s1

/-- The work of DIGEST: the areas are hashed, and the digest is sent. -/
def State.digestOp (s : State) (a : Nat) (o : OpRec) : State :=
  match s.firstRefusal a false (digestAreas o) with
  | .ok =>
    let p := u8 o.params 0
    let d := shake256 (ascii "APY-RDIG" ++ toLe 8 s.tick.num ++ toLe 1 p
      ++ (digestAreas o).flatMap fun r => s.spGet (a / 16) r.1 r.2)
    ((s.sendDigest p 1 s.tick.num d).holdOwn p d).opOutcome a 0
  | r => s.loanFault a r

/-- DIGEST in its PST reservation; unfinished, it restarts from its beginning. -/
def execDigest (a : Nat) (fits : Bool) (s : State) : Host.Outcome State Fault Refusal :=
  .next (if !s.live then s else commit (s.restartOp a 0x0405 4 0 fits fun s o => s.digestOp a o))

/-- A DIGEST message from the ring: a weight digest of an own COPY_GROUP, or the buddy's result digest while in SHADOW, is
held for its decision (R427, R467). -/
def State.digestMsg (s : State) (src group kind tick : Nat) (value : List Byte) : State :=
  let keep := (kind == 0 && s.b.safe.copies.any fun c => c.group == group)
    || (kind == 1 && s.pair.admission == .shadow && (match s.member with
      | some m => m.buddy == src
      | none => false) && s.b.safe.digests.contains group)
  if s.isMember && src != s.memberIdx && keep then
    s.onChk fun c => { c with digests := c.digests ++ [{ sender := src, group := group, kind := kind, tick := tick
                                                         digest := sliceZ value 0 64 }] }
  else s

/-- DIGEST_MESSAGE. -/
def execDigestMessage (src group kind tick : Nat) (value : List Byte) (s : State) : Host.Outcome State Fault Refusal :=
  .next (if !s.live then s else commit (s.digestMsg src group kind tick value))

/-! ### Spot recomputation (R418) -/

/-- The first sample of a list that satisfies a test, and the list without it. -/
def takeSpot (p : SpotRun → Bool) : List SpotRun → Option SpotRun × List SpotRun
  | [] => (none, [])
  | x :: r => if p x then (some x, r) else ((takeSpot p r).1, x :: (takeSpot p r).2)

/-- SPOT_COMPARE: the oldest sample of a source channel is compared; a mismatch makes both MEs SUSPECT, is counted and
recorded, and flags the op's activity in the present tick (R418). -/
def State.spotCompare (s : State) (source : Nat) (equal : Bool) : State :=
  match takeSpot (fun x => x.source == source && decide (x.ticks ≤ 64)) s.chk.spots with
  | (none, _) => s
  | (some x, rest) =>
    let s1 := s.onChk fun c => { c with spots := rest }
    if equal then s1
    else
      let s2 := ((s1.unitEvent (unitOf x.source 0) false).unitEvent (unitOf x.checker 0) false).evSafe 1 none
      (s2.record { kind := .spot, vals := [x.source, x.checker, x.activity, x.seq] }).onAct x.activity fun t =>
        { t with flags := { t.flags with range := true } }

/-- SPOT_COMPARE. -/
def execSpotCompare (source : Nat) (equal : Bool) (s : State) : Host.Outcome State Fault Refusal :=
  .next (if !s.live then s else commit (s.spotCompare source equal))

/-- SPOT_TIMEOUT: a sample not compared within 64 ticks is abandoned as TEST_STARVED (R418). -/
def State.spotTimeout (s : State) (source : Nat) : State :=
  match takeSpot (fun x => x.source == source && decide (64 < x.ticks)) s.chk.spots with
  | (none, _) => s
  | (some _, rest) => (s.onChk fun c => { c with spots := rest }).evSafe 6 none

/-- SPOT_TIMEOUT. -/
def execSpotTimeout (source : Nat) (s : State) : Host.Outcome State Fault Refusal :=
  .next (if !s.live then s else commit (s.spotTimeout source))

/-! ### Field tests (R419 to R422) -/

/-- Segments of one run of unit kind `k` (R420). -/
def runSegments (k : Nat) : Nat := if k ≤ 1 then 40 else if k ≤ 5 then 20 else if k = 6 then 10 else 40

/-- The DOMAINS bit of a unit kind: ME, AE, general cores, PST, VEE, VPE (R81). -/
def unitDomain (k : Nat) : Nat := [0, 1, 2, 2, 2, 2, 5, 3, 4].getD k 0

/-- Whether a channel is enabled: its record says so and it is not shed. -/
def State.chanUp (s : State) (ch : Nat) : Bool := (s.b.chanRec ch).enable == 1 && !s.pwr.shed.getLsbD ch

/-- Whether a unit can be tested: its channel is enabled, its power domain is on, and its scratch is free (R419, R420). -/
def State.testable (s : State) (u : Nat) : Bool :=
  let ch := u / 9
  let k := u % 9
  s.chanUp ch && s.domainOn ch (unitDomain k) &&
    (if k ≤ 1 || k = 6 then
      decide (2 ≤ ((List.range 48).filter fun b => !(s.loanOf ch b).owned && !s.bankOff ch b).length)
    else if 7 ≤ k then (List.range 8).any fun i => (s.codcRec ch i).isNone
    else true)

/-- The test seed of a run (R422). -/
def State.testSeed (s : State) (u : Nat) : List Byte :=
  (shake256 (ascii "APY-FT" ++ s.keep.accession ++ toLe Config.seedUnitBytes u
    ++ toLe Config.seedRunBytes (s.chk.units.get u).runs ++ toLe 8 s.tb.time)).take 16

/-- TEST_SEGMENT: a segment starts in free time of its unit; the first of a run starts the run with a new seed. No run
takes place at CHK0 (R420 to R422, R425). -/
def State.testSegment (s : State) (u : Nat) : State :=
  if !s.bound || s.b.safe.checkLevel = 0 || s.chk.maintenance || !s.testable u then s
  else match s.chk.run with
    | some r => if r.unit = u && !r.inSegment then s.onChk fun c => { c with run := some { r with inSegment := true } } else s
    | none => s.onChk fun c => { c with
        testing := true, unit := u, run := some { unit := u, seed := s.testSeed u, inSegment := true } }

/-- TEST_SEGMENT. -/
def execTestSegment (u : Nat) (s : State) : Host.Outcome State Fault Refusal :=
  .next (if !s.live then s else commit (s.testSegment u))

/-- The unit after a clean run: 16 in a row make a SUSPECT unit HEALTHY, 64 a BENCHED one CLEARED unless held, 256 a
CLEARED one HEALTHY; one transition for each tick (R423). -/
def UnitRun.cleanRun (x : UnitRun) (tick : Nat) : UnitRun :=
  let y := { x with clean := x.clean + 1, runs := x.runs + 1, streak := x.streak + 1 }
  let go := fun (t : UnitHealth) => { y with state := t, streak := 0, eventTick := some tick }
  if x.eventTick == some tick then y
  else match x.state with
    | .suspect => if 16 ≤ y.streak then go .healthy else y
    | .benched => if 64 ≤ y.streak && !x.held then go .cleared else y
    | .cleared => if 256 ≤ y.streak then go .healthy else y
    | .healthy => y

/-- TEST_SEGMENT_DONE: a segment with the wrong signature ends the run as failed; with its last segment a run is clean
(R422, R423). -/
def State.segmentDone (s : State) (good : Bool) : State :=
  match s.chk.run with
  | none => s
  | some r =>
    if !r.inSegment then s
    else if !good then
      let s1 := s.onChk fun c => { c with
        run := none, testing := false
        units := c.units.upd r.unit fun x => { x with failed := x.failed + 1, runs := x.runs + 1, streak := 0 } }
      ((s1.evSafe 2 none).record { kind := .test, vals := [r.unit, r.segments], bytes := r.seed }).unitEvent r.unit true
    else if r.segments + 1 < runSegments (r.unit % 9) then
      s.onChk fun c => { c with run := some { r with segments := r.segments + 1, inSegment := false } }
    else s.onChk fun c => { c with
      run := none, testing := false, units := c.units.upd r.unit fun x => x.cleanRun s.tick.num }

/-- TEST_SEGMENT_DONE. -/
def execTestSegmentDone (good : Bool) (s : State) : Host.Outcome State Fault Refusal :=
  .next (if !s.live then s else commit (s.segmentDone good))

/-- TEST_RUN_TIMEOUT: a run not finished within 1,024 ticks is discarded with no verdict (R420). -/
def State.runTimeout (s : State) : State :=
  match s.chk.run with
  | some r => if 1024 ≤ r.ticks then (s.onChk fun c => { c with run := none, testing := false }).evSafe 6 none else s
  | none => s

/-- TEST_RUN_TIMEOUT. -/
def execTestRunTimeout (s : State) : Host.Outcome State Fault Refusal :=
  .next (if !s.live then s else commit s.runTimeout)

/-- A segment cut by a power-down or a rebind is discarded; its run goes on (R420). -/
def State.segmentCut (s : State) : State :=
  s.onChk fun c => { c with run := c.run.map fun r => { r with inSegment := false } }

/-- The checking services at a boundary: the age of samples and of the run, and the unit states the plan goes by (R103,
R418, R420, R423). -/
def State.checkBoundary (s : State) : State :=
  s.onChk fun c => { c with
    spots := c.spots.map fun x => { x with ticks := x.ticks + 1 }
    run := c.run.map fun r => { r with ticks := r.ticks + 1 }
    units := c.units.updAll (List.range 54) fun _ x => { x with planBenched := x.state == .benched }
    maintenance := c.maintenance || c.maintPend
    maintPend := false }

/-! ### MARK_UNIT, MAINTENANCE and the stress test (R425, R432) -/

/-- MARK_UNIT by HOST_PF or the tray controller: an event of the HEALTHY row, noted with the master; a unit above 53 drops
the command (R425, R433). -/
def State.markUnit (s : State) (master u : Nat) : State :=
  if 53 < u || !(master == idHostPf || master == idTray) then s
  else (s.unitEvent u false).record { kind := .mark, vals := [master, u] }

/-- MARK_UNIT. -/
def execMarkUnit (master u : Nat) (s : State) : Host.Outcome State Fault Refusal :=
  .next (if !s.live then s else commit (s.markUnit master u))

/-- MAINT_ENTER: accepted when every tenant is NONE and no rebind is in progress; it takes effect from the next boundary
(R432). -/
def State.maintEnter (s : State) : State :=
  if s.bound && s.bind.rebind == .idle && (List.range 9).all (fun k => k == 0 || (s.ksi.tenants.get k).state == .none)
  then s.onChk fun c => { c with maintPend := true } else s

/-- MAINT_ENTER. -/
def execMaintEnter (s : State) : Host.Outcome State Fault Refusal :=
  .next (if !s.live then s else commit s.maintEnter)

/-- STRESS_START: in MAINTENANCE only. -/
def State.stressStart (s : State) : State :=
  if s.chk.maintenance then s.onChk fun c => { c with stress := true } else s

/-- STRESS_START. -/
def execStressStart (s : State) : Host.Outcome State Fault Refusal :=
  .next (if !s.live then s else commit s.stressStart)

/-- STRESS_DONE: bit p of a unit's result says it fails at V_set in profile p, bit 8 + p at V_set - 25 mV; a unit that
fails at V_set becomes SUSPECT, and the results are recorded (R432, R434). -/
def State.stressDone (s : State) (results : List Nat) : State :=
  if !s.chk.stress then s
  else
    let s1 := s.onChk fun c => { c with
      stress := false
      units := c.units.updAll (List.range 54) fun u x => { x with stress := BitVec.ofNat 16 (results.getD u 0) } }
    let s2 := (List.range 54).foldl (fun (s : State) u => if results.getD u 0 % 256 = 0 then s else s.unitEvent u false) s1
    s2.record { kind := .stress, vals := (List.range 54).map fun u => results.getD u 0 }

/-- STRESS_DONE. -/
def execStressDone (results : List Nat) (s : State) : Host.Outcome State Fault Refusal :=
  .next (if !s.live then s else commit (s.stressDone results))

end Sys2Proof.Machine
end

