-- ==== Sys2Proof/Machine/BindOps.lean ====
section
/-! DEFINITION. What validation checks of one op of OPS: reserved parameters, ranges and the references its own chapter names
(R97, R98 and the parameter tables of spec/07 to spec/14 and spec/20). -/

namespace Sys2Proof.Machine

/-! ### Error codes (R70) -/

def eRange : Nat := 0x702
def eReserved : Nat := 0x703
def eReference : Nat := 0x704
def eShared : Nat := 0x705
def eMemory : Nat := 0x70E
def ePower : Nat := 0x70F
def eGrant : Nat := 0x710

/-- The code of the first condition in a list that does not hold; 0 when all hold. -/
def firstBad : List (Bool × Nat) → Nat
  | [] => 0
  | (ok, c) :: r => if ok then firstBad r else c

/-- A number lies in a range. -/
def within (lo v hi : Nat) : Bool := decide (lo ≤ v) && decide (v ≤ hi)

/-- A multiple of a number. -/
def isMult (n v : Nat) : Bool := v % n == 0

/-! ### Tensors (R184) -/

/-- The words an op touches of one tensor: `rows` runs of `bytes` (rounded up to 64) at a stride from a base. -/
structure Tensor where
  base : Nat
  stride : Nat
  rows : Nat
  bytes : Nat
  written : Bool := false

/-- A tensor of rows of `n` bytes. -/
def tensor (base stride rows n : Nat) (written : Bool) : Tensor := ⟨base, stride, rows, up64 n, written⟩

/-- A tensor in one run. -/
def vector (base n : Nat) (written : Bool) : Tensor := tensor base 0 1 n written

/-- Every run lies in banks 0 to 47. -/
def Tensor.inBanks (t : Tensor) : Bool := decide (t.base + (t.rows - 1) * t.stride + t.bytes ≤ spChanBytes)

/-- Whether a run of bytes from `a` to `e` meets a tensor: the first run of the tensor that ends after `a` begins before `e`. -/
def Tensor.meets (t : Tensor) (a e : Nat) : Bool :=
  let j := if a < t.base + t.bytes then 0 else if t.stride = 0 then t.rows else (a - t.base - t.bytes) / t.stride + 1
  decide (j < t.rows) && decide (t.base + j * t.stride < e)

/-- Whether two tensors share a byte. -/
def Tensor.overlaps (x y : Tensor) : Bool :=
  (List.range x.rows).any fun i => y.meets (x.base + i * x.stride) (x.base + i * x.stride + x.bytes)

/-- No two tensors overlap unless both are only read. -/
def apart : List Tensor → Bool
  | [] => true
  | t :: r => (r.all fun u => !(t.written || u.written) || !t.overlaps u) && apart r

/-- All tensors lie in banks 0 to 47 and none that is written overlaps another (R184). -/
def tensorsPlaced (ts : List Tensor) : Bool := ts.all Tensor.inBanks && apart ts

/-- An address that is present exactly when it is used, and then a multiple of 64 (R184). -/
def addrFor (used : Bool) (a : Nat) : Bool := if used then isMult 64 a && decide (a < spChanBytes) else absent a

/-- FP32 parameters in ascending order (R177 CLAMP). -/
def clampOk (act : Nat) (p0 p1 : FVal) : Bool := within 0 act 5 && (act != 2 || p0.le p1)

/-- The bytes of an op's parameters that its layout does not name are zero (R510). -/
def named (p : List Byte) (gaps : List (Nat × Nat)) : Bool := gaps.all fun g => zeroRange p g.1 (g.2 + 1 - g.1)

/-- No bit of a byte above `n` bits is set. -/
def bitsBelow (n v : Nat) : Bool := decide (v < 2 ^ n)

/-! ### Matrix ops (R183, R184, R192, R199) -/

/-- Formats of operands and outputs that go together (R169, R175, R177). -/
def meFormats (a b c act : Nat) (plain : Bool) : Bool :=
  within 0 a 8 && within 0 b 8 && (within 0 c 7 || c == 9 || c == 10) && isIntFmt a == isIntFmt b
    && (c != 10 || (isIntFmt a && act == 0 && plain))

/-- MATMUL's ranges. -/
def matmulOk (o : OpRec) : Bool :=
  let p := o.params
  let a := u8 p 0
  let b := u8 p 1
  let c := u8 p 2
  let fl := u8 p 3
  let sparse := fl.testBit 0
  let cin := fl.testBit 1
  let res := fl.testBit 2
  let m := o.p32 8
  let n := o.p32 12
  let k := o.p32 16
  let kb := if sparse then k / 2 else k
  let rowC := elemBytes c n
  let strides := [24, 32, 40, 52, 60, 68, 76, 84].map o.p32
  let fits := fun (used : Bool) (st bytes : Nat) => !used || decide (bytes ≤ o.p32 st)
  let use := fun (used : Bool) (t : Tensor) => if used then [t] else []
  let cs := !absent (o.p32 88)
  let bi := !absent (o.p32 92)
  let mxC := isMx c
  let plane := tensor (o.p32 36 + m * o.p32 40) (o.p32 40 / if c = 6 then 4 else 8) m (n / 32) true
  let tC := tensor (o.p32 36) (o.p32 40) m rowC true
  let tCin := tensor (o.p32 72) (o.p32 76) m (4 * n) false
  let others := [tensor (o.p32 20) (o.p32 24) m (elemBytes a k) false, tensor (o.p32 28) (o.p32 32) n (elemBytes b kb) false,
      vector (o.p32 44) 98368 true]
    ++ use (isMx a) (tensor (o.p32 48) (o.p32 52) m (k / 32) false)
    ++ use (isMx b) (tensor (o.p32 56) (o.p32 60) n (k / 32) false)
    ++ use sparse (tensor (o.p32 64) (o.p32 68) n (cdiv k 8) false)
    ++ use res (tensor (o.p32 80) (o.p32 84) m rowC false)
    ++ use cs (vector (o.p32 88) (4 * n) false) ++ use bi (vector (o.p32 92) (4 * n) false)
  let coincide := o.p32 72 == o.p32 36 && o.p32 76 == o.p32 40 && elemBits c == 32
  within 1 m 1048576 && within 1 n 65536 && within 1 k 65536
    && meFormats a b c (u8 p 4) (!res && !cs && !bi) && clampOk (u8 p 4) (o.pF 96) (o.pF 100)
    && (!sparse || (elemBits a != 16 && elemBits b != 16 && isMult 4 k))
    && (!(isMx a || isMx b) || isMult 32 k)
    && (!mxC || (isMult 32 n && isMult (if c = 6 then 256 else 512) (o.p32 40)))
    && addrFor true (o.p32 20) && addrFor true (o.p32 28) && addrFor true (o.p32 36) && addrFor true (o.p32 44)
    && addrFor (isMx a) (o.p32 48) && addrFor (isMx b) (o.p32 56) && addrFor sparse (o.p32 64) && addrFor cin (o.p32 72)
    && addrFor res (o.p32 80) && (!cs || addrFor true (o.p32 88)) && (!bi || addrFor true (o.p32 92))
    && strides.all (isMult 64 ·)
    && fits true 24 (elemBytes a k) && fits true 32 (elemBytes b kb) && fits true 40 rowC && fits (isMx a) 52 (k / 32)
    && fits (isMx b) 60 (k / 32) && fits sparse 68 (cdiv k 8) && fits cin 76 (4 * n) && fits res 84 rowC
    && tensorsPlaced (tC :: use mxC plane ++ others)
    && (!cin || (tCin.inBanks && (others ++ use mxC plane).all (fun t => !t.written || !t.overlaps tCin)
      && (coincide || !tCin.overlaps tC)))

/-- Whether a stride of pixels and a channel count fit (R192). -/
def pixOk (pix bytes : Nat) : Bool := isMult 16 pix && decide (bytes ≤ pix)

/-- CONV's ranges. -/
def convOk (o : OpRec) : Bool :=
  let p := o.params
  let c := convShape p
  let a := u8 p 0
  let w := u8 p 1
  let f := u8 p 2
  let fl := u8 p 3
  let res := fl.testBit 1
  let sparse := fl.testBit 4
  let remote := fl.testBit 5
  let dims := within 1 c.groups 4096 && within 1 c.ih 16384 && within 1 c.iw 16384 && within 1 c.cin 65535
    && within 1 c.cout 65535 && within 1 c.kh 31 && within 1 c.kw 31 && within 1 c.sh 4 && within 1 c.sw 4
    && within 1 c.dh (if c.transposed then 1 else 4) && within 1 c.dw (if c.transposed then 1 else 4)
    && [c.pt, c.pb, c.pl, c.pr].all (within 0 · 15) && isMult c.groups c.cin && isMult c.groups c.cout
  let positive := if c.transposed then decide (c.pt + c.pb < (c.ih - 1) * c.sh + c.kh)
        && decide (c.pl + c.pr < (c.iw - 1) * c.sw + c.kw)
    else decide (c.dh * (c.kh - 1) < c.ih + c.pt + c.pb) && decide (c.dw * (c.kw - 1) < c.iw + c.pl + c.pr)
  let passK := fun ph => ((c.phase ph).passes.map fun q => c.perTile * c.gi * q.1.length * q.2.length).foldl max 0
  let pix := elemBytes a c.cin
  let outB := elemBytes f c.cout
  let inRun := (c.iw - 1) * u16 p 32 + pix
  let outRun := (c.ow - 1) * u16 p 34 + outB
  let sIn := if a = 6 then 16 else 32
  let sOut := if f = 6 then 16 else 32
  let blk := c.block w sparse
  let use := fun (used : Bool) (t : Tensor) => if used then [t] else []
  let ts := [tensor (o.p32 28) (o.p32 36) c.ih inRun false, tensor (o.p32 40) (o.p32 44) c.oh outRun true,
      vector (o.p32 48) (max (blk.bias + 4 * c.cout) (if remote then o.p32 52 else 0)) remote, vector (o.p32 64) 98368 true]
    ++ use res (tensor (o.p32 68) (o.p32 44) c.oh outRun false)
    ++ use (isMx a) (tensor (o.p32 72) (o.p32 36 / sIn) c.ih ((c.iw - 1) * (u16 p 32 / sIn) + c.cin / 32) false)
    ++ use (isMx f) (tensor (o.p32 40 + c.oh * o.p32 44) (o.p32 44 / sOut) c.oh ((c.ow - 1) * (u16 p 34 / sOut) + c.cout / 32)
        true)
  dims && positive && within 1 (c.oh * c.ow) 1048576
    && meFormats a w f (u8 p 4) (!res) && clampOk (u8 p 4) (o.pF 76) (o.pF 80)
    && (List.range c.phases).all (fun ph => decide (passK ph ≤ 65536))
    && pixOk (u16 p 32) pix && pixOk (u16 p 34) outB && decide (16 ≤ pix)
    && isMult 64 (o.p32 36) && isMult 64 (o.p32 44) && decide (inRun ≤ o.p32 36) && decide (outRun ≤ o.p32 44)
    && (!(isMx a || isMx w) || isMult 32 c.gi) && (!isMx f || isMult 32 c.cout)
    && (!sparse || (decide (16 < c.go) && elemBits a != 16 && elemBits w != 16
      && (List.range c.phases).all fun ph => isMult 4 (c.colK ph)))
    && addrFor true (o.p32 28) && addrFor true (o.p32 40) && addrFor true (o.p32 48) && addrFor true (o.p32 64)
    && addrFor res (o.p32 68) && addrFor (isMx a) (o.p32 72)
    && (if remote then adSpace (BitVec.ofNat 64 (u64 p 56)) == 1 else u64 p 56 == 0) && tensorsPlaced ts

/-! ### Attention (R227, R229, R236) -/

/-- ATTN's ranges. -/
def attnOk (o : OpRec) : Bool :=
  let x := attnShape o
  let p := o.params
  let kvFmt := fun f => within 0 f 7
  let fresh := decide (0 < x.freshN)
  let up := elemBytes x.upf x.lat
  let upAbsent := !x.absorb && x.lat == x.hd
  let qRow := elemBytes x.qf (x.heads * (x.hd + x.posd))
  let oRow := elemBytes x.outF (x.heads * x.hd)
  let fRow := elemBytes x.freshF x.w
  let ukOk := fun a => (upAbsent && absent a) || addrFor true a
  let use := fun (used : Bool) (t : Tensor) => if used then [t] else []
  let saveB := 64 + 256 * (x.dqk + x.dv + 2)
  let ts := [tensor x.q x.qStride x.qrows qRow false, vector x.qinfo (8 * x.qrows) false, vector x.segtab (16 * x.segs) false,
      tensor x.out x.outStride x.qrows oRow true, vector x.save saveB true]
    ++ use (!absent x.uk) (tensor x.uk x.upRow (x.heads * x.hd) up false)
    ++ use (!absent x.uv) (tensor x.uv x.upRow (x.heads * x.hd) up false)
    ++ use fresh (tensor x.fresh x.freshStride x.freshN fRow false)
    ++ use (fresh && isMx x.freshF) (vector (x.fresh + x.freshN * x.freshStride) (x.freshN * (x.w / 32)) false)
    ++ use fresh (vector x.finfo (8 * x.freshN) false) ++ use x.tree (vector x.treeAddr 32 false)
  within 0 x.qf 3 && (within 0 x.outF 2 || x.outF == 9) && (kvFmt x.floor || x.floor == 0xFF) && within 1 x.heads 128
    && (x.upf == 0 || x.upf == 2) && within 64 x.lat 1024 && isMult 32 x.lat && within 0 x.posd 128 && isMult 16 x.posd
    && within 32 x.hd 256 && isMult 32 x.hd && within 1 x.qrows 512 && within 1 x.segs 64
    && kvFmt x.freshF && x.freshF != 7 && within 0 x.freshN 512
    && addrFor true x.q && addrFor true x.qinfo && addrFor true x.segtab && ukOk x.uk && ukOk x.uv
    && (absent x.uk == absent x.uv) && addrFor true x.out && addrFor fresh x.fresh && addrFor fresh x.finfo
    && addrFor x.tree x.treeAddr && addrFor true x.save
    && isMult 64 x.qStride && isMult 64 x.outStride && isMult 64 (u32 p 60) && decide (qRow ≤ x.qStride)
    && decide (oRow ≤ x.outStride) && (!fresh || decide (fRow ≤ x.freshStride))
    && decide (256 * (x.dqk + x.dv + 2) ≤ 589760) && tensorsPlaced ts

/-- GEMV_STREAM's ranges. -/
def gemvOk (o : OpRec) : Bool :=
  let p := o.params
  let w := u8 p 0
  let k := o.p32 12
  let src := fun off => adSpace (BitVec.ofNat 64 (u64 p off)) == 1
  (w == 0 || within 2 w 6) && within 0 (u8 p 1) 2 && (if (u8 p 3).testBit 0 then u8 p 2 == 9 else within 0 (u8 p 2) 2 || u8 p 2 == 9)
    && clampOk (u8 p 4) (o.pF 72) (o.pF 76) && within 1 (u8 p 5) 8 && within 1 (o.p32 8) 262144 && within 32 k 65536 && isMult 32 k
    && src 16 && isMult 64 (o.p32 24) && decide (elemBytes w k ≤ o.p32 24)
    && (if isMx w then src 32 && decide (k / 32 ≤ o.p32 40) else u64 p 32 == 0)
    && isMult 64 (o.p32 48) && isMult 64 (o.p32 56)

/-! ### General-core and PST ops -/

/-- SPACE2DEPTH's and DEPTH2SPACE's ranges (R201, R202). -/
def regroupOk (inverse : Bool) (o : OpRec) : Bool :=
  let p := o.params
  let b := u8 p 2
  let f := u8 p 1
  let h := u16 p 4
  let w := u16 p 6
  let c := u16 p 8
  let pix := !inverse && (u8 p 3).testBit 0
  let inB := fun n => if pix then n else elemBytes (u8 p 0) n
  let oh := if inverse then h * b else h / b
  let ow := if inverse then w * b else w / b
  let oc := if inverse then c / (b * b) else c * b * b
  let run := fun pixel n bytes => (n - 1) * pixel + bytes
  let tIn : Tensor := ⟨o.p32 12, o.p32 16, h, run (u16 p 28) w (inB c), false⟩
  let tOut : Tensor := ⟨o.p32 20, o.p32 24, oh, run (u16 p 30) ow (elemBytes f oc), true⟩
  (b == 2 || b == 4 || b == 8) && (within 0 f 3 || f == 7) && (pix || u8 p 0 == f)
    && (if inverse then isMult (b * b) c else isMult b h && isMult b w) && !tOut.overlaps tIn

/-- TCONV_PREP's ranges (R198). -/
def tconvOk (o : OpRec) : Bool :=
  let p := o.params
  let c := tconvShape p true
  let bytes := fun t => ((tconvShape p t).block (u8 p 0) false).bias + 4 * c.cout
  within 0 (u8 p 0) 8 && within 1 c.kh 31 && within 1 c.kw 31 && within 1 c.sh 4 && within 1 c.sw 4 && within 0 c.pt 15
    && within 0 c.pl 15 && within 1 c.groups 4096 && within 1 c.cin 65535 && within 1 c.cout 65535 && isMult c.groups c.cin
    && isMult c.groups c.cout
    && !(⟨o.p32 20, 0, 1, bytes true, true⟩ : Tensor).overlaps ⟨o.p32 16, 0, 1, bytes false, false⟩

/-- COPY's ranges, given the MODE of the activity's queue (R163). -/
def copyOk (mode : Nat) (o : OpRec) : Bool :=
  let form := u8 o.params 0
  let head := o.p32 4
  within 0 form 1 && mode == form && (if form = 0 then head == 0 else isMult 64 head && decide (head < spChanBytes))

/-- CODEC_CTL's ranges, given the slot's record (R288). -/
def codecCtlOk (encode : Bool) (o : OpRec) : Bool :=
  let p := o.params
  match u8 p 0 with
  | 0 => within 2 (u16 p 28) 32 && within 1 (u8 p 30) 8 && (encode || u16 p 32 == 0)
      && adSpace (BitVec.ofNat 64 (u64 p 8)) == 1 && adSpace (BitVec.ofNat 64 (u64 p 16)) == 1
  | 1 => within 1 (u8 p 8) 64 && within 0 (u8 p 9) 32
  | 2 => within 0 (adSpace (BitVec.ofNat 64 (u64 p 8))) 1
  | 3 => true
  | _ => false

/-- BOXDEC's ranges (R207). -/
def boxdecOk (o : OpRec) : Bool :=
  let p := o.params
  let f := u8 p 0
  (within 0 f 1 || f == 9) && within 0 (u8 p 1) 1 && within 0 (u8 p 2) 1 && within 0 (u8 p 3) 1 && within 1 (u16 p 4) 255
    && within 1 (u8 p 6) 4 && (FVal.zero).le (o.pF 28) && (o.pF 28).le (.ofInt 16) && within 1 (u16 p 52) 4096

/-- NMS_TIDY's ranges (R210). -/
def nmsOk (o : OpRec) : Bool :=
  let p := o.params
  within 0 (u8 p 0) 1 && (FVal.zero).le (o.pF 4) && (o.pF 4).le .one && within 1 (u16 p 24) 4096

/-- SAMPLE's and DRAFT's ranges (R270). -/
def sampleOk (draft : Bool) (o : OpRec) : Bool :=
  let p := o.params
  let f := u8 p 1
  let n := u16 p 2
  let lists := u8 p 32
  let inB := fun a bytes => isMult 64 a && decide (a + bytes ≤ spChanBytes)
  let rows := if draft then 4 * n else 16 * n
  (within 0 f 1 || f == 9) && within 1 n 64 && within 2 (o.p32 4) 262144 && within 0 lists 96
    && isMult 64 (o.p32 16) && decide (elemBytes f (o.p32 4) ≤ o.p32 16) && isMult 64 (o.p32 52)
    && inB (o.p32 8) (256 * n) && inB (o.p32 12) ((rows - 1) * o.p32 16 + elemBytes f (o.p32 4)) && inB (o.p32 20) (256 * n)
    && inB (o.p32 48) (1024 * n) && inB (o.p32 64) (16 * n * o.p32 52)
    && (draft || (inB (o.p32 24) (64 * n * lists) && inB (o.p32 28) (16 * n * lists) && isMult 64 (o.p32 40)
      && inB (o.p32 36) (16 * n * o.p32 40) && inB (o.p32 44) (n * o.p32 40)))
    && adSpace (BitVec.ofNat 64 (u64 p 56)) == 1

/-- RMSNORM's and SWIGLU's ranges (R270). -/
def vecOk (gated : Bool) (o : OpRec) : Bool :=
  let p := o.params
  let f := u8 p 1
  let g := u8 p 2
  let n := o.p32 4
  let len := o.p32 8
  let inB := fun a bytes => isMult 64 a && decide (a + bytes ≤ spChanBytes)
  let rowIn := elemBytes f (if gated then 2 * len else len)
  let rowOut := elemBytes g len
  (within 0 f 1 || f == 9) && (within 0 g 2 || g == 9) && within 1 n 4096 && within 16 len 65536 && isMult 16 len
    && isMult 64 (o.p32 16) && isMult 64 (o.p32 24) && decide (rowIn ≤ o.p32 16) && decide (rowOut ≤ o.p32 24)
    && inB (o.p32 12) ((n - 1) * o.p32 16 + rowIn) && inB (o.p32 20) ((n - 1) * o.p32 24 + rowOut)
    && (gated || inB (o.p32 28) (4 * len))

/-- Whether only BOX_COUNT ranges apply to a CHECK entry, so that its FMT is ignored (R414). -/
def onlyBoxCount (b : Binding) (o : OpRec) (seq : Nat) : Bool :=
  let rs := b.safe.ranges.filter fun r => r.activity == o.activity && r.seq == seq
  !rs.isEmpty && rs.all fun r => r.check == 2

/-- CHECK's ranges (R414). -/
def checkOk (b : Binding) (o : OpRec) : Bool :=
  let n := u8 o.params 0
  within 1 n 2 && (List.range n).all fun i =>
    let e := checkEntry o i
    let f := u8 e 1
    (within 0 f 1 || f == 9 || f == 10 || onlyBoxCount b o (u8 e 0)) && within 1 (u16 e 2) 4096 && within 1 (u32 e 4) 262144
      && isMult 64 (u32 e 12)

/-- DIGEST's ranges (R430). -/
def digestOk (o : OpRec) : Bool :=
  within 1 (u8 o.params 1) 4 && (List.range (u8 o.params 1)).all fun i =>
    let n := u32 o.params (20 + 8 * i)
    within 64 n 8388608 && isMult 64 n

/-! ### One op -/

/-- The unnamed bytes of an op's parameters, as first and last offsets (the parameter table of each opcode). -/
def opGaps (o : OpRec) : List (Nat × Nat) :=
  match o.opcode with
  | 0x0101 => [(5, 7), (104, 111)]
  | 0x0102 => [(5, 5), (26, 27), (84, 111)]
  | 0x0201 => [(53, 53), (76, 111)]
  | 0x0202 => [(6, 7), (28, 31), (80, 111)]
  | 0x0301 => [(1, 3), (8, 47)]
  | 0x0302 | 0x0303 => [(10, 11), (40, 47)]
  | 0x0304 => [(7, 7), (14, 15), (24, 47)]
  | 0x0305 => [(1, 3), (12, 47)]
  | 0x0306 => match u8 o.params 0 with
    | 0 => [(2, 7), (31, 31), (34, 47)]
    | 1 => [(2, 3), (10, 47)]
    | 2 => [(2, 7), (20, 47)]
    | _ => [(2, 47)]
  | 0x0401 => [(54, 111)]
  | 0x0402 => [(1, 3), (26, 47)]
  | 0x0403 => if u8 o.params 0 < 2 then [(33, 35), (68, 111)] else [(36, 47)]
  | 0x0404 => [(1, 3), (44, 47)] ++ (List.range 2).map fun i =>
      if i < u8 o.params 0 then (20 + 20 * i, 23 + 20 * i) else (4 + 20 * i, 23 + 20 * i)
  | 0x0405 => [(2, 15)] ++ if u8 o.params 1 < 4 then [(16 + 8 * u8 o.params 1, 47)] else []
  | 0x0501 => [(10, 47)]
  | _ => []

/-- The flag byte of an op's parameters and how many of its bits have a meaning. -/
def opFlagBits (o : OpRec) : Option (Nat × Nat) :=
  match o.opcode with
  | 0x0101 => some (3, 5)
  | 0x0102 => some (3, 6)
  | 0x0201 => some (3, 6)
  | 0x0202 => some (3, 4)
  | 0x0302 => some (3, 2)
  | 0x0303 => some (3, 2)
  | 0x0401 => some (7, 1)
  | 0x0403 => if u8 o.params 0 < 2 then none else some (3, 2)
  | 0x0501 => some (9, 1)
  | _ => none

/-- Reserved bytes and bits of an op's parameters are zero (R509, R510). -/
def opReservedOk (o : OpRec) : Bool :=
  named o.params (opGaps o)
    && (match opFlagBits o with
      | some (at', n) => bitsBelow n (u8 o.params at')
      | none => true)
    && !(o.opcode == 0x0303 && (u8 o.params 3).testBit 0)

/-- PARAM_RECORDS of each opcode. -/
def opParamRecords (o : OpRec) : Nat :=
  match o.opcode with
  | 0x0101 | 0x0102 | 0x0201 | 0x0202 | 0x0401 | 0x0501 => 1
  | 0x0301 => if u8 o.params 0 = 0 then 1 else 0
  | 0x0403 => if u8 o.params 0 < 2 then 1 else 0
  | _ => 0

/-- The opcodes of R98 with the resource class of their primary resource. -/
def opClass : Nat → Option Nat
  | 0x0101 | 0x0102 => some 1
  | 0x0201 | 0x0202 => some 2
  | 0x0301 | 0x0302 | 0x0303 | 0x0304 | 0x0305 | 0x0306 => some 3
  | 0x0401 | 0x0402 | 0x0403 | 0x0404 | 0x0405 => some 4
  | 0x0501 => some 8
  | _ => none

/-- The CODC record of a slot of a channel. -/
def Binding.codcAt (b : Binding) (ch slot : Nat) : Option CodcRec :=
  b.codc.find? fun r => r.channel == ch && r.slot == slot

/-- The ranges and rules of an op's parameters; 0 when they hold. -/
def opParamCode (b : Binding) (o : OpRec) : Nat :=
  let rng := fun (ok : Bool) => if ok then 0 else eRange
  match o.opcode with
  | 0x0101 => rng (matmulOk o)
  | 0x0102 => rng (convOk o)
  | 0x0201 => firstBad [(attnOk o, eRange), (!(attnShape o).cache || !b.leaf.isEmpty, eReference)]
  | 0x0202 => rng (gemvOk o)
  | 0x0301 => rng (copyOk (b.dq o.activity).mode o)
  | 0x0302 => rng (regroupOk false o)
  | 0x0303 => rng (regroupOk true o)
  | 0x0304 => rng (tconvOk o)
  | 0x0305 => rng (within 1 (u8 o.params 0) 64)
  | 0x0306 => match b.codcAt (o.activity / 16) (u8 o.params 1) with
    | some r => firstBad [(r.activity == o.activity, eReference), (codecCtlOk (r.direction == 1) o, eRange)]
    | none => eReference
  | 0x0401 => rng (boxdecOk o)
  | 0x0402 => rng (nmsOk o)
  | 0x0403 => match u8 o.params 0 with
    | 0 => rng (sampleOk false o)
    | 1 => rng (sampleOk true o)
    | 2 => rng (vecOk false o)
    | 3 => rng (vecOk true o)
    | _ => eRange
  | 0x0404 => rng (checkOk b o)
  | 0x0405 => firstBad [(b.safe.digests.contains (u8 o.params 0), eReference), (digestOk o, eRange)]
  | 0x0501 => firstBad [((b.resultOf o.activity).isSome && u8 o.params 8 / 16 == o.activity / 16, eReference)]
  | _ => eRange

/-- An op's head record: reserved bits, ranges, then its parameters (R97, R98, R509). -/
def opCode (b : Binding) (head : List Byte) (o : OpRec) : Nat :=
  firstBad
    [(zeroRange head 8 8 && bitsBelow 3 o.flags, eReserved), (opReservedOk o, eReserved),
     (within 0 o.activity 95 && within 0 o.seq 254, eRange), ((opClass o.opcode).isSome, eRange),
     (o.paramRecords == opParamRecords o, eRange), (within 0 o.depActivity 95 || o.depActivity == 0xFF, eRange),
     (opParamCode b o == 0, opParamCode b o)]

end Sys2Proof.Machine
end

