-- ==== Sys2Proof/Machine/BindRecords.lean ====
section
/-! DEFINITION. Stage 7 of validation for the gatherings CHAN to OPS: each record's reserved bits, ranges, own rules and key, then
the rules of the gathering as a whole (R69, R79 to R99, R509, R510). -/

namespace Sys2Proof.Machine

def ePlanUnpowered : Nat := 0x708
def eLockGroup : Nat := 0x70C
def eRecordOrder : Nat := 0x712

/-- The record index that names no record (R71). -/
def noRec : Nat := 0xFFFFFFFF

/-- Named gaps of a record hold zero. -/
def gaps (r : List Byte) (gs : List (Nat × Nat)) : Bool × Nat := (named r gs, eReserved)

/-- A range condition. -/
def rngOk (ok : Bool) : Bool × Nat := (ok, eRange)

/-! ### Master identities and FIFO numbers -/

/-- The master identities that are not reserved (R122). -/
def masterId (m : Nat) : Bool := within 1 m 9 || within 0x10 m 0x12 || within 0x20 m 0x37 || m == 0x40 || m == 0x41

/-- What an identity needs of the binding: a general core's channel and bit, a virtual function's tenant (R89). -/
def masterBound (b : Binding) (m : Nat) : Bool :=
  match gcChan m, vfOf m with
  | some ch, _ => (b.chanRec ch).enable == 1 && (b.chanRec ch).gcMask.testBit (m % 4)
  | _, some k => (b.tentOfVf k).isSome
  | _, _ => true

/-- Event codes that are not reserved (R391). -/
def eventListed (c : Nat) : Bool :=
  within 0 c 0x0C || within 0x10 c 0x16 || within 0x20 c 0x25 || within 0x30 c 0x34 || within 0x40 c 0x44 || within 0x50 c 0x56
    || within 0x60 c 0x6B || within 0x70 c 0x72 || within 0x78 c 0x7C || within 0x80 c 0x8A || within 0x90 c 0x97
    || within 0xA0 c 0xAB || within 0xB0 c 0xB9 || within 0xC0 c 0xC8 || within 0xD0 c 0xD6 || within 0xE0 c 0xFE

/-! ### One record -/

/-- CHAN (R81). -/
def chanCode (r : List Byte) : Nat :=
  let c := parseChan r
  firstBad
    [(bitsBelow 4 c.gcMask && bitsBelow 8 c.domains, eReserved), gaps r [(6, 15), (48, 71)],
     rngOk (within 0 c.channel 5), rngOk (within 0 c.enable 1), rngOk (within 0 c.lockGroup 5 || c.lockGroup == 0xFF),
     rngOk (c.enable == 1 || c.domains == 0), rngOk (c.domains.testBit 2 == (c.gcMask != 0))]

/-- MEMX (R82, R83). -/
def memxCode (r : List Byte) : Nat :=
  let m := parseMemx r
  let k := m.kind
  let spill := k == 5 || k == 6
  firstBad
    [(bitsBelow 2 m.flags && bitsBelow 6 m.readers, eReserved), gaps r [(7, 7), (20, 31)],
     rngOk (within 0 m.region 1023), rngOk (within 0 k 7), rngOk (if spill then m.channel == 0xFF else within 0 m.channel 5),
     rngOk (within 0 m.tenant 8), rngOk (decide (1 ≤ m.size)),
     rngOk (if k = 5 then within 0 m.link 15 else if k = 6 then within 0 m.link 5 else m.link == 0),
     (k == 0 || !m.flags.testBit 0, eGrant), rngOk (!(k == 0 || k == 7) || m.tenant == 0),
     rngOk (k != 1 || m.flags.testBit 1), (k != 4 || m.size == 64, eMemory),
     (spill || decide (m.base + m.size ≤ 10922), eMemory)]

/-- LEAF (R84). -/
def leafCode (r : List Byte) : Nat :=
  let l := parseLeaf r
  let g := l.kind == 0
  firstBad
    [gaps r [(16, 31)], rngOk (within 0 l.kind 1), rngOk (if g then l.tenant == 0 else within 1 l.tenant 8),
     rngOk (if g then within 0 l.mapRegion 1023 else l.mapRegion == 0), rngOk (!g || within 0 l.prefetchLead 4),
     rngOk (!g || within 50 l.spillHigh 99), rngOk (!g || (within 10 l.spillLow 99 && decide (l.spillLow + 5 ≤ l.spillHigh))),
     rngOk (!g || within 0 l.tierOrder 3)]

/-- TENT (R85). -/
def tentCode (r : List Byte) : Nat :=
  let t := parseTent r
  firstBad
    [(bitsBelow 6 t.channels, eReserved), gaps r [(4, 15)], rngOk (within 1 t.tenant 8), rngOk (within 1 t.vf 8),
     rngOk (within 0 t.slotBase 28 && isMult 4 t.slotBase)]

/-- PAIR (R86); `priN` is the level of the strap. -/
def pairCode (priN : Bool) (r : List Byte) : Nat :=
  let p := parsePair r
  firstBad
    [gaps r [(2, 3), (12, 63)], rngOk (p.ring == if priN then 1 else 0), rngOk (within 0 p.startRole 1),
     rngOk (p.revertHoldoff == 0 || within 10 p.revertHoldoff 86400), rngOk (within 0 p.swapPeriod 8760)]

/-- NETW (R87, R307). -/
def netwCode (r : List Byte) : Nat :=
  match u8 r 0 with
  | 0 =>
    let g := parseGlobal r
    firstBad
      [gaps r [(10, 11), (16, 63)], rngOk (within 0 g.discSrc 3), rngOk (within 0 g.ptpPort 3), rngOk (within 0 g.ptpDomain 127),
       rngOk (g.markerLead == 0 || within 400 g.markerLead 10000), rngOk (g.lateWindow == 0 || within 16 g.lateWindow 4096),
       rngOk (within 0 g.admitTicks 1000000)]
  | 1 =>
    let p := parsePort r
    firstBad
      [gaps r [(3, 3), (6, 7), (13, 13), (16, 63)], rngOk (within 0 p.port 3), rngOk (within 0 p.mode 2), rngOk (within 0 p.vlan 4094),
       rngOk (within 8 p.pfxLen 30), rngOk (within 1500 p.mtu 9000)]
  | 2 =>
    let f := parseFlow r
    firstBad
      [gaps r ([(10, 11), (20, 63)] ++ if f.proto = 0 then [(12, 13)] else []), rngOk (within 0 f.port 3), rngOk (within 0 f.proto 2),
       rngOk (if f.proto = 0 then f.codecSlot == 0xFF else within 0 f.codecSlot 7),
       rngOk (f.calSet == 0xFF || (within 0 f.calSet 15 && f.proto == 0))]
  | 3 =>
    let q := parseResult r
    firstBad [gaps r [(12, 63)], rngOk (within 0 q.port 3)]
  | 4 =>
    let m := parseMember r
    firstBad
      [gaps r [(5, 15), (32, 63)], rngOk (within 0 m.index 5), rngOk (within 0 m.succession 5), rngOk (within 0 m.startRole 1),
       rngOk (within 0 m.buddy 5 || m.buddy == 0xFF)]
  | 5 =>
    let l := parseLink r
    firstBad [gaps r [(4, 15), (32, 63)], rngOk (within 0 l.port 1), rngOk (within 0 l.farRing 1), rngOk (within 0 l.farPort 1)]
  | 6 =>
    let q := parseRoute r
    firstBad [gaps r [(5, 63)], rngOk (within 1 q.lane 31), rngOk (within 0 q.direction 2)]
  | 7 =>
    let g := parseGroup r
    firstBad [gaps r [(4, 63)], rngOk (within 0 g.localGroup 5), rngOk (decide (1 ≤ g.groupId))]
  | _ => eRange

/-- MBOX (R89, R510). -/
def mboxCode (b : Binding) (r : List Byte) : Nat :=
  let m := parseMbox r
  let used := m.enable == 1
  firstBad
    [(m.enable != 0 || named r [(2, 3)], eReserved), gaps r [(4, 15)], rngOk (within 0 m.mailbox 31), rngOk (within 0 m.enable 1),
     rngOk (!used || masterId m.masterA), rngOk (!used || (masterId m.masterB && m.masterA != m.masterB)),
     (!used || masterBound b m.masterA, eReference), (!used || masterBound b m.masterB, eReference)]

/-- The FIFOs a queue may name (R155). -/
def fifoListed (f : Nat) : Bool := within 0 f 3 || within 0x10 f 0x1F || within 0x20 f 0x23

/-- DMAQ (R90, R155, R510). -/
def dmaqCode (b : Binding) (i : Nat) (r : List Byte) : Nat :=
  let d := parseDmaq r
  let paced := d.paceFifo != 0xFF
  if d.used = 0 then (if named r [(0, 31)] then 0 else eReserved)
  else firstBad
    [(bitsBelow 6 d.remote, eReserved), gaps r [(10, 15)], rngOk (d.used == 1), rngOk (within 0 d.tenant 8),
     rngOk (match b.tentOf d.tenant with
       | some t => t.channels.testBit (i / 16)
       | none => true),
     rngOk (within 0 d.mode 1), rngOk (!paced || fifoListed d.paceFifo), rngOk (!paced || decide (d.paceHigh ≤ fifoCap d.paceFifo)),
     rngOk (!paced || decide (d.paceLow < d.paceHigh)), rngOk (within 0 d.ringLane 31)]

/-- LOAN (R91, R92). -/
def loanCode (b : Binding) (r : List Byte) : Nat :=
  let l := parseLoan r
  let queue := fun q => within 0 q 15 || q == 0xFF
  let own := fun o (sh : Nat) => o == 0xFF || !sh.testBit o
  let held := l.ownerEven != 0xFF || l.ownerOdd != 0xFF
  firstBad
    [(bitsBelow 1 l.flags, eReserved), gaps r [(6, 7), (12, 15)], rngOk (within 0 l.channel 5), rngOk (within 0 l.bank 47),
     rngOk (within 1 l.phases 2), rngOk (queue l.ownerEven), rngOk (queue l.ownerOdd && (l.phases == 2 || l.ownerOdd == l.ownerEven)),
     rngOk (own l.ownerEven l.shareEven), rngOk (own l.ownerOdd l.shareOdd),
     (!(held && decide (24 ≤ l.bank)) || (b.chanRec l.channel).domains.testBit 7, ePlanUnpowered)]

/-- CNTR (R93, R391, R392). -/
def cntrCode (b : Binding) (r : List Byte) : Nat :=
  let c := parseCntr r
  let chn := c.scopeKind == 0
  firstBad
    [(bitsBelow 2 c.mode, eReserved), gaps r [(7, 15)], rngOk (within 0 c.scopeKind 1),
     rngOk (if chn then within 0 c.channel 5 else c.channel == 0), rngOk (within 0 c.index (if chn then 15 else 31)),
     rngOk (eventListed c.event), rngOk (!chn || channelKind c.event),
     (c.scope == 0xFF || b.hasAct c.scope, eReference), (!chn || (b.chanRec c.channel).enable == 1, eReference)]

/-- Directions, codecs, profiles and levels of R281. -/
def codecListed (c : CodcRec) : Bool :=
  if c.direction = 0 then
    if c.codec = 0 then (c.profileIdc == 66 || c.profileIdc == 77 || c.profileIdc == 100) && within 0 c.levelIdc 51
    else within 1 c.profileIdc 2 && within 0 c.levelIdc 153
  else c.codec == 1 && c.profileIdc == 1 && within 0 c.levelIdc 153

/-- CODC (R94, R281). -/
def codcCode (b : Binding) (r : List Byte) : Nat :=
  let c := parseCodc r
  let d := (b.chanRec c.channel).domains
  firstBad
    [(bitsBelow 1 c.flags, eReserved), gaps r [(20, 31)], rngOk (within 0 c.channel 5 && d.testBit 3 && d.testBit 4),
     rngOk (within 0 c.slot 7), rngOk (within 0 c.direction 1), rngOk (within 0 c.codec 1), rngOk (within 0 c.priority 7),
     rngOk (within 64 c.maxWidth 3840), rngOk (within 64 c.maxHeight 2160), rngOk (within 1 c.maxFps 60),
     rngOk (within 1 c.refPics 16), rngOk (if c.direction = 1 then within 0 c.targetQp 51 else c.targetQp == 0),
     rngOk (c.direction == 1 || c.rateCap == 0), rngOk (codecListed c)]

/-- The channel that holds the leaf map (R242). -/
def Binding.mapChannel (b : Binding) : Option Nat := (b.memx.find? fun r => r.kind == 4).map (·.channel)

/-- POWR in its own order (R95, R441). -/
def powrCode (s : State) (b : Binding) (r : List Byte) : Nat :=
  let p := parsePowr r
  let k := s.keep
  let fused := fun v f => if v = 0 then f else v
  let cells : List (Nat × Nat) := (List.range 5).flatMap fun q => (List.range 6).map fun n => (q, n)
  let dom := fun q n => p.profileDomains.getD (6 * q + n) 0
  let on := fun q n => (p.profileChannels.getD q 0).testBit n
  let pw := fun (ok : Bool) => (ok, ePower)
  firstBad
    [gaps r [(2, 3), (22, 23), (30, 31), (37, 39), (70, 239)],
     (bitsBelow 5 p.profileMask && p.profileChannels.all (bitsBelow 6 ·), eReserved),
     (decide (p.tWarn ≤ k.tWarn), eGrant), (decide (p.tHot ≤ k.tHot), eGrant), (decide (p.tCrit ≤ k.tCrit), eGrant),
     pw (within 0 p.startProfile 4), pw ((List.range 6).all fun n => p.shedOrder.contains n),
     pw (within 120 p.capStart 650), pw (within 120 p.safeCap 650), pw (within 100 p.capTimeout 600000),
     pw (cells.all fun c => dom c.1 c.2 &&& (b.chanRec c.2).domains == dom c.1 c.2),
     pw (p.profileMask.testBit 4 && p.profileMask.testBit p.startProfile),
     pw (decide (fused p.tWarn k.tWarn < fused p.tHot k.tHot) && decide (fused p.tHot k.tHot < fused p.tCrit k.tCrit)
       && decide (fused p.tCrit k.tCrit < k.tTrip)),
     pw (cells.all fun c => if on c.1 c.2 then (b.chanRec c.2).enable == 1 else dom c.1 c.2 == 0),
     pw (cells.all fun c => (dom c.1 c.2).testBit 3 == (dom c.1 c.2).testBit 4),
     pw (match b.mapChannel with
       | some m => (List.range 5).all fun q => (dom q m).testBit 6
       | none => true)]

/-- SAFE (R96); `dflt` is DIGEST_INTERVAL. -/
def safeCode (b : Binding) (r : List Byte) : Nat :=
  match u8 r 0 with
  | 0 => firstBad [gaps r [(2, 3), (8, 63)], rngOk (within 0 (u8 r 1) 3)]
  | 1 =>
    let q := parseRange r
    firstBad
      [gaps r [(5, 7), (16, 63)], rngOk (within 0 q.check 3), rngOk (within 0 q.action 1), rngOk ((FVal.ofW q.lo).le (FVal.ofW q.hi))]
  | 2 =>
    let c := parseCopy r
    firstBad
      [gaps r [(3, 3), (6, 7), (12, 63)], rngOk (match b.region c.region with
         | some m => m.kind == 1
         | none => true), rngOk (decide (1 ≤ c.group)), rngOk (c.interval != 0 || b.safe.digestInterval != 0)]
  | 3 => firstBad [gaps r [(2, 63)]]
  | _ => eRange

/-- The check of one record of a gathering other than OPS and PLAN. -/
def recCode (s : State) (b : Binding) (g : Gath) (i : Nat) (r : List Byte) : Nat :=
  match g with
  | .chan => chanCode r
  | .memx => memxCode r
  | .leaf => leafCode r
  | .tent => tentCode r
  | .pair => pairCode s.start.priN r
  | .netw => netwCode r
  | .mbox => mboxCode b r
  | .dmaq => dmaqCode b i r
  | .loan => loanCode b r
  | .cntr => cntrCode b r
  | .codc => codcCode b r
  | .powr => powrCode s b r
  | .safe => safeCode b r
  | .ops => 0
  | .plan => 0

/-- The key of a record, and whether two records of one key are refused (R79). -/
def recKey (g : Gath) (i : Nat) (r : List Byte) : Nat × Bool :=
  match g with
  | .chan | .tent | .mbox => (u8 r 0, true)
  | .memx => (u16 r 0, true)
  | .leaf => (256 * u8 r 0 + u8 r 1, true)
  | .netw => (256 * u8 r 0 + if u8 r 0 = 0 then 0 else u8 r 1, true)
  | .loan | .codc => (256 * u8 r 0 + u8 r 1, true)
  | .cntr => (65536 * u8 r 0 + 256 * u8 r 1 + u8 r 2, true)
  | .safe => (u8 r 0, false)
  | _ => (i, true)

/-- The first record that fails, with its code and index: each is checked, then its key against the one before (R509). -/
def scanRecs (check : Nat → List Byte → Nat) (key : Nat → List Byte → Nat × Bool) : Nat → Option Nat → List (List Byte) →
    Option (Nat × Nat)
  | _, _, [] => none
  | i, prev, r :: rs =>
    let c := check i r
    let k := key i r
    let inOrder := match prev with
      | none => true
      | some p => decide (p < k.1) || (!k.2 && p == k.1)
    if c ≠ 0 then some (c, i)
    else if !inOrder then some (eRecordOrder, i)
    else scanRecs check key (i + 1) (some k.1) rs

/-! ### Whole gatherings -/

/-- The first index of a list at which a property of what came before and the element fails. -/
def firstIdx {α : Type} (bad : List α → α → Bool) : List α → Nat → List α → Option Nat
  | _, _, [] => none
  | seen, i, x :: r => if bad seen x then some i else firstIdx bad (seen ++ [x]) (i + 1) r

/-- A whole-gathering failure: its code with the record it names. -/
def wholeBad (ok : Bool) (code : Nat) : Option (Nat × Nat) := if ok then none else some (code, noRec)

/-- A failure at the first record that a property finds. -/
def recBad (code : Nat) (i : Option Nat) : Option (Nat × Nat) := i.map fun k => (code, k)

/-- The limits of RECORD_COUNT (R79). -/
def recLimits : Gath → Nat × Nat
  | .chan => (6, 6)
  | .memx => (1, 1024)
  | .leaf => (1, 9)
  | .tent => (1, 8)
  | .pair => (1, 1)
  | .netw => (1, 512)
  | .mbox => (32, 32)
  | .dmaq => (96, 96)
  | .loan => (288, 288)
  | .cntr => (1, 128)
  | .codc => (1, 48)
  | .powr => (1, 1)
  | .safe => (1, 512)
  | .ops => (1, 32768)
  | .plan => (0, 0xFFFFFFFF)

/-- The number of records of a KIND. -/
def kindCount (rs : List (List Byte)) (k : Nat) : Nat := (ofKind k rs).length

/-- Whether two regions share storage: granules of one channel, or spill slots of one window or lender (R83). -/
def regionsMeet (x y : MemxRec) : Bool :=
  let same := if x.granular then y.granular && x.channel == y.channel else x.kind == y.kind && x.link == y.link
  same && decide (x.base < y.base + y.size) && decide (y.base < x.base + x.size)

/-- The place of a member in ring order and its neighbours' accession numbers: east, west (R321). -/
def ringNeighbours (n : Netw) (own : List Byte) : Option (List Byte × List Byte) :=
  let ms := n.members.map (·.accession)
  let i := ms.findIdx (· == own)
  if i < ms.length then some (ms.getD ((i + 1) % ms.length) [], ms.getD ((i + ms.length - 1) % ms.length) []) else none

/-- The LINK records agree with ring order (R321). -/
def linksAgree (n : Netw) (own : List Byte) : Bool :=
  match ringNeighbours n own with
  | none => false
  | some (east, west) => n.links.all fun l =>
      if l.port = 0 then l.farAccession == east && l.farPort == 1 else l.farAccession == west && l.farPort == 0

/-- Whether an IPv4 destination is multicast. -/
def isMulticast (ip : Nat) : Bool := ip / 2 ^ 28 == 0xE

/-- NETW as a whole (R87, R88, R301, R304, R315, R321); indices count all NETW records. -/
def netwWhole (s : State) (n : Netw) (rs : List (List Byte)) : Option (Nat × Nat) :=
  let portOn := fun p => match n.ports.find? fun x => x.port == p with
    | some r => r.mode != 0
    | none => false
  let kinds := fun (r : List Byte) => u8 r 0
  let limits := [(0, 1, 1), (1, 0, 4), (2, 0, 256), (3, 0, 96), (4, 0, 6), (5, 0, 2), (6, 0, 31), (7, 0, 6)]
  let pairsOf := fun (l : List (List Byte)) => ((l.filter fun r => kinds r == 2).flatMap fun r =>
    [(u8 r 2, u8 r 16), (u8 r 2, u8 r 17)]).eraseDups
  wholeBad (limits.all fun l => within l.2.1 (kindCount rs l.1) l.2.2) eRange
  <|> (if n.glob.discSrc = 1 && !portOn n.glob.ptpPort then some (eReference, 0) else none)
  <|> wholeBad (n.members.isEmpty || n.members.any fun m => m.accession == s.keep.accession) eReference
  <|> (if n.members.isEmpty then recBad eReference (rs.findIdx? fun r => kinds r == 5 || kinds r == 6) else none)
  <|> recBad eShared (firstIdx (fun seen r => kinds r == 3 && seen.any fun q => kinds q == 3 && u8 q 3 &&& u8 r 3 != 0) [] 0 rs)
  <|> recBad eReference (rs.findIdx? fun r => (kinds r == 2 || kinds r == 3) && !portOn (u8 r 2))
  <|> recBad eRange (firstIdx (fun seen r => decide (48 < (pairsOf (seen ++ [r])).length)) [] 0 rs)
  <|> recBad eRange (rs.findIdx? fun r => kinds r == 3 && (
        let q := parseResult r
        match n.ports.find? fun x => x.port == q.port with
        | some p => !isMulticast q.dstIp && q.dstIp / 2 ^ (32 - p.pfxLen) != p.ipv4 / 2 ^ (32 - p.pfxLen)
        | none => false))
  <|> wholeBad (n.members.isEmpty || (decide (2 ≤ n.members.length) && n.links.length == 2 && linksAgree n s.keep.accession))
        eReference

/-- The rules of a gathering as a whole, after its record count (R509 step 3). -/
def wholeCode (s : State) (b : Binding) (g : Gath) (rs : List (List Byte)) : Option (Nat × Nat) :=
  let lim := recLimits g
  wholeBad (within lim.1 rs.length lim.2) eRange
  <|> match g with
    | .chan => recBad eLockGroup (firstIdx (fun seen (x : ChanRec) => x.lockGroup != 0xFF && seen.any fun y =>
        y.lockGroup == x.lockGroup && !(y.domains == x.domains && y.gcMask == x.gcMask)) [] 0 b.chan)
    | .memx => recBad eMemory (firstIdx (fun seen x => seen.any (regionsMeet x ·)) [] 0 b.memx)
        <|> recBad eMemory (firstIdx (fun seen x => x.kind == 4 && seen.any fun y => y.kind == 4) [] 0 b.memx)
    | .leaf => wholeBad (kindCount rs 0 == 1) eRange
        <|> wholeBad (decide (((b.leaf.filter fun l => l.kind == 1).map (·.minLeaves)).sum
              ≤ ((b.memx.filter fun m => m.kind == 3).map fun m => 256 * m.size).sum)) eMemory
    | .tent => recBad eRange (firstIdx (fun seen (x : TentRec) => seen.any fun y => y.vf == x.vf || y.slotBase == x.slotBase) [] 0 b.tent)
    | .netw => netwWhole s b.netw rs
    | .codc => recBad eRange (firstIdx (fun seen (x : CodcRec) => x.flags.testBit 0
          && decide (2 ≤ (seen.filter fun y => y.channel == x.channel && y.flags.testBit 0).length)) [] 0 b.codc)
        <|> recBad eRange (firstIdx (fun seen (x : CodcRec) =>
              !slotsFit false ((seen ++ [x]).filter fun y => y.channel == x.channel)) [] 0 b.codc)
    | .safe => wholeBad (kindCount rs 0 == 1 && decide (kindCount rs 1 ≤ 384) && decide (kindCount rs 2 ≤ 96)
        && decide (kindCount rs 3 ≤ 96)) eRange
    | _ => none

/-! ### OPS (R97 to R99) -/

/-- Ops one at a time: each op's own checks, its key, and consecutive SEQ (R79, R97). -/
def scanOps (b : Binding) (rs : List (List Byte)) : Option OpRec → List (Nat × OpRec) → Option (Nat × Nat)
  | _, [] => none
  | prev, (i, o) :: r =>
    let c := opCode b (rs.getD i []) o
    let next := match prev with
      | some p => if p.activity = o.activity then p.seq + 1 else 0
      | none => 0
    let inOrder := match prev with
      | some p => decide (256 * p.activity + p.seq < 256 * o.activity + o.seq)
      | none => true
    if c ≠ 0 then some (c, i)
    else if !inOrder then some (eRecordOrder, i)
    else if o.seq ≠ next then some (eRange, i)
    else scanOps b rs (some o) r

/-- OPS: its ops, then LAST only on an activity's highest SEQ (R99), then the record count. -/
def opsCode (b : Binding) (rs : List (List Byte)) : Option (Nat × Nat) :=
  let ops := opsIdx rs
  scanOps b rs none ops
  <|> recBad eRange ((ops.find? fun x => x.2.last && b.ops.any fun y =>
        y.activity == x.2.activity && decide (x.2.seq < y.seq)).map (·.1))
  <|> wholeBad (within 1 rs.length 32768) eRange

end Sys2Proof.Machine
end

