-- ==== Sys2Proof/Machine/BindPlan.lean ====
section
/-! DEFINITION. Stage 7 of validation for PLAN, and the constraints between gatherings (R25 to R36, R51, R100 to R105, R145, R334,
R347, R414, R430). -/

namespace Sys2Proof.Machine

def ePlanOverlap : Nat := 0x706
def ePlanOwner : Nat := 0x707
def ePlanLength : Nat := 0x709
def eStretch : Nat := 0x70A
def eTickSource : Nat := 0x70B
def eRingSize : Nat := 0x70D
def ePlanMissing : Nat := 0x711

/-- The record numbers of PLAN items that are not reservations (R71). -/
def commonRec : Nat := 0xFFFFFF00
def headerRec (b : Nat) : Nat := 0xFFFFFE00 + b
def actRec (b a : Nat) : Nat := 0xFFFE0000 + 0x100 * b + a

/-! ### The common section and the blocks' records -/

/-- The common section (R25 to R27, R51, R101). -/
def commonCode (s : State) (b : Binding) (raw : List Byte) : Nat :=
  let c := b.plan.common
  let enc := c.source == 2
  let own := b.netw.members.find? fun m => m.accession == s.keep.accession
  let ts := fun (ok : Bool) => (ok, eTickSource)
  firstBad
    [(bitsBelow 2 c.toFlags && zeroRange raw 50 30, eReserved), rngOk (within 0 c.source 3),
     ts (if enc then within 0 c.encEdge 2 else c.encEdge == 0), ts (enc || c.encDeb == 0),
     ts (if enc then within 1 c.encDiv 1048576 else c.encDiv == 0),
     ts (if enc then within 2500 c.encMaxGap 125000000 else c.encMaxGap == 0),
     ts (within 0 c.toDiv 65536), ts (c.toDiv == 0 || within 0 c.toOffset 1048575), ts (c.toDiv == 0 || within 1 c.toWidth 131071),
     ts (c.source == 1 || c.epoch == 0), rngOk (within 5 (u16 raw 48) 35),
     ts (c.source != 1 || b.netw.glob.discSrc == 1 || b.netw.glob.discSrc == 2),
     ts (c.source != 3 || (match own with
       | some m => m.succession != 0
       | none => false))]

/-- A block's plan header (R25, R27, R35, R51, R102). -/
def headerCode (b : Binding) (h : List Byte) (p : PlanBlock) : Nat :=
  let c := b.plan.common
  firstBad
    [(zeroRange h 3 1 && zeroRange h 12 4 && zeroRange h 40 24, eReserved), rngOk (within 0 p.kind 1),
     rngOk (if p.kind = 0 then p.benchedCh == 0xFF else within 0 p.benchedCh 5),
     (within 2500 p.periodMin 125000000, eTickSource),
     (p.maxStretchRaw == 0xFFFFFFFF || decide (2 * p.maxStretchRaw ≤ p.periodMin), eStretch),
     (c.source != 2 || decide (p.periodMin < c.encMaxGap), eTickSource),
     (c.toDiv == 0 || decide (c.toOffset < p.periodMin), eTickSource)]

/-- An activity record (R37, R102). -/
def actRecCode (h : List Byte) (a : Nat) : Nat :=
  let r := slice h (64 + 16 * a) 16
  firstBad [(bitsBelow 2 (u8 r 1) && zeroRange r 2 14, eReserved), rngOk (within 0 (u8 r 0) 2)]

/-- The instances of a resource class (R31). -/
def instOk (cls inst : Nat) : Bool :=
  match cls with
  | 1 | 2 | 4 | 10 => inst == 0
  | 3 | 11 => within 0 inst 3
  | 5 | 6 => within 0 inst 7
  | 7 => within 0 inst 5
  | 8 => within 0 inst 5 || within 0x10 inst 0x12
  | 9 => within 1 inst 31
  | _ => false

/-- A reservation (R30, R31, R102). -/
def resCode (p : PlanBlock) (ch : Nat) (raw : List Byte) : Nat :=
  let r := parseRes ch raw
  firstBad
    [([0, 4, 8].all fun o => decide (u32 raw o < 2 ^ 28), eReserved), rngOk (decide (1 ≤ r.length)),
     rngOk (r.rep == 0 || decide (r.length < r.rep)), rngOk (instOk r.cls r.inst), rngOk (within 0 r.activity 95),
     ((p.acts.getD r.activity {}).active, eReference)]

/-- The key of a reservation within its channel's list: START, then RESOURCE; a change of channel begins anew (R100). -/
def resKey (r : Nat × List Byte) : Nat :=
  let x := parseRes r.1 r.2
  r.1 * 2 ^ 44 + x.start * 2 ^ 16 + 256 * x.cls + x.inst

/-- The records of one block: header, activity records, then reservations as they lie; `n0` numbers the first reservation. -/
def blockRecords (b : Binding) (bi n0 : Nat) (x : List Byte × List (Nat × List Byte)) : Option (Nat × Nat) :=
  let p := parseBlock x
  let hc := headerCode b x.1 p
  (if hc = 0 then none else some (hc, headerRec bi))
  <|> ((List.range 96).findSome? fun a => if actRecCode x.1 a = 0 then none else some (actRecCode x.1 a, actRec bi a))
  <|> (List.range x.2.length).findSome? fun i =>
      let r := x.2.getD i (0, [])
      let c := resCode p r.1 r.2
      if c ≠ 0 then some (c, n0 + i)
      else if 0 < i && decide (resKey r ≤ resKey (x.2.getD (i - 1) (0, []))) then some (eRecordOrder, n0 + i)
      else none

/-- The number of the first reservation of each block. -/
def resBases (n : Nat) : List PlanBlock → List Nat
  | [] => []
  | p :: r => n :: resBases (n + p.res.length) r

/-! ### The conditions of R34 -/

/-- The resource a reservation names, as one number (R31). -/
def resKeyOf (r : Reservation) : Nat :=
  match r.cls with
  | 7 | 9 | 10 | 11 => 256 * r.cls + r.inst
  | 5 | 6 => 65536 * (r.channel + 1) + 256 * r.cls
  | _ => 65536 * (r.channel + 1) + 256 * r.cls + r.inst

/-- The runs of a reservation that start before a slot. -/
def resRuns (hz : Nat) (r : Reservation) : Tensor :=
  ⟨r.start, r.rep, if hz ≤ r.start then 0 else if r.rep = 0 then 1 else (hz - 1 - r.start) / r.rep + 1, r.length, false⟩

/-- Two reservations of one resource that overlap before a slot (R34). -/
def resClash (hz : Nat) (x y : Reservation) : Bool :=
  resKeyOf x == resKeyOf y && (resRuns hz x).overlaps (resRuns hz y)

/-- Whether the activity of a reservation owns its resource (R18, R34, R80). -/
def Binding.resOwned (b : Binding) (r : Reservation) : Bool :=
  let a := r.activity
  !b.hasAct a || (a / 16 == r.channel && match r.cls with
    | 5 | 6 => match b.codcAt r.channel r.inst with
      | some c => c.activity == a
      | none => false
    | 7 => r.inst == r.channel || (b.dq a).remote.testBit r.inst
    | 9 => (b.dq a).ringLane == r.inst
    | _ => true)

/-- Whether a resource is powered in a profile (R34, R95, R435). -/
def Binding.resPowered (b : Binding) (profile : Nat) (r : Reservation) : Bool :=
  let dom := fun n => b.powr.profileDomains.getD (6 * profile + n) 0
  match r.cls with
  | 1 => (dom r.channel).testBit 0
  | 2 => (dom r.channel).testBit 1
  | 3 => (dom r.channel).testBit 2 && (b.chanRec r.channel).gcMask.testBit r.inst
  | 4 => (dom r.channel).testBit 5
  | 5 => (dom r.channel).testBit 3
  | 6 => (dom r.channel).testBit 4
  | 7 => (dom r.inst).testBit 6
  | 11 => match b.portRec r.inst with
    | some p => p.mode != 0
    | none => false
  | _ => true

/-- The four conditions of R34 on one block, in their order. -/
def blockR34 (b : Binding) (n0 : Nat) (p : PlanBlock) : Option (Nat × Nat) :=
  let hz := p.periodMin + p.maxStretch
  let off := fun (x : Option (Nat × Nat)) => x.map fun e => (e.1, n0 + e.2)
  off (recBad ePlanOverlap ((List.range p.res.length).find? fun i => (p.res.drop (i + 1)).any (resClash hz (p.res.getD i {}) ·))
    <|> recBad ePlanOwner (p.res.findIdx? fun r => !b.resOwned r)
    <|> recBad ePlanUnpowered (p.res.findIdx? fun r => !b.resPowered p.profile r)
    <|> if p.planLength + p.maxStretch ≤ p.periodMin then none
        else recBad ePlanLength (p.res.findIdx? fun r => r.rep == 0 && r.start + r.length == p.planLength))

/-- The blocks that R103 asks for: the first block that should not be there, or a profile without its NORMAL block. -/
def planMissing (b : Binding) : Option (Nat × Nat) :=
  let mask := b.powr.profileMask
  let bs := b.plan.blocks
  ((firstIdx (fun seen (x : PlanBlock) => !(decide (x.profile ≤ 4) && mask.testBit x.profile)
      || seen.any fun y => y.kind == x.kind && y.profile == x.profile && y.benchedCh == x.benchedCh) [] 0 bs).map
    fun i => (ePlanMissing, headerRec i))
  <|> wholeBad ((List.range 5).all fun p => !mask.testBit p || bs.any fun x => x.kind == 0 && x.profile == p) ePlanMissing

/-- PLAN after its header (R509). -/
def planCode (s : State) (b : Binding) (raw : List Byte) : Option (Nat × Nat) :=
  let blocks := planBlocks raw
  let bases := resBases 0 b.plan.blocks
  let c := commonCode s b raw
  (if c = 0 then none else some (c, commonRec))
  <|> ((List.range blocks.length).findSome? fun i => blockRecords b i (bases.getD i 0) (blocks.getD i ([], [])))
  <|> planMissing b
  <|> (List.range b.plan.blocks.length).findSome? fun i => blockR34 b (bases.getD i 0) (b.plan.blocks.getD i {})

/-! ### Constraints between gatherings (R104) -/

/-- The indices of the NETW records of one KIND. -/
def kindIdx (rs : List (List Byte)) (k : Nat) : List Nat := (List.range rs.length).filter fun i => u8 (rs.getD i []) 0 == k

/-- A cross check over a list: the first element that fails names a record. -/
def crossBad {α : Type} (code : Nat) (l : List α) (bad : α → Bool) (rec' : α → Nat) : Option (Nat × Nat) :=
  (l.find? bad).map fun x => (code, rec' x)

/-- Pairs of index and element. -/
def indexed {α : Type} (l : List α) : List (Nat × α) := (List.range l.length).zip l

/-- The queues that own or share a bank in the phases that apply (R91). -/
def LoanRec.holders (l : LoanRec) : List Nat :=
  let of' := fun o (sh : Nat) => (if o = 0xFF then [] else [o]) ++ (List.range 16).filter sh.testBit
  of' l.ownerEven l.shareEven ++ if l.phases = 2 then of' l.ownerOdd l.shareOdd else []

/-- Whether an activity reference, 0xFF naming none, is to one that exists. -/
def Binding.actRef (b : Binding) (a : Nat) : Bool := a == 0xFF || b.hasAct a

/-- The first row: everything named exists. -/
def crossNames (b : Binding) (r : Raw) : Option (Nat × Nat) :=
  let nr := recsOf r .netw
  let nw := fun (k : Nat) (bad : List Byte → Bool) => crossBad eReference (kindIdx nr k) (fun i => bad (nr.getD i [])) id
  let member := fun m => b.netw.members.any fun x => x.index == m
  let sf := recsOf r .safe
  let sfk := fun (k : Nat) (bad : List Byte → Bool) => crossBad eReference (kindIdx sf k) (fun i => bad (sf.getD i [])) id
  let op := fun a q => (b.opAt a q).isSome
  let bases := resBases 0 b.plan.blocks
  crossBad eReference (indexed b.memx) (fun x => x.2.kind == 6 && !member x.2.link) (·.1)
  <|> crossBad eReference (indexed b.leaf) (fun x => x.2.kind == 0 && (b.region x.2.mapRegion).isNone) (·.1)
  <|> nw 2 (fun x => !(b.hasAct (u8 x 16) && b.hasAct (u8 x 17)))
  <|> nw 3 (fun x => !b.hasAct (u8 x 1))
  <|> nw 4 (fun x => u8 x 4 != 0xFF && !member (u8 x 4))
  <|> nw 6 (fun x => !(b.hasAct (u8 x 2) && member (u8 x 3)))
  <|> crossBad eReference (indexed b.loan) (fun x => !x.2.holders.all fun q => b.hasAct (16 * x.2.channel + q)) (·.1)
  <|> crossBad eReference (indexed b.cntr) (fun x => !(b.actRef x.2.scope && b.actRef x.2.owner)) (·.1)
  <|> crossBad eReference (indexed b.codc) (fun x => !b.hasAct x.2.activity) (·.1)
  <|> sfk 1 (fun x => !(b.hasAct (u8 x 1) && op (u8 x 1) (u8 x 2)))
  <|> sfk 2 (fun x => (b.region (u16 x 1)).isNone)
  <|> sfk 3 (fun x => !b.hasAct (u8 x 1))
  <|> crossBad eReference (opsIdx (recsOf r .ops)) (fun x =>
        let o := x.2
        !b.hasAct o.activity || !(o.depActivity == 0xFF || op o.depActivity o.depSeq)
          || (o.opcode == 0x0404 && (List.range (u8 o.params 0)).any fun i => !op o.activity (u8 (checkEntry o i) 0))
          || (o.opcode == 0x0501 && !b.hasAct (u8 o.params 8))) (·.1)
  <|> (List.range b.plan.blocks.length).findSome? fun i =>
        let p := b.plan.blocks.getD i {}
        crossBad eReference (List.range 96) (fun a => (p.acts.getD a {}).active && !b.hasAct a) (actRec i)
        <|> crossBad eReference (indexed p.res) (fun x => !(b.hasAct x.2.activity
              && (x.2.opseq == 0xFF || op x.2.activity x.2.opseq))) (fun x => bases.getD i 0 + x.1)

/-- The second row: nothing of a disabled channel. -/
def crossDisabled (b : Binding) : Option (Nat × Nat) :=
  crossBad eReference (List.range 6) (fun n => (b.chanRec n).enable != 1
    && (b.actList.any (fun a => a / 16 == n)
      || b.loan.any fun l => l.channel == n && (l.ownerEven != 0xFF || l.ownerOdd != 0xFF))) id

/-- The third row: tenants are declared, and a sharer is of the owner's tenant (R92, R104); HOST_SPILL windows of one tenant
(R347). -/
def crossGrant (b : Binding) : Option (Nat × Nat) :=
  let known := fun k => k == 0 || (b.tentOf k).isSome
  let same := fun (l : LoanRec) o (sh : Nat) => o == 0xFF || (List.range 16).all fun q =>
    !sh.testBit q || b.tenantOf (16 * l.channel + q) == b.tenantOf (16 * l.channel + o)
  crossBad eGrant (indexed b.memx) (fun x => !known x.2.tenant) (·.1)
  <|> recBad eGrant (firstIdx (fun seen (x : MemxRec) => x.kind == 5 && seen.any fun y =>
        y.kind == 5 && y.link == x.link && y.tenant != x.tenant) [] 0 b.memx)
  <|> crossBad eGrant b.actList (fun a => !known (b.tenantOf a)) id
  <|> crossBad eGrant (indexed b.loan) (fun x => !(same x.2 x.2.ownerEven x.2.shareEven
        && (x.2.phases != 2 || same x.2 x.2.ownerOdd x.2.shareOdd))) (·.1)

/-- The fourth row: what an activity holds lies in its home channel, and its lane has one route. -/
def crossShared (b : Binding) : Option (Nat × Nat) :=
  let home := fun a ch => a == 0xFF || a / 16 == ch
  crossBad eShared b.actList (fun a =>
      let l := (b.dq a).ringLane
      l != 0 && (match b.netw.routes.filter fun x => x.lane == l with
        | [x] => x.activity != a
        | _ => true)) id
  <|> crossBad eShared (indexed b.cntr) (fun x => x.2.scopeKind == 0
        && !(home x.2.scope x.2.channel && home x.2.owner x.2.channel)) (·.1)
  <|> crossBad eShared (indexed b.codc) (fun x => x.2.activity / 16 != x.2.channel) (·.1)

/-- The fifth row: RTP flows name decode slots. -/
def crossRtp (b : Binding) (r : Raw) : Option (Nat × Nat) :=
  let nr := recsOf r .netw
  let opened := fun a slot => match b.codcAt (a / 16) slot with
    | some c => c.direction == 0
    | none => false
  crossBad eReference (kindIdx nr 2) (fun i =>
    let f := parseFlow (nr.getD i [])
    f.proto != 0 && !(opened f.actEven f.codecSlot && opened f.actOdd f.codecSlot)) id

/-- The GDDR6 sources an op names itself: address word, lowest and highest byte (R104). -/
def opSources (o : OpRec) : List (DWord × Int × Int) :=
  let p := o.params
  let run := fun off n => let w := BitVec.ofNat 64 (u64 p off); [(w, (adAddr w : Int), (adAddr w : Int) + n - 1)]
  match o.opcode with
  | 0x0301 => if u8 p 0 ≠ 0 then [] else
      let d := descProg (slice p 48 64)
      let sp := sideSpan (adAddr d.src) d.loops d.srcSteps
      [(d.src, sp.1, sp.2 + d.count - 1)]
  | 0x0102 => if (u8 p 3).testBit 5 then run 56 (o.p32 52) else []
  | 0x0202 => run 16 (o.p32 8 * o.p32 24) ++ if isMx (u8 p 0) then run 32 (o.p32 8 * o.p32 40) else []
  | 0x0403 => if u8 p 0 < 2 then run 56 (o.p32 4 * o.p32 52) else []
  | _ => []

/-- The regions of another channel that an op names as a source. -/
def Binding.remoteRegions (b : Binding) (o : OpRec) : List MemxRec :=
  (opSources o).flatMap fun x => if adSpace x.1 ≠ 1 || adChan x.1 == o.activity / 16 then [] else
    b.memx.filter fun m => m.granular && m.channel == adChan x.1
      && decide (((m.base * granBytes : Nat) : Int) ≤ x.2.2) && decide (x.2.1 < (((m.base + m.size) * granBytes : Nat) : Int))

/-- The sixth row: remote reads. -/
def crossRemote (b : Binding) (r : Raw) : Option (Nat × Nat) :=
  let ops := (opsIdx (recsOf r .ops)).map (·.2)
  let held := fun a t => b.plan.blocks.any fun p => p.res.any fun x => x.activity == a && x.cls == 7 && x.inst == t
  crossBad eReference (indexed b.memx) (fun x => ops.any fun o => (b.remoteRegions o).contains x.2
      && !x.2.readers.testBit (o.activity / 16)) (·.1)
  <|> crossBad eReference b.actList (fun a =>
        ((List.range 6).any fun t => (b.dq a).remote.testBit t && !held a t)
          || ops.any fun o => o.activity == a && (b.remoteRegions o).any fun m => !(b.dq a).remote.testBit m.channel) id

/-- A channel's lock group: ring-wide through RGROUP, else local (R36). -/
def Binding.lockOf (b : Binding) (ch : Nat) : Option (Bool × Nat) :=
  let g := (b.chanRec ch).lockGroup
  if g = 0xFF then none
  else match b.netw.groups.find? fun x => x.localGroup == g with
    | some x => some (true, x.groupId)
    | none => some (false, g)

/-- A member's reservations with its own channel taken out of them (R36). -/
def lockRes (p : PlanBlock) (ch : Nat) : List Reservation :=
  (p.res.filter fun r => r.channel == ch).map fun r =>
    { r with channel := 0, activity := if r.activity / 16 = ch then r.activity % 16 else 96 + r.activity
             inst := if (r.cls == 7 || r.cls == 8) && r.inst == ch then 0x100 else r.inst }

/-- Whether two members' plans are identical in the sense of R36. -/
def samePlans (b : Binding) (m n : Nat) : Bool :=
  (b.plan.blocks.filter fun p => p.kind == 0).all fun p =>
    ((List.range 16).all fun q => p.acts.getD (16 * m + q) {} == p.acts.getD (16 * n + q) {})
      && (lockRes p m).length == (lockRes p n).length && (lockRes p m).all ((lockRes p n).contains ·)
      && (lockRes p n).all ((lockRes p m).contains ·)

/-- The seventh row: lock groups. -/
def crossLock (b : Binding) : Option (Nat × Nat) :=
  crossBad eLockGroup (List.range 6) (fun m => (b.lockOf m).isSome && (List.range 6).any fun n =>
    decide (m < n) && b.lockOf n == b.lockOf m && !samePlans b m n) id

/-- The ninth row: the leaf map. -/
def crossLeaf (b : Binding) : Option (Nat × Nat) :=
  crossBad eMemory (indexed b.memx) (fun x => (x.2.kind == 3 || x.2.kind == 4) && b.leaf.isEmpty) (·.1)
  <|> crossBad eMemory (indexed b.leaf) (fun x => x.2.kind == 0 && (match b.region x.2.mapRegion with
        | some m => m.kind != 4
        | none => true)) (·.1)

/-- The tenth row: every op has a reservation on its primary resources in some NORMAL block (R98). -/
def crossPrimary (b : Binding) (r : Raw) : Option (Nat × Nat) :=
  crossBad ePlanOwner (opsIdx (recsOf r .ops)) (fun x =>
    let a := x.2.activity
    if x.2.opcode = 0x0501 then !(b.resIn a 8 (some 0x10) && (match b.resultOf a with
        | some q => b.resIn a 11 (some q.port)
        | none => false))
    else match opClass x.2.opcode with
      | some c => !b.resIn a c none
      | none => true) (·.1)

/-- The cross rules that other chapters state: serve activities (R334), range records (R414), result digests (R430), and banks 24
to 47 of active activities (R145). -/
def crossOther (b : Binding) (r : Raw) : Option (Nat × Nat) :=
  let sf := recsOf r .safe
  let ops := b.ops
  let ranges := kindIdx sf 1
  let rg := fun i => parseRange (sf.getD i [])
  crossBad eReference (indexed b.memx) (fun x => x.2.kind == 7 && (b.serveAct x.2.channel).isNone) (·.1)
  <|> crossBad eReference ranges (fun i => !ops.any fun o => o.activity == (rg i).activity && o.opcode == 0x0404
        && (List.range (u8 o.params 0)).any fun k => u8 (checkEntry o k) 0 == (rg i).seq) id
  <|> crossBad eRange ranges (fun i => (rg i).check == 2 && (match b.opAt (rg i).activity (rg i).seq with
        | some o => o.opcode != 0x0401 && o.opcode != 0x0402
        | none => true)) id
  <|> crossBad eReference (kindIdx sf 3) (fun i => !ops.any fun o => o.opcode == 0x0405 && u8 o.params 0 == u8 (sf.getD i []) 1) id
  <|> crossBad ePlanUnpowered (indexed b.loan) (fun x => decide (24 ≤ x.2.bank) && b.plan.blocks.any fun p => p.kind == 0
        && !(b.powr.profileDomains.getD (6 * p.profile + x.2.channel) 0).testBit 7
        && x.2.holders.any fun q => (p.acts.getD (16 * x.2.channel + q) {}).active) (·.1)

/-- The constraints between gatherings, in the order of R104, then those of other chapters. -/
def crossCode (b : Binding) (r : Raw) : Option (Nat × Nat) :=
  crossNames b r <|> crossDisabled b <|> crossGrant b <|> crossShared b <|> crossRtp b r <|> crossRemote b r <|> crossLock b
  <|> (if 6 < b.netw.members.length then some (eRingSize, noRec) else none)
  <|> crossLeaf b <|> crossPrimary b r <|> crossOther b r

end Sys2Proof.Machine
end

