-- ==== Sys2Proof/Machine/BindCheck.lean ====
section
/-! DEFINITION. The stages of validation (spec/03 R56 to R75): what a binding that was delivered fails on first. -/

namespace Sys2Proof.Machine

/-- A validation error: its code (R70), the entry index and the record (R71). -/
structure BindErr where
  code : Nat := 0
  entry : Nat := 0x3F
  recNo : Nat := 0xFFFFFFFF
deriving DecidableEq, Repr, Inhabited

/-- The first of a list of conditions that does not hold gives the error of stages 1 to 4: entry 0x3F and no record (R71). -/
def early (l : List (Bool × Nat)) : Option BindErr :=
  let c := firstBad l
  if c = 0 then none else some { code := c }

/-- Stage 1: the length (R61, R69). -/
def stage1 (rebind : Bool) (x : List Byte) : Option BindErr :=
  let t := u32 x 0x10
  early [(decide (t ≤ if rebind then 0x600000 else 0x800000) && t == x.length && decide (0x1010 ≤ t), 0x101)]

/-- Whether the reserved bytes of the colophon and of its used entries are zero (R57, R58). -/
def colophonZero (x : List Byte) : Bool :=
  [(0x34, 4), (0x82, 62), (0xE0, 32), (0xD00, 512), (0xF72, 142)].all (fun r => zeroRange x r.1 r.2)
    && (List.range (u16 x 0xE)).all fun i => zeroRange x (0x106 + 96 * i) 2 && zeroRange x (0x110 + 96 * i) 16

/-- Stage 2: the colophon (R57, R69). -/
def stage2 (rebind : Bool) (x : List Byte) : Option BindErr :=
  let n := u16 x 0xE
  early
    [(x.take 8 == ascii "SHBIND06", 0x201),
     (u16 x 8 == 1 && u16 x 0xA == 0x1000, 0x202),
     (u8 x 0xC == (if rebind then 1 else 0), 0x203),
     (within 1 n 32 && zeroRange x (0x100 + 96 * n) (96 * (32 - n)), 0x204),
     (colophonZero x, 0x205),
     (u32 x 0x14 != 0 && u16 x 0x80 != 0 && (rebind || (u64 x 0x38 == 0 && zeroRange x 0x40 64)), 0x206)]

/-- Stage 3: the signature over bytes 0 to 0xEFF (R63, R64). -/
def stage3 (s : State) (x : List Byte) : Option BindErr :=
  let k := s.bind.keys.get (u8 x 0xD)
  early
    [(decide (u8 x 0xD ≤ 3) && k.provisioned, 0x301),
     (!k.revoked, 0x302),
     (Config.ed448Verify k.key (ascii "APY-SX6-BIND") (x.take 0xF00) (slice x 0xF00 114), 0x303)]

/-- Stage 4: admission (R57, R64, R65). -/
def stage4 (s : State) (rebind : Bool) (x : List Byte) : Option BindErr :=
  let c := colophonOf x
  early
    [(c.target.all (· == 0) || c.target == s.keep.accession, 0x401),
     (if rebind then decide (s.bind.lastSerial < c.serial) else decide (s.bind.serialFloor ≤ c.serial), 0x402),
     (decide (c.minCurator ≤ s.keep.build.toNat), 0x403),
     (s.ksi.lifecycle == .provisioned || s.ksi.lifecycle == .field, 0x404)]

/-- The first directory entry that fails a check (R69, R71). -/
def dirBad (code : Nat) (d : List DirEntry) (bad : Nat → DirEntry → Bool) : Option BindErr :=
  ((List.range d.length).find? fun i => bad i (d.getD i {})).map fun i => { code := code, entry := i }

/-- Stage 5: the directory (R56, R58 to R61, R69). -/
def stage5 (rebind : Bool) (x : List Byte) (c : Colophon) : Option BindErr :=
  let d := c.dir
  let typ := fun (e : DirEntry) => gathOf e.typ
  let endOf := fun i => let e := d.getD i {}; e.offset + e.length
  let rank := fun i => ((typ (d.getD i {})).map gathRank).getD 0
  let gap := fun i => if i + 1 < d.length then (d.getD (i + 1) {}).offset - endOf i else 0
  dirBad 0x501 d (fun _ e => (typ e).isNone)
  <|> dirBad 0x502 d (fun _ e => e.version != 1)
  <|> dirBad 0x503 d (fun i _ => decide (0 < i) && decide (rank i ≤ rank (i - 1)))
  <|> dirBad 0x504 d (fun i e =>
        e.offset % 64 != 0 || decide (e.length < 16)
        || (if i = 0 then e.offset != 0x1000
            else decide (e.offset < endOf (i - 1)) || decide (endOf (i - 1) + 63 < e.offset))
        || decide (c.totalLength < endOf i) || (i + 1 == d.length && endOf i != c.totalLength))
  <|> dirBad 0x505 d (fun i _ => !zeroRange x (endOf i) (gap i))
  <|> dirBad 0x508 d (fun _ e => match typ e with
        | some g => decide (gathLimit g < e.length)
        | none => false)
  <|> (if rebind || gathNames.all (fun g => !gathRequired g.1 || d.any fun e => typ e == some g.1) then none
       else some { code := 0x506, entry := 0x3E })
  <|> dirBad 0x507 d (fun _ e => rebind && match typ e with
        | some g => !gathRebind g
        | none => false)

/-- Stage 6: the digests (R58). -/
def stage6 (x : List Byte) (c : Colophon) : Option BindErr :=
  dirBad 0x601 c.dir fun _ e => shake256 (slice x e.offset e.length) != e.digest

/-- Stages 1 to 6. -/
def stages1to6 (s : State) (rebind : Bool) (x : List Byte) : Option BindErr :=
  let c := colophonOf x
  stage1 rebind x <|> stage2 rebind x <|> stage3 s x <|> stage4 s rebind x <|> stage5 rebind x c <|> stage6 x c

/-! ### Stage 7 -/

/-- The error of a gathering that disagrees with its directory entry (R70). -/
def eHeader : Nat := 0x701

/-- A gathering's header (R59), and RECORD_COUNT against LENGTH (R79, R100). -/
def gathHead (g : Gath) (x : List Byte) : Nat :=
  let n := u32 x 12
  let ok := gathOf (u32 x 0) == some g && u16 x 4 == 1 && u32 x 8 == x.length
  let count := match g with
    | .plan =>
      let bs := planBlocks x
      decide (80 ≤ x.length) && x.length == 80 + 1600 * u16 x 48 + 16 * n
        && ((bs.map fun b => (resCounts b.1).sum).sum == n)
    | .ops => x.length == 16 + 64 * n && (((opsIdx (recsOf [(g, x)] g)).map fun o => 1 + o.2.paramRecords).sum == n)
    | _ => x.length == 16 + n * gathRecord g
  if !(ok && count) then eHeader else if !zeroRange x 6 2 then eReserved else 0

/-- One gathering: header, records, the gathering as a whole (R509). -/
def gathBad (s : State) (b : Binding) (r : Raw) (g : Gath) : Option (Nat × Nat) :=
  let x := rawOf r g
  let h := gathHead g x
  let rs := recsOf r g
  if h ≠ 0 then some (h, noRec)
  else match g with
    | .plan => planCode s b x
    | .ops => opsCode b rs
    | _ => scanRecs (recCode s b g) (recKey g) 0 none rs <|> wholeCode s b g rs

/-- Stage 7 over a binding's gatherings in canonical order, then the constraints between them (R509). The entry index is
the directory index in the binding that was delivered, 0x3E where it does not carry the gathering (R71). -/
def stage7 (s : State) (b : Binding) (r : Raw) (d : List DirEntry) : Option BindErr :=
  let entry := fun g => match d.findIdx? fun e => gathOf e.typ == some g with
    | some i => i
    | none => 0x3E
  (gathNames.findSome? fun n => if r.any fun e => e.1 == n.1 then
      (gathBad s b r n.1).map fun e => ({ code := e.1, entry := entry n.1, recNo := e.2 } : BindErr) else none)
  <|> (crossCode b r).map fun e => { code := e.1, entry := 0x3E, recNo := e.2 }

/-! ### Rebinds (R69, R73, R74) -/

/-- The merged binding's gatherings: each replaced one swapped for the rebind's copy. -/
def mergeRaw (old new : Raw) : Raw :=
  gathNames.filterMap fun n => match (new.find? fun e => e.1 == n.1), (old.find? fun e => e.1 == n.1) with
    | some e, _ => some e
    | none, some e => some e
    | none, none => none

/-- NETW records outside the flow table with their indices (R73). -/
def fixedNetw (rs : List (List Byte)) : List (Nat × List Byte) :=
  (indexed rs).filter fun x => u8 x.2 0 != 2 && u8 x.2 0 != 3

/-- NETW_FIXED: the record of R71 at the first position where the copies differ. -/
def netwFixed (old new : List (List Byte)) : Option Nat :=
  let o := (fixedNetw old).map (·.2)
  let n := fixedNetw new
  let key := fun r => (recKey .netw 0 r).1
  match (List.range (max o.length n.length)).find? fun j => o[j]? != (n[j]?).map (·.2) with
  | none => none
  | some j => match o[j]?, n[j]? with
    | some x, some y => if key x < key y.2 then
        some ((new.findIdx? fun r => decide (key x < key r)).getD new.length) else some y.1
    | none, some y => some y.1
    | some x, none => some ((new.findIdx? fun r => decide (key x < key r)).getD new.length)
    | none, none => none

/-- Stage 8 (R70, R71, R73, R74). -/
def stage8 (s : State) (run : Running) (b : Binding) (c : Colophon) (new : Raw) : Option BindErr :=
  let has := fun g => new.any fun e => e.1 == g
  let at8 := fun (ok : Bool) code => if ok then none else some ({ code := code, entry := 0x3D } : BindErr)
  at8 (c.baseDigest == run.digest) 0x801
  <|> at8 (if has .plan then c.planGen != run.b.col.planGen else c.planGen == run.b.col.planGen) 0x802
  <|> (if has .netw then (netwFixed (recsOf run.raw .netw) (recsOf new .netw)).map fun j =>
        { code := 0x803, entry := (c.dir.findIdx? fun e => gathOf e.typ == some .netw).getD 0x3E, recNo := j } else none)
  <|> ((List.range 96).find? fun a => run.b.dq a != b.dq a).map (fun a => { code := 0x804, entry := 0x3D, recNo := a })
  <|> at8 (c.activateTick == 0 || !s.tick.running || decide (s.tick.num < c.activateTick)) 0x805

/-! ### Whole validations -/

/-- What a cold binding holds once it is accepted. -/
def coldRunning (x : List Byte) : Running :=
  let c := colophonOf x
  let r := rawBinding x c
  { raw := r, b := parseBinding c r, digest := colophonDigest x }

/-- The validation of a cold binding: its error, or what will run (R69). -/
def validateCold (s : State) (x : List Byte) : Except BindErr Running :=
  match stages1to6 s false x with
  | some e => .error e
  | none =>
    let run := coldRunning x
    match stage7 s run.b run.raw run.b.col.dir with
    | some e => .error e
    | none => .ok run

/-- The merged binding of a rebind over what runs: the cold colophon with the rebind's plan generation; the digest is the rebind's own. -/
def mergedRunning (run : Running) (x : List Byte) : Running :=
  let c := colophonOf x
  let r := mergeRaw run.raw (rawBinding x c)
  { raw := r, b := parseBinding { run.b.col with planGen := c.planGen } r, digest := colophonDigest x }

/-- The validation of a rebind: its error, or what will run after the switch (R69, R73). -/
def validateRebind (s : State) (run : Running) (x : List Byte) : Except BindErr Running :=
  match stages1to6 s true x with
  | some e => .error e
  | none =>
    let c := colophonOf x
    let m := mergedRunning run x
    match stage7 s m.b m.raw c.dir <|> stage8 s run m.b c (rawBinding x c) with
    | some e => .error e
    | none => .ok m

end Sys2Proof.Machine
end

