-- ==== Sys2Proof/Machine/Disc.lean ====
section
/-! DEFINITION. The discipline of the time base (spec/02 R21 to R24, spec/14 R311): measured offsets, lock, holdover, the
one step, PTP and PPS references. The time base's own nanosecond is the model's unit of time, so the rate corrections
of R24 do not appear (log 33). -/

namespace Sys2Proof.Machine

/-! ### Offsets and lock (R22 to R24) -/

/-- Whether an offset is within the limit of lock, 100 ns. -/
def inLock (offset : Int) : Bool := decide (-100 ≤ offset ∧ offset ≤ 100)

/-- References within limit in a row. -/
def TimeBase.counted (t : TimeBase) (offset : Int) : TimeBase :=
  { t with inLimit := if inLock offset then t.inLimit + 1 else 0 }

/-- LOCKED after 16 references in a row (R22, R23). -/
def TimeBase.lockIf (t : TimeBase) : TimeBase :=
  if 16 ≤ t.inLimit then { t with lock := .locked, everLocked := true, stepNeeded := false } else t

/-- A reference offset (time base minus reference) is measured. While ACQUIRING before the first tick, a time base that is
behind is stepped once to the reference; it never goes back (R21, R24, log 33). In HOLDOVER an offset above 10 ms sets
STEP_NEEDED and keeps HOLDOVER. -/
def State.reference (s : State) (offset : Int) : State :=
  let s1 := s.onTb fun t => { t with offset := offset, lastRef := t.time }
  match s.tb.lock with
  | .free => s1
  | .acquiring =>
    if !s.tb.stepUsed && !s.tick.running && decide (offset < -100) then
      s1.onTb fun t => { t with time := t.time + offset.natAbs, lastRef := t.time + offset.natAbs, stepUsed := true
                                stepNeeded := false, inLimit := 0 }
    else s1.onTb fun t => (t.counted offset).lockIf
  | .holdover =>
    if 10000000 < offset.natAbs then
      (if s.tb.stepNeeded then s1.onTb fun t => { t with inLimit := 0 }
       else (s1.onTb fun t => { t with stepNeeded := true, inLimit := 0 }).evTick 12)
    else s1.onTb fun t => (t.counted offset).lockIf
  | .locked => s1.onTb fun t => t.counted offset

/-- The discipline source of the running binding (R22, R87). -/
def State.discSrc (s : State) : Nat := if s.bound then s.tb.discSrc else 0

/-- PPS_EDGE: a rising edge marks the next whole second (R22). -/
def State.ppsEdge (s : State) : State :=
  if s.discSrc ≠ 2 then s
  else (s.reference ((s.tb.time : Int) - (s.tb.seconds.toNat * 1000000000 : Nat))).onTb fun t => { t with seconds := t.seconds + 1 }

/-- PPS_EDGE. -/
def execPpsEdge (s : State) : Host.Outcome State Fault Refusal :=
  .next (if !s.live then s else commit s.ppsEdge)

/-- The loss period of the source in use (R23). -/
def State.lossNs (s : State) : Nat :=
  match s.tb.discSrc with
  | 1 => 3000000000
  | 2 => 1500000000
  | _ => 3 * (8 * s.block.1.periodMin)

/-- TB_HOLDOVER: the reference is lost while LOCKED (R23). -/
def State.tbHoldover (s : State) : State :=
  if s.discSrc ≠ 0 && s.tb.lock == .locked && decide (s.tb.lastRef + s.lossNs ≤ s.tb.time) then
    (s.onTb fun t => { t with lock := .holdover, inLimit := 0 }).evTick 11
  else s

/-- TB_HOLDOVER. -/
def execTbHoldover (s : State) : Host.Outcome State Fault Refusal :=
  .next (if !s.live then s else commit s.tbHoldover)

/-- REF_10M_PRESENCE: REF10_OK says that the input is present and within 50 ppm (R52). -/
def execRef10mPresence (present inRange : Bool) (s : State) : Host.Outcome State Fault Refusal :=
  .next (commit (s.onTb fun t => { t with ref10Present := present, ref10Ok := present && inRange }))

/-- The discipline starts at a cold bind (R23, R24): ACQUIRING unless the source is FREE. -/
def State.discStart (s : State) : State :=
  let d := s.b.netw.glob.discSrc
  (s.onTb fun t => { t with
    discSrc := d, lock := if d = 0 then .free else .acquiring, inLimit := 0, stepUsed := false, lastRef := t.time }).onIng
    fun g => { g with ptp := {} }

/-! ### PTP (R311) -/

/-- A PTP frame is dropped. -/
def State.ptpDrop (s : State) (p : Nat) : State :=
  s.onIng fun g => { g with ports := g.ports.upd p fun x => { x with rxDrops := x.rxDrops + 1 } }

/-- A PTP frame is accepted. -/
def State.ptpTaken (s : State) (p : Nat) : State :=
  s.onIng fun g => { g with ports := g.ports.upd p fun x => { x with rxFrames := x.rxFrames + 1 } }

/-- Update the PTP slave. -/
def State.onPtp (s : State) (f : Ptp → Ptp) : State := s.onIng fun g => { g with ptp := f g.ptp }

/-- Whether a port receives: its PORT record has a mode and its link is up. -/
def State.portOn (s : State) (p : Nat) : Bool :=
  s.bound && s.pwr.ing && (s.ing.ports.get p).linkUp && (match s.b.portRec p with
    | some r => r.mode != 0
    | none => false)

/-- A PTP message on a port: dropped on other ports and under other sources; ignored in other domains (R311). -/
def State.ptpOn (s : State) (p domain : Nat) (f : State → State) : State :=
  if !s.portOn p then s
  else if s.discSrc ≠ 1 || p ≠ s.b.netw.glob.ptpPort then s.ptpDrop p
  else if domain ≠ s.b.netw.glob.ptpDomain then s.ptpTaken p
  else f (s.ptpTaken p)

/-- The offset of a Sync sent at `t1` and taken at the saved time. -/
def State.syncDone (s : State) (t1 : Int) : State :=
  let s1 := s.onPtp fun q => { q with t1 := t1, awaitFollow := false }
  s1.reference ((s.ing.ptp.syncRx : Int) - t1 - s.ing.ptp.pathDelay)

/-- PTP_SYNC of the chosen master: a one-step Sync measures the offset, a two-step one waits for its Follow_Up. -/
def State.ptpSyncEff (s : State) (port domain master seq : Nat) (twoStep : Bool) (origin : Nat) (corr : Int) : State :=
  s.ptpOn port domain fun s =>
    if s.ing.ptp.master ≠ some master then s
    else
      let s1 := s.onPtp fun q => { q with syncSeq := seq, syncRx := s.tb.time, t2 := s.tb.time, syncCorr := corr, awaitFollow := twoStep }
      if twoStep then s1 else s1.syncDone ((origin : Int) + corr)

/-- PTP_SYNC. -/
def execPtpSync (port domain master seq : Nat) (twoStep : Bool) (origin : Nat) (corr : Int) (s : State) :
    Host.Outcome State Fault Refusal :=
  .next (if !s.live then s else commit (s.ptpSyncEff port domain master seq twoStep origin corr))

/-- PTP_FOLLOW_UP: the precise origin of the Sync with its sequence number. -/
def State.ptpFollow (s : State) (port domain master seq origin : Nat) (corr : Int) : State :=
  s.ptpOn port domain fun s =>
    if s.ing.ptp.master = some master && s.ing.ptp.awaitFollow && s.ing.ptp.syncSeq == seq
    then s.syncDone ((origin : Int) + corr + s.ing.ptp.syncCorr) else s

/-- PTP_FOLLOW_UP. -/
def execPtpFollowUp (port domain master seq origin : Nat) (corr : Int) (s : State) : Host.Outcome State Fault Refusal :=
  .next (if !s.live then s else commit (s.ptpFollow port domain master seq origin corr))

/-- PTP_DELAY_RESP: the exchange of a Delay_Req sent at t3 and received by the master at `received` gives the mean path
delay; the granted interval (log2 seconds) is kept. -/
def State.ptpDelay (s : State) (port domain master seq received : Nat) (corr interval : Int) : State :=
  s.ptpOn port domain fun s =>
    let q := s.ing.ptp
    if q.master = some master && q.delayOpen && q.delaySeq == seq then
      s.onPtp fun q => { q with
        delayOpen := false, interval := interval
        pathDelay := (((q.t2 : Int) - q.t1) + ((received : Int) - corr - q.delayTx)) / 2 }
    else s

/-- PTP_DELAY_RESP. -/
def execPtpDelayResp (port domain master seq received : Nat) (corr interval : Int) (s : State) :
    Host.Outcome State Fault Refusal :=
  .next (if !s.live then s else commit (s.ptpDelay port domain master seq received corr interval))

/-- Lexicographic order of announced data sets, priorities and quality first: the lower is the better master. -/
def lexLt : List Nat → List Nat → Bool
  | [], _ => false
  | _, [] => false
  | x :: r, y :: t => decide (x < y) || (x == y && lexLt r t)

/-- The best of the announcing masters. -/
def bestMaster : List (Nat × List Nat) → Option (Nat × List Nat)
  | [] => none
  | c :: r => match bestMaster r with
    | none => some c
    | some d => some (if lexLt d.2 c.2 then d else c)

/-- PTP_ANNOUNCE feeds the best master clock algorithm; a change of master drops the measurement in hand. -/
def State.ptpAnnounceEff (s : State) (port domain master : Nat) (dataSet : List Nat) : State :=
  s.ptpOn port domain fun s =>
    let cs := (s.ing.ptp.candidates.filter fun c => c.1 != master) ++ [(master, dataSet)]
    let m := (bestMaster cs).map (·.1)
    s.onPtp fun q => if m = q.master then { q with candidates := cs }
      else { q with candidates := cs, master := m, awaitFollow := false, delayOpen := false, pathDelay := 0 }

/-- PTP_ANNOUNCE. -/
def execPtpAnnounce (port domain master : Nat) (dataSet : List Nat) (s : State) : Host.Outcome State Fault Refusal :=
  .next (if !s.live then s else commit (s.ptpAnnounceEff port domain master dataSet))

/-- DELAY_REQ: at the granted interval the port sends a Delay_Req (R311). -/
def State.delayReqEff (s : State) : State :=
  let p := s.b.netw.glob.ptpPort
  let q := s.ing.ptp
  if s.discSrc = 1 && s.portOn p && q.master.isSome then
    (s.onPtp fun q => { q with delayTx := s.tb.time, delaySeq := (q.delaySeq + 1) % 65536, delayOpen := true }).out
      { kind := .eth, port := p, code := 0x88F7, status := (q.delaySeq + 1) % 65536 }
  else s

/-- DELAY_REQ. -/
def execDelayReq (s : State) : Host.Outcome State Fault Refusal :=
  .next (if !s.live then s else commit s.delayReqEff)

end Sys2Proof.Machine
end

