-- ==== Sys2Proof/Machine/Reseal.lean ====
section
/-! DEFINITION. Rotation: the reseal service, which moves a tenant's lines and leaves to its new epoch in the GDDR6
reservations of its seal activities (spec/17 R376, R377). -/

namespace Sys2Proof.Machine

/-- Lines of a granule. -/
def granLines : Nat := 16384

/-- The sealed regions of a tenant, WEIGHT and DATA, in ascending region number. -/
def State.sealedRegions (s : State) (k : Nat) : List MemxRec :=
  sortBy (fun (x y : MemxRec) => decide (x.region < y.region))
    (s.b.memx.filter fun r => (r.kind == 1 || r.kind == 2) && r.tenant == k)

/-- Lines of a region still under the old epoch, where `e` is the new one (R362, R377). -/
def State.regionLeft (s : State) (e : Bool) (r : MemxRec) : Nat :=
  let t := s.gddr.regions.get r.region
  if t.epoch = e then 0 else r.size * granLines - t.cursor

/-- The leaves of a tenant under the old epoch, in any state but FREE and RETIRED. -/
def State.oldLeaves (s : State) (k : Nat) : List (Nat × LeafEntry) :=
  s.leaf.map.filter fun x => x.2.tenant == k && x.2.epoch != s.writeEpoch k && x.2.state != .free && x.2.state != .retired

/-- RESEAL_LEFT: lines of a rotating tenant still under the old epoch; a leaf has 64 (R377). -/
def State.resealLeft (s : State) (k : Nat) : Nat :=
  if (s.ksi.tenants.get k).state = .rotating then
    ((s.sealedRegions k).map (s.regionLeft (s.writeEpoch k))).sum + 64 * (s.oldLeaves k).length
  else 0

/-- The lines of a region after a step of the reseal service: a VIRGIN granule is skipped; past the last line EPOCH becomes
the new one, GEN increases and the cursor is cleared. -/
def State.resealLine (s : State) (e : Bool) (r : MemxRec) : State :=
  let t := s.gddr.regions.get r.region
  let g := t.cursor / granLines
  let next := if s.virgin r (r.base + g) then (g + 1) * granLines else t.cursor + 1
  let u : RegionState := if r.size * granLines ≤ next then { epoch := e, gen := t.gen + 1, cursor := 0 } else { t with cursor := next }
  s.onGddr fun x => { x with regions := x.regions.set r.region u }

/-- A LIVE leaf of a channel that may be resealed now: under the old epoch, named by no live snapshot, its list not locked,
with a GEN left (R224, R254, R376). -/
def State.resealable (s : State) (k ch : Nat) : List (Nat × LeafEntry) :=
  (s.oldLeaves k).filter fun x => x.2.state == .live && x.2.site == ch && decide (x.2.gen < 0xFFFF) && !s.snapped x.1
    && !s.leaf.locks.any fun y => y.1 == x.1 || (match s.pubList y.1 with
      | some l => l.data.contains x.1
      | none => false)

/-- A leaf is rewritten to a fresh local slot under the new epoch; the old slot is released under R255. -/
def State.resealLeaf (s : State) (k ch : Nat) (x : Nat × LeafEntry) : Option State :=
  (s.slotFor k ch [] 0).map fun slot =>
    let s1 := s.gdPut ch (8192 * slot) (s.leafBytes x.2)
    (s1.onLeafE x.1 fun e => { e with slot := slot, gen := e.gen + 1, epoch := s.writeEpoch k }).retain ch x.2.slot
      (s.leaf.pubCount + 1)

/-- One step of the reseal service in a channel: the next region line, then the next leaf, then the fetch of a SPILLED leaf;
none when nothing is left to do here. -/
def State.resealStep (s : State) (k ch : Nat) : Option State :=
  let e := s.writeEpoch k
  match (s.sealedRegions k).find? fun r => r.channel == ch && s.regionLeft e r != 0 with
  | some r => some (s.resealLine e r)
  | none => match s.resealable k ch with
    | x :: _ => s.resealLeaf k ch x
    | [] => match (s.oldLeaves k).find? fun x => x.2.state == .spilled with
      | some x => if (s.b.leafAct k ch).isSome then some (s.fetchStart x.1 ch 0) else none
      | none => none

/-- Up to `n` steps. -/
def resealRun (k ch : Nat) : Nat → State → State
  | 0, s => s
  | n + 1, s => match s.resealStep k ch with
    | some s1 => resealRun k ch n s1
    | none => s

/-- The reseal service in a GDDR6 reservation of a seal activity, for as many steps as the reservation has room. -/
def State.reseal (s : State) (a ch budget : Nat) : State :=
  let k := s.b.tenantOf a
  if (s.ksi.tenants.get k).state == .rotating && s.b.sealAct k (a / 16) == some a && ch == a / 16
  then resealRun k ch budget s else s

end Sys2Proof.Machine
end

