-- ==== Sys2Proof/Machine/Ingest.lean ====
section
/-! DEFINITION. Reception on the ingest ports (spec/14): frames and their acceptance, steering, GVSP blocks with their
zero fill and correction, RTP, ARP and the port links. Header layouts are those of the standards the rules name (log 32). -/

namespace Sys2Proof.Machine

/-! ### Ports (R301, R319) -/

/-- Update an ingest port. -/
def State.onPort (s : State) (p : Nat) (f : Port → Port) : State := s.onIng fun g => { g with ports := g.ports.upd p f }

/-- A frame is dropped. -/
def State.rxDrop (s : State) (p : Nat) : State := s.onPort p fun x => { x with rxDrops := x.rxDrops + 1 }

/-- A frame is accepted. -/
def State.rxTaken (s : State) (p : Nat) : State := s.onPort p fun x => { x with rxFrames := x.rxFrames + 1 }

/-- A frame that matches no FLOW record, or whose activity belongs to a tenant that takes no part (R302, R372). -/
def State.noMatch (s : State) (p : Nat) : State := (s.rxDrop p).evPort p 2 none

/-- The PORT record of a port. -/
def State.portCfg (s : State) (p : Nat) : NetPort := (s.b.portRec p).getD {}

/-- PORT_LINK_UP: the link and FEC of a port with a mode lock. -/
def State.portUp (s : State) (p : Nat) : State :=
  if s.bound && s.pwr.ing && (s.portCfg p).mode != 0 then
    (s.onPort p fun x => { x with linkUp := true }).onPair fun x => { x with portsDown := bitClr x.portsDown p } else s

/-- PORT_LINK_UP. -/
def execPortLinkUp (port : Nat) (s : State) : Host.Outcome State Fault Refusal :=
  .next (if !s.live then s else commit (s.portUp port))

/-- PORT_LINK_DOWN. -/
def State.portDown (s : State) (p : Nat) : State :=
  if (s.ing.ports.get p).linkUp then (s.onPort p fun x => { x with linkUp := false }).evPort p 0 none else s

/-- PORT_LINK_DOWN. -/
def execPortLinkDown (port : Nat) (s : State) : Host.Outcome State Fault Refusal :=
  .next (if !s.live then s else commit (s.portDown port))

/-! ### Steering (R303, R88) -/

/-- Whether a record's STREAM accepts a datagram: 0 any, the UDP source port for GVSP, the SSRC for RTP. -/
def NetFlow.streamOk (r : NetFlow) (srcUdp ssrc : Nat) : Bool :=
  r.stream == 0 || r.stream == (if r.proto = 0 then srcUdp else ssrc)

/-- The FLOW record a datagram matches: the lowest number. -/
def State.flowFor (s : State) (p srcIp srcUdp dstUdp ssrc : Nat) : Option NetFlow :=
  (sortBy (fun (x y : NetFlow) => decide (x.flow < y.flow)) s.b.netw.flows).find? fun r =>
    r.port == p && (r.srcIp == 0 || r.srcIp == srcIp) && r.dstUdp == dstUdp && r.streamOk srcUdp ssrc

/-- The activity of a parity. -/
def NetFlow.act (r : NetFlow) (odd : Bool) : Nat := if odd then r.actOdd else r.actEven

/-- The parity of the present tick. -/
def State.oddTick (s : State) : Bool := s.tick.num % 2 == 1

/-- Whether frames may be steered to an activity: ticks run and its tenant takes part (R88, R372). -/
def State.steers (s : State) (a : Nat) : Bool := s.tick.running && s.tenantIn (s.b.tenantOf a)

/-! ### Receive buffers (R304, R306) -/

/-- Update a flow's counts and RTP state. -/
def State.onFlow (s : State) (f : Nat) (g : FlowRun → FlowRun) : State := s.onIng fun x => { x with flows := x.flows.upd f g }

/-- Packets lost or dropped. -/
def State.flowLost (s : State) (f n : Nat) : State := s.onFlow f fun x => { x with lost := x.lost + BitVec.ofNat 32 n }

/-- Room in the buffer of an activity on a port. -/
def State.rxRoom (s : State) (a p : Nat) : Nat := 65536 - (s.ing.rx.get (4 * a + p)).data.length

/-- Bytes of a flow written to a buffer. -/
def State.rxPut (s : State) (f a p : Nat) (b : List Byte) : State :=
  if b.isEmpty then s
  else ((s.onIng fun g => { g with rx := g.rx.upd (4 * a + p) fun x => { x with data := x.data ++ b } }).onFlow f fun x =>
    { x with bytes := x.bytes + BitVec.ofNat 48 b.length }).paceUpdate a

/-- A block ends at the buffer's present fill (R156). -/
def State.rxMark (s : State) (a p : Nat) : State :=
  (s.onIng fun g => { g with rx := g.rx.upd (4 * a + p) fun x => { x with marks := x.marks ++ [x.data.length] } }).paceUpdate a

/-- Whether an owed fill is for a flow's data in a buffer. -/
def Owed.isFor (e : Owed) (f a p : Nat) : Bool := e.flow == f && e.activity == a && e.port == p

/-- Bytes of fill owed by a flow to a buffer. -/
def State.owedTo (s : State) (f a p : Nat) : Nat := ((s.ing.owed.filter fun e => e.isFor f a p).map (·.bytes)).sum

/-- More fill is owed. -/
def State.owe (s : State) (f a p n : Nat) : State :=
  if n = 0 then s else s.onIng fun g => { g with owed := g.owed ++ [{ flow := f, port := p, activity := a, bytes := n }] }

/-- One owed fill is written as far as there is room; what is left of it is owed on. -/
def State.fillOne (s : State) (e : Owed) : State × List Owed :=
  let k := min e.bytes (s.rxRoom e.activity e.port)
  let s1 := s.rxPut e.flow e.activity e.port (List.replicate k 0)
  if k = e.bytes then (if e.mark then s1.rxMark e.activity e.port else s1, [])
  else (s1, [{ e with bytes := e.bytes - k }])

/-- The fill a flow owes is written in order. -/
def State.fillFlow (s : State) (f : Nat) : State :=
  let (s1, left) := s.ing.owed.foldl (fun (acc : State × List Owed) e =>
    if e.flow = f then
      let (t, l) := acc.1.fillOne e
      (t, acc.2 ++ l)
    else (acc.1, acc.2 ++ [e])) (s, [])
  s1.onIng fun g => { g with owed := left }

/-- ZERO_FILL. -/
def execZeroFill (flow : Nat) (s : State) : Host.Outcome State Fault Refusal :=
  .next (if !s.live then s else commit (s.fillFlow flow))

/-! ### Correction (R307, R308) -/

/-- One pixel in column `x`. -/
def calPixel (c : CalSet) (x : Nat) (p : Byte) : Byte :=
  let v := (((p.toNat : Int) * 16 - (c.dark.getD x 0 : Nat)) * (c.gain.getD x 0x4000 : Nat) + 131072) / 262144
  BitVec.ofNat 8 (min 255 (max 0 v)).toNat

/-- The bytes of a packet at an offset in its block. -/
def GvBlock.correct (g : GvBlock) (off : Nat) (b : List Byte) : List Byte :=
  match g.table with
  | none => b
  | some c => (b.zip (List.range b.length)).map fun x => calPixel c ((off + x.2) % g.sizeX) x.1

/-! ### GVSP (R305, R306) -/

/-- The block of a stream. -/
def State.gvBlock (s : State) (key : List Nat) : Option GvBlock := s.ing.blocks.find? fun g => g.key == key

/-- A stream's block replaced. -/
def State.putBlock (s : State) (g : GvBlock) : State :=
  s.onIng fun x => { x with blocks := (x.blocks.filter fun y => y.key != g.key) ++ [g] }

/-- A gap: missing bytes are owed, counted as GVSP_GAP and added to FLOW_LOST by packet. -/
def State.gvGap (s : State) (g : GvBlock) (bytes packets : Nat) : State :=
  if bytes = 0 then s
  else ((s.owe g.rcd.flow g.activity g.rcd.port bytes).flowLost g.rcd.flow packets).evPort g.rcd.port 4 (some g.activity)

/-- The bytes a block still lacks, and the packets they are; one packet where the payload size never became known (log 32). -/
def GvBlock.lacking (g : GvBlock) : Nat × Nat :=
  let n := g.size - g.pos
  (n, if g.payload = 0 then (if n = 0 then 0 else 1) else (n + g.payload - 1) / g.payload)

/-- A stream's block that never got its trailer owes what it lacks. -/
def State.gvAbandon (s : State) (key : List Nat) : State :=
  match s.gvBlock key with
  | some g => if g.isOpen && !g.skip then s.gvGap g g.lacking.1 g.lacking.2 else s
  | none => s

/-- The Mono8 pixel format. -/
def mono8 : Nat := 0x01080001

/-- A leader under the record it matches: parity, size and calibration table are fixed for the block. -/
def State.gvLeader (s : State) (r : NetFlow) (key : List Nat) (blockId ptype pixfmt sx sy : Nat) : State :=
  let p := r.port
  let s0 := s.gvAbandon key
  let a := r.act s.oddTick
  if !s.steers a then ((s0.onIng fun x => { x with blocks := x.blocks.filter fun y => y.key != key }).noMatch p)
  else
    let g : GvBlock := { key := key, rcd := r, odd := s.oddTick, activity := a, blockId := blockId, size := sx * sy, sizeX := sx }
    if ptype ≠ 1 || pixfmt ≠ mono8 then
      (((s0.putBlock { g with skip := true }).rxDrop p).flowLost r.flow 1).evPort p 5 (some a)
    else
      let c := s0.ing.cal.get r.calSet
      if r.calSet = 0xFF || c.width = 0 then (s0.putBlock g).rxTaken p
      else if c.width ≠ sx then ((s0.putBlock g).rxTaken p).evPort p 8 (some a)
      else (s0.putBlock { g with table := some c }).rxTaken p

/-- The open block that a packet belongs to, under the record it now matches: a record changed in mid-block steers the
rest anew and counts BLOCK_SPLIT (R303). None: the packet is dropped, and counted with the block's unsupported ones. -/
def State.gvFollow (s : State) (r : NetFlow) (key : List Nat) (blockId : Nat) : State × Option GvBlock :=
  let drop := fun (s : State) => (s.rxDrop r.port).flowLost r.flow 1
  match s.gvBlock key with
  | none => (drop s, none)
  | some g =>
    if g.skip then ((drop s).evPort r.port 5 (some g.activity), none)
    else if !g.isOpen || g.blockId ≠ blockId then (drop s, none)
    else if g.rcd = r then (s, some g)
    else
      let g1 := { g with rcd := r, activity := r.act g.odd }
      ((s.putBlock g1).evPort r.port 9 (some g1.activity), some g1)

/-- A payload packet: gaps before it are owed; it is corrected and written behind any owed fill, or dropped with its bytes
joining the fill (R304, R306, R307). -/
def State.gvPayload (s : State) (r : NetFlow) (key : List Nat) (blockId pid : Nat) (b : List Byte) : State :=
  match s.gvFollow r key blockId with
  | (s1, none) => s1
  | (s1, some g) =>
    let p := r.port
    let f := r.flow
    if b.isEmpty || pid < g.nextPacket then (s1.rxDrop p).flowLost f 1
    else
      let psz := if g.payload = 0 then b.length else g.payload
      let off := min ((pid - 1) * psz) g.size
      let s2 := s1.gvGap g (off - g.pos) (pid - g.nextPacket)
      let d := b.take (g.size - off)
      let s3 := s2.putBlock { g with payload := psz, nextPacket := pid + 1, pos := off + d.length }
      if s3.rxRoom g.activity p < s3.owedTo f g.activity p + d.length then
        (((s3.owe f g.activity p d.length).rxDrop p).flowLost f 1).evPort p 3 (some g.activity)
      else ((s3.fillFlow f).rxPut f g.activity p (g.correct off d)).rxTaken p

/-- A trailer ends its block: what it lacks is owed, and the end of the block follows the fill. -/
def State.gvTrailer (s : State) (r : NetFlow) (key : List Nat) (blockId : Nat) : State :=
  match s.gvFollow r key blockId with
  | (s1, none) => s1
  | (s1, some g) =>
    let s2 := ((s1.gvGap g g.lacking.1 g.lacking.2).putBlock { g with isOpen := false, pos := g.size }).rxTaken r.port
    if s2.owedTo r.flow g.activity r.port = 0 then s2.rxMark g.activity r.port
    else s2.onIng fun x => { x with owed := x.owed ++ [{ flow := r.flow, port := r.port, activity := g.activity, mark := true }] }

/-- A GVSP datagram under the record it matches. -/
def State.gvspOn (s : State) (p srcIp srcUdp dstUdp : Nat) (f : State → NetFlow → List Nat → State) : State :=
  if !s.portOn p then s
  else match s.flowFor p srcIp srcUdp dstUdp 0 with
    | some r => if r.proto = 0 && s.tick.running then f s r [p, srcIp, srcUdp, dstUdp] else s.noMatch p
    | none => s.noMatch p

/-- GVSP_LEADER. -/
def execGvspLeader (port srcIp srcUdp dstUdp blockId payloadType pixelFormat sizeX sizeY : Nat) (s : State) :
    Host.Outcome State Fault Refusal :=
  .next (if !s.live then s else commit (s.gvspOn port srcIp srcUdp dstUdp fun s r k =>
    s.gvLeader r k blockId payloadType pixelFormat sizeX sizeY))

/-- GVSP_PAYLOAD. -/
def execGvspPayload (port srcIp srcUdp dstUdp blockId packetId : Nat) (bytes : List Byte) (s : State) :
    Host.Outcome State Fault Refusal :=
  .next (if !s.live then s else commit (s.gvspOn port srcIp srcUdp dstUdp fun s r k => s.gvPayload r k blockId packetId bytes))

/-- GVSP_TRAILER. -/
def execGvspTrailer (port srcIp srcUdp dstUdp blockId : Nat) (s : State) : Host.Outcome State Fault Refusal :=
  .next (if !s.live then s else commit (s.gvspOn port srcIp srcUdp dstUdp fun s r k => s.gvTrailer r k blockId))

/-! ### RTP (R309, R310) -/

/-- What one RTP payload yields: NAL units in order and the fragmented unit that stays open; `bad` an unsupported packet;
`orphan` a fragment whose start is missing. -/
structure NalOut where
  nals : List (List Byte) := []
  fu : Option (List Byte) := none
  bad : Bool := false
  orphan : Bool := false

/-- The units of an aggregation packet: 16-bit big-endian sizes and units, up to the first that does not fit. -/
def aggUnits : Nat → List Byte → List (List Byte)
  | 0, _ => []
  | n + 1, b =>
    let len := beField b 0 2
    if b.length < 2 + len || len = 0 then [] else (b.drop 2).take len :: aggUnits n (b.drop (2 + len))

/-- A fragment: start, end, the NAL header it rebuilds, and its bytes; `fu` is the unit in hand. -/
def fragment (start last : Bool) (hdr body : List Byte) (fu : Option (List Byte)) : NalOut :=
  let whole := if start then some (hdr ++ body) else fu.map (· ++ body)
  match whole with
  | none => { orphan := true }
  | some x => if last then { nals := [x] } else { fu := some x }

/-- An H.264 payload (RFC 6184): single units, STAP-A and FU-A. Units of type 31 are dropped. -/
def nals264 (b : List Byte) (fu : Option (List Byte)) : NalOut :=
  let t := u8 b 0 % 32
  let keep := fun (l : List (List Byte)) => l.filter fun x => u8 x 0 % 32 != 31
  if b.isEmpty then { bad := true }
  else if (1 ≤ t ∧ t ≤ 23) ∨ t = 31 then { nals := keep [b] }
  else if t = 24 then { nals := keep (aggUnits b.length (b.drop 1)) }
  else if t = 28 then
    let h := u8 b 1
    let r := fragment (h.testBit 7) (h.testBit 6) [BitVec.ofNat 8 (u8 b 0 / 32 * 32 + h % 32)] (b.drop 2) fu
    { r with nals := keep r.nals }
  else { bad := true }

/-- An H.265 payload (RFC 7798): single units, aggregation packets and fragmentation units. Units of type 63 are dropped. -/
def nals265 (b : List Byte) (fu : Option (List Byte)) : NalOut :=
  let t := u8 b 0 / 2 % 64
  let keep := fun (l : List (List Byte)) => l.filter fun x => u8 x 0 / 2 % 64 != 63
  if b.length < 2 then { bad := true }
  else if t < 48 ∨ t = 63 then { nals := keep [b] }
  else if t = 48 then { nals := keep (aggUnits b.length (b.drop 2)) }
  else if t = 49 then
    let h := u8 b 2
    let r := fragment (h.testBit 7) (h.testBit 6) [BitVec.ofNat 8 (u8 b 0 / 128 * 128 + 2 * (h % 64) + u8 b 0 % 2), byteAt b 1]
      (b.drop 3) fu
    { r with nals := keep r.nals }
  else { bad := true }

/-- A NAL unit in Annex B form. -/
def annexB (x : List Byte) : List Byte := [0, 0, 0, 1] ++ x

/-- A loss mark of `n` packets (R310). -/
def lossMark (proto n : Nat) : List Byte := annexB ((if proto = 1 then [0x1F] else [0x7E, 0x01]) ++ toBe 2 (n % 65536))

/-- An RTP packet's payload without CSRC list, extension and padding; none when it is malformed. -/
def rtpPayload (k : List Byte) : Option (List Byte) :=
  let b0 := u8 k 0
  let o := 12 + 4 * (b0 % 16)
  let o2 := if b0.testBit 4 then o + 4 + 4 * beField k (o + 2) 2 else o
  let pad := if b0.testBit 5 then u8 k (k.length - 1) else 0
  if k.length < o2 + pad || b0 / 64 ≠ 2 then none else some ((k.drop o2).take (k.length - o2 - pad))

/-- An RTP packet under the record it matches (R309, R310). -/
def State.rtpTake (s : State) (r : NetFlow) (k : List Byte) : State :=
  let p := r.port
  let f := r.flow
  let a := r.act s.oddTick
  let x := s.ing.flows.get f
  let seq := beField k 2 2
  let d := match x.rtpNext with
    | some e => (seq + 65536 - e) % 65536
    | none => 0
  let drop := fun (s : State) => ((s.rxDrop p).flowLost f 1).onFlow f fun x => { x with dropped := x.dropped + 1 }
  if !s.steers a then s.noMatch p
  else if 32768 < d then (s.rxDrop p).flowLost f 1
  else match rtpPayload k with
    | none => (drop s).evPort p 7 (some a)
    | some b =>
      let fu := if x.fuOpen && d = 0 then some x.fuBytes else none
      let n := if r.proto = 1 then nals264 b fu else nals265 b fu
      let gapMark := if d = 0 then [] else lossMark r.proto d
      let orphanMark := n.orphan && d = 0 && !x.fuSkip
      let out := gapMark ++ (if orphanMark then lossMark r.proto 1 else []) ++ n.nals.flatMap annexB
      if n.bad then (drop s).evPort p 7 (some a)
      else if s.rxRoom a p < out.length then (drop s).evPort p 3 (some a)
      else
        let s1 := if d = 0 then s else (s.flowLost f (d - x.dropped)).evPort p 6 (some a)
        let s2 := if orphanMark then s1.evPort p 6 (some a) else s1
        let s3 := (s2.onFlow f fun x => { x with
          rtpNext := some ((seq + 1) % 65536), dropped := 0, fuOpen := n.fu.isSome, fuBytes := n.fu.getD []
          fuSkip := n.orphan }).rxPut f a p out
        let s4 := if n.orphan then (s3.rxDrop p).flowLost f 1 else s3.rxTaken p
        if (u8 k 1).testBit 7 then s4.rxMark a p else s4

/-- An RTP datagram under the record it matches. -/
def State.rtpOn (s : State) (p srcIp dstUdp : Nat) (k : List Byte) : State :=
  if !s.portOn p then s
  else match s.flowFor p srcIp 0 dstUdp (beField k 8 4) with
    | some r => if r.proto ≠ 0 && s.tick.running then s.rtpTake r k else s.noMatch p
    | none => s.noMatch p

/-- RTP_PACKET. -/
def execRtpPacket (port srcIp dstUdp : Nat) (packet : List Byte) (s : State) : Host.Outcome State Fault Refusal :=
  .next (if !s.live then s else commit (s.rtpOn port srcIp dstUdp packet))

/-! ### Frames out and ARP (R315) -/

/-- The port's MAC address. -/
def State.portMac (s : State) (p : Nat) : BitVec 48 := Config.portMac s.keep.accession p

/-- An Ethernet frame: addresses, the port's tag if any, padding to the 64-byte minimum, FCS. -/
def ethBytes (dst src : BitVec 48) (vlan et : Nat) (payload : List Byte) : List Byte :=
  let h := toBe 6 dst.toNat ++ toBe 6 src.toNat ++ (if vlan = 0 then [] else toBe 2 0x8100 ++ toBe 2 vlan) ++ toBe 2 et ++ payload
  let body := sliceZ h 0 (max 60 h.length)
  body ++ toLe 4 (crc32 body).toNat

/-- A frame leaves a port. -/
def State.ethOut (s : State) (p et : Nat) (dst : BitVec 48) (payload : List Byte) : State :=
  s.out { kind := .eth, port := p, code := et, bytes := ethBytes dst (s.portMac p) (s.portCfg p).vlan et payload }

/-- An ARP packet (RFC 826). -/
def arpBytes (op : Nat) (sha : BitVec 48) (spa : Nat) (tha : BitVec 48) (tpa : Nat) : List Byte :=
  toBe 2 1 ++ toBe 2 0x0800 ++ [6, 4] ++ toBe 2 op ++ toBe 6 sha.toNat ++ toBe 4 spa ++ toBe 6 tha.toNat ++ toBe 4 tpa

/-- ARP_REQUEST for the port's IPV4 is answered. -/
def State.arpAsk (s : State) (p senderIp : Nat) (senderMac : BitVec 48) (targetIp : Nat) : State :=
  if !s.portOn p then s
  else if targetIp = (s.portCfg p).ipv4 then
    (s.rxTaken p).ethOut p 0x0806 senderMac (arpBytes 2 (s.portMac p) targetIp senderMac senderIp)
  else s.rxTaken p

/-- ARP_REQUEST. -/
def execArpRequest (port senderIp : Nat) (senderMac : BitVec 48) (targetIp : Nat) (s : State) :
    Host.Outcome State Fault Refusal :=
  .next (if !s.live then s else commit (s.arpAsk port senderIp senderMac targetIp))

/-- Whether an address is a multicast one. -/
def isMcast (ip : Nat) : Bool := ip / 2 ^ 28 == 0xE

/-- Whether an address is a unicast destination of a port's RESULT records. -/
def State.isDest (s : State) (p ip : Nat) : Bool :=
  !isMcast ip && s.b.netw.results.any fun r => r.port == p && r.dstIp == ip

/-- Update the ARP entry of an address. -/
def arpUpd (ip : Nat) (f : ArpEntry → ArpEntry) (l : List ArpEntry) : List ArpEntry :=
  match l.find? fun e => e.ip == ip with
  | some e => (l.filter fun x => x.ip != ip) ++ [f e]
  | none => l ++ [f { ip := ip }]

/-- ARP_REPLY installs a destination's MAC address. -/
def State.arpTell (s : State) (p ip : Nat) (mac : BitVec 48) : State :=
  if !s.portOn p then s
  else if s.isDest p ip then
    let f := fun (e : ArpEntry) => { e with mac := some mac, lastReply := s.tb.time }
    (s.rxTaken p).onPort p fun x => { x with arp := arpUpd ip f x.arp }
  else s.rxTaken p

/-- ARP_REPLY. -/
def execArpReply (port ip : Nat) (mac : BitVec 48) (s : State) : Host.Outcome State Fault Refusal :=
  .next (if !s.live then s else commit (s.arpTell port ip mac))

/-- ARP_TIMER: a request for a unicast destination goes out every 60 s, and every second while unanswered. -/
def State.arpSend (s : State) (p ip : Nat) : State :=
  let e := ((s.ing.ports.get p).arp.find? fun e => e.ip == ip).getD { ip := ip }
  let gap := if e.lastRequest ≤ e.lastReply && e.mac.isSome then 60000000000 else 1000000000
  if s.portOn p && s.isDest p ip && (decide (e.lastRequest + gap ≤ s.tb.time) || e.lastRequest == 0) then
    (s.onPort p fun x => { x with arp := arpUpd ip (fun e => { e with lastRequest := s.tb.time }) x.arp }).ethOut p 0x0806
      0xFFFFFFFFFFFF (arpBytes 1 (s.portMac p) (s.portCfg p).ipv4 0 ip)
  else s

/-- ARP_TIMER. -/
def execArpTimer (port ip : Nat) (s : State) : Host.Outcome State Fault Refusal :=
  .next (if !s.live then s else commit (s.arpSend port ip))

/-- ARP_ENTRY_EXPIRE: an entry unanswered for 180 s is discarded. -/
def State.arpExpire (s : State) (p ip : Nat) : State :=
  s.onPort p fun x => { x with arp := x.arp.filter fun e => !(e.ip == ip && decide (e.lastReply + 180000000000 ≤ s.tb.time)) }

/-- ARP_ENTRY_EXPIRE. -/
def execArpEntryExpire (port ip : Nat) (s : State) : Host.Outcome State Fault Refusal :=
  .next (if !s.live then s else commit (s.arpExpire port ip))

/-! ### Whole frames (R302) -/

/-- A frame's tag and EtherType: (tags, VID, EtherType, offset of the payload). -/
def frameTag (b : List Byte) : Nat × Nat × Nat × Nat :=
  if beField b 12 2 = 0x8100 then (1, beField b 14 2 % 4096, beField b 16 2, 18) else (0, 0, beField b 12 2, 14)

/-- The FCS, length, tag and EtherType checks. -/
def frameOk (r : NetPort) (b : List Byte) : Bool :=
  let t := frameTag b
  let n := b.length
  decide (18 ≤ n) && leField b (n - 4) 4 == (crc32 (b.take (n - 4))).toNat
    && decide (n ≤ r.mtu + if t.1 = 1 then 22 else 18)
    && (if r.vlan = 0 then t.1 == 0 || t.2.1 == 0 else t.1 == 1 && t.2.1 == r.vlan)
    && (t.2.2.1 == 0x0800 || t.2.2.1 == 0x0806 || t.2.2.1 == 0x88F7)

/-- The IPv4 and UDP checks on the packet behind the header. -/
def ipOk (r : NetPort) (b : List Byte) : Bool :=
  let len := beField b 2 2
  let u := slice b 20 (len - 20)
  let dst := beField b 16 4
  u8 b 0 == 0x45 && onesSum (slice b 0 20) == 0xFFFF && beField b 6 2 % 0x4000 == 0 && u8 b 9 == 17
    && (dst == r.ipv4 || isMcast dst) && decide (28 ≤ len) && decide (len ≤ b.length) && beField u 4 2 == u.length
    && (beField u 6 2 == 0 || onesSum (slice b 12 8 ++ [0, 17] ++ toBe 2 u.length ++ u) == 0xFFFF)

/-- A signed 64-bit correction field in units of 2^-16 ns. -/
def ptpCorr (b : List Byte) : Int := signedOf 64 (beField b 8 8) / 65536

/-- A PTP timestamp in ns. -/
def ptpTime (b : List Byte) (o : Nat) : Nat := beField b o 6 * 1000000000 + beField b (o + 6) 4

/-- A PTP message (IEEE 1588-2019). -/
def State.ptpMessage (s : State) (p : Nat) (b : List Byte) : State :=
  let dom := u8 b 4
  let src := beField b 20 10
  let seq := beField b 30 2
  match u8 b 0 % 16 with
  | 0 => s.ptpSyncEff p dom src seq ((u8 b 6).testBit 1) (ptpTime b 34) (ptpCorr b)
  | 8 => s.ptpFollow p dom src seq (ptpTime b 34) (ptpCorr b)
  | 9 => s.ptpDelay p dom src seq (ptpTime b 34) (ptpCorr b) (signedOf 8 (u8 b 33))
  | 11 => s.ptpAnnounceEff p dom src [u8 b 47, u8 b 48, u8 b 49, beField b 50 2, u8 b 52, beField b 53 8, beField b 61 2]
  | _ => if s.discSrc = 1 && p = s.b.netw.glob.ptpPort then s.ptpTaken p else s.ptpDrop p

/-- A GVSP packet under the record it matches (GigE Vision): block and packet ID, 16-bit or extended, and its format. -/
def State.gvspPacket (s : State) (r : NetFlow) (key : List Nat) (b : List Byte) : State :=
  let ext := (u8 b 4).testBit 7
  let blk := if ext then beField b 8 8 else beField b 2 2
  let pid := if ext then beField b 16 4 else beField b 5 3
  let c := b.drop (if ext then 20 else 8)
  match u8 b 4 % 16 with
  | 1 => s.gvLeader r key blk (beField c 2 2) (beField c 12 4) (beField c 16 4) (beField c 20 4)
  | 2 => s.gvTrailer r key blk
  | 3 => s.gvPayload r key blk pid c
  | _ => ((s.rxDrop r.port).flowLost r.flow 1).evPort r.port 5 none

/-- ETHERNET_FRAME: the checks of R302 in order, then what the frame carries. -/
def State.frameIn (s : State) (p : Nat) (b : List Byte) : State :=
  let r := s.portCfg p
  let t := frameTag b
  let l3 := slice b t.2.2.2 (b.length - 4 - t.2.2.2)
  let bad := fun (s : State) => (s.rxDrop p).evPort p 1 none
  if !s.portOn p then s
  else if !frameOk r b then bad s
  else if t.2.2.1 = 0x0806 then
    (if slice l3 0 6 ≠ toBe 2 1 ++ toBe 2 0x0800 ++ [6, 4] then bad s
     else if beField l3 6 2 = 1 then s.arpAsk p (beField l3 14 4) (BitVec.ofNat 48 (beField l3 8 6)) (beField l3 24 4)
     else if beField l3 6 2 = 2 then s.arpTell p (beField l3 14 4) (BitVec.ofNat 48 (beField l3 8 6))
     else s.rxTaken p)
  else if t.2.2.1 = 0x88F7 then s.ptpMessage p l3
  else if !ipOk r l3 then bad s
  else
    let src := beField l3 12 4
    let u := slice l3 20 (beField l3 2 2 - 20)
    let sport := beField u 0 2
    let dport := beField u 2 2
    let d := u.drop 8
    if dport = 319 || dport = 320 then s.ptpMessage p d
    else match s.flowFor p src sport dport (beField d 8 4) with
      | none => s.noMatch p
      | some f =>
        if !s.tick.running then s.noMatch p
        else if f.proto = 0 then s.gvspPacket f [p, src, sport, dport] d
        else s.rtpTake f d

/-- ETHERNET_FRAME. -/
def execEthernetFrame (port : Nat) (frame : List Byte) (s : State) : Host.Outcome State Fault Refusal :=
  .next (if !s.live then s else commit (s.frameIn port frame))

end Sys2Proof.Machine
end

