-- ==== Sys2Proof/Machine/Result.lean ====
section
/-! DEFINITION. Result records and verdict lines (spec/14 R312 to R318). -/

namespace Sys2Proof.Machine

/-! ### RESULT_OUT (R312 to R314) -/

/-- The verdict of a summary's class mask under the eight rules (R314). -/
def verdictOf (mask : Nat) (o : OpRec) : Nat :=
  ((List.range 8).map fun i => if mask &&& u64 o.params (48 + 8 * i) = 0 then 0 else 2 ^ i).sum

/-- FLAGS of a record (R312). -/
def resultFlags (stale degraded trunc : Bool) (f : OutFlags) : Nat :=
  (if stale then 1 else 0) + (if f.late then 2 else 0) + (if degraded then 4 else 0) + (if f.concealed then 8 else 0)
    + (if f.range then 16 else 0) + (if trunc then 32 else 0)

/-- The 64 bytes of a record, its SEQ left 0 until it is sent. -/
def State.resultBytes (s : State) (o : OpRec) (n : PrevTick) (summary user : List Byte) : List Byte :=
  let p := u8 o.params 8
  let stale := u64 summary 24 != n.num
  [0x01] ++ toLe 1 (if s.isMember then s.memberIdx else 0xFF) ++ toLe 1 (p / 16) ++ toLe 1 p ++ toLe 4 0 ++ toLe 8 n.num
    ++ toLe 8 n.start ++ toLe 1 (verdictOf (u64 summary 16) o)
    ++ toLe 1 (resultFlags stale s.pwr.degradedPrev ((u8 summary 12).testBit 0) (s.act p).flagsPrev)
    ++ toLe 2 (u32 summary 0) ++ toLe 2 n.planGen ++ toLe 1 n.profile ++ [0] ++ user

/-- The VDL bits of a mask that a verdict drives: the i-th set bit of the mask takes verdict bit i (R316). -/
def vdlBits (mask verdict : Nat) : Byte :=
  (((List.range 8).filter mask.testBit).zip (List.range 8)).foldl
    (fun (v : Byte) x => if verdict.testBit x.2 then bitSet v x.1 else v) 0

/-- The record joins the transmit FIFO of its port, reported in the queue's registers; one that is not STALE and without
NO_VDL is armed to update the lines. -/
def State.resultPlace (s : State) (a : Nat) (o : OpRec) (r : NetResult) (n : PrevTick) (b : List Byte) : State :=
  let s1 := s.onIng fun g => { g with tx := g.tx.upd r.port fun l => l ++ [{ activity := a, bytes := b, tick := some n.num }] }
  let s2 := if (u8 b 25).testBit 0 || (u8 o.params 9).testBit 0 then s1
    else s1.onIng fun g => { g with vdl := { g.vdl with
      armed := (g.vdl.armed.filter fun x => x.1 != a) ++ [(a, BitVec.ofNat 8 r.vdlMask, vdlBits r.vdlMask (u8 b 24))] } }
  let s3 := (s2.onQueue a fun q => { q with
    bytes := q.bytes + 64, code := 0, late := false, codeTick := s.tick.num % 65536 }).evQueue a 0
  s3.opOutcome a 0

/-- Whether a record of the activity for a tick was sent or waits. -/
def State.reported (s : State) (a port n : Nat) : Bool :=
  (s.ing.res.get a).lastTick == some n || (s.ing.tx.get port).any fun x => x.activity == a && x.tick == some n

/-- The work of RESULT_OUT: nothing without a tick to report or for one already reported; else the record, once the FIFO
has room (R314). -/
def State.resultWork (s : State) (a : Nat) (o : OpRec) : State :=
  match s.b.resultOf a, s.tick.prev with
  | some r, some n =>
    if s.reported a r.port n.num then s.opOutcome a 0
    else
      let userAt := o.p32 4
      let rds := (o.p32 0, 64) :: if absent userAt then [] else [(userAt, 32)]
      match s.firstRefusal a false rds with
      | .ok =>
        if 128 ≤ (s.ing.tx.get r.port).length then s
        else
          let user := if absent userAt then List.replicate 32 0 else s.spGet (a / 16) userAt 32
          s.resultPlace a o r n (s.resultBytes o n (s.spGet (a / 16) (o.p32 0) 64) user)
      | x => s.loanFault a x
  | _, _ => s.opOutcome a 0

/-- RESULT_OUT in a crossbar reservation toward ingest (R98). -/
def State.resultOut (s : State) (a : Nat) : State :=
  match s.opReady a 0x0501 8 0x10 with
  | some o => (s.opBegin a o).resultWork a o
  | none => match s.opInHand a 0x0501 with
    | some r => if s.holdsFor a 8 0x10 r.seq then s.resultWork a (s.opOf a) else s
    | none => s

/-- RESULT_OUT. -/
def execResultOut (a : Nat) (s : State) : Host.Outcome State Fault Refusal :=
  .next (if !s.live then s else commit (s.resultOut a))

/-! ### Sending (R315, R318) -/

/-- An IPv4 header (RFC 791) without options; the identification and the time to live, which the spec does not state, are
free bytes. -/
def ipHeader (len : Nat) (free : List Byte) (src dst : Nat) : List Byte :=
  let h := fun (c : Nat) => [0x45, 0] ++ toBe 2 len ++ sliceZ free 0 2 ++ [0, 0] ++ sliceZ free 2 1 ++ [17] ++ toBe 2 c
    ++ toBe 4 src ++ toBe 4 dst
  h (65535 - onesSum (h 0))

/-- A UDP datagram with its checksum (RFC 768). -/
def udpBytes (src dst sport dport : Nat) (d : List Byte) : List Byte :=
  let n := 8 + d.length
  let u := fun (c : Nat) => toBe 2 sport ++ toBe 2 dport ++ toBe 2 n ++ toBe 2 c ++ d
  let c := 65535 - onesSum (toBe 4 src ++ toBe 4 dst ++ [0, 17] ++ toBe 2 n ++ u 0)
  u (if c = 0 then 0xFFFF else c)

/-- The MAC address for a destination: the RFC 1112 mapping or the port's ARP entry. -/
def State.macFor (s : State) (p ip : Nat) : Option (BitVec 48) :=
  if isMcast ip then some (BitVec.ofNat 48 (0x01005E000000 + ip % 2 ^ 23))
  else match (s.ing.ports.get p).arp.find? fun e => e.ip == ip with
    | some e => e.mac
    | none => none

/-- A record is sent: it takes its SEQ, and TX_RECORDS and the activity's counters advance. -/
def State.resultGo (s : State) (p : Nat) (r : NetResult) (x : TxRec) (mac : BitVec 48) : State :=
  let c := s.ing.res.get x.activity
  let b := if x.tick.isSome then splice 4 (toLe 4 c.seq.toNat) x.bytes else x.bytes
  let src := (s.portCfg p).ipv4
  let ip := ipHeader (28 + b.length) (s.freeBytes 3) src r.dstIp ++ udpBytes src r.dstIp r.srcUdp r.dstUdp b
  let s1 := ((s.tookFree 3).ethOut p 0x0800 mac ip).onPort p fun y => { y with txRecords := y.txRecords + 1 }
  s1.onIng fun g => { g with res := g.res.upd x.activity fun c =>
    if x.tick.isSome then { c with seq := c.seq + 1, lastTick := x.tick } else c }

/-- RESULT_RECORD_SEND: the oldest record of a port leaves in its activity's reservation on the port. A module that may not
drive sends none; a link that is down counts TX_DROP, a missing ARP entry NO_ARP. -/
def State.resultSend (s : State) (p : Nat) : State :=
  match s.ing.tx.get p with
  | [] => s
  | x :: rest =>
    match s.b.resultOf x.activity with
    | none => s
    | some r =>
      if !s.holds x.activity 11 p then s
      else
        let s1 := (s.onIng fun g => { g with tx := g.tx.set p rest }).paceUpdate x.activity
        if !s1.mayDrive then s1
        else if !s1.portOn p then s1.evPort p 11 (some x.activity)
        else match s1.macFor p r.dstIp with
          | none => s1.evPort p 10 (some x.activity)
          | some m => s1.resultGo p r x m

/-- RESULT_RECORD_SEND. -/
def execResultRecordSend (port : Nat) (s : State) : Host.Outcome State Fault Refusal :=
  .next (if !s.live then s else commit (s.resultSend port))

/-! ### Verdict lines (R316 to R318) -/

/-- Update the verdict lines. -/
def State.onVdl (s : State) (f : Vdl → Vdl) : State := s.onIng fun g => { g with vdl := f g.vdl }

/-- VDL_UPDATE: at the start of the port reservation the armed update of an activity begins, if the module may drive
outputs; VDL_VALID falls (R317). -/
def State.vdlUpdateEff (s : State) (a : Nat) : State :=
  match s.ing.vdl.armed.find? fun x => x.1 == a, s.b.resultOf a with
  | some x, some r =>
    if !s.holds a 11 r.port then s
    else
      let s1 := s.onVdl fun v => { v with armed := v.armed.filter fun y => y.1 != a }
      if !s1.mayDrive then s1
      else s1.onVdl fun v => { v with valid := false, begun := v.begun ++ [(s.tb.time + 100, x.2)], riseAt := some (s.tb.time + 200) }
  | _, _ => s

/-- VDL_UPDATE. -/
def execVdlUpdate (a : Nat) (s : State) : Host.Outcome State Fault Refusal :=
  .next (if !s.live then s else commit (s.vdlUpdateEff a))

/-- VDL_CHANGE: 100 ns after an update began, its lines take their values. -/
def State.vdlChangeEff (s : State) : State :=
  match s.ing.vdl.begun with
  | [] => s
  | x :: rest =>
    if x.1 ≤ s.tb.time then s.onVdl fun v => { v with lines := (v.lines &&& ~~~ x.2.1) ||| x.2.2, begun := rest } else s

/-- VDL_CHANGE. -/
def execVdlChange (s : State) : Host.Outcome State Fault Refusal :=
  .next (if !s.live then s else commit s.vdlChangeEff)

/-- VDL_VALID_RISE: 200 ns after the latest update began, with its lines changed. -/
def State.vdlRise (s : State) : State :=
  match s.ing.vdl.riseAt with
  | some t => if s.ing.vdl.begun.isEmpty && decide (t ≤ s.tb.time) then s.onVdl fun v => { v with valid := true, riseAt := none } else s
  | none => s

/-- VDL_VALID_RISE. -/
def execVdlValidRise (s : State) : Host.Outcome State Fault Refusal :=
  .next (if !s.live then s else commit s.vdlRise)

end Sys2Proof.Machine
end

