-- ==== Sys2Proof/Machine/Sched.lean ====
section
/-! DEFINITION. Reservations and the op sequence (spec/02 R30 to R33, R39; spec/04 R97 to R99; spec/07 R163). -/

namespace Sys2Proof.Machine

/-! ### Reservations (R30 to R33, R39) -/

/-- The resource a reservation names (R31): per channel for engines, codec and crossbar, per target for GDDR6, per module
for lanes, host link and ingest ports. The codec slots of a channel are one resource. -/
def resourceOf (ch cls inst : Nat) : Nat × Nat × Nat :=
  if cls ≤ 4 then (cls, ch, inst) else if cls ≤ 6 then (cls, ch, 0) else if cls = 7 then (7, inst, 0)
  else if cls = 8 then (8, ch, inst) else (cls, inst, 0)

/-- Whether slot `e` after the boundary lies in a run of a reservation; single ones do not run during a stretch (R33). -/
def Reservation.runsAt (r : Reservation) (e : Nat) (stretching : Bool) : Bool :=
  if r.rep = 0 then !stretching && decide (r.start ≤ e) && decide (e < r.start + r.length)
  else decide (r.start ≤ e) && decide ((e - r.start) % r.rep < r.length)

/-- Whether a reservation of an activity may begin now: the plan has it at this instant, or in a hold the activity is an
outstanding STRETCH one that has reservations on the resource; and no other activity holds it (R32, R33, R39). -/
def State.resStarts (s : State) (a ch cls inst opseq : Nat) : Bool :=
  let e := (s.tb.time - s.tick.start) / 8
  let mine := s.block.1.res.filter fun r => r.activity == a && r.channel == ch && r.cls == cls && r.inst == inst
    && r.opseq == opseq
  s.bound && s.tick.running && s.active a
    && ((mine.any fun r => r.runsAt e s.boundaryHeld)
      || (!mine.isEmpty && s.boundaryHeld && s.outstanding a && (s.actPlan a).overrun == 0))
    && !(s.acts.any fun x => x.1 != a && x.2.held.any fun h =>
        resourceOf h.channel h.cls h.inst == resourceOf ch cls inst)

/-- The ME goes on with the op in hand: the saved accumulators are read back first (R187). -/
def State.meResume (s : State) (a budget cycles line : Nat) : State :=
  match (s.act a).run with
  | some r =>
    if r.code.isSome || r.loading || !(r.opcode == 0x0101 || r.opcode == 0x0102) || !s.holdsFor a 1 0 r.seq then s
    else
      let o := s.opOf a
      let job := fun (s : State) => if r.opcode = 0x0101 then matmulJob s (a / 16) o else convJob s (a / 16) o
      let j := job s
      let s1 := if r.saved then s.meRestore a j.saveAddr (if r.kt = 0 then 0 else 48 * j.rowsOf r.unit) else s
      (((meRun job a r.opcode budget (s1.meTake a)).meCycles a cycles).meSettle a).opEcc a line
  | none => s

/-- The AE goes on with the op in hand (R231, R237). -/
def State.aeResume (s : State) (a budget cycles line : Nat) : State :=
  match (s.act a).run with
  | some r =>
    if r.code.isSome || !s.holdsFor a 2 0 r.seq then s
    else if r.opcode = 0x0201 then
      let x := attnShape (s.opOf a)
      if r.snap.isNone then s
      else (if r.saved then s.attnRestore a x else s.aeTake a).aeWork (fun s r => s.attnStep a x line r) a 0x0201 budget cycles
    else if r.opcode = 0x0202 then
      let o := s.opOf a
      (s.aeTake a).aeWork (fun s r => s.gemvStep a o line r) a 0x0202 budget cycles
    else s
  | none => s

/-- The PST goes on with a SAMPLE or DRAFT op at the first sequence whose group is not written (R278). -/
def State.pstResume (s : State) (a budget : Nat) : State :=
  match s.opInHand a 0x0403 with
  | some r =>
    if !s.holdsFor a 4 0 r.seq then s
    else if (s.opOf a).fn = 0 then seqRun a false budget s
    else if (s.opOf a).fn = 1 then seqRun a true budget s
    else s
  | none => s

/-- The codec engines go on with the picture in hand of a slot; `cycles` of its bound are used (R284, R296). -/
def State.codecResume (s : State) (ch k cycles : Nat) : State :=
  if (s.slot ch k).state == .running && !(s.slot ch k).waiting.isEmpty
  then s.onSlot ch k fun x => { x with cycles := x.cycles + cycles } else s

/-- RESERVATION_START: the activity holds the resource, and saved or pending work on it resumes. -/
def State.resStart (s : State) (a ch cls inst opseq budget cycles line : Nat) : State :=
  if !s.resStarts a ch cls inst opseq then s
  else
    let s1 := s.onAct a fun x => { x with held := x.held ++ [{ channel := ch, cls := cls, inst := inst, opseq := opseq }] }
    if decide (cls ≤ 4) && s1.unitIdle (match cls with
      | 1 => unitOf ch 0
      | 2 => unitOf ch 1
      | 4 => unitOf ch 6
      | _ => unitOf ch (2 + inst)) then s1
    else match cls with
      | 1 => s1.meResume a budget cycles line
      | 2 => s1.aeResume a budget cycles line
      | 4 => s1.pstResume a budget
      | 5 => s1.codecResume ch inst cycles
      | 6 => s1.codecResume ch inst cycles
      | 7 => s1.reseal a inst budget
      | _ => s1

/-- RESERVATION_START. -/
def execReservationStart (a ch cls inst opseq budget cycles line : Nat) (s : State) : Host.Outcome State Fault Refusal :=
  .next (if !s.live then s else commit (s.resStart a ch cls inst opseq budget cycles line))

/-- Unfinished work on a resource that is released: the ME and an ATTN save their state, a GEMV_STREAM discards the block
in progress, and restarted ops keep nothing (R187, R231, R237). -/
def State.resRelease (s : State) (a cls : Nat) : State :=
  match (s.act a).run with
  | some r =>
    if r.code.isSome || r.loading || r.saved then s
    else if cls = 1 ∧ r.opcode = 0x0101 then s.meSave a (matmulJob s (a / 16) (s.opOf a)).saveAddr r
    else if cls = 1 ∧ r.opcode = 0x0102 then s.meSave a (convJob s (a / 16) (s.opOf a)).saveAddr r
    else if cls = 2 ∧ r.opcode = 0x0201 then (if r.snap.isSome then s.attnSave a (attnShape (s.opOf a)) else s)
    else if cls = 2 ∧ r.opcode = 0x0202 then s.aeSet (a / 16) fun e => { e with busy := false }
    else s
  | none => s

/-- RESERVATION_END: unfinished work is saved or released. -/
def State.resEnd (s : State) (a ch cls inst : Nat) : State :=
  let same := fun (h : Held) => h.channel == ch && h.cls == cls && h.inst == inst
  if !(s.act a).held.any same then s
  else (s.resRelease a cls).onAct a fun x => { x with held := x.held.filter fun h => !same h }

/-- RESERVATION_END. -/
def execReservationEnd (a ch cls inst : Nat) (s : State) : Host.Outcome State Fault Refusal :=
  .next (if !s.live then s else commit (s.resEnd a ch cls inst))

/-- Every reservation an activity still holds ends, as at a boundary. -/
def State.releaseAll (s : State) (a : Nat) : State :=
  (s.act a).held.foldl (fun (s : State) h => s.resEnd a h.channel h.cls h.inst) s

/-! ### COPY (R163) -/

/-- COPY loads the activity's queue, inline or with a chain head, in a general-core reservation; it ends with the queue. -/
def State.copyOp (s : State) (a : Nat) : State :=
  match (List.range 4).findSome? fun c => s.opReady a 0x0301 3 c with
  | none => s
  | some o =>
    if (s.queue a).busy then s
    else
      let s1 := s.opBegin a o
      if u8 o.params 0 = 0 then s1.queueLoad a (descProg (slice o.params 48 64))
      else (s1.onQueue a fun q => { q with chainHead := BitVec.ofNat 27 (u32 o.params 4) }).queueGo a

/-- COPY. -/
def execCopy (a : Nat) (s : State) : Host.Outcome State Fault Refusal :=
  .next (if !s.live then s else commit (s.copyOp a))

/-! ### OP_END (R99, R42) -/

/-- The activity's work of its tick is over. CARRY work of tick n that ends in tick n + 1 flags tick n LATE, and the
activity goes on with the work of the present tick (R41, R42). -/
def State.actDone (s : State) (a : Nat) : State :=
  if (s.act a).carry then
    (s.flagLate a).onAct a fun x => { x with
      carry := false, workTick := s.tick.num, seqNext := 0, ended := []
      finished := s.tick.filler && (s.actPlan a).skipFiller }
  else s.onAct a fun x => { x with finished := true }

/-- OP_END: the op with an outcome leaves. After OK the next op follows unless this one is LAST or the highest; any other
code skips the rest, which count as ended (R99). -/
def State.opEnd (s : State) (a : Nat) : State :=
  match (s.act a).run with
  | none => s
  | some r => match r.code with
    | none => s
    | some c =>
      let o := (s.b.opAt a r.seq).getD {}
      let more := c == 0 && !o.last && (s.b.opAt a (r.seq + 1)).isSome
      let s1 := s.onAct a fun x => { x with
        run := none, seqNext := r.seq + 1
        ended := if c = 0 then x.ended ++ [r.seq] else x.ended ++ ((s.b.opsOf a).map (·.seq)).filter (r.seq ≤ ·) }
      if more then s1 else s1.actDone a

/-- OP_END. -/
def execOpEnd (a : Nat) (s : State) : Host.Outcome State Fault Refusal :=
  .next (if !s.live then s else commit (s.opEnd a))

end Sys2Proof.Machine
end

