-- ==== Sys2Proof/Machine/Overrun.lean ====
section
/-! DEFINITION. Overrun policies: abandoned, cut and carried work (spec/02 R37 to R42). -/

namespace Sys2Proof.Machine

/-- An engine's registers once the op in hand of activity `a` is abandoned: an op without an outcome ends with CUT, and
an engine that still shows the activity is free (R187, R231; log 49). -/
def EngineRegs.leave (e : EngineRegs) (a : Nat) (open_ : Bool) : EngineRegs :=
  let e1 := if open_ then { e with code := 1 } else e
  if e.activity = a then { e1 with busy := false, saved := false, waiting := false } else e1

/-- The engines' registers once an activity's op is no longer in hand. -/
def State.enginesLeave (s : State) (a : Nat) : State :=
  match (s.act a).run with
  | some r =>
    if r.opcode / 256 = 1 then s.meSet (a / 16) fun e => e.leave a r.code.isNone
    else if r.opcode / 256 = 2 then s.aeSet (a / 16) fun e => e.leave a r.code.isNone
    else s
  | none => s

/-- An activity's op in hand is given up, with the edit or transfer it drives (R40, R162, R250). -/
def State.dropWork (s : State) (a : Nat) (w : QStop) : State :=
  let editing := match (s.act a).run with
    | some r => r.edit.isSome
    | none => false
  let s1 := if editing then (s.queueEnd a w.code).editDrop a else s.queueStop a w
  (s1.enginesLeave a).onAct a fun x => { x with run := none }

/-- An activity's remaining work of the tick is abandoned and its outputs are flagged LATE; its op ends with CUT and the ops
after it are skipped, so that none of them holds up an op that depends on it (R38, R40, R42, R99). -/
def State.abandon (s : State) (a : Nat) : State :=
  ((s.flagLate a).dropWork a .cut).onAct a fun x => { x with abandoned := true, ended := (s.b.opsOf a).map (·.seq) }

/-- The activities of a policy that are outstanding (R37). -/
def State.outstandingOf (s : State) (policy : Nat) : List Nat :=
  s.b.actList.filter fun a => (s.actPlan a).overrun == policy && s.outstanding a

/-- Whether a STRETCH activity is outstanding. -/
def State.stretchOut (s : State) : Bool := !(s.outstandingOf 0).isEmpty

/-- CUT at the nominal boundary: outstanding work is abandoned, and a transfer of a CUT activity ends at its next beat (R40,
R162). -/
def State.cutWork (s : State) : State :=
  let s1 := (s.outstandingOf 1).foldl State.abandon s
  (s1.b.actList.filter fun a => s1.active a && (s1.actPlan a).overrun == 1).foldl (fun (s : State) a => s.queueStop a .cut) s1

/-- Carried work is dropped: CARRY_DROP, and the tick it belongs to is flagged LATE (R41, R42). -/
def State.carryDrop (s : State) (a : Nat) : State :=
  (((s.flagLate a).dropWork a .cut).evTick 4).onAct a fun x => { x with
    carry := false, workTick := s.tick.num, seqNext := 0, ended := []
    finished := s.tick.filler && (s.actPlan a).skipFiller }

/-- CARRY work still unfinished at the second nominal boundary is abandoned (R41). -/
def State.carryExpire (s : State) : State :=
  (s.outstandingOf 2).foldl (fun (s : State) a => if (s.act a).carry then s.carryDrop a else s) s

/-- What the nominal boundary does to the work of the tick (R40, R41). -/
def State.overrun (s : State) : State := s.cutWork.carryExpire

/-- The hold expires: each outstanding STRETCH activity is abandoned and sets STRETCH_EXPIRED (R38). -/
def State.stretchDrop (s : State) : State :=
  (s.outstandingOf 0).foldl (fun (s : State) a => (s.abandon a).evTick 1) s

/-- A straggler's STRETCH activities are abandoned at the launch time (R46). -/
def State.straggle (s : State) : State := (s.outstandingOf 0).foldl State.abandon s

/-- Every activity's outputs of the tick are flagged LATE: the module was a straggler (R42, R46). -/
def State.allLate (s : State) : State :=
  (s.b.actList.filter s.active).foldl (fun (s : State) a => if (s.act a).flags.late then s else s.flagLate a) s

/-- One activity at a boundary, seen from the tick `n` that begins, whose plan says which activities are active and skip fillers: unfinished
CARRY work goes on in it where the activity is active there and is dropped where it is not; every other activity starts the work of tick
`n` (R41, R99, R103, R378; log 49). -/
def State.actBoundary (s : State) (isActive skips : Nat → Bool) (filler : Bool) (n a : Nat) : State :=
  let on := s.unfinished a && (s.actPlan a).overrun == 2
  let goes := on && isActive a
  let drops := on && !isActive a
  let s0 := if drops then (s.flagLate a).evTick 4 else s
  let s1 := if drops || (!goes && (s.act a).run.isSome) then s0.dropWork a .cut else s0
  s1.onAct a fun x =>
    let p := if s.tick.filler then x.flagsPrev else x.flags
    if goes then { x with carry := true, flagsPrev := p, flags := {} }
    else { x with
      carry := false, workTick := n, seqNext := 0, ended := [], abandoned := false
      finished := filler && skips a, flagsPrev := p, flags := {} }

end Sys2Proof.Machine
end

