-- ==== Sys2Proof/Machine/Ring.lean ====
section
/-! DEFINITION. The ring controller (spec/15): ports and identity, frames, replay, the bypass, and the peer spill service
on both sides. -/

namespace Sys2Proof.Machine

/-! ### Ports (R322, R336) -/

/-- A port goes DOWN, from whichever state: frames not acknowledged are lost, LINK_DOWN is counted and the change is reported
(R322, R325). -/
def State.ringDown (s : State) (p : Nat) : State :=
  let x := s.rport p
  if x.state == .down then s
  else
    let s1 := s.onRport p fun x => { x with
      state := .down, locked := false, skip := 0, replay := [], replayRun := 0, retraining := false, nextSeq := 0, rxSeq := 0 }
    (s1.evRport p 0 none).sendLinkReport

/-- The switches are open under R336: out of reset, BOUND with MEMBER records, FORCE_BYPASS 0; closing them takes both
ports DOWN. -/
def State.bypassUpdate (s : State) : State :=
  let isOpen := s.live && s.bound && !s.b.netw.members.isEmpty && !s.ring.forceBypass
  if isOpen then s.onRing fun r => { r with bypassOpen := true }
  else
    let s1 := s.onRing fun r => { r with bypassOpen := false }
    (s1.ringDown 0).ringDown 1

/-- FORCE_BYPASS of RING_CTRL is written. -/
def execForceBypass (value : Bool) (s : State) : Host.Outcome State Fault Refusal :=
  .next (if !s.live then s else commit ((s.onRing fun r => { r with forceBypass := value }).bypassUpdate))

/-- RING_SIGNAL_DETECT: with the bypass open a DOWN port starts training, and the change is reported (R322, R325). -/
def State.signalDetect (s : State) (p : Nat) : State :=
  if s.ring.bypassOpen && (s.rport p).state == .down then (s.onRport p fun x => { x with state := .train }).sendLinkReport else s

/-- RING_SIGNAL_DETECT. -/
def execRingSignalDetect (port : Nat) (s : State) : Host.Outcome State Fault Refusal :=
  .next (if !s.live then s else commit (s.signalDetect port))

/-- The byte of this module's ring: 0 A when PRI_N is low, 1 B otherwise (R323). -/
def State.ringByte (s : State) : Nat := if s.start.priN then 1 else 0

/-- IDENT of a port (R328). -/
def State.sendIdent (s : State) (p : Nat) : State :=
  s.linkMsg p 0 (sliceZ s.keep.accession 0 16 ++ toLe 1 s.ringByte ++ toLe 1 p
    ++ toLe 1 (if s.isMember then s.memberIdx else 0xFF) ++ [0] ++ toLe 2 s.planGen ++ [0, 0] ++ toLe 4 s.ring.coldCount)

/-- LANE_LOCK: the lanes of a training port lock, at x16 or at x8, and it sends IDENT (R320, R322). -/
def State.laneLockEff (s : State) (p : Nat) (narrow : Bool) : State :=
  if (s.rport p).state == .train then
    let s1 := s.onRport p fun x => { x with locked := true, narrow := narrow }
    (if narrow then s1.evRport p 6 none else s1).sendIdent p
  else s

/-- LANE_LOCK. -/
def execLaneLock (port : Nat) (narrow : Bool) (s : State) : Host.Outcome State Fault Refusal :=
  .next (if !s.live then s else commit (s.laneLockEff port narrow))

/-- RING_TRAINING_FAILURE. -/
def State.trainFail (s : State) (p : Nat) : State := if (s.rport p).state == .train then s.ringDown p else s

/-- RING_TRAINING_FAILURE. -/
def execRingTrainingFailure (port : Nat) (s : State) : Host.Outcome State Fault Refusal :=
  .next (if !s.live then s else commit (s.trainFail port))

/-- RING_LOSS_OF_SIGNAL. -/
def execRingLossOfSignal (port : Nat) (s : State) : Host.Outcome State Fault Refusal :=
  .next (if !s.live then s else commit (s.ringDown port))

/-! ### Identity (R323, R324, R335) -/

/-- The LINK record of a port. -/
def State.linkRec (s : State) (p : Nat) : NetLink := (s.b.netw.links.find? fun r => r.port == p).getD {}

/-- Whether port `p` accepts a far end with skip `k`. -/
def State.acceptsSkip (s : State) (p : Nat) (acc : List Byte) (ring farPort k : Nat) : Bool :=
  let me := s.memberIdx
  let at' := fun j => s.b.placeFrom me j (p == 0)
  let m := (s.b.memberRec (at' (k + 1))).getD {}
  acc == m.accession && farPort == 1 - p && ring == s.ringByte && decide (k + 1 < s.b.memberCount)
    && (k != 0 || (acc == (s.linkRec p).farAccession && farPort == (s.linkRec p).farPort && ring == (s.linkRec p).farRing))

/-- The skip with which a far end is accepted. -/
def State.skipFor (s : State) (p : Nat) (acc : List Byte) (ring farPort : Nat) : Option Nat :=
  if !s.isMember then none else [0, 1, 2].find? fun k => s.acceptsSkip p acc ring farPort k

/-- The tags of a borrower, or of those it held before its last cold bind, are cleared (R335). -/
def State.clearTags (s : State) (keep : ServeSlot → Bool) : State :=
  s.onRing fun r => { r with serve := r.serve.updAll (r.serve.map (·.1)) fun _ t => if keep t then t else { gen := t.gen } }

/-- A DELAY request (R324). -/
def State.sendDelay (s : State) (p : Nat) : State :=
  s.linkMsg p 1 ([0] ++ List.replicate 7 0 ++ toLe 8 s.tb.time ++ List.replicate 16 0)

/-- IDENT received on a port whose lanes have locked: UP with its skip, or MGMT with WIRING_MISMATCH. A member with a new
COLD_COUNT holds no tags here any more, and has lost what it held for this module (R262, R335). -/
def State.identEff (s : State) (p : Nat) (acc : List Byte) (ring farPort member cold : Nat) : State :=
  let x := s.rport p
  if !(x.state == .train && x.locked) then s
  else
    let far := fun (x : RPort) => { x with farMember := member % 8, farRing := ring % 2, farPort := farPort % 2, farAcc := acc }
    let s1 := match s.skipFor p acc ring farPort with
      | some k => s.onRport p fun x => { far x with state := .up, skip := k }
      | none => (s.onRport p fun x => { far x with state := .mgmt, skip := 0 }).evRport p 5 none
    let s2 := match s.b.netw.members.find? fun m => m.accession == acc with
      | some m =>
        let old := s.ring.farCold.get m.index
        let t := s1.onRing fun r => { r with farCold := r.farCold.set m.index cold }
        let t1 := t.clearTags fun g => !(g.used && g.member == m.index && g.coldCount != cold)
        if old ≠ 0 && old ≠ cold then t1.tierLost .peer m.index none else t1
      | none => s1
    (s2.sendDelay p).sendLinkReport

/-- IDENT. -/
def execIdent (port : Nat) (accession : List Byte) (ring farPort member planGen coldCount : Nat) (s : State) :
    Host.Outcome State Fault Refusal :=
  .next (if !s.live then s else commit (s.identEff port accession ring farPort member coldCount))

/-- DELAY_TIMER: every second a link measures its delay again. -/
def execDelayTimer (port : Nat) (s : State) : Host.Outcome State Fault Refusal :=
  .next (if !s.live then s else commit (if (s.rport port).carries false then s.sendDelay port else s))

/-- DELAY: a request is answered with its times; a response gives half the round trip less the turnaround, in 1/16 ns. -/
def State.delayEff (s : State) (p : Nat) (isResponse : Bool) (t1 t2 t3 : Nat) : State :=
  if !(s.rport p).carries false then s
  else if isResponse then s.onRport p fun x => { x with delay := BitVec.ofNat 16 (8 * ((s.tb.time - t1) - (t3 - t2))) }
  else s.linkMsg p 1 ([1] ++ List.replicate 7 0 ++ toLe 8 t1 ++ toLe 8 s.tb.time ++ toLe 8 s.tb.time)

/-- DELAY. -/
def execDelay (port : Nat) (isResponse : Bool) (t1 t2 t3 : Nat) (s : State) : Host.Outcome State Fault Refusal :=
  .next (if !s.live then s else commit (s.delayEff port isResponse t1 t2 t3))

/-- LINK_REPORT of a member (R325). -/
def execLinkReport (member east west eastSkip westSkip : Nat) (s : State) : Host.Outcome State Fault Refusal :=
  .next (if !s.live then s else commit (if s.isMember && member != s.memberIdx then s.onRing fun r =>
    { r with reports := r.reports.set member { seen := true, east := east, west := west, eastSkip := eastSkip
                                               westSkip := westSkip } } else s))

/-- LINK_REPORT_SEND, every 256 ticks. -/
def execLinkReportSend (s : State) : Host.Outcome State Fault Refusal :=
  .next (if !s.live then s else commit (if s.tick.running && s.tick.num % 256 == 0 then s.sendLinkReport else s))

/-! ### Frames received (R326, R327, R329, R332) -/

/-- An ACK or NAK control block. -/
def State.control (s : State) (p seq : Nat) (nak : Bool) : State :=
  s.out { kind := .ring, port := p, code := if nak then 17 else 16, status := seq }

/-- A MARKER forwarded: the delay of the link it came by is added to its CORR, in whole ns; the residence time in the module
takes no time in the model (R324, log 30). -/
def State.addCorr (s : State) (p : Nat) (f : RFrame) : RFrame :=
  if f.lane = 0 ∧ f.typ = 3 then
    { f with payload := f.payload.take 24 ++ toLe 4 (u32 f.payload 24 + (s.rport p).delay.toNat / 16) ++ f.payload.drop 28 }
  else f

/-- A frame is forwarded out of the opposite port with one hop less; a port in MGMT drops data frames, one that is DOWN
every frame. -/
def State.forward (s : State) (p : Nat) (f : RFrame) : State :=
  if (s.rport (1 - p)).carries (f.lane != 0) then s.frameOut (1 - p) { s.addCorr p f with hops := f.hops - 1 } else s

/-- What a good header's frame comes to: consumed, forwarded, or both; unknown types and lanes and frames out of hops are
counted. The effect of a consumed message is its own command. -/
def State.frameTake (s : State) (p : Nat) (f : RFrame) : State :=
  let mine := f.dest == s.memberIdx || f.dest == 7 || f.typ ≤ 1 && f.lane == 0 && f.hops == 0
  let s1 := if mine then
      (if f.lane = 0 then (if 7 < f.typ then s.evRport p 7 none else s)
       else if (s.b.routeOf f.lane).isNone then s.evRport p 7 none else s)
    else s
  if mine && (f.dest != 7 || f.hops == 0) then s1
  else if f.hops = 0 then s1.evRport p 7 none
  else s1.forward p f

/-- RING_FRAME: HCRC first; then order, payload CRC and stomps. -/
def State.ringFrameEff (s : State) (p : Nat) (header : Nat) (payload : List Byte) (crc : Word) : State :=
  let x := s.rport p
  if !x.carries false then s
  else if !headerOk header then (s.evRport p 3 none).control p x.rxSeq true
  else
    let f := frameOf header payload
    let next := fun (s : State) => s.onRport p fun x => { x with rxSeq := (x.rxSeq + 1) % 4096 }
    let len := header / 2 ^ 18 % 16
    let good := payload.length == 64 * len && (len == 0 || crc == crc32c payload)
    if f.seq ≠ x.rxSeq then s.control p (if (x.rxSeq + 4096 - f.seq) % 4096 ≤ 2048 then f.seq else x.rxSeq)
      (decide (2048 < (x.rxSeq + 4096 - f.seq) % 4096))
    else if good then ((next s).frameTake p f).control p f.seq false
    else
      let through := f.dest != s.memberIdx && f.hops != 0
      let s1 := if through then s.forward p { f with stomped := true } else s
      if len ≠ 0 && payload.length == 64 * len && crc == ~~~ crc32c payload
      then ((next s1).evRport p 4 none).control p f.seq false
      else s1.control p x.rxSeq true

/-- RING_FRAME. -/
def execRingFrame (port : Nat) (header : BitVec 64) (payload : List Byte) (crc : Word) (s : State) :
    Host.Outcome State Fault Refusal :=
  .next (if !s.live then s else commit (s.ringFrameEff port header.toNat payload crc))

/-- A list from the first element that satisfies a test. -/
def fromFirst {α : Type} (p : α → Bool) : List α → List α
  | [] => []
  | x :: r => if p x then x :: r else fromFirst p r

/-- RING_ACK releases replay-buffer entries up to its SEQ. -/
def State.ringAckEff (s : State) (p seq : Nat) : State :=
  if (s.rport p).replay.any fun f => f.seq == seq then
    s.onRport p fun x => { x with replay := (fromFirst (fun f => f.seq == seq) x.replay).drop 1, replayRun := 0 }
  else s

/-- RING_ACK. -/
def execRingAck (port seq : Nat) (s : State) : Host.Outcome State Fault Refusal :=
  .next (if !s.live then s else commit (s.ringAckEff port seq))

/-- The frames of the replay buffer leave again. -/
def State.resend (s : State) (p : Nat) : State :=
  (s.rport p).replay.foldl (fun (s : State) f =>
    s.out { kind := .ring, port := p, code := f.typ, status := f.lane, bytes := f.wire }) s

/-- A replay from a SEQ onward; the fourth in a row of one SEQ starts a retrain (R329). -/
def State.replayFrom (s : State) (p seq : Nat) : State :=
  let x := s.rport p
  if x.retraining || !x.replay.any fun f => f.seq == seq then s
  else
    let run := if x.replaySeq = seq && x.replayRun ≠ 0 then x.replayRun + 1 else 1
    let s1 := (s.onRport p fun x => { x with
      replay := fromFirst (fun f => f.seq == seq) x.replay, replays := x.replays + 1, replaySeq := seq, replayRun := run }).evRport
        p 2 none
    if run < 4 then s1.resend p
    else (s1.onRport p fun x => { x with retraining := true, retrains := x.retrains + 1, replayRun := 0 }).evRport p 1 none

/-- RING_NAK. -/
def execRingNak (port seq : Nat) (s : State) : Host.Outcome State Fault Refusal :=
  .next (if !s.live then s else commit (s.replayFrom port seq))

/-- REPLAY_TIMEOUT: no ACK within 1 us replays from the oldest frame. -/
def State.replayTime (s : State) (p : Nat) : State :=
  match (s.rport p).replay with
  | f :: _ => s.replayFrom p f.seq
  | [] => s

/-- REPLAY_TIMEOUT. -/
def execReplayTimeout (port : Nat) (s : State) : Host.Outcome State Fault Refusal :=
  .next (if !s.live then s else commit (s.replayTime port))

/-- RETRAIN_DONE: the same far end within 100 us keeps the replay buffer and resumes; else the link goes DOWN. -/
def State.retrainEff (s : State) (p : Nat) (restored : Bool) : State :=
  if !(s.rport p).retraining then s
  else if restored then (s.onRport p fun x => { x with retraining := false }).resend p
  else s.ringDown p

/-- RETRAIN_DONE. -/
def execRetrainDone (port : Nat) (restored : Bool) (s : State) : Host.Outcome State Fault Refusal :=
  .next (if !s.live then s else commit (s.retrainEff port restored))

/-! ### The lender (R334, R335) -/

/-- The SPILL_SERVE regions in ascending region number. -/
def State.serveRegions (s : State) : List MemxRec :=
  sortBy (fun (x y : MemxRec) => decide (x.region < y.region)) (s.b.memx.filter fun r => r.kind == 7)

/-- Slots of the serve space: 240 for each granule of the SPILL_SERVE regions. -/
def State.serveSpace (s : State) : Nat := 240 * (s.serveRegions.map (·.size)).sum

/-- The region of a serve slot, and the address of its 68 lines, packed from the start of its granule (log 30). -/
def serveAt : List MemxRec → Nat → Option (MemxRec × Nat)
  | [], _ => none
  | r :: t, n => if n < 240 * r.size then some (r, (r.base + n / 240) * granBytes + 8704 * (n % 240)) else serveAt t (n - 240 * r.size)

/-- The serve activity of a slot's channel, to which SERVE_REFUSED is attributed (R334, R391). -/
def State.serveActOf (s : State) (slot : Nat) : Option Nat := (serveAt s.serveRegions slot).bind fun x => s.b.serveAct x.1.channel

/-- A read of a serve slot that the devices fail: an uncorrectable error, or a MAC failure, which is an integrity violation of the
lender's own module cache key (R335, R431). -/
def State.serveFailed (s : State) (slot line : Nat) : State :=
  match serveAt s.serveRegions slot with
  | some (r, addr) =>
    if line = 2 then s.uncorrectable 0 (gdKey r.channel addr)
    else if line = 3 then s.integrity 0 33 r.channel (addr / 128)
    else s
  | none => s

/-- A request or data frame on a lane that no ROUTE names is discarded (R332). -/
def State.onLane (s : State) (lane src : Nat) (f : State → State) : State :=
  if !s.isMember then s
  else if (s.b.routeOf lane).isNone then s.evRport ((s.routePort 2 src true).getD 0) 7 none
  else f s

/-- A reply goes back on the same lane. -/
def State.reply (s : State) (lane dest typ : Nat) (payload : List Byte) : State :=
  match s.routePort 2 dest true with
  | some p => s.laneFrame p lane dest typ payload
  | none => s

/-- Update what a lane receives. -/
def State.onLaneRx (s : State) (lane : Nat) (x : LaneRx) : State := s.onRing fun r => { r with laneRx := r.laneRx.set lane x }

/-- SPILL_WRITE at the lender. -/
def State.spillWriteEff (s : State) (lane src slot tenant : Nat) : State :=
  s.onLane lane src fun s =>
    let t := s.ring.serve.get slot
    let refuse := fun (s : State) (st : Nat) =>
      (s.reply lane src 11 (toLe 4 slot ++ toLe 1 st)).onLaneRx lane { active := true, discard := true, member := src, slot := slot }
    if s.serveSpace ≤ slot then refuse s 2
    else if t.used && (t.member != src || t.tenant != tenant) then refuse s 1
    else if 524288 < s.ring.serveFill + 8704 then (refuse s 3).evRport ((s.routePort 2 src true).getD 0) 9 (s.serveActOf slot)
    else (s.onRing fun r => { r with
        serveFill := r.serveFill + 8704
        serve := r.serve.upd slot fun t => { t with
          used := true, member := src, tenant := tenant, coldCount := r.farCold.get src, gen := t.gen + 1 } }).onLaneRx lane
      { active := true, member := src, slot := slot, tenant := tenant }

/-- SPILL_WRITE. -/
def execSpillWrite (lane src slot tenant channel : Nat) (s : State) : Host.Outcome State Fault Refusal :=
  .next (if !s.live then s else commit (s.spillWriteEff lane src slot tenant))

/-- SPILL_READ at the lender: READ_DATA with 17 DATA frames, or a status; `line` is what the devices return for the slot's lines
(R330, R335). -/
def State.spillReadEff (s : State) (lane src slot tenant line : Nat) : State :=
  s.onLane lane src fun s =>
    let t := s.ring.serve.get slot
    if s.serveSpace ≤ slot then s.reply lane src 10 (toLe 4 slot ++ [2])
    else if !t.used || t.member != src || t.tenant != tenant then s.reply lane src 10 (toLe 4 slot ++ [1])
    else if line = 2 || line = 3 then s.serveFailed slot line
    else (List.range 17).foldl (fun (s : State) n => s.reply lane src 13 (sliceZ t.content (512 * n) 512))
      (s.reply lane src 10 (toLe 4 slot ++ [0]))

/-- SPILL_READ. -/
def execSpillRead (lane src slot tenant line : Nat) (s : State) : Host.Outcome State Fault Refusal :=
  .next (if !s.live then s else commit (s.spillReadEff lane src slot tenant line))

/-- SPILL_FREE at the lender. -/
def State.spillFreeEff (s : State) (lane src slot tenant : Nat) : State :=
  s.onLane lane src fun s =>
    let t := s.ring.serve.get slot
    if t.used && t.member == src && t.tenant == tenant then s.onRing fun r => { r with serve := r.serve.set slot { gen := t.gen } }
    else s

/-- SPILL_FREE. -/
def execSpillFree (lane src slot tenant : Nat) (s : State) : Host.Outcome State Fault Refusal :=
  .next (if !s.live then s else commit (s.spillFreeEff lane src slot tenant))

/-- DATA: one of the 17 frames of a slot. The lender's last one stores the slot and sends SPILL_ACK OK; discarded and read
data end with theirs (R330, R335). -/
def State.dataEff (s : State) (lane src : Nat) (bytes : List Byte) : State :=
  let x := s.ring.laneRx.get lane
  if !x.active then s.onLane lane src fun s => s.evRport ((s.routePort 2 src true).getD 0) 7 none
  else
    let y := { x with frames := x.frames + 1, data := if x.discard || x.isRead then [] else x.data ++ sliceZ bytes 0 512 }
    if y.frames < 17 then s.onLaneRx lane y
    else
      let s1 := s.onLaneRx lane {}
      if x.discard || x.isRead then s1
      else
        let s2 := s1.onRing fun r => { r with
          serveFill := r.serveFill - 8704
          serve := r.serve.upd x.slot fun t => if t.used then { t with content := y.data } else t }
        s2.reply lane x.member 11 (toLe 4 x.slot ++ [0])

/-- DATA. -/
def execDataFrame (lane src : Nat) (bytes : List Byte) (s : State) : Host.Outcome State Fault Refusal :=
  .next (if !s.live then s else commit (s.dataEff lane src bytes))

/-- REVOKE from a member: the serve tags of that tenant held for it go (R381). -/
def execRevoke (src tenant tick : Nat) (s : State) : Host.Outcome State Fault Refusal :=
  .next (if !s.live then s else commit (if s.isMember then s.clearTags fun t => !(t.used && t.member == src && t.tenant == tenant)
    else s))

/-! ### The borrower (R261, R264, R335) -/

/-- The spill or fetch of a lane and a slot number: the lane's member and the region's BASE give the tier slot. -/
def State.peerXfer (s : State) (lane slot : Nat) (isFetch : Bool) : Option Nat :=
  match s.b.routeOf lane with
  | none => none
  | some r => (s.leaf.xfers.find? fun x => x.isFetch == isFetch && x.tier == .peer && x.site == r.destMember
      && s.tierIndex .peer (s.leafE x.leaf).tenant x.site x.tierSlot == slot).map (·.leaf)

/-- SPILL_ACK ends a spill write of a leaf, or a queue's transfer on that lane; any status but OK is PEER_ERROR. -/
def State.spillAckEff (s : State) (lane slot status : Nat) : State :=
  let code := if status = 0 then 0 else 8
  match s.peerXfer lane slot false with
  | some l => s.spillEnd l code
  | none => match s.b.routeOf lane with
    | some r => if (s.queue r.activity).pendCode.isSome && adSpace (s.queue r.activity).prog.dst == 4
      then s.transferDone r.activity code else s
    | none => s

/-- SPILL_ACK. -/
def execSpillAck (lane slot status : Nat) (s : State) : Host.Outcome State Fault Refusal :=
  .next (if !s.live then s else commit (s.spillAckEff lane slot status))

/-- READ_DATA: with STATUS 0 the 17 DATA frames follow; another status is PEER_ERROR. -/
def State.readDataEff (s : State) (lane slot status : Nat) : State :=
  if status = 0 then s.onLaneRx lane { active := true, isRead := true, slot := slot }
  else match s.peerXfer lane slot true with
    | some l => s.fetchEnd l 8 true
    | none => match s.b.routeOf lane with
      | some r => if (s.queue r.activity).busy && adSpace (s.queue r.activity).prog.src == 4
        then s.beatStops r.activity 8 else s
      | none => s

/-- READ_DATA. -/
def execReadData (lane slot status : Nat) (s : State) : Host.Outcome State Fault Refusal :=
  .next (if !s.live then s else commit (if s.isMember then s.readDataEff lane slot status else s))

end Sys2Proof.Machine
end

