-- ==== Sys2Proof/Machine/RingTick.lean ====
section
/-! DEFINITION. The ring's tick protocol and the view of the ring every member keeps (spec/02 R43 to R49, spec/15 R325, R328,
spec/22 R457, R466 to R468). -/

namespace Sys2Proof.Machine

/-- The tick role changes; RING's role generation changes with it (R122, R127). -/
def State.setRole (s : State) (r : TickRole) (leader : Nat) : State :=
  let s1 := s.onTick fun t => { t with role := r, leader := leader }
  if s.tick.role = r then s1 else s1.roleChange 0x40

/-- The members the leader waits for: admitted and not ABSENT (R43, R47, R468). -/
def State.waited (s : State) : BitVec 6 := s.pair.admittedSet &&& ~~~ s.ring.absent

/-- Whether this member's READY may be sent: it takes part, no STRETCH activity is outstanding and none was abandoned. -/
def State.readyDue (s : State) : Bool :=
  s.isMember && s.tick.running && !s.tick.readySent && s.pair.admission != .shadow && s.pair.cause == 0 && !s.chk.maintenance
    && !s.stretchOut && !(s.b.actList.any fun a => (s.actPlan a).overrun == 0 && (s.act a).abandoned)

/-- The waited members whose READY of this tick is missing; the leader knows its own readiness. -/
def State.missing (s : State) : BitVec 6 :=
  s.waited &&& ~~~ (if s.readyDue then bitSet s.tick.ready s.memberIdx else s.tick.ready)

/-- A member is admitted: RING_EVENT ADMITTED is sent, and it is waited for from then on (R466, R468). A member that came
through SHADOW counts ADMITTED. -/
def State.takeAdmitted (s : State) (m : Nat) : State :=
  let s1 := s.onPair fun p => { p with
    admittedSet := bitSet p.admittedSet m, absent := bitClr p.absent m, suspect := bitClr p.suspect m }
  let s2 := if m = s.memberIdx && s.isMember && s.pair.admission == .pending then
      let s3 := s1.onPair fun p => { p with admission := .admitted }
      if s.b.admitTicks ≤ s.pair.admitCount then s3.evPair 5 else s3
    else s1
  s2.pairUpdate

/-- The leader admits a member (R466, R468). -/
def State.admitMember (s : State) (m : Nat) : State :=
  ((s.takeAdmitted m).onRing fun r => { r with absent := bitClr r.absent m }).sendRingEvent 2 m s.tick.num

/-- A member is ABSENT in this module's view: what it lent is lost, and what it borrowed is free (R262, R335, R457). A member
that finds itself named must be admitted again (R466). -/
def State.takeAbsent (s : State) (m : Nat) : State :=
  let s1 := s.onPair fun p => { p with absent := bitSet p.absent m, admittedSet := bitClr p.admittedSet m }
  let s2 := if m = s.memberIdx then s1.onPair fun p => { p with admission := .shadow, admitCount := 0 }
    else (s1.tierLost .peer m none).clearTags fun t => !(t.used && t.member == m)
  s2.pairUpdate

/-- The profile and plan generation of the next tick (R42, R440, R74). -/
def State.planSel (s : State) : Nat × Nat :=
  let n := s.tick.num + 1
  (s.pwr.decided.headD s.pwr.profile, match s.bind.staged with
    | some r => if s.bind.rebind == .staged && (s.bind.activate == 0 || s.bind.activate == n) then r.b.col.planGen else s.planGen
    | none => s.planGen)

/-- A MARKER's payload (R328). -/
def Marker.bytes (m : Marker) (issue : Nat) : List Byte :=
  toLe 8 m.tick ++ toLe 8 m.launch ++ toLe 8 issue ++ toLe 4 0 ++ toLe 1 m.profile ++ [0] ++ toLe 2 m.planGen
    ++ toLe 1 (if m.filler then 1 else 0) ++ toLe 1 m.late.toNat

/-- A member's late flags of the last LATE_WINDOW ticks, newest first. -/
def State.lateFlags (s : State) (m : Nat) : List Bool := (s.tick.lateHist.get m).take s.b.lateWindow

/-- SUSPECT and CLEARED after a marker's LATE bitmap is known (R48, R457). -/
def State.suspects (s : State) : State :=
  (List.range 6).foldl (fun (s : State) m =>
    let n := ((s.lateFlags m).filter id).length
    if (s.b.memberRec m).isNone then s
    else if s.pair.suspect.getLsbD m then
      (if n = 0 then (s.onPair fun p => { p with suspect := bitClr p.suspect m }).sendRingEvent 3 m s.tick.num else s)
    else if s.b.lateLimit ≤ n then
      ((s.onPair fun p => { p with suspect := bitSet p.suspect m }).evTick 10).sendRingEvent 1 m s.tick.num
    else s) s

/-- The leader issues the MARKER of the next tick in both directions; it takes the boundary itself at the launch time, and
counts ticks without READY and late flags of the members it waited for (R44, R45, R47, R48). -/
def State.markerIssue (s : State) (late : BitVec 6) : State :=
  let m : Marker := {
    src := s.memberIdx, tick := if s.tick.running then s.tick.num + 1 else 0, launch := s.tb.time + s.b.markerLead
    profile := s.planSel.1, planGen := s.planSel.2, filler := s.tick.pendFiller, late := late }
  let w := s.waited
  let s1 := s.onTick fun t => { t with
    launch := some m, waiting := false
    noReady := if t.running then t.noReady.updAll (List.range 6) fun i x =>
      if w.getLsbD i && !t.ready.getLsbD i then x + 1 else 0 else t.noReady
    lateHist := if t.running then t.lateHist.updAll (List.range 6) fun i x =>
      if w.getLsbD i then (late.getLsbD i :: x).take s.b.lateWindow else x else t.lateHist }
  ((s1.broadcast 3 (m.bytes s.tb.time)).suspects).pairUpdate

/-- WAITING ends when no READY is missing (R45). -/
def State.waitDone (s : State) : State :=
  if s.tick.waiting && s.missing == 0 then s.markerIssue 0 else s

/-! ### READY (R43, R45) -/

/-- The leader accepts a READY: a member it does not hold admitted is admitted by it (R466, R468, log 30). -/
def State.readyTake (s : State) (m : Nat) : State :=
  let s1 := if s.pair.admittedSet.getLsbD m && !s.ring.absent.getLsbD m then s else s.admitMember m
  (s1.onTick fun t => { t with ready := bitSet t.ready m }).waitDone

/-- READY: a follower sends it to the leader; the leader holds its own. -/
def State.readyEff (s : State) : State :=
  if !s.readyDue then s
  else
    let s1 := s.onTick fun t => { t with readySent := true }
    if s.tick.role = .leader then s1.readyTake s.memberIdx else s1.sendReady

/-- READY. -/
def execReady (s : State) : Host.Outcome State Fault Refusal :=
  .next (if !s.live then s else commit s.readyEff)

/-- READY_RECEIVED: with another PLAN_GEN the member stays missing, and PLAN_MISMATCH is set (R45). -/
def State.readyReceivedEff (s : State) (m tick planGen : Nat) : State :=
  if !(s.isMember && s.tick.running && s.tick.role == .leader && tick == s.tick.num && m != s.memberIdx
      && (s.b.memberRec m).isSome) then s
  else if planGen ≠ s.planGen then s.evTick 8
  else s.readyTake m

/-- READY_RECEIVED. -/
def execReadyReceived (member tick planGen : Nat) (s : State) : Host.Outcome State Fault Refusal :=
  .next (if !s.live then s else commit (s.readyReceivedEff member tick planGen))

/-- WAITING_EXPIRE: MAX_STRETCH after the nominal boundary the marker goes out with the bit of each member still missing; the
leader's own STRETCH work expires at the same time (R38, R45). -/
def State.waitExpire (s : State) : State :=
  match s.tick.nominal with
  | some t => if s.tick.waiting && decide (t + s.maxStretchNs ≤ s.tb.time) then
      let s1 := s.stretchDrop
      s1.markerIssue s1.missing else s
  | none => s

/-- WAITING_EXPIRE. -/
def execWaitingExpire (s : State) : Host.Outcome State Fault Refusal :=
  .next (if !s.live then s else commit s.waitExpire)

/-! ### Markers received (R44, R46, R49, R466) -/

/-- A member's place in the succession order; a member without a record comes last. -/
def State.succession (s : State) (m : Nat) : Nat := match s.b.memberRec m with
  | some r => r.succession
  | none => 6

/-- Whether the marker is the first copy of a boundary this module takes. A follower has none pending and the tick is a later one, or
the sender comes before its leader in the succession order; a leader takes those of members before itself, whatever their tick number,
and steps down (R44, R49). -/
def State.markerNew (s : State) (src tick : Nat) : Bool :=
  s.isMember && src != s.memberIdx && (s.b.memberRec src).isSome
    && (if s.tick.role == .leader then decide (s.succession src < s.succession s.memberIdx)
          && (match s.tick.launch with
            | some m => m.src == s.memberIdx
            | none => true)
        else s.tick.launch.isNone && (!s.tick.running || decide (s.tick.num < tick)
          || (src != s.tick.leader && decide (s.succession src < s.succession s.tick.leader))))

/-- The first marker after cold bind decides how the module is admitted (R466). -/
def State.firstMark (s : State) (tick : Nat) : State :=
  if s.pair.firstMarker.isSome then s
  else s.onPair fun p => { p with
    firstMarker := some tick
    admission := if tick ≤ 15 && (match s.member with
      | some m => m.startRole == 0
      | none => false) then p.admission else .shadow }

/-- MARKER_RECEIVED: a follower disciplined by RING measures its offset, and the boundary is scheduled at the launch time, or
on arrival with MARKER_LATE. -/
def State.markerEff (s : State) (m : Marker) (issue corr : Nat) : State :=
  if !s.markerNew m.src m.tick then s
  else
    let s1 := if s.discSrc = 3 then s.reference ((s.tb.time : Int) - (issue + corr : Nat)) else s
    let s2 := (s1.firstMark m.tick).onTick fun t => { t with launch := some m, waiting := false }
    if m.launch < s2.tb.time then s2.evTick 6 else s2

/-- MARKER_RECEIVED. -/
def execMarkerReceived (port src tick launch issue corr profile planGen : Nat) (isFiller : Bool) (late : BitVec 6) (s : State) :
    Host.Outcome State Fault Refusal :=
  .next (if !s.live then s else commit (s.markerEff
    { src := src, tick := tick, launch := launch, profile := profile, planGen := planGen, filler := isFiller, late := late }
    issue corr))

/-! ### ABSENT and LEADER_LOST (R47, R49) -/

/-- Whether the neighbour `n` of a member in one direction reports the link toward it down or bypassed; this module knows its
own ports. -/
def State.linkGone (s : State) (n : Nat) (neighbourIsEast : Bool) : Bool :=
  if n = s.memberIdx then
    let x := s.rport (if neighbourIsEast then 1 else 0)
    !x.carries false || x.skip != 0
  else
    let r := s.ring.reports.get n
    let st := if neighbourIsEast then r.west else r.east
    let k := if neighbourIsEast then r.westSkip else r.eastSkip
    r.seen && (st ≤ 1 || k != 0)

/-- Whether R47 marks a member ABSENT now. -/
def State.absentDue (s : State) (m : Nat) : Bool :=
  s.isMember && s.tick.role == .leader && m != s.memberIdx && (s.b.memberRec m).isSome && !s.ring.absent.getLsbD m
    && (decide (3 ≤ s.tick.noReady.get m)
      || (s.linkGone (s.b.placeFrom m 1 true) true && s.linkGone (s.b.placeFrom m 1 false) false))

/-- The leader holds a member ABSENT; while WAITING for it, the marker goes out at once with its LATE bit (R47, R325). -/
def State.leaderAbsent (s : State) (m : Nat) : State :=
  let s1 := ((s.onRing fun r => { r with absent := bitSet r.absent m }).takeAbsent m).evTick 9
  if s.tick.waiting && s.missing.getLsbD m then s1.markerIssue (bitSet s1.missing m) else s1.waitDone

/-- MEMBER_ABSENT. -/
def State.memberAbsentEff (s : State) (m : Nat) : State :=
  if s.absentDue m then (s.leaderAbsent m).sendRingEvent 0 m s.tick.num else s

/-- MEMBER_ABSENT. -/
def execMemberAbsent (member : Nat) (s : State) : Host.Outcome State Fault Refusal :=
  .next (if !s.live then s else commit (s.memberAbsentEff member))

/-- RING_EVENT: 0 ABSENT, 1 SUSPECT, 2 ADMITTED, 3 CLEARED (R328, R457). A leader marks the member that names itself ABSENT
(R456). -/
def State.ringEventEff (s : State) (kind m : Nat) : State :=
  if !s.isMember || (s.b.memberRec m).isNone then s
  else match kind with
    | 0 => if s.tick.role = .leader && m ≠ s.memberIdx
        then (if s.ring.absent.getLsbD m then s else s.leaderAbsent m) else s.takeAbsent m
    | 1 =>
      let s1 := s.onPair fun p => { p with suspect := bitSet p.suspect m }
      (if m = s.memberIdx then s1.evTick 10 else s1).pairUpdate
    | 2 => s.takeAdmitted m
    | _ => (s.onPair fun p => { p with suspect := bitClr p.suspect m }).pairUpdate

/-- RING_EVENT. -/
def execRingEvent (kind member tick : Nat) (s : State) : Host.Outcome State Fault Refusal :=
  .next (if !s.live then s else commit (s.ringEventEff kind member))

/-- The next leader when the present one is lost: the first member of the succession order that is neither it nor ABSENT
(R49). -/
def State.nextLeader (s : State) : Option Nat :=
  ((sortBy (fun (x y : NetMember) => decide (x.succession < y.succession)) s.b.netw.members).find? fun m =>
    m.index != s.tick.leader && !s.pair.absent.getLsbD m.index).map (·.index)

/-- The deadline of the next marker (R49). -/
def State.markerDeadline (s : State) : Nat :=
  let p := s.b.plan.common
  s.tick.lastLaunch + 8 * (if p.source = 2 then p.encMaxGap else s.block.1.periodMin) + s.maxStretchNs + s.b.markerLead

/-- LEADER_LOST: the successor becomes leader and issues the next marker with every LATE bit set. -/
def State.leaderLostEff (s : State) : State :=
  if !(s.isMember && s.tick.role == .follower && s.tick.running && s.tick.launch.isNone
      && decide (s.markerDeadline ≤ s.tb.time)) then s
  else
    let s1 := (s.evTick 7).onTick fun t => { t with lastLaunch := s.tb.time }
    match s.nextLeader with
    | none => s1
    | some m =>
      if m = s.memberIdx then
        let s2 := s1.setRole .leader m
        (s2.onTick fun t => { t with
          nominal := some s.tb.time, lastNominal := s.tb.time, pendFiller := false, ready := 0, noReady := [] }).markerIssue 0x3F
      else s1.setRole .follower m

/-- LEADER_LOST. -/
def execLeaderLost (s : State) : Host.Outcome State Fault Refusal :=
  .next (if !s.live then s else commit s.leaderLostEff)

end Sys2Proof.Machine
end

