-- ==== Sys2Proof/Machine/Ksi.lean ====
section
/-! DEFINITION. The KSI's tenant services: admission, model keys, weight loads, rotation, consent, removal (spec/17). -/

namespace Sys2Proof.Machine

/-! ### Slots, measurements and events -/

/-- A KSI tenant's data. -/
def State.ten (s : State) (k : Nat) : Tenant := s.ksi.tenants.get k

/-- Update a tenant. -/
def State.onTen (s : State) (k : Nat) (f : Tenant → Tenant) : State :=
  s.onKsi fun x => { x with tenants := x.tenants.upd k f }

/-- A VF_EVENTS bit of a tenant's function (R345). -/
def State.evTen (s : State) (k i : Nat) : State := match s.b.tentOf k with
  | some t => s.evVf t.vf i
  | none => s

/-- The four key slots of a tenant: weight and cache of epoch 0, then of epoch 1; slots 32 and 33 for the module (R367). -/
def State.slotsOf (s : State) (k : Nat) : List Nat :=
  if k = 0 then [32, 33] else match s.b.tentOf k with
    | some t => (List.range 4).map (t.slotBase + ·)
    | none => []

/-- A key slot's two slots of an epoch. -/
def State.epochSlots (s : State) (k : Nat) (e : Bool) : List Nat := [s.keySlotOf k e false, s.keySlotOf k e true]

/-- A slot's state changes; for a tenant's slot EPOCH is set (R345, R368). -/
def State.setSlot (s : State) (k n : Nat) (x : KeySlot) : State :=
  (s.onKsi fun y => { y with slots := y.slots.set n x }).evTen k 2

/-- Keys are drawn into a slot, which becomes LIVE; `serial` names the draw (R369). -/
def State.drawSlot (s : State) (k n : Nat) : State :=
  (s.setSlot k n { state := .live, serial := s.freeCount + 1 }).tookFree 1

/-- The key of a measurement accumulator: index 7 has one for each tenant (R384). -/
def measureKey (idx k : Nat) : Nat := if idx = 7 then 16 + k else idx

/-- An accumulator is extended by an entry digest (R384). -/
def State.measure (s : State) (idx k : Nat) (d : List Byte) : State :=
  s.onKsi fun x => { x with measures := x.measures.upd (measureKey idx k) fun m =>
    { acc := shake256 (m.acc ++ d), count := m.count + 1 } }

/-- An accumulator is extended by an entry whose digest input the spec does not lay out: a free digest (log 34). -/
def State.measureFree (s : State) (idx k : Nat) : State := (s.measure idx k (s.freeBytes 64)).tookFree 64

/-- A KSI response (R371): 0 OK, 1 DENIED, 2 BAD_ARG, 3 BUSY, 4 REVOKED, 5 TAG_FAIL, 6 NO_SEAL. -/
def State.ksiOut (s : State) (code status : Nat) (bytes : List Byte) : State :=
  s.out { kind := .ksi, code := code, status := status, bytes := bytes }

/-- Whether a session may ask for a tenant: the session that locked the tenant's TDI, or for tenant 0 one that has locked none
(R371). -/
def State.sessionFor (s : State) (session k : Nat) : Bool :=
  let x := s.host.sessions.get session
  x.isOpen && (if k = 0 then x.lockedVf == 0 else match s.b.tentOf k with
    | some t => ((s.host.tdis.get t.vf).state == .locked || (s.host.tdis.get t.vf).state == .run)
      && (s.host.tdis.get t.vf).session == session
    | none => false)

/-- A service of the KSI: refused with DENIED outside the right session or state. -/
def State.service (s : State) (session k code : Nat) (allowed : Bool) (f : State → State) : State :=
  if !s.live then s
  else if s.sessionFor session k && allowed then f s else s.ksiOut code 1 []

/-- ADMITTED, also while ROTATING (R388 states 1 and 2). -/
def State.isAdmitted (s : State) (k : Nat) : Bool := (s.ten k).state == .admitted || (s.ten k).state == .rotating

/-! ### Model keys and weight loads (R371, R373, R374) -/

/-- KEY_DELIVER. -/
def State.keyDeliverEff (s : State) (session k modelId : Nat) (key : List Byte) : State :=
  s.service session k 1 (s.isAdmitted k) fun s =>
    if modelId = 0 || 0xFFFFFFFF < modelId then s.ksiOut 1 2 []
    else if 16 ≤ (s.ten k).models.length && (s.ten k).models.get modelId == [] then s.ksiOut 1 1 []
    else (s.onTen k fun x => { x with models := x.models.set modelId (sliceZ key 0 32) }).ksiOut 1 0 []

/-- KEY_DELIVER. -/
def execKeyDeliver (session tenant modelId : Nat) (key : List Byte) (s : State) : Host.Outcome State Fault Refusal :=
  .next (commit (s.keyDeliverEff session tenant modelId key))

/-- Image bytes of a load's plaintext: a 65,536-byte chunk has a 16-byte tag unless the image is plaintext (R373). -/
def imageBytes (modelId length : Nat) : Nat :=
  if modelId = 0 then length else length + 16 * ((length + 65535) / 65536)

/-- Whether a load's arguments are good: a SYSTEM source and a WEIGHT destination of the tenant that hold it, a model key in
hand, whole lines, and a source the seal activity may read (R150, R374). -/
def State.loadArgs (s : State) (k : Nat) (x : WLoad) : Bool :=
  (x.modelId != 0 || k == 0) && (x.modelId == 0 || (s.ten k).models.get x.modelId != []) && x.length % 128 == 0
    && x.dstOffset % 128 == 0
    && (match s.b.region x.srcRegion, s.b.region x.dstRegion with
      | some a, some d => a.kind == 0 && d.kind == 1 && d.tenant == k
          && decide (x.srcOffset + imageBytes x.modelId x.length ≤ a.size * granBytes)
          && decide (x.dstOffset + x.length ≤ d.size * granBytes)
          && (a.channel == d.channel || a.readers.testBit d.channel)
      | _, _ => false)

/-- WEIGHT_LOAD: the load starts on the seal activity of the destination channel. -/
def State.weightLoadEff (s : State) (session k : Nat) (x : WLoad) : State :=
  s.service session k 2 (s.isAdmitted k || (k == 0 && s.bound)) fun s =>
    if !s.loadArgs k x then s.ksiOut 2 2 []
    else if (s.ten k).load.isSome then s.ksiOut 2 3 []
    else match s.b.sealAct k ((s.b.region x.dstRegion).elim 0 (·.channel)) with
      | none => s.ksiOut 2 6 []
      | some a => (s.onTen k fun t => { t with load := some { x with activity := a } }).ksiOut 2 0 []

/-- WEIGHT_LOAD. -/
def execWeightLoad (session tenant modelId srcRegion srcOffset dstRegion dstOffset firstChunk length : Nat) (s : State) :
    Host.Outcome State Fault Refusal :=
  .next (commit (s.weightLoadEff session tenant
    { tenant := tenant, modelId := modelId, srcRegion := srcRegion, srcOffset := srcOffset, dstRegion := dstRegion
      dstOffset := dstOffset, firstChunk := firstChunk, length := length }))

/-- One chunk of a load: its plaintext, or none when its tag fails. -/
def State.chunkPlain (s : State) (x : WLoad) (j : Nat) : Option (List Byte) :=
  let r := (s.b.region x.srcRegion).getD {}
  let n := min 65536 (x.length - 65536 * j)
  let base := r.base * granBytes + x.srcOffset + (if x.modelId = 0 then 65536 else 65552) * j
  let ct := s.gdGet r.channel base n
  if x.modelId = 0 then some ct
  else Config.gcmOpen ((s.ten x.tenant).models.get x.modelId) (toLe 4 x.modelId ++ toLe 8 (x.firstChunk + j)) ct
    (s.gdGet r.channel (base + n) 16)

/-- The chunks of a load in order: each is sealed into the destination; a tag that fails stops the load, and no plaintext of
its chunk is written. -/
def loadChunks (x : WLoad) : Nat → Nat → State → State × Bool
  | 0, _, s => (s, true)
  | n + 1, j, s => match s.chunkPlain x j with
    | none => (s, false)
    | some p =>
      let r := (s.b.region x.dstRegion).getD {}
      loadChunks x n (j + 1) (s.gdWrite x.activity x.tenant r.channel (r.base * granBytes + x.dstOffset + 65536 * j) p)

/-- A load's data moves. -/
def State.loadRun (s : State) (x : WLoad) : State × Bool := loadChunks x ((x.length + 65535) / 65536) 0 s

/-- A load ends with a status; it is an entry of measurement index 7, and LOAD_FAIL when a tag failed. -/
def State.loadEnd (s : State) (k status : Nat) : State :=
  let s1 := (s.onTen k fun t => { t with load := none, lastLoad := status }).measureFree 7 k
  if status = 5 then s1.evKsi 3 none else s1

/-- The log of successful loads, the last 1,024 module-wide; a region that loses an entry is marked (R428). -/
def State.loadLogged (s : State) (x : WLoad) : State :=
  s.onChk fun c =>
    let l := c.loadLog ++ [x]
    let out := l.take (l.length - 1024)
    { c with loadLog := l.drop (l.length - 1024), loadLost := out.foldl (fun t y => Tab.set t y.dstRegion true) c.loadLost }

/-! ### Rotation (R375) -/

/-- Whether the slots of the epoch that is not written are EMPTY. -/
def State.otherEmpty (s : State) (k : Nat) : Bool :=
  (s.epochSlots k (!s.writeEpoch k)).all fun n => (s.ksi.slots.get n).state == .empty

/-- ROTATE: the other epoch's keys are drawn, and its slots become LIVE at the next boundary; otherwise BUSY. -/
def State.rotateEff (s : State) (session k : Nat) : State :=
  s.service session k 3 true fun s =>
    if (s.ten k).state == .admitted && !(s.ten k).rotatePend && s.otherEmpty k && k != 0
    then (s.onTen k fun x => { x with rotatePend := true }).ksiOut 3 0 [] else s.ksiOut 3 3 []

/-- ROTATE. -/
def execRotate (session tenant : Nat) (s : State) : Host.Outcome State Fault Refusal :=
  .next (commit (s.rotateEff session tenant))

/-! ### Consent (R385) -/

/-- Whether a consent record is good. -/
def State.consentOk (s : State) (session k : Nat) (r : List Byte) : Bool :=
  u8 r 0 == k && u8 r 1 / 4 == 0 && slice r 16 16 == (s.ten k).nonce && slice r 32 16 == s.keep.accession
    && Config.ed448Verify (Config.requesterKey (s.host.sessions.get session).cert) (ascii "APY-SX6-CONSENT") (slice r 0 78)
      (slice r 78 114)

/-- CONSENT: an accepted record takes effect at the next boundary. -/
def State.consentEff (s : State) (session k : Nat) (r : List Byte) : State :=
  s.service session k 4 (s.isAdmitted k) fun s =>
    if !s.consentOk session k r then s.ksiOut 4 2 []
    else
      let put := fun (c : Consent) (i : Nat) =>
        if (u8 r 1).testBit i then { c with pend := true, ending := false, expires := u64 r 8 } else c
      (s.onTen k fun x => { x with debugging := put x.debugging 0, counters := put x.counters 1 }).ksiOut 4 0 []

/-- CONSENT. -/
def execConsent (session tenant : Nat) (record : List Byte) (s : State) : Host.Outcome State Fault Refusal :=
  .next (commit (s.consentEff session tenant record))

/-- CONSENT_END of a scope: the consents it names end at the next boundary. -/
def State.consentEndEff (s : State) (session k scope : Nat) : State :=
  s.service session k 5 (s.isAdmitted k) fun s =>
    if 3 < scope then s.ksiOut 5 2 []
    else
      let stop := fun (c : Consent) (i : Nat) => if scope.testBit i then { c with pend := false, ending := c.inForce } else c
      (s.onTen k fun x => { x with debugging := stop x.debugging 0, counters := stop x.counters 1 }).ksiOut 5 0 []

/-- CONSENT_END. -/
def execConsentEnd (session tenant scope : Nat) (s : State) : Host.Outcome State Fault Refusal :=
  .next (commit (s.consentEndEff session tenant scope))

/-- A consent at the boundary that starts tick `n`: a new one takes effect, one that ends or whose EXPIRES has passed goes. -/
def Consent.atBoundary (c : Consent) (n : Nat) : Consent :=
  if c.ending || (c.inForce && !c.pend && decide (c.expires < n)) then {}
  else if c.pend then { c with inForce := true, pend := false } else c

/-- Consents at a boundary; each change is logged in measurement index 6. -/
def State.consentBoundary (s : State) : State :=
  (List.range 9).foldl (fun (s : State) k =>
    let x := s.ten k
    let d := x.debugging.atBoundary s.tick.num
    let c := x.counters.atBoundary s.tick.num
    let s1 := s.onTen k fun x => { x with debugging := d, counters := c }
    if d.inForce = x.debugging.inForce && c.inForce = x.counters.inForce then s1 else (s1.measureFree 6 k).evKsi 6 none) s

/-! ### STATUS (R371) -/

/-- The code of a tenant state (R388). -/
def TenantState.code : TenantState → Nat
  | .none => 0
  | .admitted => 1
  | .rotating => 2
  | .removing => 3
  | .reclaiming => 4

/-- The code of a slot state (R388). -/
def SlotState.code : SlotState → Nat
  | .empty => 0
  | .live => 1
  | .draining => 2
  | .retired => 3

/-- STATUS: tenant state, slot states, write epoch, last load status, RESEAL_LEFT, and a fresh nonce (layout: log 34). -/
def State.statusEff (s : State) (session k : Nat) : State :=
  s.service session k 6 true fun s =>
    let nonce := s.freeBytes 16
    let x := s.ten k
    ((s.onTen k fun x => { x with nonce := nonce }).tookFree 16).ksiOut 6 0
      (toLe 1 x.state.code ++ ((s.slotsOf k).flatMap fun n => toLe 1 (s.ksi.slots.get n).state.code)
        ++ toLe 1 (if x.writeEpoch then 1 else 0) ++ toLe 1 x.lastLoad ++ toLe 8 (s.resealLeft k) ++ nonce)

/-- STATUS. -/
def execKsiStatus (session tenant : Nat) (s : State) : Host.Outcome State Fault Refusal :=
  .next (commit (s.statusEff session tenant))

/-! ### Admission (R372) -/

/-- The granules of a region become VIRGIN: their lines read as zeros (R363). -/
def State.virginRegion (s : State) (r : MemxRec) : State := s.onGddr fun g => { g with
  mem := clearRange g.mem (gdKey r.channel (r.base * granBytes)) (r.size * granBytes)
  touched := g.touched.keep fun i _ => !(decide (r.channel * 16384 + r.base ≤ i)
    && decide (i < r.channel * 16384 + r.base + r.size)) }

/-- The granules of a tenant's WEIGHT and DATA regions become VIRGIN. -/
def State.makeVirgin (s : State) (k : Nat) : State := (s.sealedRegions k).foldl State.virginRegion s

/-- Whether a tenant can be admitted. -/
def State.admissible (s : State) (k : Nat) : Bool :=
  (s.ten k).state == .none && !(s.ten k).admitPend && (s.slotsOf k).length == 4
    && (s.slotsOf k).all fun n => (s.ksi.slots.get n).state == .empty

/-- Admission of a tenant: the keys of epoch 0, VIRGIN granules under epoch 0; it is ADMITTED at the next boundary. -/
def State.admitTenant (s : State) (k : Nat) : State :=
  let s1 := s.onTen k fun x => { x with admitPend := true, writeEpoch := false }
  let s2 := (s1.epochSlots k false).foldl (fun (s : State) n => s.drawSlot k n) s1
  let s3 := (s2.makeVirgin k).onGddr fun g => { g with
    regions := g.regions.updAll ((s2.sealedRegions k).map (·.region)) fun _ r => { r with epoch := false, cursor := 0 } }
  s3.measureFree 7 k

/-! ### Removal (R378 to R380) -/

/-- An edit's unpublished entries of a tenant are discarded, and edits in hand of its activities are given up. -/
def State.dropEdits (s : State) (k : Nat) : State :=
  let s1 := s.onLeaf fun x => { x with shadow := x.shadow.keep fun l e =>
    !((if e.entry.state = .free then (x.map.get l).tenant else e.entry.tenant) == k) }
  (s1.b.actList.filter fun a => s1.b.tenantOf a == k).foldl State.editDrop s1

/-- Whether a tenant can be removed: it is not NONE, and no removal of it runs. -/
def State.removable (s : State) (k : Nat) : Bool :=
  (s.ten k).admitPend || (s.ten k).state == .admitted || (s.ten k).state == .rotating

/-- A removal trigger for a tenant: nothing while it is NONE or its removal runs (R378, R380). Its function's role changes
(R122). -/
def State.removeTenant (s : State) (k : Nat) : State :=
  let x := s.ten k
  if !s.removable k then s
  else
    let s1 := (s.slotsOf k).foldl (fun (s : State) n =>
      if s.slotLive n then s.setSlot k n { s.ksi.slots.get n with state := .draining } else s) s
    let s2 := s1.onTen k fun x => { x with
      state := .removing, admitPend := false, rotatePend := false, load := none
      lastLoad := if x.load.isSome then 4 else x.lastLoad, removal := some { start := s.tb.time } }
    let s3 := if x.load.isSome then (s2.measureFree 7 k).ksiOut 2 4 [] else s2
    let s4 := (s3.b.actList.filter fun a => s3.b.tenantOf a == k).foldl (fun (s : State) a => s.queueStop a .revoked) s3
    let s5 := (s4.dropEdits k).sendRevoke k
    match s5.b.tentOf k with
    | some t => s5.roleChange (idFn t.vf)
    | none => s5

/-- Whether a frame this member sent on a lane of the tenant awaits its acknowledgement. -/
def State.laneBusy (s : State) (k : Nat) : Bool :=
  s.ring.ports.any fun e => e.2.replay.any fun f => f.src == s.memberIdx && (match s.b.routeOf f.lane with
    | some r => s.b.tenantOf r.activity == k
    | none => false)

/-- Whether the tenant still has work: an op in progress, beats not acknowledged, or ring frames that await it (R378). -/
def State.tenantBusy (s : State) (k : Nat) : Bool :=
  (s.b.actList.any fun a => s.b.tenantOf a == k && ((s.act a).run.isSome || (s.queue a).pendCode.isSome)) || s.laneBusy k

/-- Whether a queue's transfer in hand uses a host window. -/
def State.usesWin (s : State) (a w : Nat) : Bool :=
  let q := s.queue a
  q.busy && q.pendCode.isNone
    && ((adSpace q.prog.src == 2 && adWin q.prog.src == w) || (adSpace q.prog.dst == 2 && adWin q.prog.dst == w))

/-- A host window is disabled: transfers in flight to it end with HOST_ERROR, and leaves spilled to it become LOST (R349). -/
def State.winDisable (s : State) (w : Nat) : State :=
  if (s.host.wins.get w).enabled then
    let s1 := s.onHost fun h => { h with wins := h.wins.upd w fun x => { x with enabled := false } }
    let s2 := (List.range 96).foldl (fun (s : State) a =>
      if s.usesWin a w then (s.beatStops a 7).winFault w (s.b.tenantOf a) else s) s1
    s2.tierLost .host w none
  else s

/-- The tenant a host window belongs to (R347). -/
def State.winOwner (s : State) (w : Nat) : Nat :=
  match s.b.memx.find? fun r => r.kind == 5 && r.link == w with
  | some r => r.tenant
  | none => 0

/-- The fence: slots zeroised and EMPTY, the tenant's banks zeroed, its vitrine area wiped, its windows disabled, its granules
VIRGIN, its model keys and consents ended; queues that still hold a stopped transfer end with REVOKED (R378 step 3). -/
def State.fence (s : State) (k : Nat) : State :=
  let s1 := (s.slotsOf k).foldl (fun (s : State) n => s.setSlot k n {}) s
  let acts := s1.b.actList.filter fun a => s1.b.tenantOf a == k
  let s2 := acts.foldl (fun (s : State) a => if (s.queue a).busy then s.queueEnd a 2 else s) s1
  let s3 := s2.spad.loans.foldl (fun (s : State) e =>
    if e.2.owned && s.b.tenantOf (16 * (e.1 / 48) + e.2.owner.toNat) == k then s.zeroBank (e.1 / 48) (e.1 % 48) else s) s2
  let s4 := (List.range 16).foldl (fun (s : State) w => if s.winOwner w = k then s.winDisable w else s) (s3.wipeVitrine 4 k)
  (s4.makeVirgin k).onTen k fun x => { x with
    models := [], debugging := {}, counters := {}
    removal := x.removal.map fun r => { r with fenced := true } }

/-- REMOVAL_FENCE: at or after B1 once the tenant is not busy, and at B3 in any case. -/
def State.fenceEff (s : State) (k : Nat) : State :=
  match (s.ten k).removal with
  | some r => if !r.fenced && decide (1 ≤ r.boundaries) && (!s.tenantBusy k || decide (3 ≤ r.boundaries)) then s.fence k else s
  | none => s

/-- REMOVAL_FENCE; the operand counts tenants from 0. -/
def execRemovalFence (tenant : Nat) (s : State) : Host.Outcome State Fault Refusal :=
  .next (if !s.live then s else commit (s.fenceEff (tenant + 1)))

/-- A TDISP response: VF, code, status. -/
def State.tdispOut (s : State) (vf code status : Nat) (bytes : List Byte) : State :=
  s.out { kind := .tdisp, port := vf, code := code, status := status, bytes := bytes }

/-- A STOP response that waited for the removal (R355). -/
def State.stopReply (s : State) (vf : Nat) : State :=
  if (s.host.tdis.get vf).stopOwed then
    (s.onHost fun h => { h with tdis := h.tdis.upd vf fun t => { t with stopOwed := false } }).tdispOut vf 0x07 0 []
  else s

/-- REMOVAL_COMPLETE: RECLAIMING, REMOVED, the STOP response, and an entry with T and C (R378 step 4). -/
def State.removed (s : State) (k : Nat) : State :=
  match (s.ten k).removal with
  | some r => if !r.fenced then s
    else
      let s1 := (s.onTen k fun x => { x with state := .reclaiming, removal := none }).onKsi fun x =>
        { x with lastRemoval := s.tb.time - r.start }
      let s2 := ((s1.evTen k 1).evKsi 4 none).record { kind := .removal, vals := [k, 0, r.start, s.tb.time] }
      match s.b.tentOf k with
      | some t => s2.stopReply t.vf
      | none => s2
  | none => s

/-- REMOVAL_COMPLETE; the operand counts tenants from 0. -/
def execRemovalComplete (tenant : Nat) (s : State) : Host.Outcome State Fault Refusal :=
  .next (if !s.live then s else commit (s.removed (tenant + 1)))

/-- RECLAIM_DONE: every leaf entry of the tenant is FREE with its GEN, its slots released in every tier; the tenant is NONE
(R379). -/
def State.reclaimed (s : State) (k : Nat) : State :=
  if (s.ten k).state ≠ .reclaiming then s
  else
    let s1 := (s.leaf.map.filter fun e => e.2.tenant == k && e.2.state != .free && e.2.state != .retired).foldl
      (fun (s : State) e =>
        let t := match s.xferOf e.1 with
          | some x => if x.isFetch then s else s.tierFree x.tier k x.site x.tierSlot
          | none => s
        let t1 := if e.2.tier = .loc then t else t.tierFree e.2.tier k e.2.site e.2.slot
        (t1.xferDrop e.1).onLeaf fun x => { x with map := x.map.set e.1 { gen := e.2.gen } }) s
    (s1.onLeaf fun x => { x with uses := x.uses.filter fun u => s1.b.tenantOf u.activity != k }).onTen k fun x =>
      { x with state := .none }

/-- RECLAIM_DONE; the operand counts tenants from 0. -/
def execReclaimDone (tenant : Nat) (s : State) : Host.Outcome State Fault Refusal :=
  .next (if !s.live then s else commit (s.reclaimed (tenant + 1)))

/-! ### The KSI at a boundary -/

/-- The new epoch of a rotating tenant is LIVE and written from this boundary on (R375). -/
def State.epochLive (s : State) (k : Nat) : State :=
  if !(s.ten k).rotatePend then s
  else
    let e := !s.writeEpoch k
    let s1 := (s.epochSlots k e).foldl (fun (s : State) n => s.drawSlot k n) s
    (s1.onTen k fun x => { x with rotatePend := false, writeEpoch := e, state := .rotating }).measureFree 7 k

/-- The old epoch retires at the first boundary with RESEAL_LEFT 0 (R377). -/
def State.epochRetire (s : State) (k : Nat) : State :=
  if (s.ten k).state == .rotating && s.resealLeft k == 0 then
    let s1 := (s.epochSlots k (!s.writeEpoch k)).foldl (fun (s : State) n => s.setSlot k n { state := .retired }) s
    ((s1.onTen k fun x => { x with state := .admitted }).evKsi 5 none).measureFree 7 k
  else s

/-- Slots RETIRED for two boundaries are EMPTY (R368). -/
def State.slotsAge (s : State) : State :=
  s.ksi.slots.foldl (fun (s : State) e =>
    if e.2.state = .retired then
      (if 1 ≤ e.2.age then (match s.b.tent.find? fun t => decide (t.slotBase ≤ e.1) && decide (e.1 < t.slotBase + 4) with
          | some t => s.setSlot t.tenant e.1 {}
          | none => s)
        else s.onKsi fun x => { x with slots := x.slots.set e.1 { e.2 with age := e.2.age + 1 } })
    else s) s

/-- One tenant at a boundary: an admission completes, a removal counts boundaries and closes its codec slots at the first,
an epoch becomes LIVE or retires, RESEAL_LEFT is latched (R372, R375, R377, R378, R389). -/
def State.tenantBoundary (s : State) (k : Nat) : State :=
  let s1 := if (s.ten k).admitPend then s.onTen k fun x => { x with admitPend := false, state := .admitted } else s
  let first := match (s1.ten k).removal with
    | some r => r.boundaries == 0
    | none => false
  let s2 := if first then
      (s1.b.codc.filter fun r => s1.b.tenantOf r.activity == k).foldl (fun (s : State) r => s.codecClose r.channel r.slot) s1
    else s1
  let s3 := s2.onTen k fun x => { x with removal := x.removal.map fun r => { r with boundaries := r.boundaries + 1 } }
  let s4 := (s3.epochRetire k).epochLive k
  s4.onTen k fun x => { x with resealLatch := s4.resealLeft k }

/-- The KSI at a boundary, after the tick number has advanced. -/
def State.ksiBoundary (s : State) : State :=
  let s1 := ((List.range 9).foldl State.tenantBoundary s.slotsAge).consentBoundary
  s1.onPwr fun p => { p with dbg := (List.range 9).any fun k => (s1.ten k).debugging.inForce }

/-! ### Tamper (R387) -/

/-- TAMPER: the whole vitrine is wiped, an entry is written and the module resets. -/
def State.tamperEff (s : State) (kind : Nat) : State :=
  ((s.wipeVitrine 1 0).record { kind := .tamper, vals := [kind] }).resetModule 6

/-- TAMPER. -/
def execTamper (kind : Nat) (s : State) : Host.Outcome State Fault Refusal :=
  .next (if !s.start.p48 then s else commit (s.tamperEff kind))

end Sys2Proof.Machine
end

