-- ==== Sys2Proof/Machine/Copies.lean ====
section
/-! DEFINITION. Weight loads that end, and the comparison and repair of weight copies (spec/17 R374, spec/20 R426 to R429). -/

namespace Sys2Proof.Machine

/-- The COPY record of an index. -/
def State.copyRec (s : State) (i : Nat) : Option SafeCopy := s.b.safe.copies[i]?

/-- A copy's run. -/
def State.copy (s : State) (i : Nat) : CopyRun := s.chk.copies.get i

/-- Update a copy's run. -/
def State.onCopy (s : State) (i : Nat) (f : CopyRun → CopyRun) : State :=
  s.onChk fun c => { c with copies := c.copies.upd i f }

/-- The region of a copy. -/
def State.copyRegion (s : State) (i : Nat) : Option MemxRec :=
  match s.copyRec i with
  | some c => s.b.region c.region
  | none => none

/-- The seal activity that serves a copy. -/
def State.copySeal (s : State) (i : Nat) : Option Nat :=
  match s.copyRegion i with
  | some r => s.b.sealAct r.tenant r.channel
  | none => none

/-! ### Rounds (R426) -/

/-- The interval of a copy's rounds in ticks. -/
def State.copyInterval (s : State) (c : SafeCopy) : Nat := if c.interval = 0 then s.b.safe.digestInterval else c.interval

/-- A round is abandoned: TEST_STARVED (R426). -/
def State.roundAbandon (s : State) (i : Nat) : State := (s.onCopy i fun x => { x with round := none }).evSafe 6 none

/-- COPY_ROUND_START: at a tick that is a multiple of the interval; a round still running is abandoned, and so is one
without a seal activity. -/
def State.roundStart (s : State) (i : Nat) : State :=
  match s.copyRec i with
  | none => s
  | some c =>
    let x := s.copy i
    let n := s.copyInterval c
    if !s.tick.running || s.chk.maintenance || n == 0 || s.tick.num % n != 0 || x.round == some s.tick.num
        || (x.digest != [] && x.digestTick == s.tick.num) then s
    else
      let s1 := if x.round.isSome then s.roundAbandon i else s
      let s2 := s1.onCopy i fun x => { x with round := some s.tick.num }
      if (s2.copySeal i).isNone then s2.roundAbandon i else s2

/-- COPY_ROUND_START. -/
def execCopyRoundStart (copyIndex : Nat) (s : State) : Host.Outcome State Fault Refusal :=
  .next (if !s.live then s else commit (s.roundStart copyIndex))

/-- The digest of a region: its size and its plaintext in ascending line order. -/
def State.regionDigest (s : State) (r : MemxRec) : List Byte :=
  shake256 (ascii "APY-WDIG" ++ toLe 8 (r.size * granBytes) ++ s.gdGet r.channel (r.base * granBytes) (r.size * granBytes))

/-- COPY_DIGEST_FINAL: the digest is sent, latched and held; a read that returns poison abandons the round. -/
def State.digestFinal (s : State) (i : Nat) (poisoned : Bool) : State :=
  match s.copyRec i, s.copyRegion i, (s.copy i).round with
  | some c, some r, some t =>
    let res := s.rangeRead r.tenant r.channel (r.base * granBytes) (r.size * granBytes) 0
    if poisoned || res != .ok then
      (s.readFailed ((s.copySeal i).getD 0) r.channel (r.base * granBytes) res).roundAbandon i
    else
      let d := s.regionDigest r
      let s1 := s.onCopy i fun x => { x with digest := d, digestTick := t, round := none, boundaries := some 0 }
      (s1.onChk fun x => { x with digests := x.digests ++ [{ sender := s.memberIdx, group := c.group, kind := 0, tick := t
                                                             digest := d }] }).sendDigest c.group 0 t d
  | _, _, _ => s

/-- COPY_DIGEST_FINAL. -/
def execCopyDigestFinal (copyIndex : Nat) (poisoned : Bool) (s : State) : Host.Outcome State Fault Refusal :=
  .next (if !s.live then s else commit (s.digestFinal copyIndex poisoned))

/-! ### Decisions and replays (R427, R428) -/

/-- The successful loads that wrote a region, oldest first. -/
def State.loadsOf (s : State) (region : Nat) : List WLoad := s.chk.loadLog.filter fun x => x.dstRegion == region

/-- Whether a SUSPECT copy can be replayed: a seal activity, a log that has lost nothing of the region, and the model keys. -/
def State.canReplay (s : State) (i : Nat) : Bool :=
  match s.copyRegion i with
  | some r => (s.copySeal i).isSome && !s.chk.loadLost.get r.region
      && (s.loadsOf r.region).all fun x => x.modelId == 0 || (s.ten x.tenant).models.get x.modelId != []
  | none => false

/-- A copy becomes SUSPECT: COPY_MISMATCH, and its replay starts at once unless it was RELOADED or cannot be replayed. -/
def State.copySuspect (s : State) (i : Nat) : State :=
  let x := s.copy i
  if x.state = .suspect ∨ x.state = .reloading then s
  else
    let s1 := s.evSafe 4 (s.copySeal i)
    if x.state != .reloaded && s1.canReplay i then s1.onCopy i fun x => { x with state := .reloading }
    else (s1.onCopy i fun x => { x with state := .suspect }).evSafe 5 (s.copySeal i)

/-- The digests a module holds for a round of a group. -/
def State.roundDigests (s : State) (group tick : Nat) : List (List Byte) :=
  (s.chk.digests.filter fun d => d.kind == 0 && d.group == group && d.tick == tick).map (·.digest)

/-- Whether a value is held by more than half. -/
def majority (l : List (List Byte)) (d : List Byte) : Bool := decide (l.length < 2 * (l.filter (· == d)).length)

/-- COPY_DECISION at the 16th boundary after a copy's own digest became final (R427). -/
def State.copyDecide (s : State) (i : Nat) : State :=
  match s.copyRec i, (s.copy i).boundaries with
  | some c, some n =>
    if n < 16 then s
    else
      let x := s.copy i
      let l := s.roundDigests c.group x.digestTick
      let s1 := s.onCopy i fun x => { x with boundaries := none, alone := decide (l.length ≤ 1) }
      let s2 := if l.length ≤ 1 then s1
        else if l.all (· == x.digest) || majority l x.digest then
          s1.onCopy i fun x => if x.state = .reloading then x else { x with state := .ok }
        else s1.copySuspect i
      if (List.range s.b.safe.copies.length).any fun j => ((s.copyRec j).getD {}).group == c.group
          && (s2.copy j).boundaries.isSome && (s2.copy j).digestTick == x.digestTick then s2
      else s2.onChk fun y => { y with digests := y.digests.filter fun d =>
        !(d.kind == 0 && d.group == c.group && decide (d.tick ≤ x.digestTick)) }
  | _, _ => s

/-- COPY_DECISION. -/
def execCopyDecision (copyIndex : Nat) (s : State) : Host.Outcome State Fault Refusal :=
  .next (if !s.live then s else commit (s.copyDecide copyIndex))

/-- A replay's loads in their original order; a chunk that fails its tag ends it. -/
def replayLoads : List WLoad → State → State × Bool
  | [], s => (s, true)
  | x :: r, s =>
    let y := s.loadRun x
    if y.2 then replayLoads r y.1 else y

/-- COPY_RELOAD_DONE: the replay of a RELOADING copy is through (R428). -/
def State.reloadDone (s : State) (i : Nat) : State :=
  match s.copyRegion i with
  | none => s
  | some r =>
    if (s.copy i).state ≠ .reloading then s
    else
      let y := if s.canReplay i then replayLoads (s.loadsOf r.region) s else (s, false)
      if y.2 then y.1.onCopy i fun x => { x with state := .reloaded }
      else (y.1.onCopy i fun x => { x with state := .suspect }).evSafe 5 (s.copySeal i)

/-- COPY_RELOAD_DONE. -/
def execCopyReloadDone (copyIndex : Nat) (s : State) : Host.Outcome State Fault Refusal :=
  .next (if !s.live then s else commit (s.reloadDone copyIndex))

/-- MARK_SUSPECT of SAFE_CTRL acts as a SUSPECT decision (R429). -/
def State.markSuspect (s : State) (i : Nat) : State := if (s.copyRec i).isSome then s.copySuspect i else s

/-- MARK_SUSPECT. -/
def execMarkSuspect (copyIndex : Nat) (s : State) : Host.Outcome State Fault Refusal :=
  .next (if !s.live then s else commit (s.markSuspect copyIndex))

/-- The copies at a boundary: undecided digests age. -/
def State.copyBoundary (s : State) : State :=
  s.onChk fun c => { c with copies := c.copies.updAll (c.copies.map (·.1)) fun _ x =>
    { x with boundaries := x.boundaries.map (· + 1) } }

/-! ### LOAD_COMPLETE (R374, R428) -/

/-- A successful load of a whole region makes its copies that are not OK RELOADED. -/
def State.wholeLoad (s : State) (x : WLoad) : State :=
  (List.range s.b.safe.copies.length).foldl (fun (s : State) i =>
    match s.copyRec i, s.copyRegion i with
    | some c, some r => if c.region = x.dstRegion && x.dstOffset == 0 && x.length == r.size * granBytes
          && (s.copy i).state != .ok then s.onCopy i fun y => { y with state := .reloaded } else s
    | _, _ => s) s

/-- LOAD_COMPLETE: the load of a tenant ends, with OK or at the first chunk whose tag fails. -/
def State.loadDone (s : State) (k : Nat) : State :=
  match (s.ten k).load with
  | none => s
  | some x =>
    let y := s.loadRun x
    if y.2 then ((y.1.loadEnd k 0).loadLogged x).wholeLoad x else y.1.loadEnd k 5

/-- LOAD_COMPLETE. -/
def execLoadComplete (tenant : Nat) (s : State) : Host.Outcome State Fault Refusal :=
  .next (if !s.live then s else commit (s.loadDone tenant))

end Sys2Proof.Machine
end

