-- ==== Sys2Proof/Machine/Sensors.lean ====
section
/-! DEFINITION. The conservator's sensors, the thermal ladder they drive, margin planning, the ceiling and the health scores
(spec/19, spec/21 R450). -/

namespace Sys2Proof.Machine

/-! ### Sensors (R401 to R404) -/

/-- The ends of a sensor's range in its unit (R403); log 36 takes them as the ends of its raw codes. -/
def sensorRange (i : Nat) : Int × Int :=
  if i < 30 then (-400, 1500) else if i < 66 then (0, 1250) else if i < 68 then (0, 800) else if i = 68 then (0, 2000)
  else if i = 69 then (0, 6000) else if i = 70 then (0, 2000) else if i = 71 then (0, 10000) else if i = 72 then (0, 1500)
  else if i < 79 then (400, 1100) else if i < 85 then (0, 1500) else (400, 1500)

/-- The sensor a sensor is paired with (R404). -/
def sensorPair (i : Nat) : Option Nat :=
  if i < 24 then (if i % 4 = 0 then some (i + 1) else if i % 4 = 1 then some (i - 1) else none)
  else if i = 66 then some 67 else if i = 67 then some 66 else none

/-- A quotient rounded to an integer; the direction of a rounding the spec does not state is the free bit's (log 36). -/
def roundFree (num den : Int) (up : Bool) : Int :=
  let q := num.fdiv den
  if up && num.fmod den != 0 then q + 1 else q

/-- A free bit. -/
def State.freeBit (s : State) (i : Nat) : Bool := (Config.freeByte (s.freeCount + i)).getLsbD 0

/-- A sensor. -/
def State.sensor (s : State) (i : Nat) : Sensor := s.cons.sensors.get i

/-- Update a sensor. -/
def State.onSensor (s : State) (i : Nat) (f : Sensor → Sensor) : State :=
  s.onCons fun c => { c with sensors := c.sensors.upd i f }

/-- `1 + GAIN_U * 2^-16` and `OFFSET_U` applied to a factory value in 2^-16 of the unit (R401), in 2^-32 of the unit. -/
def trimmed (t : Trim) (factory : Int) : Int := (65536 + t.gain) * factory + t.offset * 4294967296

/-- Whether a reading is plausible: not at either end of its range, and not unchanged for 60 s while its pair moved by
2 degrees (R404). -/
def State.plausible (s : State) (i : Nat) (raw : Int) : Bool :=
  let x := s.sensor i
  let r := sensorRange i
  let stuck := match sensorPair i with
    | some j => raw == x.lastRaw && decide (x.sameSince + 60000000000 ≤ s.tb.time)
        && decide (20 ≤ ((s.sensor j).value - x.pairAtSame).natAbs)
    | none => false
  decide (r.1 < raw) && decide (raw < r.2) && !stuck

/-- Sensor 71, the product of 69 and 70 after each has been trimmed (R403): 10 mV times 10 mA is 0.0001 W. -/
def State.powerSensor (s : State) : State :=
  let v := roundFree ((s.sensor 69).value * (s.sensor 70).value) 1000 (s.freeBit 0)
  (s.onSensor 71 fun x => { x with value := v, valid := (s.sensor 69).valid && (s.sensor 70).valid }).tookFree 1

/-- A reading taken: factory value, reported value, plausibility and fault (R401, R403, R404). -/
def State.reading (s : State) (i : Nat) (raw : Int) : State :=
  let ok := s.plausible i raw
  let x := s.sensor i
  let factory := x.gainF * raw + x.offsetF
  let v := roundFree (trimmed (s.cons.trims.get i) factory) 4294967296 (s.freeBit 0)
  let pairNow := match sensorPair i with
    | some j => (s.sensor j).value
    | none => 0
  let s1 := (s.onSensor i fun x => { x with
    value := v, factory := factory
    valid := ok && !x.fault, fault := x.fault || !ok
    plausSince := if ok then some (x.plausSince.getD s.tb.time) else none
    sameSince := if raw == x.lastRaw then x.sameSince else s.tb.time
    pairAtSame := if raw == x.lastRaw then x.pairAtSame else pairNow
    lastRaw := raw }).tookFree 1
  if !ok && !x.fault then s1.evCons 5 else s1

/-! ### The thermal ladder (R450) -/

/-- The thresholds in force: the binding's, or the fused value for 0 (R95). -/
def State.tWarn (s : State) : Int := if s.b.powr.tWarn = 0 then s.keep.tWarn else s.b.powr.tWarn
def State.tHot (s : State) : Int := if s.b.powr.tHot = 0 then s.keep.tHot else s.b.powr.tHot
def State.tCrit (s : State) : Int := if s.b.powr.tCrit = 0 then s.keep.tCrit else s.b.powr.tCrit

/-- The largest of a list, from a floor. -/
def maxInt (lo : Int) (l : List Int) : Int := l.foldl (fun m x => if m < x then x else m) lo

/-- The values of the valid sensors among some. -/
def State.validVals (s : State) (l : List Nat) : List Int :=
  (l.filter fun i => !(s.sensor i).fault).map fun i => (s.sensor i).value

/-- A free temperature: 16 bits, signed (log 36). -/
def State.freeTemp (s : State) (i : Nat) : Int :=
  signedOf 16 ((Config.freeByte (s.freeCount + 2 * i)).toNat + 256 * (Config.freeByte (s.freeCount + 2 * i + 1)).toNat)

/-- The die sites of a channel, a faulted one at the hottest valid site plus 5 degrees, or T_CRIT when none is valid (R404). -/
def State.siteTemps (s : State) (ch : Nat) : List Int :=
  let l := (List.range 4).map (4 * ch + ·)
  match s.validVals l with
  | [] => [s.tCrit]
  | v :: r => l.map fun i => if (s.sensor i).fault then maxInt v r + 50 else (s.sensor i).value

/-- The GDDR6 devices of a channel, a faulted one at the hottest valid device plus 5 degrees (R404); with none valid the
value is free, since the spec names none (log 36). -/
def State.deviceTemps (s : State) (ch : Nat) : List Int :=
  let l := (List.range 6).map (30 + 6 * ch + ·)
  match s.validVals l with
  | [] => [s.freeTemp (6 + ch)]
  | v :: r => l.map fun i => if (s.sensor i).fault then maxInt v r + 50 else (s.sensor i).value

/-- The module-level sites; a faulted one has no named substitute, so its value is free (log 36). -/
def State.moduleTemps (s : State) : List Int :=
  (List.range 6).map fun i => if (s.sensor (24 + i)).fault then s.freeTemp i else (s.sensor (24 + i)).value

/-- The lowest temperature a sensor can report. -/
def tFloor : Int := -32768

/-- The thermal limit: 0 none, else the code of the highest profile allowed (R450). -/
def State.thermal (s : State) : Nat := if s.pwr.hotOn then 2 else if s.pwr.warnOn then 1 else 0

/-- THERMAL_STEP counts each change of the limit. -/
def State.stepped (s0 s : State) : State := if s.thermal = s0.thermal then s else s.evPwr 6

/-- The ladder taken anew from the temperatures: limits rise at once, the times at which a release condition last failed are kept,
a channel at T_CRIT is marked to be shed (R450). -/
def State.ladder (s : State) : State :=
  let chans := (List.range 6).map s.siteTemps
  let modT := maxInt tFloor s.moduleTemps
  let hot := maxInt modT chans.flatten
  let now := s.tb.time
  let s1 := (s.onPwr fun p => { p with
    warnOn := p.warnOn || decide (s.tWarn ≤ hot)
    warnAt := if s.tWarn - 50 ≤ hot then now else p.warnAt
    hotOn := p.hotOn || decide (s.tHot ≤ hot)
    hotAt := if s.tHot - 50 ≤ hot then now else p.hotAt
    critAt := p.critAt.updAll (List.range 7) fun c t =>
      if s.tCrit - 100 ≤ (if c = 6 then modT else maxInt tFloor (chans.getD c [])) then now else t
    critShed := (List.range 6).foldl (fun v c =>
      if s.tCrit ≤ maxInt (maxInt tFloor (chans.getD c [])) (s.deviceTemps c) then bitSet v c else v) p.critShed
    modHot := decide (s.tCrit ≤ modT) }).tookFree 24
  State.stepped s s1

/-- SENSOR_UPDATE: a reading; the flow proxy and the minimum of an input dip are followed, and the ladder is taken anew. While a
reset is held only the factory value is seen, by the comparators of R451. -/
def State.sensorUpdate (s : State) (i : Nat) (raw : Int) : State :=
  if !s.live then
    (if s.start.p48 then s.onSensor i fun x => { x with factory := x.gainF * raw + x.offsetF } else s)
  else if i = 71 then s.powerSensor
  else
    let s1 := s.reading i raw
    if i = 68 then s1.onPwr fun p => { p with
      flowSince := if (s1.sensor 68).value < 100 then some (p.flowSince.getD s.tb.time) else none }
    else if i = 69 then
      (s1.onPwr fun p => { p with dipMin := if p.throttle then min p.dipMin (s1.sensor 69).value.toNat else p.dipMin }).powerSensor
    else if i = 70 then s1.powerSensor
    else if i < 66 then s1.ladder
    else s1

/-- SENSOR_UPDATE. -/
def execSensorUpdate (sensor : Nat) (raw : Int) (s : State) : Host.Outcome State Fault Refusal :=
  .next (commit (s.sensorUpdate sensor raw))

/-- SENSOR_FAULT_CLEAR: 10 s of plausible readings (R404). -/
def State.faultClear (s : State) (i : Nat) : State :=
  match (s.sensor i).plausSince with
  | some t => if (s.sensor i).fault && decide (t + 10000000000 ≤ s.tb.time)
    then (s.onSensor i fun x => { x with fault := false, valid := true }).ladder else s
  | none => s

/-- SENSOR_FAULT_CLEAR. -/
def execSensorFaultClear (sensor : Nat) (s : State) : Host.Outcome State Fault Refusal :=
  .next (if !s.live then s else commit (s.faultClear sensor))

/-- THERMAL_RELEASE of a step of the ladder whose release condition has held for 60 s: 0 BALANCED, 1 LEAN, 2 a channel shed for
its own sites, 3 the channels shed for a module-level site (R450). -/
def State.thermalRelease (s : State) (level ch : Nat) : State :=
  let past := fun (t : Nat) => decide (t + 60000000000 ≤ s.tb.time)
  match level with
  | 0 => if s.pwr.warnOn && past s.pwr.warnAt then State.stepped s (s.onPwr fun p => { p with warnOn := false }) else s
  | 1 => if s.pwr.hotOn && past s.pwr.hotAt && decide (150 ≤ (s.sensor 68).value) then
      State.stepped s (s.onPwr fun p => { p with hotOn := false, flowLow := false }) else s
  | 2 => if s.pwr.critShed.getLsbD ch && past (s.pwr.critAt.get ch) then
      s.onPwr fun p => { p with critShed := bitClr p.critShed ch } else s
  | _ => if s.pwr.modShed != 0 && past (s.pwr.critAt.get 6) then s.onPwr fun p => { p with modShed := 0 } else s

/-- THERMAL_RELEASE. -/
def execThermalRelease (level ch : Nat) (s : State) : Host.Outcome State Fault Refusal :=
  .next (if !s.live then s else commit (s.thermalRelease level ch))

/-- FLOW_LOW: the flow proxy has read below 1.0 L/min for 5 s (R450). -/
def State.flowLowEff (s : State) : State :=
  match s.pwr.flowSince with
  | some t => if !s.pwr.flowLow && decide (t + 5000000000 ≤ s.tb.time) then
      State.stepped s (s.onPwr fun p => { p with flowLow := true, hotOn := true }) else s
  | none => s

/-- FLOW_LOW. -/
def execFlowLow (s : State) : Host.Outcome State Fault Refusal :=
  .next (if !s.live then s else commit s.flowLowEff)

/-- THERMAL_TRIP: a die site's factory value reaches the fused T_TRIP: every switched domain goes off and the reset is held
(R451). -/
def State.thermalTrip (s : State) (site : Nat) : State :=
  if decide (site < 30) && decide (65536 * (s.keep.tTrip : Int) ≤ (s.sensor site).factory) then s.resetModule 9 else s

/-- THERMAL_TRIP. -/
def execThermalTrip (site : Nat) (s : State) : Host.Outcome State Fault Refusal :=
  .next (if !s.live then s else commit (s.thermalTrip site))

/-! ### Margin planning and the ceiling (R407 to R409) -/

/-- Clock domains: 5n + k for channel n's ARR, FAB, GC, COD, MC; then SYS, CUR, KSI, HOST, RING_E, RING_W, ING, TBS, DBG, AON
(R437; log 36). -/
def clockDomains : Nat := 40

/-- Whether a clock domain is powered in a profile (R435, R437). -/
def State.clockOn (s : State) (p d : Nat) : Bool :=
  let m := s.b.powr.profileDomains.getD (6 * p + d / 5) 0
  let on := (s.b.powr.profileChannels.getD p 0).testBit (d / 5)
  if d < 30 then match d % 5 with
    | 0 => on && (m.testBit 0 || m.testBit 1)
    | 1 => true
    | 2 => on && m.testBit 2
    | 3 => on && (m.testBit 3 || m.testBit 4)
    | _ => on && m.testBit 6
  else if d = 36 then s.pwr.ing else if d = 38 then s.pwr.dbg else true

/-- The key of a rail. -/
def railKey (p d : Nat) : Nat := 64 * p + d

/-- V_req of a profile and domain (R407). -/
def State.vReq (s : State) (drift : List Int) (p d : Nat) : Int :=
  let r := s.cons.rails.get (railKey p d)
  r.vFuse + drift.getD d 0 + r.guard

/-- The least margin of a profile over its powered domains, and the domain (R407, R408). -/
def State.marginOf (s : State) (drift : List Int) (p : Nat) : Int × Nat :=
  ((List.range clockDomains).filter (s.clockOn p)).foldl (fun (m : Option (Int × Nat)) d =>
    let x := (s.cons.rails.get (railKey p d)).vMax - s.vReq drift p d
    match m with
    | some y => if x < y.1 then some (x, d) else some y
    | none => some (x, d)) none |>.getD (0, 0)

/-- The voltages a replan sets: V_set never decreases within one cold bind (R407). -/
def State.railsOf (s : State) (drift : List Int) : Tab Rail :=
  s.cons.rails.updAll ((List.range 5).flatMap fun p => (List.range clockDomains).map (railKey p)) fun k r =>
    { r with vNext := some (max r.vSet (min (s.vReq drift (k / 64) (k % 64)) r.vMax)) }

/-- The highest profile below the ceiling whose margin is at least 0; HOLD is never excluded (R408). -/
def ceilingBelow (m : Tab Int) (c : Nat) : Nat :=
  ((List.range 4).filter fun p => decide (c < p) && decide (0 ≤ m.get p)).headD 4

/-- A scaled square root: the root of h times 2^32, rounded down. -/
def scaledRoot (h : Nat) : Nat := Nat.sqrt (h * 2 ^ 64)

/-- PROJ_HOURS: the least-squares fit M = a - b √h of the points from 168 h on, and where it reaches 0 (R409). Roots are taken
to 32 fraction bits (log 36). -/
def projection (pts : List (Nat × Int)) (now : Nat) : Word :=
  let l := pts.filter fun e => decide (168 ≤ e.1)
  let n : Int := l.length
  let sx : Int := l.foldl (fun (t : Int) e => t + scaledRoot e.1) 0
  let sy : Int := l.foldl (fun (t : Int) e => t + e.2) 0
  let sxy : Int := l.foldl (fun (t : Int) e => t + scaledRoot e.1 * e.2) 0
  let sh : Int := l.foldl (fun (t : Int) e => t + e.1) 0
  let num := n * sxy - sx * sy
  let den := 2 ^ 64 * (n * sh) - sx * sx
  let q := -(n * num) * 2 ^ 32
  if l.length < 14 || decide (0 ≤ num) || decide (den ≤ 0) then 0xFFFFFFFF
  else
    let p := sy * den - num * sx
    let h : Int := p * p / (q * q) - (now : Int)
    if decide (h ≤ 0) then 0 else BitVec.ofNat 32 (min h.toNat 0xFFFFFFFE)

/-- Powered hours. -/
def State.poweredHours (s : State) : Nat := s.cons.poweredNs / 3600000000000

/-- What a completed replan with its domains' drifts does: voltages for the next boundary, margins, MARGIN_LOW, the ceiling, the
history point of a full 24 h and the projection (R407 to R409). -/
def State.replanEff (s : State) (drift : List Int) : State :=
  let ms := (List.range 5).map (s.marginOf drift)
  let c := s.cons.ceilingNext.getD s.cons.ceiling
  let old := s.cons.margins.get c
  let now := (ms.getD c (0, 0)).1
  let tabI := (List.range 5).foldl (fun (t : Tab Int) p => t.set p (ms.getD p (0, 0)).1) []
  let tabD := (List.range 5).foldl (fun (t : Tab Nat) p => t.set p (ms.getD p (0, 0)).2) []
  let day := s.poweredHours / 24
  let s1 := (s.onCons fun k => { k with
    replanBusy := false, planned := true, rails := s.railsOf drift, margins := tabI, marginDoms := tabD
    history := if k.lastDay < day then (k.history ++ [(s.poweredHours, now)]).drop (k.history.length + 1 - 3650) else k.history
    lastDay := max k.lastDay day }).evCons 0
  let s2 := if decide (now < 10) && (!s.cons.planned || decide (10 ≤ old)) then s1.evCons 1 else s1
  let s3 := if decide (now < 0) && decide (c < 4) then
      ((s2.onCons fun k => { k with ceilingNext := some (ceilingBelow tabI c), history := [] }).evCons 2).record
        { kind := .calib, vals := [ceilingBelow tabI c] }
    else s2
  s3.onCons fun k => { k with projHours := projection k.history s3.poweredHours }

/-- REPLAN: an extra replan starts, except while one runs (R407). -/
def State.replanStart (s : State) : State :=
  if s.cons.replanBusy then s else s.onCons fun k => { k with replanBusy := true }

/-- REPLAN. -/
def execReplan (s : State) : Host.Outcome State Fault Refusal :=
  .next (if !s.live then s else commit s.replanStart)

/-- REPLAN_TIMER: 3,600 s of powered time since the last timed replan or the cold bind (R407). -/
def State.replanTimer (s : State) : State :=
  if s.bound && decide (s.cons.replanFrom + 3600000000000 ≤ s.cons.poweredNs) then
    (s.onCons fun k => { k with replanFrom := k.replanFrom + 3600000000000 }).replanStart else s

/-- REPLAN_TIMER. -/
def execReplanTimer (s : State) : Host.Outcome State Fault Refusal :=
  .next (if !s.live then s else commit s.replanTimer)

/-- REPLAN_DONE with each clock domain's drift, the Vmin drift of an SRAM domain included. -/
def execReplanDone (drift : List Int) (s : State) : Host.Outcome State Fault Refusal :=
  .next (if !s.live || !s.cons.replanBusy then s else commit (s.replanEff drift))

/-- The conservator at a boundary: voltages, trims and the ceiling take effect (R402, R407, R408). -/
def State.consBoundary (s : State) : State :=
  s.onCons fun k => { k with
    rails := k.rails.updAll (k.rails.map (·.1)) fun _ r => match r.vNext with
      | some v => { r with vSet := v, vNext := none }
      | none => r
    trims := k.trimsNext.getD k.trims, trimsNext := none
    ceiling := k.ceilingNext.getD k.ceiling, ceilingNext := none }

/-! ### Health (R410, R411) -/

/-- Ten times the weights of a component's three inputs (R410). -/
def healthWeights (c : Nat) : Nat × Nat × Nat :=
  if c = 0 then (20, 5, 0) else if c ≤ 36 then (50, 2, 500) else if c ≤ 68 then (20, 5, 500) else (10, 20, 500)

/-- A score from the events of the last 24 h of powered time (R410): a rate is a count over 24 h. -/
def healthScore (c : Nat) (x : Nat × Nat × Nat) (up : Bool) : Nat :=
  let w := healthWeights c
  let loss := w.1 * x.1 + w.2.1 * x.2.1 + w.2.2 * x.2.2
  (max 0 (roundFree (240000 - (loss : Int)) 240 up)).toNat

/-- The module's margin term (R410). -/
def State.marginTerm (s : State) : Int :=
  max 0 (min (10 * s.cons.margins.get s.cons.ceiling) 1000) - 200 * s.cons.ceiling

/-- The new state of a score (R411). -/
def healthNext (h : Health) (score : Nat) : HealthState :=
  if h.pinned then .replace
  else match h.state with
    | .ok => if score < 300 then .replace else if score < 700 then .watch else .ok
    | .watch => if score < 300 then .replace else if 750 ≤ score then .ok else .watch
    | .replace => if 350 ≤ score then .watch else .replace

/-- Whether a ring lane's component is left out by x8 training (R320, R410): the port trained narrow and the lane is not
among the eight it uses; which eight is open (log 36). -/
def State.laneOut (s : State) (c : Nat) : Bool :=
  if c < 37 || 68 < c then false
  else
    let i := (c - 37) / 16
    (s.ring.ports.get i).narrow
      && (decide (8 ≤ (c - 37) % 16) != Config.narrowUpper i (s.ring.ports.get i).retrains.toNat)

/-- One component's score taken anew; a change of state is recorded and WATCH or REPLACE set (R411). -/
def State.healthOne (s : State) (c : Nat) (x : Nat × Nat × Nat) : State :=
  let raw := healthScore c x (s.freeBit c)
  let score := if s.laneOut c then 0 else if c = 0 then (max 0 (min (raw : Int) s.marginTerm)).toNat else raw
  let h := s.cons.health.get c
  let st := healthNext h score
  let s1 := s.onCons fun k => { k with health := k.health.upd c fun h => { h with score := score, state := st } }
  if st == h.state then s1
  else
    let s2 := s1.record { kind := .health, vals := [c, match st with | .ok => 0 | .watch => 1 | .replace => 2] }
    match h.state, st with
    | .ok, .watch => s2.evCons 3
    | _, .replace => s2.evCons 4
    | _, _ => s2

/-- MODULE health: the worst state of all components: 0 OK, 1 WATCH, 2 REPLACE. -/
def State.moduleHealth (s : State) : Nat :=
  if s.cons.health.any fun e => e.2.state == .replace then 2
  else if s.cons.health.any fun e => e.2.state == .watch then 1 else 0

end Sys2Proof.Machine
end

