-- ==== Sys2Proof/Machine/Power.lean ====
section
/-! DEFINITION. Power: profiles, caps, shedding, fast enforcement, input dips and droop (spec/21), and the health update that
may make a module unfit (spec/19 R410). -/

namespace Sys2Proof.Machine

/-- HEALTH_UPDATE: the 60 s update of every component, given its input events of the last 24 h of powered time (R410, R411); module
health REPLACE makes the member unfit at once (R456). -/
def State.healthUpdate (s : State) (inputs : List (Nat × Nat × Nat)) : State :=
  let s1 := ((List.range 70).foldl (fun (s : State) c => s.healthOne c (inputs.getD c (0, 0, 0))) s).tookFree 70
  s1.setCause 0 s1.healthReplace

/-- HEALTH_UPDATE. -/
def execHealthUpdate (inputs : List (Nat × Nat × Nat)) (s : State) : Host.Outcome State Fault Refusal :=
  .next (if !s.live then s else commit (s.healthUpdate inputs))

/-! ### Profiles and caps (R438 to R440, R446) -/

/-- The maximum power of a profile in watts (R438). -/
def profileWatts (p : Nat) : Nat := [650, 480, 340, 240].getD p 120

/-- The array clock of a profile in MHz (R437). -/
def arrayMhz (p : Nat) : Nat := [1400, 1200, 950, 700].getD p 350

/-- The cap that counts at a decision point: the cap in force, or FAST_TARGET where it is lower (R445). -/
def State.capNow (s : State) : Nat :=
  let c := s.pwr.capNext.getD s.pwr.cap
  if s.pwr.fastTarget = 0 then c else min c s.pwr.fastTarget

/-- The enforced limit of fast enforcement (R444). -/
def State.enforced (s : State) : Nat :=
  if s.pwr.fastTarget = 0 then s.pwr.cap else min s.pwr.cap s.pwr.fastTarget

/-- The ceiling as the next boundary has it (R408). -/
def State.ceilingSoon (s : State) : Nat := s.cons.ceilingNext.getD s.cons.ceiling

/-- R439: the highest profile in PROFILE_MASK, at or below the ceiling, the thermal limit and REQ_PROFILE, within the cap; HOLD when
none is. -/
def State.chooseProfile (s : State) (cap : Nat) : Nat :=
  ((List.range 5).filter fun p => s.b.powr.profileMask.testBit p && decide (s.ceilingSoon ≤ p) && decide (s.thermal ≤ p)
    && decide (s.pwr.reqProfile ≤ p) && decide (profileWatts p ≤ cap)).headD 4

/-- Channels powered in a profile before shedding: present and in PROFILE_CHANNELS. -/
def State.channelsIn (s : State) (p : Nat) : List Nat :=
  (List.range 6).filter fun c => (s.b.chanRec c).enable == 1 && (s.b.powr.profileChannels.getD p 0).testBit c

/-- Every channel shed or to be shed at the next boundary. -/
def State.shedSoon (s : State) : BitVec 6 := s.pwr.capShed ||| s.pwr.critShed ||| s.pwr.modShed

/-- Channels shed for a cap until 36 W + 14 W for each channel still powered is within it; each sets SHED (R446). -/
def State.shedFor (s : State) (cap : Nat) : State :=
  s.b.powr.shedOrder.foldl (fun (s : State) c =>
    let up := (s.channelsIn 4).filter fun x => !s.shedSoon.getLsbD x
    if 36 + 14 * up.length ≤ cap || !up.contains c then s
    else (s.onPwr fun p => { p with capShed := bitSet p.capShed c }).evPwr 7) s

/-- One channel returns, in the reverse of SHED_ORDER, where a decision point finds room under the cap (R446). -/
def State.unshedFor (s : State) (cap : Nat) : State :=
  let up := (s.channelsIn 4).filter fun x => !s.shedSoon.getLsbD x
  match (s.b.powr.shedOrder.filter s.pwr.capShed.getLsbD).getLast? with
  | some c => if 36 + 14 * (up.length + 1) ≤ cap then s.onPwr fun p => { p with capShed := bitClr p.capShed c } else s
  | none => s

/-- One channel is shed in SHED_ORDER while a module-level site is at T_CRIT (R450). -/
def State.shedForModule (s : State) (p : Nat) : State :=
  if !s.pwr.modHot then s
  else match s.b.powr.shedOrder.find? fun c => (s.channelsIn p).contains c && !s.shedSoon.getLsbD c with
    | some c => (s.onPwr fun p => { p with modShed := bitSet p.modShed c }).evPwr 7
    | none => s

/-- The domains of a channel in a profile: those of PROFILE_DOMAINS, and of a shed channel only MC (R435, R446). -/
def State.domainsIn (s : State) (p : Nat) (shed : BitVec 6) (ch : Nat) : Nat :=
  let d := if (s.channelsIn p).contains ch then s.b.powr.profileDomains.getD (6 * p + ch) 0 else 0
  if shed.getLsbD ch then d &&& 64 else d

/-- Domains that come up: general cores reload their library, scratchpad banks 24 to 47 are zeroed before SPH_ON is set (R144,
R435, R436). -/
def State.powerUp (s : State) (ch bits : Nat) : State :=
  let fresh := fun (i : Nat) => bits.testBit i && !s.domainOn ch i
  let s1 := if fresh 2 then s.gcPowerUp ch else s
  let s2 := if fresh 7 then
      ((List.range 24).foldl (fun (s : State) k => s.zeroBank ch (24 + k)) s1).onSpad fun p => { p with
        chan := p.chan.upd ch fun c => { c with sphOn := true } }
    else s1
  s2.onPwr fun p => { p with domains := p.domains.upd ch fun d => d ||| bits }

/-- Accumulators of a matrix engine whose power goes off are lost: what a saved op would find is free (R435). -/
def State.accLost (s : State) (ch : Nat) : State :=
  (List.range 16).foldl (fun (s : State) q =>
    match (s.act (16 * ch + q)).run with
    | some r =>
      let n := r.acc.length
      let acc := (List.range n).map fun i => BitVec.ofNat 32 (u32 (s.freeBytes (4 * n)) (4 * i))
      if r.opcode / 256 = 1 && n ≠ 0 then (s.onRun (16 * ch + q) fun r => { r with acc := acc }).tookFree (4 * n) else s
    | none => s) s

/-- Domains that go off after a boundary. Each general core's role changes as its library is lost (R122, R435; log 43). -/
def State.powerDown (s : State) (ch bits : Nat) : State :=
  let off := fun (i : Nat) => s.domainOn ch i && !bits.testBit i
  let s1 := if off 7 then
      ((List.range 24).foldl (fun (s : State) k => s.zeroBank ch (24 + k)) s).onSpad fun p => { p with
        chan := p.chan.upd ch fun c => { c with sphOn := false } }
    else s
  let s2 := if off 0 then s1.accLost ch else s1
  let s3 := if off 2 then (List.range 4).foldl (fun (s : State) m => s.roleChange (idGc ch m)) s2 else s2
  s3.onPwr fun p => { p with domains := p.domains.set ch (p.domains.get ch &&& bits) }

/-- The nominal time of the k-th boundary after the current one, for sources with a nominal grid (R25). -/
def State.gridAfter (s : State) (k : Nat) : Nat :=
  let p := 8 * s.block.1.periodMin
  let anchor := if s.b.plan.common.source = 1 then s.b.plan.common.epoch else s.tick.t0
  if p = 0 then s.tick.lastNominal else anchor + ((s.tick.lastNominal - anchor) / p + k) * p

/-- Whether the tick source has a nominal grid here: INTERNAL or PTP, and not a follower (R440). -/
def State.hasGrid (s : State) : Bool := s.b.plan.common.source ≠ 2 && s.tick.role != .follower

/-- Whether the next decision point has come (R440); that of tick 0, whose boundary comes 1 ms after the cold bind at the earliest, is
250 µs before it (log 48). -/
def State.decisionDue (s : State) : Bool :=
  s.bound &&
    if !s.tick.running then
      s.tick.role != .follower && s.pwr.decided.isEmpty && decide (s.start.bindTime + 750000 ≤ s.tb.time)
    else if s.hasGrid then
      let p := 8 * s.block.1.periodMin
      let n := s.gridAfter (s.pwr.decided.length + 1)
      let lead := if p < 250000 && p ≠ 0 then (250000 + p - 1) / p * p else 250000
      decide (n ≤ s.tb.time + lead)
    else
      s.pwr.decided.isEmpty && decide (s.tick.start + (8 * s.block.1.planLength - 250000) ≤ s.tb.time)

/-- PROFILE_DECISION: the inputs are latched, the profile of the boundary is chosen, channels are shed or return, and domains
that it adds are powered and zeroed (R439, R440, R446). -/
def State.profileDecide (s : State) : State :=
  let cap := s.capNow
  let s1 := s.onPwr fun p => { p with cap := p.capNext.getD p.cap, capNext := none }
  let p := s1.chooseProfile cap
  let s2 := if cap < 120 then (s1.onPwr fun x => { x with capFail := true }).evPwr 1 else s1
  let s3 := if cap < 120 then s2.shedFor cap else s2
  let s4 := if s3.pwr.capShed = s2.pwr.capShed then s3.unshedFor cap else s3
  let s5 := (s4.shedForModule p).onPwr fun x => { x with
    capFail := decide (cap < 120) || s4.pwr.capShed != 0, decided := x.decided ++ [p]
    decidedShed := x.decidedShed ++ [x.capShed ||| x.modShed] }
  (List.range 6).foldl (fun (s : State) ch => s.powerUp ch (s.domainsIn p s.shedSoon ch)) s5

/-- PROFILE_DECISION. -/
def execProfileDecision (s : State) : Host.Outcome State Fault Refusal :=
  .next (if !s.live || !s.decisionDue then s else commit s.profileDecide)

/-- The profile of the coming boundary: the decided one, or below it where the ceiling fell since (R408, R440). -/
def State.profileNext (s : State) : Nat :=
  let d := s.pwr.decided.headD s.pwr.profile
  if s.ceilingSoon ≤ d then d
  else ((List.range 5).filter fun p => s.b.powr.profileMask.testBit p && decide (s.ceilingSoon ≤ p)).headD 4

/-- The power of a profile with the channels it powers (R438). -/
def State.wattsWith (s : State) (p : Nat) (shed : BitVec 6) : Nat :=
  if p = 4 then 36 + 14 * ((s.channelsIn 4).filter fun c => !shed.getLsbD c).length else profileWatts p

/-- Whether droop stretching removed more than 0.1 % of a channel's array cycles in the tick (R449). -/
def State.droopHeavy (s : State) : Bool :=
  s.pwr.droopCycles.any fun e =>
    decide ((s.tb.time - s.tick.start) * arrayMhz s.pwr.profile < 1000000 * e.2)

/-- Power at a boundary: the new profile and shed channels take effect, domains go off, fast enforcement ends where the profile is
within its limit, and DEGRADED begins anew (R440, R445, R446, R449). -/
def State.powerBoundary (s : State) : State :=
  let p := s.profileNext
  let shed := s.pwr.decidedShed.headD (s.pwr.capShed ||| s.pwr.modShed) ||| s.pwr.critShed
  let fast := s.pwr.fast && decide (s.enforced < s.wattsWith p shed)
  let crit := (List.range 6).filter fun c => s.pwr.critShed.getLsbD c && !s.pwr.shed.getLsbD c
  let s1 := crit.foldl (fun (s : State) _ => s.evPwr 7) s
  let s2 := (List.range 6).foldl (fun (s : State) ch =>
    (s.powerUp ch (s.domainsIn p shed ch)).powerDown ch (s.domainsIn p shed ch)) (s1.onPwr fun x => { x with profile := p })
  s2.onPwr fun x => { x with
    decided := x.decided.drop 1, decidedShed := x.decidedShed.drop 1, shed := shed, fast := fast
    degradedPrev := if s.tick.filler then x.degradedPrev else x.degraded || s.droopHeavy
    degraded := fast || x.throttle, droopCycles := [] }

/-- REQ_PROFILE: a completed protected write by HOST_PF or TRAY_SMB; a profile outside PROFILE_MASK is dropped with WP_DROP
(R453). -/
def State.reqProfileEff (s : State) (master p : Nat) : State :=
  if !(master == idHostPf || master == idTray) then s.regErr master 6
  else if !s.b.powr.profileMask.testBit p then s.regErr master 2
  else s.onPwr fun x => { x with reqProfile := p }

/-- REQ_PROFILE. -/
def execReqProfile (master profile : Nat) (s : State) : Host.Outcome State Fault Refusal :=
  .next (if !s.live then s else commit (s.reqProfileEff master profile))

/-- A CAP_SET of R442 or SAFE_CAP of R443: FAST_TARGET is cleared and CAP_CHANGE counted; while PCAP_DN_N is asserted the cap is
enforced at once (R444). -/
def State.capTake (s : State) (cap : Nat) : State :=
  (s.onPwr fun p =>
    if p.pcapPin then { p with
      cap := cap, capNext := none, fastTarget := 0
      fast := p.fast || decide (cap < profileWatts p.profile)
      degraded := p.degraded || decide (cap < profileWatts p.profile) }
    else { p with capNext := some cap, fastTarget := 0 }).evPwr 0

/-- HEARTBEAT_LOST: CAP_TIMEOUT has passed with neither tray command (R443). -/
def State.heartbeatLost (s : State) : State :=
  if s.bound && s.pwr.beating && decide (s.pwr.lastBeat + 1000000 * s.b.powr.capTimeout ≤ s.tb.time) then
    let s1 := (s.capTake s.b.powr.safeCap).onPwr fun p => { p with safe := true, beating := false, trayLost := true }
    (s1.evPwr 3).roleChange idTray
  else s

/-- HEARTBEAT_LOST. -/
def execHeartbeatLost (s : State) : Host.Outcome State Fault Refusal :=
  .next (if !s.live then s else commit s.heartbeatLost)

/-! ### Fast step-down, input and droop (R444, R445, R447, R448) -/

/-- The maximum power one profile below a figure: of the profile after the running one, or after FAST_TARGET's (R444). -/
def powerBelow (w : Nat) : Nat := ([480, 340, 240].filter (· < w)).headD 120

/-- FAST_STEP: a falling edge of PCAP_DN_N (R444). -/
def State.fastStep (s : State) : State :=
  if s.pwr.pcapPin then s
  else
    let s1 := s.onPwr fun p => { p with pcapPin := true }
    if !s.live || !s.bound then s1
    else (s1.onPwr fun p => { p with
      fastTarget := powerBelow (if p.fastTarget = 0 then profileWatts p.profile else p.fastTarget)
      fast := true, degraded := true }).evPwr 2

/-- FAST_STEP. -/
def execFastStep (s : State) : Host.Outcome State Fault Refusal := .next (commit s.fastStep)

/-- PCAP_RELEASE: fast enforcement ends, FAST_TARGET stays as a cap (R445). -/
def State.pcapRelease (s : State) : State := s.onPwr fun p => { p with pcapPin := false, fast := false }

/-- PCAP_RELEASE. -/
def execPcapRelease (s : State) : Host.Outcome State Fault Refusal := .next (commit s.pcapRelease)

/-- INPUT_DIP: the reported input falls below 40.5 V (R447). -/
def State.inputDip (s : State) (cv : Nat) : State :=
  if s.pwr.throttle || 4050 ≤ cv then s
  else (s.onPwr fun p => { p with
    throttle := true, degraded := true, dipStart := s.tb.time, dipMin := cv, dipCount := p.dipCount + 1 }).evPwr 4

/-- INPUT_DIP. -/
def execInputDip (centivolts : Nat) (s : State) : Host.Outcome State Fault Refusal :=
  .next (if !s.live then s else commit (s.inputDip centivolts))

/-- THROTTLE_LIFT: the input rises above 41.5 V; the dip is logged with its minimum and its duration in us (R447, R453). -/
def State.throttleLift (s : State) (cv : Nat) : State :=
  if !s.pwr.throttle || cv ≤ 4150 then s
  else
    let us := (s.tb.time - s.pwr.dipStart) / 1000
    (s.onPwr fun p => { p with
      throttle := false, dipLast := BitVec.ofNat 64 (p.dipMin % 2 ^ 16 + 2 ^ 16 * (us % 2 ^ 32)) }).record
      { kind := .dipLog, vals := [s.pwr.dipMin, us] }

/-- THROTTLE_LIFT. -/
def execThrottleLift (centivolts : Nat) (s : State) : Host.Outcome State Fault Refusal :=
  .next (if !s.live then s else commit (s.throttleLift centivolts))

/-- INPUT_LOW: the factory input value falls below 37.0 V; the dip is kept for the log of the next start (R447). During a reset already
held it extends that reset (R498). A value of 0 is the loss of the input, which without AUX_12V clears the AON latch (log 41). -/
def State.inputLow (s : State) (cv : Nat) : State :=
  if 3700 ≤ cv then s
  else
    let s1 := (s.onKeep fun k => { k with dipMin := cv }).resetModule 8
    if cv ≠ 0 then s1
    else
      let s2 := s1.onStart fun x => { x with p48 := false }
      if s.start.aux then s2 else (s2.onKeep fun k => { k with cause := 0, later := 0 }).onHost fun h => { h with eid := 0 }

/-- INPUT_LOW. -/
def execInputLow (centivolts : Nat) (s : State) : Host.Outcome State Fault Refusal :=
  .next (if !s.start.p48 then s else commit (s.inputLow centivolts))

/-- DROOP in a clock domain: 0 to 5 CHn_ARR, 6 to 11 CHn_FAB, 12 SYS (R448). -/
def State.droopEff (s : State) (d : Nat) : State :=
  if s.pwr.droops.get d then s
  else (s.onPwr fun p => { p with droops := p.droops.set d true, droopCount := p.droopCount + 1 }).evPwr 5

/-- DROOP. -/
def execDroop (domain : Nat) (s : State) : Host.Outcome State Fault Refusal :=
  .next (if !s.live then s else commit (s.droopEff domain))

/-- DROOP_RECOVER after at least 32 cycles; the array cycles the stretch removed count toward R449. -/
def State.droopRecover (s : State) (d cycles removed : Nat) : State :=
  if !s.pwr.droops.get d || cycles < 32 then s
  else s.onPwr fun p => { p with
    droops := p.droops.set d false
    droopCycles := if d < 6 then p.droopCycles.upd d (· + removed) else p.droopCycles }

/-- DROOP_RECOVER. -/
def execDroopRecover (domain cycles removed : Nat) (s : State) : Host.Outcome State Fault Refusal :=
  .next (if !s.live then s else commit (s.droopRecover domain cycles removed))

end Sys2Proof.Machine
end

