-- ==== Sys2Proof/Machine/Mailbox.lean ====
section
/-! DEFINITION. Mailbox sides as their masters use them: send, pop, statistics, doorbells (spec/05 R123 to R128). -/

namespace Sys2Proof.Machine

/-- Whether a master may access a side: the channel is enabled and the side is its own (R123). -/
def State.mbMay (s : State) (master m : Nat) (sideB : Bool) : Bool := match s.mbRec m with
  | some r => r.owner sideB == master
  | none => false

/-- A header's message with the sender's staged payload (R124, R125). -/
def MbSide.message (x : MbSide) (h : Word) : Msg :=
  { hdr := h, pay := ([x.tx0, x.tx1, x.tx2, x.tx3].take ((h >>> 24) &&& 3).toNat) }

/-- TX_SEND by the owner of a side: the checks of R125 in order, then the queue of the other side and a wake event. -/
def State.txSend (s : State) (m : Nat) (sideB : Bool) (h : Word) : State :=
  let s1 := s.onSide m sideB fun x => { x with txSend := h }
  let peer := match s.mbRec m with
    | some r => r.owner (!sideB)
    | none => 0
  let g := (s.mbSide m sideB).message h
  if h.toNat / 2 ^ 26 ≠ 0 || h.toNat / 2 ^ 16 % 256 = 0xFF then s1.count 0x20 none none 1
  else if h.toNat % 2 ^ 16 ≠ (s.genOf peer).toNat then
    (s1.onSide m (!sideB) fun x => { x with staleDrops := sat8 (x.staleDrops + 1) }).count 0x21 none none 1
  else if 8 < (s1.mbSide m (!sideB)).words + g.words then
    (s1.onSide m (!sideB) fun x => { x with fullDrops := sat8 (x.fullDrops + 1) }).count 0x22 none none 1
  else (s1.onSide m (!sideB) fun x => { x with queue := x.queue ++ [g] }).wake peer m

/-- TX_SEND. -/
def execTxSend (master m : Nat) (sideB : Bool) (header : BitVec 32) (s : State) : Host.Outcome State Fault Refusal :=
  .next (if !s.live then s else commit (if s.mbMay master m sideB then s.txSend m sideB header else s.regErr master 6))

/-- RX_POP: writing 1 removes the oldest message; an empty queue ignores it (R123). -/
def State.rxPop (s : State) (m : Nat) (sideB : Bool) (v : Word) : State :=
  s.onSide m sideB fun x => { x with rxPop := v, queue := if v.getLsbD 0 then x.queue.drop 1 else x.queue }

/-- RX_POP. -/
def execRxPop (master m : Nat) (sideB : Bool) (value : BitVec 32) (s : State) : Host.Outcome State Fault Refusal :=
  .next (if !s.live then s else commit (if s.mbMay master m sideB then s.rxPop m sideB value else s.regErr master 6))

/-- MB_STAT as a read returns it. -/
def MbSide.stat (x : MbSide) : Nat := x.fullDrops % 256 + 256 * (x.staleDrops % 256)

/-- What a read leaves in the data the bus returned. -/
def State.returns (s : State) (v : Nat) : State := s.onBus fun u => { u with readData := BitVec.ofNat 64 v }

/-- MB_STAT read: the counts are returned and cleared (R123). -/
def State.mbStat (s : State) (m : Nat) (sideB : Bool) : State :=
  (s.returns (s.mbSide m sideB).stat).onSide m sideB fun x => { x with fullDrops := 0, staleDrops := 0 }

/-- MB_STAT_READ. -/
def execMbStatRead (master m : Nat) (sideB : Bool) (s : State) : Host.Outcome State Fault Refusal :=
  .next (if !s.live then s
    else commit (if s.mbMay master m sideB then s.mbStat m sideB else (s.returns 0).regErr master 6))

/-- Whether a doorbell bit is held set: on the master's side of the channel the queue is not empty or NOTICE is set (R128). -/
def State.bellHeld (s : State) (master m : Nat) : Bool := match s.mbRec m with
  | some r => [false, true].any fun b => r.owner b == master && (!(s.mbSide m b).queue.isEmpty || (s.mbSide m b).notice)
  | none => false

/-- A W1C write to DB_PENDING of a function: a cleared bit sets again at once where it is held (R128); the write governs the
doorbell vector (R343). -/
def State.dbClear (s : State) (master : Nat) (v : Word) : State :=
  let held : Word := (List.range 32).foldl (fun (w : Word) m => if v.getLsbD m && s.bellHeld master m then bitSet w m else w) 0
  (s.onMbx fun x => { x with bells := x.bells.upd master fun d => { d with pending := (d.pending &&& ~~~ v) ||| held } }).reArm
    (master - idHostPf) 0

/-- DB_PENDING_CLEAR by the PF or a virtual function; no other master has doorbells. -/
def execDbPendingClear (master : Nat) (value : BitVec 32) (s : State) : Host.Outcome State Fault Refusal :=
  .next (if !s.live then s else commit
    (if master == idHostPf || (vfOf master).isSome then s.dbClear master value else s.regErr master 6))

end Sys2Proof.Machine
end

