-- ==== Sys2Proof/Machine/Scratch.lean ====
section
/-! DEFINITION. Host windows onto scratchpad and GDDR6, the loan registers and the loan sequencer (spec/05 R119, R120, R507;
spec/06 R131 to R144). -/

namespace Sys2Proof.Machine

/-- A host read is completed with its bytes. -/
def State.completed (s : State) (bar off : Nat) (b : List Byte) : State :=
  s.out { kind := .completion, port := bar, code := off, bytes := b }

/-- A refused host access: a read returns zeros, a write is dropped, and a bit of REG_ERR is set (R119). -/
def State.hostRefused (s : State) (isRead : Bool) (bar off size bit : Nat) : State :=
  (if isRead then s.completed bar off (List.replicate size 0) else s).regErr idHostPf bit

/-- The mode of a channel's scratchpad. -/
def State.spcMode (s : State) (ch : Nat) : SpcMode := (s.spad.chan.get ch).mode

/-- What HOST_PF may do with a bank through BAR2 (R131): the bank of a tenant-0 owner, or an unowned bank in TEST or
RECOVERY. -/
def State.bar2Bank (s : State) (ch bank : Nat) : Acc :=
  let l := s.loanOf ch bank
  if s.bankOff ch bank then .off
  else if l.owned then (if s.b.tenantOf (16 * ch + l.owner.toNat) = 0 then .ok else .loan)
  else if s.spcMode ch == .test || s.spcMode ch == .recovery then .ok else .loan

/-- The banks a range of a channel's scratchpad touches. -/
def banksOf (lo n : Nat) : List Nat :=
  if n = 0 then [] else (List.range ((lo + n - 1) / bankBytes - lo / bankBytes + 1)).map (lo / bankBytes + ·)

/-- BAR2_ACCESS (R119, R131, R144). -/
def State.bar2 (s : State) (isRead : Bool) (off size : Nat) (b : List Byte) : State :=
  let ch := off / 0x2000000
  let lo := off % 0x2000000
  if 6 ≤ ch || spChanBytes < lo + size then s.hostRefused isRead 2 off size 0
  else
    let accs := (banksOf lo size).map (s.bar2Bank ch)
    if accs.contains .off then (s.hostRefused isRead 2 off size 4).evSpc ch 2 none
    else if accs.contains .loan then s.hostRefused isRead 2 off size 6
    else if isRead then s.completed 2 off (s.spGet ch lo size)
    else s.spPut ch lo b

/-- BAR2_ACCESS. -/
def execBar2Access (isRead : Bool) (off size : Nat) (bytes : List (BitVec 8)) (s : State) :
    Host.Outcome State Fault Refusal :=
  .next (if !s.live then s else commit (s.bar2 isRead off size bytes))

/-- BAR2_TIMEOUT: an access that reached its bank is abandoned after 2 us (R135): no data moves. -/
def State.bar2Timeout (s : State) (off : Nat) : State :=
  if off / 0x2000000 < 6 && decide (off % 0x2000000 < spChanBytes) then s.evSpc (off / 0x2000000) 1 none else s

/-- BAR2_TIMEOUT. -/
def execBar2Timeout (off : Nat) (s : State) : Host.Outcome State Fault Refusal :=
  .next (if !s.live then s else commit (s.bar2Timeout off))

/-- Whether every granule a BAR4 access touches lies in a SYSTEM region with BAR4 set (R120). -/
def State.bar4Ok (s : State) (ch addr n : Nat) : Bool :=
  ((List.range ((addr + n - 1) / granBytes - addr / granBytes + 1)).map (addr / granBytes + ·)).all fun g =>
    match s.b.regionAt ch g with
    | some r => r.kind == 0 && r.flags.testBit 0
    | none => false

/-- BAR4_ACCESS (R120, R507). -/
def State.bar4 (s : State) (isRead : Bool) (off size : Nat) (b : List Byte) : State :=
  let ch := s.bus.bar4Channel.toNat
  let addr := s.bus.bar4Base.toNat * granBytes + off
  if !s.bus.bar4Enable then s.hostRefused isRead 4 off size 6
  else if !s.domainOn ch 6 then s.hostRefused isRead 4 off size 4
  else if size ≠ 0 && !s.bar4Ok ch addr size then s.hostRefused isRead 4 off size 6
  else if isRead then s.completed 4 off (s.gdGet ch addr size)
  else s.gdPut ch addr b

/-- BAR4_ACCESS. -/
def execBar4Access (isRead : Bool) (off size : Nat) (bytes : List (BitVec 8)) (s : State) :
    Host.Outcome State Fault Refusal :=
  .next (if !s.live then s else commit (s.bar4 isRead off size bytes))

/-- BAR4_TIMEOUT: an access the controller took is abandoned after 4 us: DENIED is set and counted (R507). -/
def execBar4Timeout (_off : Nat) (s : State) : Host.Outcome State Fault Refusal :=
  .next (if !s.live then s else commit (s.regErr idHostPf 6))

/-- A completed protected write to BAR4_WIN: dropped whole with DENIED when CHANNEL or BASE is invalid (R120). -/
def State.bar4Win (s : State) (master : Nat) (v : Word) : State :=
  let c := v.toNat % 8
  let base := v.toNat / 16 % 2 ^ 14
  if 6 ≤ c || base % 2048 ≠ 0 || 10240 < base then s.regErr master 6
  else s.onBus fun u => { u with
    bar4Channel := BitVec.ofNat 3 c, bar4Enable := v.getLsbD 3, bar4Base := BitVec.ofNat 14 base }

/-- BAR4_WIN_WRITE by HOST_PF. -/
def execBar4WinWrite (value : BitVec 32) (s : State) : Host.Outcome State Fault Refusal :=
  .next (if !s.live then s else commit (s.bar4Win idHostPf value))

/-- BANK_ZERO_DONE: BUSY clears (R139). -/
def execBankZeroDone (ch bank : Nat) (s : State) : Host.Outcome State Fault Refusal :=
  .next (if !s.live then s else commit
    (s.onSpad fun p => { p with loans := p.loans.upd (48 * ch + bank) fun l => { l with busy := false } }))

/-- The tenant of an owner: 0 for an unowned bank (R140). -/
def State.loanTenant (s : State) (ch : Nat) (owned : Bool) (q : Nat) : Nat := if owned then s.b.tenantOf (16 * ch + q) else 0

/-- A completed write to LOAN_b: by the curator in START, TEST and RECOVERY; any other is dropped with DENIED (R142). -/
def State.loanPut (s : State) (master ch bank : Nat) (v : Word) : State :=
  if master = idCur && s.spcMode ch ≠ .normal then
    let q := v.toNat % 16
    s.onSpad fun p => { p with loans := p.loans.upd (48 * ch + bank) fun l => { l with
      owner := BitVec.ofNat 4 q, owned := v.getLsbD 4, zero := v.getLsbD 5
      tenant := BitVec.ofNat 4 (s.loanTenant ch (v.getLsbD 4) q), share := BitVec.ofNat 16 (v.toNat / 2 ^ 16) } }
  else s.regErr master 6

/-- LOAN_WRITE. -/
def execLoanWrite (master ch bank : Nat) (value : BitVec 32) (s : State) : Host.Outcome State Fault Refusal :=
  .next (if !s.live then s else commit (s.loanPut master ch bank value))

/-- What a LOAN record says for a tick (R91, R138). -/
def State.loanFor (s : State) (r : LoanRec) (n : Nat) : LoanReg :=
  let odd := r.phases = 2 && n % 2 = 1
  let o := if odd then r.ownerOdd else r.ownerEven
  let owned := o ≠ 0xFF
  { owner := BitVec.ofNat 4 (if owned then o else 0), owned := owned, zero := r.flags.testBit 0, busy := false
    tenant := BitVec.ofNat 4 (s.loanTenant r.channel owned o)
    share := BitVec.ofNat 16 (if odd then r.shareOdd else r.shareEven) }

/-- One bank handed over at the boundary of tick `n` (R138 to R140): zeroed when its tenant changes, or when ZERO is set and its
owner changes; the first load at tick 0 zeroes nothing. -/
def State.handOver (s : State) (first : Bool) (n : Nat) (r : LoanRec) : State :=
  let l := s.loanOf r.channel r.bank
  let x := s.loanFor r n
  let owner := l.owned ≠ x.owned || (x.owned && l.owner ≠ x.owner)
  let z := !first && (l.tenant ≠ x.tenant || (x.zero && owner)) && !s.bankOff r.channel r.bank
  let s1 := if z then s.zeroBank r.channel r.bank else s
  s1.onSpad fun p => { p with loans := p.loans.set (48 * r.channel + r.bank) { x with busy := z || (l.busy && !first) } }

/-- The loan sequencers at a boundary (R138). -/
def State.loanBoundary (s : State) (first : Bool) (n : Nat) : State := s.b.loan.foldl (fun (s : State) r => s.handOver first n r) s

end Sys2Proof.Machine
end

