-- ==== Sys2Proof/Machine/Bind.lean ====
section
/-! DEFINITION. The cold bind, the BIND_CTRL commands, and a rebind's switch (spec/03 R65 to R78, spec/23 R475). -/

namespace Sys2Proof.Machine

/-! ### BIND_ERROR (R71, R76) -/

/-- BIND_ERROR and BIND_ERROR_REC take an outcome; OK when the binding is accepted (R70, log 38). -/
def Bind.errs (x : Bind) (rebind : Bool) : Option BindErr → Bind
  | some e => { x with errCode := e.code, errEntry := e.entry, errRebind := rebind, errRec := BitVec.ofNat 32 e.recNo }
  | none => { x with errCode := 0, errEntry := 0, errRebind := rebind, errRec := 0xFFFFFFFF }

/-- The code of an outcome. -/
def errCodeOf : Option BindErr → Nat
  | some e => e.code
  | none => 0

/-! ### The settings that the running firmware reads (R491) -/

/-- The bundle of the running copy. -/
def State.runningBundle (s : State) : List Byte := if s.start.fwCopy then s.keep.copyB.bundle else s.keep.copyA.bundle

/-- The SETTINGS_FORMAT of the running firmware. -/
def State.runFormat (s : State) : Nat := u16 s.runningBundle 0x14

/-- The area in the running format; identity settings where no area holds it. -/
def State.settings (s : State) : Settings :=
  let has := fun (x : Settings) => x.used && x.format == s.runFormat
  if has s.keep.settings0 then s.keep.settings0 else if has s.keep.settings1 then s.keep.settings1 else {}

/-! ### The cold bind (R67, R472, R475) -/

/-- The bytes a binding slot offers: an image there that was not verified is never selected (R486, R487). -/
def State.slotBytes (s : State) (slotB : Bool) : List Byte :=
  if slotB then (if s.keep.slotBOk then s.keep.slotB else []) else if s.keep.slotAOk then s.keep.slotA else []

/-- A unit at a cold bind: HEALTHY, but a held unit stays BENCHED, its hold over (R423, log 40). -/
def UnitRun.rebound (x : UnitRun) : UnitRun := if x.held then { state := .benched, planBenched := true } else {}

/-- The reset of every channel that a cold bind makes (R472), with what of the module a cold bind begins anew: the tick, leaves,
counters, admission, the checking services, the verdict lines (R25, R266, R318, R395, R423, R466). -/
def State.channelReset (s : State) : State :=
  { s with
    tick := { encLevel := s.tick.encLevel, events := s.tick.events, tickOut := false }
    acts := [], engs := [], codec := [], dma := {}, cnt := []
    spad := {}
    leaf := { events := s.leaf.events }
    ing := { s.ing with blocks := [], owed := [], rx := [], tx := [], res := [], vdl := {}, ptp := {}, calNext := []
                        flows := s.ing.flows.foldl (fun (t : Tab FlowRun) e => t.set e.1
                          { bytes := e.2.bytes, lost := e.2.lost, bytesLatch := e.2.bytesLatch, lostLatch := e.2.lostLatch }) [] }
    ring := { s.ring with serve := [], laneRx := [], laneDir := [], reports := [], absent := 0, suspect := 0 }
    chk := { events := s.chk.events, units := s.chk.units.foldl (fun (t : Tab UnitRun) e => t.set e.1 e.2.rebound) [] }
    pair := { peer := s.pair.peer, ownBus := s.pair.ownBus, peerReleased := s.pair.peerReleased, events := s.pair.events
              cause := s.pair.cause &&& 1 }
    pwr := { s.pwr with domains := [], profile := 0, decided := [], decidedShed := [], shed := 0, capShed := 0, critShed := 0, modShed := 0
                        capFail := false, safe := false, fast := false, fastTarget := 0, capNext := none, beating := false
                        trayLost := false, ing := false, dbg := false, degraded := false, degradedPrev := false, droops := []
                        droopCycles := [] } }

/-- Key slots 32 and 33 are drawn, and every sealed region is at GEN 1 with its granules VIRGIN (R362, R363, R369). -/
def State.bindSeal (s : State) : State :=
  let s1 := ((s.drawSlot 0 32).drawSlot 0 33).onGddr fun g => { g with regions := [] }
  (s1.b.memx.filter fun r => r.kind == 1 || r.kind == 2).foldl State.virginRegion s1

/-- Power from POWR: the cap, the profile, the heartbeat, the domains of the start profile; every general core's role changes (R122,
R435, R443, R453). -/
def State.bindPower (s : State) : State :=
  let p := s.b.powr
  let s1 := s.onPwr fun x => { x with
    cap := p.capStart, profile := p.startProfile, reqProfile := p.startProfile, beating := true, lastBeat := s.tb.time
    ing := s.b.netw.ports.any fun q => q.mode != 0 }
  (List.range 6).foldl (fun (s : State) ch =>
    let d := s.domainsIn p.startProfile 0 ch
    (List.range 4).foldl (fun (s : State) m => s.roleChange (idGc ch m)) (s.powerUp ch d)) s1

/-- The ingest block: port modes, calibration sets, ARP requests to every destination (R301, R308, R315). -/
def State.bindIngest (s : State) : State :=
  let modeOf := fun p => match s.b.portRec p with
    | some r => r.mode
    | none => 0
  let s1 := s.onIng fun g => { g with
    cal := s.settings.cal
    ports := g.ports.updAll (List.range 4) fun p x => { x with
      mode := modeOf p, linkUp := x.linkUp && modeOf p != 0, arp := [] } }
  s1.b.netw.results.foldl (fun (s : State) r => s.arpSend r.port r.dstIp) s1

/-- The tick role at the start: a module without MEMBER records is STANDALONE; SUCCESSION 0 leads (R43, R87). -/
def State.bindRing (s : State) : State :=
  let lead := match s.b.netw.members.find? fun m => m.succession == 0 with
    | some m => m.index
    | none => 0
  let role : TickRole := if s.b.netw.members.isEmpty then .standalone
    else if s.memberIdx = lead then .leader else .follower
  ((s.onTick fun t => { t with role := role, leader := lead }).onRing fun r => { r with
    coldCount := r.coldCount + 1
    ports := r.ports.updAll [0, 1] fun _ x => { x with replays := 0, retrains := 0 } }).bypassUpdate

/-- A cold binding is taken (R67, R475): the bind work, then the bypass opens and tick 0 is awaited. -/
def State.coldTake (s : State) (r : Running) (fallback : Bool) (e : Option BindErr) : State :=
  let c := r.b.col
  let s1 := s.channelReset.onBind fun x => { ({ x with
    cold := .bound, running := some r, runSlot := x.activeSlot != fallback, fallback := fallback, confirmed := x.serialFloor == c.serial
    bindingId := c.bindingId, lastSerial := c.serial, rebind := .idle, rebindTick := 0, staging := none, staged := none
    inCheck := none, slotErr := errCodeOf e, otherErr := 0 } : Bind).errs false e with cold := .bound }
  let s2 := s1.bindSeal.bindPower.bindIngest.discStart
  let s3 := (s2.onCons fun k => { k with planned := false, replanFrom := k.poweredNs }).replanStart
  let s4 := (s3.measure 4 0 r.digest).record { kind := .coldBind, vals := [c.serial, errCodeOf e, 0], bytes := r.digest }
  let s5 := (s4.onStart fun x => { x with stage := .ringWait, bindDone := true, bindTime := s.tb.time }).bindRing
  if s5.pwr.pcapPin then (s5.onPwr fun p => { p with pcapPin := false }).fastStep else s5

/-- Both slots failed: the module is UNBOUND, its channels run nothing and the bypass stays closed (R67). -/
def State.coldFail (s : State) (e f : BindErr) : State :=
  let s1 := s.channelReset.onBind fun x => { ({ x with
    cold := .unbound, running := none, fallback := false, confirmed := false, bindingId := 0, rebind := .idle, rebindTick := 0
    staging := none, staged := none, inCheck := none, slotErr := e.code, otherErr := f.code } : Bind).errs false (some e) with
    cold := .unbound }
  (((s1.record { kind := .coldBind, vals := [0, e.code, f.code] }).onTb fun t => { t with discSrc := 0, lock := .free }).onStart
    fun x => { x with stage := .unbound, bindDone := false }).bypassUpdate

/-- A cold bind: the active slot's binding, else the other slot's with FALLBACK, else UNBOUND (R67). While it validates, the module is not
BOUND and the bypass closes (R336, R475). -/
def State.coldBind (s : State) : State :=
  let s0 := (s.onBind fun x => { x with cold := .validating }).bypassUpdate
  match validateCold s0 (s0.slotBytes s0.bind.activeSlot) with
  | .ok r => s0.coldTake r false none
  | .error e => match validateCold s0 (s0.slotBytes (!s0.bind.activeSlot)) with
    | .ok r => s0.coldTake r true (some e)
    | .error f => s0.coldFail e f

/-- MAINT_EXIT ends MAINTENANCE with a cold bind (R432, R472). -/
def State.maintExit (s : State) : State := if s.chk.maintenance then s.coldBind else s

/-- MAINT_EXIT. -/
def execMaintExit (s : State) : Host.Outcome State Fault Refusal :=
  .next (if !s.live then s else commit s.maintExit)

/-! ### BIND_CTRL (R74, R77) -/

/-- A BIND_CTRL command that does not fit the state is dropped and counted (R77). -/
def State.bindRefused (s : State) : State := s.count 0x24 none none 1

/-- REBIND_VALIDATE: the staging region is taken for validation; with another rebind validating or staged the command is refused
with BUSY (R74, R77, log 39). -/
def State.rebindValidate (s : State) : State :=
  if !s.bound then s.bindRefused
  else if s.bind.rebind == .validating || s.bind.rebind == .staged then
    (s.onBind fun x => x.errs true (some { code := 0x806, entry := 0x3D })).bindRefused
  else s.onBind fun x => { x with rebind := .validating, inCheck := some (x.staging.getD []) }

/-- REBIND_VALIDATE. -/
def execRebindValidate (s : State) : Host.Outcome State Fault Refusal :=
  .next (if !s.live then s else commit s.rebindValidate)

/-- REBIND_VALIDATION_DONE: REBIND_STATE settles on STAGED or REJECTED (R69, R72, R344). -/
def State.rebindDone (s : State) : State :=
  match s.bind.inCheck, s.bind.running with
  | some x, some run =>
    let s1 := s.onHost fun h => { h with bindIrq := true }
    match validateRebind s run x with
    | .error e => s1.onBind fun y => ({ y with rebind := .rejected, inCheck := none, staged := none } : Bind).errs true (some e)
    | .ok m =>
      let c := colophonOf x
      s1.onBind fun y => ({ y with
        rebind := .staged, inCheck := none, staged := some m, stagedSerial := c.serial, activate := c.activateTick } : Bind).errs
        true none
  | _, _ => s

/-- REBIND_VALIDATION_DONE. -/
def execRebindValidationDone (s : State) : Host.Outcome State Fault Refusal :=
  .next (if !s.live then s else commit s.rebindDone)

/-- Whether a staged rebind takes effect at the boundary of a tick (R74). -/
def State.switchesAt (s : State) (n : Nat) : Bool :=
  s.bind.rebind == .staged && s.bind.staged.isSome && (s.bind.activate == 0 || s.bind.activate == n)

/-- Whether the curator has begun the switch: 16 us before the nominal boundary at which the rebind takes effect; without a nominal grid,
once that boundary's source has come (R74, log 39). -/
def State.switchBegun (s : State) : Bool :=
  s.tick.running && s.switchesAt (s.tick.num + 1) &&
    if s.hasGrid then decide (s.gridAfter 1 ≤ s.tb.time + 16000) else s.tick.nominal.isSome || s.tick.launch.isSome

/-- REBIND_CANCEL. -/
def State.rebindCancel (s : State) : State :=
  if s.bind.rebind == .staged && !s.switchBegun then s.onBind fun x => { x with rebind := .idle, staged := none }
  else s.bindRefused

/-- REBIND_CANCEL. -/
def execRebindCancel (s : State) : Host.Outcome State Fault Refusal :=
  .next (if !s.live then s else commit s.rebindCancel)

/-- COLD_SELECT: the other slot must hold a binding that passes stages 1 to 6 (R77). -/
def State.coldSelect (s : State) : State :=
  if (stages1to6 s false (s.slotBytes (!s.bind.activeSlot))).isSome then s.bindRefused
  else s.onBind fun x => { x with activeSlot := !x.activeSlot }

/-- COLD_SELECT. -/
def execColdSelect (s : State) : Host.Outcome State Fault Refusal :=
  .next (if !s.live then s else commit s.coldSelect)

/-- COLD_CONFIRM raises SERIAL_FLOOR to the SERIAL of the running cold binding (R65, R77, R384). -/
def State.coldConfirm (s : State) : State :=
  if s.bound && !s.bind.fallback then
    let n := s.b.col.serial
    let s1 := (s.onBind fun x => { x with serialFloor := max x.serialFloor n, confirmed := max x.serialFloor n == n }).record
      { kind := .serialFloor, vals := [n] }
    s1.measureFree 5 0
  else s.bindRefused

/-- COLD_CONFIRM. -/
def execColdConfirm (s : State) : Host.Outcome State Fault Refusal :=
  .next (if !s.live then s else commit s.coldConfirm)

/-! ### The switch at a boundary (R74) -/

/-- Carried work that a rebind drops: no reservation of the activity in the new plan, or a bank of its passed to another owner. -/
def State.carryLost (s : State) (new : Binding) (n a : Nat) : Bool :=
  let owner := fun (r : LoanRec) k => if r.phases = 2 && k % 2 = 1 then r.ownerOdd else r.ownerEven
  let after := fun (r : LoanRec) => match new.loan.find? fun x => x.channel == r.channel && x.bank == r.bank with
    | some x => owner x n
    | none => 0xFF
  !(new.plan.blocks.any fun p => p.kind == 0 && p.profile == s.pwr.profile && p.res.any fun r => r.activity == a)
    || s.b.loan.any fun r => r.channel == a / 16 && owner r s.tick.num == a % 16 && after r != a % 16

/-- Codec slots whose record changed are closed and reopened (R74). -/
def State.codecSwitch (s : State) (old : Binding) : State :=
  (old.codc.map fun r => (r.channel, r.slot)).foldl (fun (s : State) k =>
    let get := fun (b : Binding) => b.codc.find? fun r => r.channel == k.1 && r.slot == k.2
    match get old, get s.b with
    | some x, some y => if x == y then s
      else if x.direction == y.direction && (s.slot k.1 k.2).isSetup then s.onSlot k.1 k.2 CodecSlot.restart
      else s.codecClose k.1 k.2
    | _, _ => s.codecClose k.1 k.2) s

/-- Counters whose record changed restart at 0; their snapshots stay (R74). -/
def State.cntSwitch (s : State) (old : Binding) : State :=
  let get := fun (b : Binding) k => b.cntr.find? fun r => r.key == k
  s.onCnt fun t => t.updAll ((old.cntr ++ s.b.cntr).map CntrRec.key) fun k c =>
    if get old k == get s.b k then c else { c with value := 0, ovf := false, clearPend := false }

/-- The staged rebind takes effect at the boundary of tick `n` as one unit (R62, R74, R78). -/
def State.rebindApply (s : State) (n : Nat) : State :=
  match s.bind.staged, s.bind.running with
  | some m, some run =>
    if !s.switchesAt n then s
    else
      let old := s.b
      let s1 := s.onBind fun x => { x with
        running := some { m with digest := run.digest }, staged := none, rebind := .applied, rebindTick := n
        lastSerial := x.stagedSerial }
      let s2 := (s1.onHost fun h => { h with bindIrq := true }).measure 4 0 m.digest
      let s3 := s2.record { kind := .rebind, vals := [s.bind.stagedSerial, n], bytes := m.digest }
      let s4 := ((s3.cntSwitch old).codecSwitch old).segmentCut
      if m.b.safe.copies == old.safe.copies then s4 else s4.onChk fun c => { c with copies := [] }
  | _, _ => s

end Sys2Proof.Machine
end

