-- ==== Sys2Proof/Machine/Counters.lean ====
section
/-! DEFINITION. Event counters: who may clear one, the consent gate as a register shows it, snapshots (spec/18 R393 to
R398). -/

namespace Sys2Proof.Machine

/-- The key of a counter: channel counter `index` of a channel, or a module counter (R397). -/
def cntKey (isModule : Bool) (ch index : Nat) : Nat := if isModule then 96 + index else 16 * ch + index

/-- The CNTR record that names a counter. -/
def State.cntrRec (s : State) (key : Nat) : Option CntrRec := s.b.cntr.find? fun r => r.key == key

/-- The tenant of a counter's OWNER: 0 where there is no record or no owner. -/
def State.cntOwner (s : State) (key : Nat) : Nat := match s.cntrRec key with
  | some r => if r.owner = 0xFF then 0 else s.b.tenantOf r.owner
  | none => 0

/-- GATED: the counter's event reveals data and its owner's tenant has no COUNTERS consent in force (R393). -/
def State.cntGated (s : State) (key : Nat) : Bool := match s.cntrRec key with
  | some r => dataRevealing r.event && s.cntOwner key != 0 && !s.countersConsent (s.cntOwner key)
  | none => false

/-- Whether a master may write CNT_CTRL of a counter (R398). -/
def State.cntWriter (s : State) (master key : Nat) : Bool :=
  let k := s.cntOwner key
  if k = 0 then master == idHostPf || master == idTray
  else match vfOf master with
    | some vf => s.tenantOfVf vf == k
    | none => false

/-- CLEAR: the value and OVF become 0 at the next boundary (R397); another master's write is dropped (R398). -/
def State.cntClear (s : State) (master key : Nat) : State :=
  if s.cntWriter master key then { s with cnt := s.cnt.upd key fun c => { c with clearPend := true } }
  else s.regErr master 6

/-- CNT_CLEAR. -/
def execCntClear (master : Nat) (isModule : Bool) (ch index : Nat) (s : State) : Host.Outcome State Fault Refusal :=
  .next (if !s.live then s else commit (s.cntClear master (cntKey isModule ch index)))

/-- The counters at a boundary: each latches its snapshot, and one to be cleared then starts from 0 (R395, R397, R398). It
comes before the boundary changes consents. -/
def State.cntBoundary (s : State) : State :=
  { s with cnt := s.cnt.updAll (s.b.cntr.map CntrRec.key) fun k c =>
      let c1 := { c with snapValue := c.value, snapOvf := c.ovf, snapGated := s.cntGated k }
      if c.clearPend then { c1 with value := 0, ovf := false, clearPend := false } else c1 }

/-- The snapshot as the read mailbox returns it (R396). -/
def State.cntSnap (s : State) (key : Nat) : DWord :=
  let c := s.cnt.get key
  BitVec.ofNat 64 (c.snapValue.toNat + (if c.snapOvf then 2 ^ 48 else 0) + (if c.snapGated then 2 ^ 49 else 0))

/-- Whether a reader is refused a counter's snapshot (R396). -/
def State.cntDenied (s : State) (master key : Nat) : Bool := match s.cntrRec key with
  | some r =>
    let k := s.cntOwner key
    dataRevealing r.event && k != 0 && !((match vfOf master with
      | some vf => s.tenantOfVf vf == k
      | none => false) && s.countersConsent k)
  | none => false

end Sys2Proof.Machine
end

