-- ==== Sys2Proof/Machine/HostLink.lean ====
section
/-! DEFINITION. The host interface: resets of the host side, configuration, interrupts, host windows, completions, IDE and TDISP
(spec/16 R341 to R355). -/

namespace Sys2Proof.Machine

/-- A TDI. -/
def State.tdi (s : State) (vf : Nat) : Tdi := s.host.tdis.get vf

/-- Whether a TDI is CONFIG_LOCKED or RUN. -/
def State.tdiHeld (s : State) (vf : Nat) : Bool := (s.tdi vf).state == .locked || (s.tdi vf).state == .run

/-- A TDI takes a new state: TDI_CHANGE is set (R345). -/
def State.tdiSet (s : State) (vf : Nat) (f : Tdi → Tdi) : State :=
  let s1 := s.onHost fun h => { h with tdis := h.tdis.upd vf f }
  if (s1.tdi vf).state = (s.tdi vf).state then s1 else s1.evVf vf 0

/-- The tenant of a virtual function, removed (R378). -/
def State.removeOf (s : State) (vf : Nat) : State := match s.b.tentOfVf vf with
  | some t => s.removeTenant t.tenant
  | none => s

/-- An event of the ERROR row of R355: a TDI that is CONFIG_LOCKED or RUN goes to ERROR, and its admitted tenant is removed. -/
def State.tdiError (s : State) (vf : Nat) : State :=
  if s.tdiHeld vf then ((s.tdiSet vf fun t => { t with state := .error }).evHost 8 none).removeOf vf else s

/-! ### Sessions that end (R356) -/

/-- A session ends: the TDIs it locked go to ERROR (R355). -/
def State.sessionEnd (s : State) (n : Nat) : State :=
  if !(s.host.sessions.get n).isOpen then s
  else
    let s1 := s.onHost fun h => { h with sessions := h.sessions.erase n }
    (List.range 8).foldl (fun (s : State) i => if (s.tdi (i + 1)).session = n then s.tdiError (i + 1) else s) s1

/-- Every session of a transport ends. -/
def State.sessionsEnd (s : State) (overMctp : Bool) : State :=
  (s.host.sessions.filter fun e => e.2.isOpen && e.2.overMctp == overMctp).foldl (fun (s : State) e => s.sessionEnd e.1) s

/-! ### Function resets and loss of the link (R351) -/

/-- The registers of a virtual function take their reset values: doorbells, read mailbox, REG_ERR, VF events, MSI-X, its tenant's
windows. -/
def State.vfRegsReset (s : State) (vf : Nat) : State :=
  let id := idFn vf
  let s1 := (s.onMbx fun x => { x with bells := x.bells.erase id }).onBus fun u =>
    { u with rmb := u.rmb.erase id, regErr := u.regErr.erase id }
  let s2 := s1.onHost fun h => { h with
    funcs := h.funcs.erase vf, msix := h.msix.keep fun i _ => i / 4 != vf }
  match s2.b.tentOfVf vf with
  | some t => (List.range 16).foldl (fun (s : State) w => if s.winOwner w = t.tenant
      then (s.winDisable w).onHost fun h => { h with wins := h.wins.erase w } else s) s2
  | none => s2

/-- The effects of a VF FLR: the TDI is CONFIG_UNLOCKED (counted as TDI_ERROR where it was held, R355), its tenant is removed, its
role changes, its registers are reset (R351; log 35). -/
def State.vfReset (s : State) (vf : Nat) : State :=
  let s1 := if s.tdiHeld vf then s.evHost 8 none else s
  let s2 := s1.tdiSet vf fun t => { stopOwed := t.stopOwed }
  let gone := match s.b.tentOfVf vf with
    | some t => s.removable t.tenant
    | none => false
  let s3 := if gone then s2.removeOf vf else s2.roleChange (idFn vf)
  s3.vfRegsReset vf

/-- VF_FLR of an existing virtual function. -/
def State.vfFlrEff (s : State) (vf : Nat) : State :=
  if s.host.numVfs < vf then s else (((s.evHost 2 none).vfReset vf)).sessionsEnd false

/-- VF_FLR; the operand counts functions from 0. -/
def execVfFlr (vf : Nat) (s : State) : Host.Outcome State Fault Refusal :=
  .next (if !s.live then s else commit (s.vfFlrEff (vf + 1)))

/-- NumVFs takes a lower value: the functions above it are reset and leave. -/
def State.numVfsDown (s : State) (n : Nat) : State :=
  let s1 := ((List.range 8).filter fun i => n ≤ i && i < s.host.numVfs).foldl (fun (s : State) i => s.vfReset (i + 1)) s
  s1.onHost fun h => { h with numVfs := n }

/-- The effects of a PF FLR: host registers, windows of tenant 0, HOST_PF's role, every virtual function (R351). -/
def State.pfReset (s : State) : State :=
  let s1 := (s.onMbx fun x => { x with bells := x.bells.erase idHostPf }).onBus fun u => { u with
    rmb := u.rmb.erase idHostPf, regErr := u.regErr.erase idHostPf, bar4Channel := 0, bar4Enable := false, bar4Base := 0 }
  let s2 := (List.range 16).foldl (fun (s : State) w => if s.winOwner w = 0
      then (s.winDisable w).onHost fun h => { h with wins := h.wins.erase w } else s) s1
  let s3 := s2.onHost fun h => { h with
    irqEn := 0, funcs := h.funcs.erase 0, msix := h.msix.keep fun i _ => i / 4 != 0, cplTimeoutUs := 10000 }
  ((s3.roleChange idHostPf).numVfsDown 0).sessionsEnd false

/-- PF_FLR. -/
def execPfFlr (s : State) : Host.Outcome State Fault Refusal :=
  .next (if !s.live then s else commit ((s.evHost 1 none).pfReset))

/-- IDE streams return to Insecure and their keys are discarded. -/
def State.ideDrop (s : State) : State := s.onHost fun h => { h with streams := [] }

/-- Loss of the host link (R351). -/
def State.linkLost (s : State) : State :=
  ((s.evHost 0 none).onHost fun h => { h with linkUp := false, speed := 0, width := 0 }).pfReset.ideDrop

/-- HOST_LINK_DOWN: the link goes down, or is not up after training. -/
def execHostLinkDown (s : State) : Host.Outcome State Fault Refusal :=
  .next (if !s.live then s else commit s.linkLost)

/-- SECONDARY_BUS_RESET: as a PF FLR; IDE streams are Insecure. -/
def execSecondaryBusReset (s : State) : Host.Outcome State Fault Refusal :=
  .next (if !s.live then s else commit ((s.evHost 1 none).pfReset.ideDrop))

/-- HOST_LINK_UP: outside PERST_N the link trains to a speed and width. -/
def execHostLinkUp (speed width : Nat) (s : State) : Host.Outcome State Fault Refusal :=
  .next (if !s.live || s.start.perst then s else commit (s.onHost fun h => { h with linkUp := true, speed := speed, width := width }))

/-- PERST_N resets the host island and nothing else (R472). -/
def State.perstEff (s : State) (asserted : Bool) : State :=
  let s1 := s.onStart fun x => { x with perst := asserted }
  if asserted && !s.start.perst && s.live then (if s.host.linkUp then s1.linkLost else s1.pfReset.ideDrop) else s1

/-- PERST_N. -/
def execPerstN (asserted : Bool) (s : State) : Host.Outcome State Fault Refusal :=
  .next (commit (s.perstEff asserted))

/-- NUMVFS_WRITE: more functions come into being, or those above the new count leave; a count above TotalVFs is not written
(R342, log 35). -/
def execNumvfsWrite (count : Nat) (s : State) : Host.Outcome State Fault Refusal :=
  .next (if !s.live || decide (8 < count) then s else commit (
    if count < s.host.numVfs then (s.numVfsDown count).sessionsEnd false else s.onHost fun h => { h with numVfs := count }))

/-! ### Configuration and MSI-X (R343, R355) -/

/-- Whether a function exists. -/
def State.fnExists (s : State) (fn : Nat) : Bool := decide (fn ≤ s.host.numVfs)

/-- The TDIs that a change of a function's settings concerns: its own, or for the physical function every one. -/
def fnTdis (fn : Nat) : List Nat := if fn = 0 then (List.range 8).map (· + 1) else [fn]

/-- PCI_CONFIG_WRITE: 0 Memory Space Enable, 1 Bus Master Enable, 2 completion timeout in microseconds, 3 the mask of MSI-X
vector value / 2, others a frozen item. A change to a frozen item of a held TDI, or clearing Memory Space or Bus Master
Enable, is an event of the ERROR row (R355). -/
def State.configWrite (s : State) (fn item value : Nat) : State :=
  if !s.fnExists fn then s
  else
    let f := s.host.funcs.get fn
    let on := value != 0
    let fail := fun (s : State) => (fnTdis fn).foldl State.tdiError s
    let own := fun (s : State) => if fn = 0 then s else s.tdiError fn
    match item with
    | 0 => if f.memSpace = on then s
      else let s1 := s.onHost fun h => { h with funcs := h.funcs.upd fn fun f => { f with memSpace := on } }
        if on then own s1 else fail s1
    | 1 => if f.busMaster = on then s
      else let s1 := s.onHost fun h => { h with funcs := h.funcs.upd fn fun f => { f with busMaster := on } }
        if on then own s1 else fail s1
    | 2 => if fn = 0 then s.onHost fun h => { h with cplTimeoutUs := value } else s
    | 3 =>
      if s.tdiHeld fn && fn != 0 then s.tdiError fn
      else s.onHost fun h => { h with msix := h.msix.upd (vecKey fn (value / 2 % 4)) fun x => { x with masked := value % 2 == 1 } }
    | _ => own s

/-- PCI_CONFIG_WRITE. -/
def execPciConfigWrite (function item value : Nat) (s : State) : Host.Outcome State Fault Refusal :=
  .next (if !s.live then s else commit (s.configWrite function item value))

/-- MSIX_UNMASK: a pending message is sent. The MSI-X of a held TDI is frozen (R355). -/
def State.unmask (s : State) (fn vec : Nat) : State :=
  let x := s.host.msix.get (vecKey fn vec)
  if !s.fnExists fn || !x.masked then s
  else if fn != 0 && s.tdiHeld fn then s.tdiError fn
  else
    let s1 := s.onHost fun h => { h with msix := h.msix.upd (vecKey fn vec) fun x => { x with masked := false, pend := false } }
    if x.pend && s.host.linkUp then s1.out (msixOut fn vec) else s1

/-- MSIX_UNMASK. -/
def execMsixUnmask (function vector : Nat) (s : State) : Host.Outcome State Fault Refusal :=
  .next (if !s.live then s else commit (s.unmask function vector))

/-! ### Host windows (R347 to R349) -/

/-- The master that owns a window: HOST_PF for tenant 0, else the tenant's function. -/
def State.winMaster (s : State) (w : Nat) : Nat :=
  if s.winOwner w = 0 then idHostPf
  else match s.b.tentOf (s.winOwner w) with
    | some t => idFn t.vf
    | none => 0

/-- The condition of ENABLE = 1. -/
def State.winOk (s : State) (w : Nat) : Bool :=
  let x := s.host.wins.get w
  decide (x.base.toNat * 4096 + spillSlotBytes * x.slots.toNat ≤ 2 ^ 64)
    && (s.b.memx.all fun r => !(r.kind == 5 && r.link == w) || decide (r.base + r.size ≤ x.slots.toNat))
    && (match s.b.tentOf (s.winOwner w) with
      | some t => (s.host.funcs.get t.vf).busMaster
      | none => true)

/-- HSW_CTRL ENABLE is written by the window's owner (R348, R349). -/
def State.hswCtrl (s : State) (master w : Nat) (value : Word) : State :=
  if master ≠ s.winMaster w then s.regErr master 6
  else if !value.getLsbD 0 then s.winDisable w
  else if (s.host.wins.get w).enabled then s
  else if s.winOk w then s.onHost fun h => { h with wins := h.wins.upd w fun x => { x with enabled := true } }
  else s.evHost 7 none

/-- HSW_CTRL_WRITE. -/
def execHswCtrlWrite (master window : Nat) (value : Word) (s : State) : Host.Outcome State Fault Refusal :=
  .next (if !s.live then s else commit (s.hswCtrl master window value))

/-! ### Completions (R350) -/

/-- The host-tier transfer of a leaf activity that runs first in its channel. -/
def State.hostXfer (s : State) (a : Nat) : Option Xfer :=
  if s.b.leafAct (s.b.tenantOf a) (a / 16) = some a then
    s.leaf.xfers.find? fun x => x.tier == .host && x.channel == a / 16 && (s.leafE x.leaf).tenant == s.b.tenantOf a
  else none

/-- A module-initiated transfer ends with HOST_ERROR: the activity's queue on a host window, or its leaf transfer. -/
def State.hostError (s : State) (a bit : Nat) : State :=
  let q := s.queue a
  let w := if adSpace q.prog.src = 2 then adWin q.prog.src else adWin q.prog.dst
  if q.busy && q.pendCode.isNone && (adSpace q.prog.src == 2 || adSpace q.prog.dst == 2) then
    ((s.evHost bit (some a)).winFault w (s.b.tenantOf a)).beatStops a 7
  else match s.hostXfer a with
    | some x =>
      let s1 := (s.evHost bit (some a)).winFault (match s.b.tierRegion .host (s.leafE x.leaf).tenant x.site with
        | some r => r.link
        | none => 0) (s.b.tenantOf a)
      if x.isFetch then s1.fetchEnd x.leaf 7 true else s1.spillEnd x.leaf 7
    | none => s

/-- HOST_COMPLETION: UR, CA or poisoned ends the transfer and counts CPL_ERROR. -/
def execHostCompletion (act status : Nat) (s : State) : Host.Outcome State Fault Refusal :=
  .next (if !s.live then s else commit (if status = 0 then s else s.hostError act 4))

/-- CPL_TIMEOUT: no completion within the timeout. -/
def execCplTimeout (act : Nat) (s : State) : Host.Outcome State Fault Refusal :=
  .next (if !s.live then s else commit (s.hostError act 3))

/-! ### IDE (R352) -/

/-- An IDE stream. -/
def State.onStream (s : State) (n : Nat) (f : IdeStream → IdeStream) : State :=
  s.onHost fun h => { h with streams := h.streams.upd n f }

/-- IDE_KM: 0 programs the keys of a key set, 1 stops it; other messages only query. -/
def State.ideKmEff (s : State) (stream : Nat) (keySet : Bool) (kind : Nat) : State :=
  match kind with
  | 0 => s.onStream stream fun x => if keySet then { x with keys1 := true } else { x with keys0 := true }
  | 1 => s.onStream stream fun x =>
      let y := if keySet then { x with keys1 := false } else { x with keys0 := false }
      if x.keySet = keySet then { y with secure := false } else y
  | _ => s

/-- IDE_KM. -/
def execIdeKm (stream : Nat) (keySet : Bool) (kind : Nat) (s : State) : Host.Outcome State Fault Refusal :=
  .next (if !s.live || !s.host.linkUp then s else commit (s.ideKmEff stream keySet kind))

/-- K_SET_GO switches a stream to a key set that has keys. -/
def State.kSetGoEff (s : State) (stream : Nat) (keySet : Bool) : State :=
  let x := s.host.streams.get stream
  if (if keySet then x.keys1 else x.keys0) then s.onStream stream fun x => { x with keySet := keySet, secure := true } else s

/-- K_SET_GO. -/
def execKSetGo (stream : Nat) (keySet : Bool) (s : State) : Host.Outcome State Fault Refusal :=
  .next (if !s.live || !s.host.linkUp then s else commit (s.kSetGoEff stream keySet))

/-- IDE_INSECURE: an integrity check failure; the TDI on a selective stream goes to ERROR. -/
def State.ideFail (s : State) (stream : Nat) : State :=
  if !(s.host.streams.get stream).secure then s
  else
    let s1 := (s.onStream stream fun x => { x with secure := false }).evHost 5 none
    if stream = 0 then s1 else s1.tdiError stream

/-- IDE_INSECURE. -/
def execIdeInsecure (stream : Nat) (s : State) : Host.Outcome State Fault Refusal :=
  .next (if !s.live then s else commit (s.ideFail stream))

/-! ### TDISP (R354, R355); response and error codes are the standard's (log 35) -/

/-- A TDISP request in a secured session for an existing function; the error INVALID_INTERFACE where it does not exist. -/
def State.tdispReq (s : State) (session vf : Nat) (f : State → State) : State :=
  if !(s.host.sessions.get session).isOpen then s
  else if s.host.numVfs < vf then s.tdispOut vf 0x7F 0x101 []
  else f s

/-- A TDISP error. -/
def State.tdispErr (s : State) (vf code : Nat) : State := s.tdispOut vf 0x7F code []

/-- GET_TDISP_VERSION: version 1.0. -/
def execGetTdispVersion (session vf : Nat) (s : State) : Host.Outcome State Fault Refusal :=
  .next (if !s.live then s else commit (s.tdispReq session (vf + 1) fun s => s.tdispOut (vf + 1) 0x01 0 [1, 0x10]))

/-- GET_TDISP_CAPABILITIES: the seven requests of R354. -/
def execGetTdispCapabilities (session vf : Nat) (s : State) : Host.Outcome State Fault Refusal :=
  .next (if !s.live then s else commit (s.tdispReq session (vf + 1) fun s => s.tdispOut (vf + 1) 0x02 0 (toLe 16 0xFE)))

/-- LOCK_INTERFACE_REQUEST: the TDI is CONFIG_LOCKED with a fresh nonce. -/
def State.tdiLock (s : State) (session vf : Nat) (noFwUpdate : Bool) : State :=
  if (s.tdi vf).state != .unlocked || (s.b.tentOfVf vf).isNone || !(s.host.streams.get vf).secure then s.tdispErr vf 4
  else
    let nonce := s.freeBytes 32
    let s1 := (s.tookFree 32).tdiSet vf fun t => { t with
      state := .locked, nonce := nonce, session := session, noFwUpdate := noFwUpdate }
    (s1.onHost fun h => { h with sessions := h.sessions.upd session fun x => { x with lockedVf := vf } }).tdispOut vf 0x03 0 nonce

/-- LOCK_INTERFACE_REQUEST. -/
def execLockInterfaceRequest (session vf : Nat) (noFwUpdate : Bool) (s : State) : Host.Outcome State Fault Refusal :=
  .next (if !s.live then s else commit (s.tdispReq session (vf + 1) fun s => s.tdiLock session (vf + 1) noFwUpdate))

/-- GET_DEVICE_INTERFACE_REPORT: one MMIO range of 16 pages that holds the MSI-X table; the BAR's address is free. -/
def State.tdiReport (s : State) (vf : Nat) : State :=
  if s.tdiHeld vf then
    (s.tookFree 8).tdispOut vf 0x04 0 (toLe 2 (if (s.tdi vf).noFwUpdate then 1 else 0) ++ toLe 10 0 ++ toLe 4 1
      ++ s.freeBytes 8 ++ toLe 4 16 ++ toLe 4 1 ++ toLe 4 0)
  else s.tdispErr vf 4

/-- GET_DEVICE_INTERFACE_REPORT. -/
def execGetDeviceInterfaceReport (session vf : Nat) (s : State) : Host.Outcome State Fault Refusal :=
  .next (if !s.live then s else commit (s.tdispReq session (vf + 1) fun s => s.tdiReport (vf + 1)))

/-- The code of a TDI state (R359). -/
def TdiState.code : TdiState → Nat
  | .unlocked => 0
  | .locked => 1
  | .run => 2
  | .error => 3

/-- GET_DEVICE_INTERFACE_STATE. -/
def execGetDeviceInterfaceState (session vf : Nat) (s : State) : Host.Outcome State Fault Refusal :=
  .next (if !s.live then s else commit (s.tdispReq session (vf + 1) fun s =>
    s.tdispOut (vf + 1) 0x05 0 (toLe 1 (s.tdi (vf + 1)).state.code)))

/-- START_INTERFACE_REQUEST: with the nonce of the lock and a tenant that can be admitted the TDI is RUN, its function's role
changes and admission begins (R355, R372). -/
def State.tdiStart (s : State) (vf : Nat) (nonce : List Byte) : State :=
  if (s.tdi vf).state != .locked then s.tdispErr vf 4
  else if (s.tdi vf).nonce != nonce then s.tdispErr vf 0x102
  else match s.b.tentOfVf vf with
    | some t => if s.admissible t.tenant then
        (((s.tdiSet vf fun t => { t with state := .run }).roleChange (idFn vf)).admitTenant t.tenant).tdispOut vf 0x06 0 []
      else s.tdispErr vf 4
    | none => s.tdispErr vf 4

/-- START_INTERFACE_REQUEST. -/
def execStartInterfaceRequest (session vf : Nat) (nonce : List Byte) (s : State) : Host.Outcome State Fault Refusal :=
  .next (if !s.live then s else commit (s.tdispReq session (vf + 1) fun s => s.tdiStart (vf + 1) nonce))

/-- Whether a tenant's removal runs. -/
def State.removing (s : State) (vf : Nat) : Bool := match s.b.tentOfVf vf with
  | some t => (s.ten t.tenant).state == .removing
  | none => false

/-- STOP_INTERFACE_REQUEST: CONFIG_UNLOCKED; the response waits for the removal of an admitted tenant (R355). -/
def State.tdiStop (s : State) (vf : Nat) : State :=
  if (s.tdi vf).state = .unlocked then s.tdispErr vf 4
  else
    let s1 := (s.tdiSet vf fun _ => {}).removeOf vf
    if s1.removing vf then s1.onHost fun h => { h with tdis := h.tdis.upd vf fun t => { t with stopOwed := true } }
    else s1.tdispOut vf 0x07 0 []

/-- STOP_INTERFACE_REQUEST. -/
def execStopInterfaceRequest (session vf : Nat) (s : State) : Host.Outcome State Fault Refusal :=
  .next (if !s.live then s else commit (s.tdispReq session (vf + 1) fun s => s.tdiStop (vf + 1)))

/-- Any other TDISP request: UNSUPPORTED_REQUEST. -/
def execTdispOtherRequest (session vf code : Nat) (s : State) : Host.Outcome State Fault Refusal :=
  .next (if !s.live then s else commit (s.tdispReq session (vf + 1) fun s => s.tdispErr (vf + 1) 7))

end Sys2Proof.Machine
end

