-- ==== Sys2Proof/Machine/Images.lean ====
section
/-! DEFINITION. Images: their headers and checks, the image transfer, the trial and the settings store (spec/23 R478 to R493, spec/19
R400 to R402). -/

namespace Sys2Proof.Machine

/-! ### Headers (R479, R480) -/

/-- The key a KEY code names, where it may verify: a provisioned binding-authority slot that is not revoked, a firmware key whose fuse is
whole, the manufacturing or the return key. -/
def State.imageKey (s : State) (k : Nat) : Option (List Byte) :=
  if k ≤ 3 then
    let x := s.bind.keys.get k
    if x.provisioned && !x.revoked then some x.key else none
  else if k = 0x10 || k = 0x11 then (if s.keep.fwKeysRevoked.getLsbD (k - 0x10) then none else some (Config.romKey k))
  else if k = 0x20 || k = 0x21 then some (Config.romKey k)
  else none

/-- The keys that sign an image type (R485, R386). -/
def keyFor (typ k : Nat) : Bool :=
  if typ = 1 then k == 0x10 || k == 0x11
  else if typ = 5 then decide (k ≤ 3) || k == 0x10 || k == 0x11 || k == 0x20 || k == 0x21
  else decide (k ≤ 3)

/-- The component table of a bundle (R480): place and length of component `i`. -/
def component (x : List Byte) (i : Nat) : Nat × Nat := (u32 x (0x104 + 80 * i), u32 x (0x108 + 80 * i))

/-- The digest the table gives of component `i`. -/
def componentDigest (x : List Byte) (i : Nat) : List Byte := slice x (0x110 + 80 * i) 64

/-- Whether the component table is as R480 says: every ID once in order, reserved bytes zero, offsets, no overlap, all within LENGTH. -/
def tableOk (x : List Byte) : Bool :=
  (List.range 6).all fun i =>
    let c := component x i
    u8 x (0x100 + 80 * i) == i && zeroRange x (0x101 + 80 * i) 3 && zeroRange x (0x10C + 80 * i) 4
      && c.1 % 4096 == 0 && decide (0x1000 ≤ c.1) && decide (c.1 + c.2 ≤ x.length)
      && (List.range i).all fun j =>
        let d := component x j
        decide (c.1 + c.2 ≤ d.1) || decide (d.1 + d.2 ≤ c.1)

/-- Whether the header of an image of a type is well formed. -/
def imageHeaderOk (typ : Nat) (x : List Byte) : Bool :=
  let fw := typ == 1
  x.take 8 == ascii "SHIMAG06" && u8 x 8 == typ && u32 x 0xC == x.length && decide (0x100 ≤ x.length)
    && (u8 x 9 ≤ 3 || [0x10, 0x11, 0x20, 0x21].contains (u8 x 9))
    && (if fw then decide (u16 x 0xA ≤ 63) else u16 x 0xA == 0) && (fw || u32 x 0x10 == 0)
    && (if fw then u16 x 0x14 != 0 else u16 x 0x14 == 0)
    && zeroRange x 0x16 2 && zeroRange x 0x28 24 && zeroRange x 0xF2 14 && (typ != 5 || !zeroRange x 0x18 16)
    && (!fw || (decide (0x2E0 ≤ x.length) && decide (x.length ≤ 0x1800000) && tableOk x))

/-- The signature over bytes 0 to 0x7F, by a key that signs the type. -/
def State.imageSigned (s : State) (typ : Nat) (x : List Byte) : Bool :=
  keyFor typ (u8 x 9) && match s.imageKey (u8 x 9) with
    | some k => Config.ed448Verify k (ascii "APY-SX6-IMAGE") (x.take 0x80) (slice x 0x80 114)
    | none => false

/-- PAYLOAD_DIGEST. -/
def payloadOk (typ : Nat) (x : List Byte) : Bool :=
  shake256 (if typ = 1 then slice x 0x100 480 else x.drop 0x100) == slice x 0x40 64

/-- Whether a component's bytes match its digest. -/
def componentOk (x : List Byte) (i : Nat) : Bool :=
  shake256 (slice x (component x i).1 (component x i).2) == componentDigest x i

/-- Whether TARGET is zero or this module. -/
def State.imageForUs (s : State) (x : List Byte) : Bool := zeroRange x 0x18 16 || slice x 0x18 16 == s.keep.accession

/-- The checks of R487 that every type with a header has: 0, or the result code of R490. -/
def State.imageCode (s : State) (typ : Nat) (x : List Byte) : Nat :=
  firstBad
    [(imageHeaderOk typ x, 0x08),
     (s.imageSigned typ x && payloadOk typ x && (typ != 1 || (List.range 6).all (componentOk x)), 0x09),
     (typ != 1 || decide (s.keep.svnFloor ≤ u16 x 0xA), 0x0B),
     (s.imageForUs x, 0x0A)]

/-! ### CAL (R307, R400, R402) -/

/-- The 89 trim entries of a CAL payload. -/
def calTrims (p : List Byte) : List Trim :=
  (List.range 89).map fun i => { gain := signedOf 16 (u16 p (8 + 8 * i)), offset := signedOf 16 (u16 p (10 + 8 * i)) }

/-- Whether a trim entry is within its limits: the offset in the sensor's unit, 2 degrees for temperatures and 1 % of full scale
otherwise; entry 71 is zero (R400). -/
def trimOk (i : Nat) (t : Trim) : Bool :=
  let lim := if i < 68 then 20 else (sensorRange i).2 / 100
  t.gain.natAbs ≤ 1311 && decide ((t.offset.natAbs : Int) ≤ lim) && (i != 71 || (t.gain == 0 && t.offset == 0))

/-- The calibration set of a CAL payload (R307). -/
def calSetOf (p : List Byte) : CalSet :=
  let w := u16 p 8
  { width := w, dark := (List.range w).map fun x => u16 p (24 + 2 * x), gain := (List.range w).map fun x => u16 p (24 + 2 * w + 2 * x) }

/-- Whether a CAL payload is within the limits that R402 checks. -/
def calOk (p : List Byte) : Bool :=
  zeroRange p 2 6 && decide (u8 p 1 ≤ 15) && match u8 p 0 with
    | 0 => p.length == 8 + 712 && (List.range 89).all fun i => zeroRange p (12 + 8 * i) 4 && trimOk i ((calTrims p).getD i {})
    | 1 => within 1 (u16 p 8) 16384 && zeroRange p 10 14 && p.length == 8 + 16 + 4 * u16 p 8
    | _ => false

/-- A settings area with a CAL payload stored in it. -/
def Settings.store (x : Settings) (p : List Byte) : Settings :=
  if u8 p 0 = 0 then { x with
    trims := (List.range 89).foldl (fun (t : Tab Trim) i => t.set i ((calTrims p).getD i {})) x.trims }
  else { x with cal := x.cal.set (u8 p 1) (calSetOf p) }

/-! ### LIFECYCLE and REVOKE (R64, R386) -/

/-- The life-cycle state of a code. -/
def lifeOf (n : Nat) : LifeCycle :=
  match n with
  | 0 => .blank
  | 1 => .provisioned
  | 2 => .field
  | 3 => .returned
  | _ => .scrapped

/-- Whether the KSI allows a change of state by a record signed with a key (R386). -/
def lifeAllowed (old : LifeCycle) (n key : Nat) : Bool :=
  match n with
  | 1 => old == .blank && key == 0x20
  | 2 => (old == .provisioned && decide (key ≤ 3)) || (old == .returned && key == 0x21)
  | 3 => old == .field && decide (key ≤ 3)
  | 4 => true
  | _ => false

/-- The KSI's rules for a LIFECYCLE image. -/
def State.lifeOk (s : State) (x : List Byte) : Bool :=
  x.length == 0x102 && slice x 0x18 16 == s.keep.accession && u8 x 0x101 == s.ksi.lcCount
    && lifeAllowed s.ksi.lifecycle (u8 x 0x100) (u8 x 9)

/-- The binding-authority slots that can still verify. -/
def State.liveKeys (s : State) : List Nat := (List.range 4).filter fun k => (s.bind.keys.get k).provisioned && !(s.bind.keys.get k).revoked

/-- The KSI's rules for a REVOKE image: in FIELD, by a different key, and never the last one. -/
def State.revokeOk (s : State) (x : List Byte) : Bool :=
  let k := u8 x 0x100
  x.length == 0x101 && s.ksi.lifecycle == .field && s.liveKeys.contains k && k != u8 x 9 && decide (2 ≤ s.liveKeys.length)

/-! ### The transfer (R485 to R489) -/

/-- Update of the transfer with the result of the last command. -/
def State.imgDone (s : State) (code : Nat) (f : Image → Image) : State := s.onImg fun x => { f x with result := code }

/-- A transfer command by a master: others than HOST_PF and TRAY_SMB are refused, and while a transfer is in hand only its owner's commands
are taken (R489). -/
def State.imgCmd (s : State) (master : Nat) (f : State → State) : State :=
  if !(master == idHostPf || master == idTray) then s.regErr master 6
  else
    let busy := s.img.state == .erasing || s.img.state == .opened || s.img.state == .verifying
    if busy && s.img.owner != master then s.imgDone 1 id else f s

/-- The size limit of an image type (R61, R485). -/
def imageLimit (typ : Nat) : Nat :=
  match typ with
  | 1 => 0x1800000
  | 2 => 0x800000
  | 3 => 0x600000
  | 4 => 0x100000
  | _ => 0x1000

/-- Whether the module is in recovery. -/
def State.recovery (s : State) : Bool := s.start.stage == .recovery

/-- Whether a firmware copy is one the ROM accepts (R481). -/
def State.copyAccepted (s : State) (c : FwCopy) : Bool :=
  let x := c.bundle
  c.selectable && imageHeaderOk 1 x && s.imageSigned 1 x && payloadOk 1 x && decide (s.keep.svnFloor ≤ u16 x 0xA) && s.imageForUs x
    && componentOk x 0

/-- The copy or slot an image goes to: the copy that does not run, in recovery A where A is not accepted; the slot that is not active. -/
def State.imgDest (s : State) (typ : Nat) : Bool :=
  if typ = 1 then (if s.recovery then s.copyAccepted s.keep.copyA else !s.start.fwCopy) else !s.bind.activeSlot

/-- OPEN (R486): the destination of FIRMWARE and BINDING is erased from then on. An OPEN of the owner ends its previous transfer. -/
def State.imgOpenEff (s : State) (master typ length : Nat) : State :=
  s.imgCmd master fun s =>
    let s := s.onImg fun x => { x with state := .idle, busy := false, blocks := [], data := [], detail := 0, committed := false }
    let dest := s.imgDest typ
    if !within 1 typ 6 || (s.recovery && typ != 1) then s.imgDone 2 id
    else if imageLimit typ < length then s.imgDone 3 id
    else if typ = 2 && s.bound && dest == s.bind.runSlot then s.imgDone 0x0C id
    else
      let s1 := s.imgDone 0 fun x => { x with
        state := if typ ≤ 2 then .erasing else .opened, owner := master, typ := typ, openLen := length, dest := dest }
      if typ = 1 then s1.onKeep fun k => if dest then { k with copyB := { k.copyB with bundle := [], selectable := false } }
        else { k with copyA := { k.copyA with bundle := [], selectable := false } }
      else if typ = 2 then s1.onKeep fun k => if dest then { k with slotB := [], slotBOk := false }
        else { k with slotA := [], slotAOk := false }
      else s1

/-- OPEN. -/
def execImgOpen (master typ length : Nat) (s : State) : Host.Outcome State Fault Refusal :=
  .next (if !s.live then s else commit (s.imgOpenEff master typ length))

/-- ERASE_DONE. -/
def execEraseDone (s : State) : Host.Outcome State Fault Refusal :=
  .next (if !s.live || s.img.state != .erasing then s else commit (s.onImg fun x => { x with state := .opened }))

/-- Blocks of an image. -/
def blockCount (length : Nat) : Nat := (length + 4095) / 4096

/-- BLOCK (R486), of IMG_BUF with the values of the image registers. -/
def State.imgBlockEff (s : State) (master : Nat) : State :=
  s.imgCmd master fun s =>
    let i := s.img
    let n := i.blkLen.toNat
    let o := i.offset.toNat
    let b := rdBytes i.buf 0 n
    if i.state == .erasing || i.state == .verifying || i.busy then s.imgDone 1 id
    else if i.state != .opened || o % 4096 != 0 || decide (i.openLen ≤ o) || n != min 4096 (i.openLen - o) then s.imgDone 5 id
    else if crc32c b != i.crc then s.imgDone 4 id
    else if i.blocks.contains o then s.imgDone (if rdBytes i.data o n == b then 0 else 6) id
    else s.imgDone 0 fun x => { x with blocks := o :: x.blocks, data := wrBytes x.data o b, busy := true }

/-- BLOCK. -/
def execImgBlock (master : Nat) (s : State) : Host.Outcome State Fault Refusal :=
  .next (if !s.live then s else commit (s.imgBlockEff master))

/-- BLOCK_PROGRAMMED. -/
def execBlockProgrammed (s : State) : Host.Outcome State Fault Refusal :=
  .next (if !s.live then s else commit (s.onImg fun x => { x with busy := false }))

/-- The image's bytes. -/
def Image.bytes (x : Image) : List Byte := rdBytes x.data 0 x.openLen

/-- CLOSE (R486, R487, R508): a REBIND is VERIFIED without checks and staged. -/
def State.imgCloseEff (s : State) (master : Nat) : State :=
  s.imgCmd master fun s =>
    let i := s.img
    if i.state == .erasing || i.state == .verifying || i.busy then s.imgDone 1 id
    else if i.state != .opened || i.blocks.length != blockCount i.openLen then s.imgDone 7 id
    else if i.typ = 3 then (s.imgDone 0 fun x => { x with state := .verified }).onBind fun b => { b with staging := some i.bytes }
    else s.imgDone 0 fun x => { x with state := .verifying }

/-- CLOSE. -/
def execImgClose (master : Nat) (s : State) : Host.Outcome State Fault Refusal :=
  .next (if !s.live then s else commit (s.imgCloseEff master))

/-- A verified or failed image. -/
def State.imgVerdict (s : State) (code detail : Nat) : State :=
  s.imgDone code fun x => { x with state := if code = 0 then .verified else .failed, detail := detail }

/-- A FIRMWARE image verified: its copy holds it; in recovery the ROM selects it in trial and resets (R484). -/
def State.fwVerified (s : State) (x : List Byte) : State :=
  let c : FwCopy := { bundle := x }
  let s1 := (s.imgVerdict 0 0).onKeep fun k => if s.img.dest then { k with copyB := c } else { k with copyA := c }
  if s.recovery then (s1.onKeep fun k => { k with bootSel := s.img.dest, trial := true, tries := 0 }).resetModule 12 else s1

/-- VERIFY_DONE by type (R64, R386, R402, R487). -/
def State.verify (s : State) : State :=
  let i := s.img
  let x := i.bytes
  let code := s.imageCode i.typ x
  if i.state != .verifying then s
  else match i.typ with
    | 1 => if code = 0 then s.fwVerified x else s.imgVerdict code 0
    | 2 => match stages1to6 s false x with
      | some e => s.imgVerdict 0x10 e.code
      | none => (s.imgVerdict 0 0).onKeep fun k => if i.dest then { k with slotB := x, slotBOk := true }
        else { k with slotA := x, slotAOk := true }
    | 4 => if code ≠ 0 then s.imgVerdict code 0
      else if calOk (x.drop 0x100) then s.imgVerdict 0 0 else (s.imgVerdict 0x12 0).evCons 7
    | 5 => if code ≠ 0 then s.imgVerdict code 0
      else if !s.lifeOk x then s.imgVerdict 0x12 0
      else
        let s1 := ((s.imgVerdict 0 0).wipeVitrine 2 0).record { kind := .lifecycle, vals := [u8 x 0x100, s.ksi.lcCount + 1] }
        ((s1.onKsi fun k => { k with lifecycle := lifeOf (u8 x 0x100), lcCount := k.lcCount + 1 }).roleChange idKsi).resetModule 7
    | _ => if code ≠ 0 then s.imgVerdict code 0
      else if !s.revokeOk x then s.imgVerdict 0x12 0
      else
        let s1 := (s.imgVerdict 0 0).onBind fun b => { b with keys := b.keys.upd (u8 x 0x100) fun k => { k with revoked := true } }
        (s1.record { kind := .authKey, vals := [u8 x 0x100] }).measureFree 5 0

/-- VERIFY_DONE. -/
def execVerifyDone (s : State) : Host.Outcome State Fault Refusal :=
  .next (if !s.live then s else commit s.verify)

/-- ABORT (R486). -/
def State.imgAbortEff (s : State) (master : Nat) : State :=
  s.imgCmd master fun s => s.imgDone 0 fun x => { x with state := .idle, busy := false, blocks := [], data := [], detail := 0 }

/-- ABORT. -/
def execImgAbort (master : Nat) (s : State) : Host.Outcome State Fault Refusal :=
  .next (if !s.live then s else commit (s.imgAbortEff master))

/-- ACTIVATE (R488). -/
def State.imgActivateEff (s : State) (master : Nat) : State :=
  s.imgCmd master fun s =>
    let locked := s.host.tdis.any fun e => e.2.noFwUpdate && (e.2.state == .locked || e.2.state == .run)
    if !(s.img.state == .verified && s.img.typ == 1) then s.imgDone 0x0E id
    else if s.keep.trial then s.imgDone 1 id
    else if locked then s.imgDone 0x0D id
    else (s.imgDone 0 id).onKeep fun k => { k with bootSel := s.img.dest, trial := true, tries := 0 }

/-- ACTIVATE. -/
def execImgActivate (master : Nat) (s : State) : Host.Outcome State Fault Refusal :=
  .next (if !s.live then s else commit (s.imgActivateEff master))

/-- FW_CONFIRM (R483, R491): the trial ends, SVN_FLOOR rises, the area in another format is erased. -/
def State.fwConfirmEff (s : State) (master : Nat) : State :=
  s.imgCmd master fun s =>
    if !(s.keep.trial && s.keep.bootSel == s.start.fwCopy) then s.imgDone 0x11 id
    else
      let f := s.runFormat
      let old := fun (x : Settings) => if x.used && x.format != f then {} else x
      ((s.imgDone 0 id).onKeep fun k => { k with
        trial := false, tries := 0, svnFloor := max k.svnFloor (u16 s.runningBundle 0xA), confirmedFormat := f
        settings0 := old k.settings0, settings1 := old k.settings1 }).record { kind := .image, vals := [u16 s.runningBundle 0xA] }

/-- FW_CONFIRM. -/
def execFwConfirm (master : Nat) (s : State) : Host.Outcome State Fault Refusal :=
  .next (if !s.live then s else commit (s.fwConfirmEff master))

/-- CAL_COMMIT (R308, R402, R491): a verified CAL image is stored, during a trial in both areas; trims take effect at the next boundary,
sets from the first leader after it. -/
def State.calCommitEff (s : State) : State :=
  if !(s.img.state == .verified && s.img.typ == 4 && !s.img.committed) then s
  else
    let p := s.img.bytes.drop 0x100
    let mine := fun (x : Settings) => x.used && (x.format == s.runFormat || s.keep.trial)
    let put := fun (x : Settings) => if mine x then x.store p else x
    let s1 := (s.onKeep fun k => { k with settings0 := put k.settings0, settings1 := put k.settings1 }).onImg fun x =>
      { x with committed := true }
    let s2 := if u8 p 0 = 0 then s1.onCons fun c => { c with trimsNext := some (s1.settings.trims) }
      else s1.onIng fun g => { g with calNext := g.calNext.put (u8 p 1) (calSetOf p) }
    (s2.record { kind := .calib, vals := [u8 p 0, u8 p 1] }).evCons 6

/-- CAL_COMMIT. -/
def execCalCommit (s : State) : Host.Outcome State Fault Refusal :=
  .next (if !s.live then s else commit s.calCommitEff)

end Sys2Proof.Machine
end

