-- ==== Sys2Proof/Machine/RegMap.lean ====
section
/-! DEFINITION. The register maps: which register or read-mailbox value lies at an offset of BAR0 and of a virtual function's BAR
(spec/05 R114 to R121 and the register tables of the other chapters). -/

namespace Sys2Proof.Machine

/-- The values of type MB. `i` counts the 64-bit halves of a wider value. -/
inductive Mb where
  | accession (i : Nat) | tbTime | tbOffset | tickNum | tickStart | lastStretch | encCount | bindId | rebindTick
  | leafHold (k : Nat) | orphans | poisons | lastRemoval | resealLeft (k : Nat)
  | farAcc (p i : Nat) | replays (p : Nat) | retrains (p : Nat) | ringFrames (p : Nat) | admitCount
  | portMac (p : Nat) | rxFrames (p : Nat) | rxDrops (p : Nat) | txRecords (p : Nat) | flowBytes (f : Nat) | flowLost (f : Nat)
  | cntSnap (key : Nat) | dipLast | dipCount | droopCount
  | margin (p : Nat) | projHours | projTime | poweredHours | health (c : Nat)
  | testRuns (u : Nat) | copyDigest (i w : Nat) | copyTick (i : Nat) | stressResult (u : Nat)
  | qBytes (a : Nat) | meBusy (ch : Nat) | aeBusy (ch : Nat) | slotPics (ch k : Nat) | slotConc (ch k : Nat)
deriving DecidableEq, Repr

/-- The registers. A last argument `i` numbers the registers of one group in the order of their table; `mb` is either word of an MB
value. -/
inductive Reg where
  | modId | curBuild | startStatus | resetCause | resetCtrl
  | rmb (i : Nat) | dbPending | dbMask | irqSum | irqEn | bar4Win | regErr | hostStatus | hostEvents | tdiState
  | hsw (w i : Nat) | tbStatus | tbSeconds | tickStatus | tickEvents
  | bindStatus | bindError | bindErrorRec | bindCtrl | leafStatus | leafEvents
  | img (i : Nat) | imgBuf (o : Nat)
  | ksiStatus | slotState (i : Nat) | tenantState | writeEpoch | consent | ksiEvents | vitrineStatus
  | ringStatus | ringCtrl | rport (p i : Nat) | pairStatus | pairEvents
  | port (p i : Nat) | vdlStatus | cnt (key i : Nat)
  | pwrStatus | pwrEvents | pwrCtrl | pwrCap | pwrDomains (ch : Nat)
  | consStatus | consEvents | consCtrl | sensor (i : Nat)
  | safeStatus | safeEvents | safeCtrl | unitState (ch : Nat) | copyState (i : Nat)
  | side (m : Nat) (sideB : Bool) (i : Nat)
  | me (ch i : Nat) | ae (ch i : Nat) | det (ch : Nat) | srv (ch : Nat) | slot (ch k i : Nat)
  | queue (a i : Nat) | spc (ch i : Nat) | loan (ch bank : Nat) | leafPool (ch : Nat)
  | vfId | vfEvents | vfEventsEn
  | mb (m : Mb)
deriving DecidableEq, Repr

/-- Where an offset falls in an array of `n` blocks of `stride` bytes: the block and the offset within it. -/
def blockAt (off base stride n : Nat) : Option (Nat × Nat) :=
  if base ≤ off ∧ off < base + stride * n then some ((off - base) / stride, (off - base) % stride) else none

/-- The register a short table gives for an offset. -/
def regIn (l : List (Nat × Reg)) (off : Nat) : Option Reg := (l.find? fun e => e.1 == off).map (·.2)

/-- The MB value a short table gives for an offset: each occupies two words (log 42). -/
def mbIn (l : List (Nat × Mb)) (off : Nat) : Option Reg := (l.find? fun e => e.1 == off / 8 * 8).map fun e => .mb e.2

/-- The registers of a host spill window (R348). -/
def hswReg (w o : Nat) : Option Reg := regIn [(0, .hsw w 0), (4, .hsw w 1), (8, .hsw w 2), (0x10, .hsw w 3), (0x18, .hsw w 4)] o

/-- The registers of the system block, R116, R114, R128, R117, R120, R344, R359, R52 to R55, R76 to R78, R267, R268, R492, R493. -/
def sysReg (off : Nat) : Option Reg :=
  regIn [(0x0, .modId), (0x4, .curBuild), (0x30, .startStatus), (0x34, .resetCause), (0x40, .resetCtrl),
    (0x800, .rmb 0), (0x804, .rmb 1), (0x808, .rmb 2), (0x80C, .rmb 3), (0x900, .dbPending), (0x904, .dbMask),
    (0x910, .irqSum), (0x914, .irqEn), (0xA00, .bar4Win), (0xC00, .regErr), (0xD00, .hostStatus), (0xD04, .hostEvents),
    (0xD10, .tdiState), (0x4000, .tbStatus), (0x4020, .tbSeconds), (0x4100, .tickStatus), (0x4104, .tickEvents),
    (0x5000, .bindStatus), (0x5004, .bindError), (0x5008, .bindErrorRec), (0x5010, .bindCtrl),
    (0x6000, .leafStatus), (0x6004, .leafEvents), (0x7000, .img 0), (0x7008, .img 1), (0x700C, .img 2), (0x7010, .img 3),
    (0x7014, .img 4), (0x7018, .img 5), (0x701C, .img 6), (0x7020, .img 7)] off
  <|> mbIn [(0x10, .accession 0), (0x18, .accession 1), (0x4008, .tbTime), (0x4010, .tbOffset), (0x4110, .tickNum),
    (0x4118, .tickStart), (0x4120, .lastStretch), (0x4128, .encCount), (0x5020, .bindId), (0x5028, .rebindTick)] off
  <|> ((blockAt off 0xE00 0x20 16).bind fun x => hswReg x.1 x.2)
  <|> ((blockAt off 0x6040 8 9).map fun x => .mb (.leafHold x.1))
  <|> ((blockAt off 0x8000 4 1024).map fun x => .imgBuf (4 * x.1))

/-- The KSI's limited view (R147, R388, R389). -/
def ksiReg (o : Nat) : Option Reg :=
  regIn [(0x0, .ksiStatus), (0x4, .slotState 0), (0x8, .slotState 1), (0xC, .slotState 2), (0x10, .tenantState), (0x14, .writeEpoch),
    (0x18, .consent), (0x20, .ksiEvents), (0x40, .vitrineStatus)] o
  <|> mbIn [(0x80, .orphans), (0x88, .poisons), (0x90, .lastRemoval)] o
  <|> ((blockAt o 0xA0 8 9).map fun x => .mb (.resealLeft x.1))

/-- The ring block with the pair registers (R339, R340, R470, R471). -/
def ringReg (o : Nat) : Option Reg :=
  regIn [(0x0, .ringStatus), (0x10, .ringCtrl), (0x2000, .pairStatus), (0x2004, .pairEvents)] o
  <|> mbIn [(0x2020, .admitCount)] o
  <|> ((blockAt o 0x1000 0x100 2).bind fun x =>
    regIn [(0, .rport x.1 0), (4, .rport x.1 1), (8, .rport x.1 2)] x.2
    <|> mbIn [(0x10, .farAcc x.1 0), (0x18, .farAcc x.1 1), (0x20, .replays x.1), (0x28, .retrains x.1), (0x30, .ringFrames x.1)] x.2)

/-- The ingest block (R319). -/
def ingReg (o : Nat) : Option Reg :=
  regIn [(0xF000, .vdlStatus)] o
  <|> ((blockAt o 0 0x1000 4).bind fun x =>
    regIn [(0, .port x.1 0), (4, .port x.1 1)] x.2
    <|> mbIn [(0x10, .portMac x.1), (0x18, .rxFrames x.1), (0x20, .rxDrops x.1), (0x28, .txRecords x.1)] x.2)
  <|> ((blockAt o 0x8000 16 256).map fun x => .mb (if x.2 < 8 then .flowBytes x.1 else .flowLost x.1))

/-- The registers of one counter (R397). -/
def cntReg1 (key o : Nat) : Option Reg :=
  regIn [(0, .cnt key 0), (4, .cnt key 1), (0x10, .cnt key 2)] o <|> mbIn [(8, .cntSnap key)] o

/-- The counter block: module counters, then the channels' (R397). -/
def cntReg (o : Nat) : Option Reg :=
  ((blockAt o 0 0x20 32).bind fun x => cntReg1 (96 + x.1) x.2)
  <|> ((blockAt o 0x1000 0x20 96).bind fun x => cntReg1 x.1 x.2)

/-- The power, conservator and checking registers (R453, R412, R413, R433, R434). -/
def pwrReg (o : Nat) : Option Reg :=
  regIn [(0x0, .pwrStatus), (0x4, .pwrEvents), (0x10, .pwrCtrl), (0x20, .pwrCap), (0x8000, .consStatus), (0x8004, .consEvents),
    (0x8010, .consCtrl), (0xA000, .safeStatus), (0xA004, .safeEvents), (0xA010, .safeCtrl)] o
  <|> mbIn [(0x200, .dipLast), (0x208, .dipCount), (0x210, .droopCount), (0x8330, .projHours), (0x8338, .projTime),
    (0x8340, .poweredHours)] o
  <|> ((blockAt o 0x100 4 6).map fun x => .pwrDomains x.1)
  <|> ((blockAt o 0x8100 4 89).map fun x => .sensor x.1)
  <|> ((blockAt o 0x8300 8 5).map fun x => .mb (.margin x.1))
  <|> ((blockAt o 0x8400 8 70).map fun x => .mb (.health x.1))
  <|> ((blockAt o 0xA100 4 6).map fun x => .unitState x.1)
  <|> ((blockAt o 0xA200 4 96).map fun x => .copyState x.1)
  <|> ((blockAt o 0xA400 8 54).map fun x => .mb (.testRuns x.1))
  <|> ((blockAt o 0xB000 8 768).map fun x => .mb (.copyDigest (x.1 / 8) (x.1 % 8)))
  <|> ((blockAt o 0xC800 8 96).map fun x => .mb (.copyTick x.1))
  <|> ((blockAt o 0xCC00 8 54).map fun x => .mb (.stressResult x.1))

/-- The registers of a mailbox side: sixteen words without a gap but 0x18 and 0x1C (R123). -/
def sideReg (m : Nat) (sideB : Bool) (o : Nat) : Option Reg :=
  if o < 0x40 && o % 4 == 0 && o != 0x18 && o != 0x1C then some (.side m sideB (o / 4)) else none

/-- The registers of a channel (R189, R238, R300, R211, R279, R164, R143, R142, R268). -/
def chanReg (ch o : Nat) : Option Reg :=
  regIn [(0x0, .me ch 0), (0x10, .me ch 1), (0x80000, .ae ch 0), (0x80010, .ae ch 1), (0x80020, .ae ch 2),
    (0x200100, .det ch), (0x200200, .srv ch), (0x300000, .spc ch 0), (0x300010, .spc ch 1), (0x381000, .leafPool ch)] o
  <|> mbIn [(0x80, .meBusy ch), (0x80080, .aeBusy ch)] o
  <|> ((blockAt o 0x180000 0x40 8).bind fun x =>
    regIn [(0, .slot ch x.1 0), (4, .slot ch x.1 1)] x.2 <|> mbIn [(0x10, .slotPics ch x.1), (0x18, .slotConc ch x.1)] x.2)
  <|> ((blockAt o 0x280000 0x100 16).bind fun x =>
    if x.2 < 0x4C && x.2 % 4 == 0 then some (.queue (16 * ch + x.1) (x.2 / 4)) else mbIn [(0x80, .qBytes (16 * ch + x.1))] x.2)
  <|> ((blockAt o 0x301000 8 48).bind fun x => if x.2 = 0 then some (.loan ch x.1) else none)

/-- The register at an offset of BAR0 (R118). -/
def bar0Reg (off : Nat) : Option Reg :=
  if off % 4 ≠ 0 then none
  else if off < 0x100000 then sysReg off
  else if off < 0x200000 then ksiReg (off - 0x100000)
  else if off < 0x300000 then ringReg (off - 0x200000)
  else if off < 0x400000 then ingReg (off - 0x300000)
  else if off < 0x500000 then cntReg (off - 0x400000)
  else if off < 0x600000 then pwrReg (off - 0x500000)
  else match blockAt off 0x600000 0x80 64 with
    | some x => sideReg (x.1 / 2) (x.1 % 2 == 1) x.2
    | none => (blockAt off 0x1000000 0x400000 6).bind fun x => chanReg x.1 x.2

/-- The side of a mailbox channel that a master owns, A where it owns neither. -/
def State.sideOf (s : State) (master m : Nat) : Bool := match s.mbRec m with
  | some r => r.masterB == master && r.masterA != master
  | none => false

/-- The register at an offset of a virtual function's BAR (R121, R345, R348, R397). -/
def State.vfReg (s : State) (master off : Nat) : Option Reg :=
  if off % 4 ≠ 0 then none
  else regIn [(0x0, .vfId), (0x100, .dbPending), (0x104, .dbMask), (0x108, .vfEvents), (0x10C, .vfEventsEn), (0x800, .rmb 0),
      (0x804, .rmb 1), (0x808, .rmb 2), (0x80C, .rmb 3), (0xC00, .regErr)] off
  <|> ((blockAt off 0x1000 0x100 32).bind fun x => sideReg x.1 (s.sideOf master x.1) x.2)
  <|> ((blockAt off 0x3000 0x20 16).bind fun x => hswReg x.1 x.2)
  <|> if 0x4000 ≤ off && off < 0x10000 then cntReg (off - 0x4000) else none

/-- The register a master's access reaches: a virtual function through its own BAR, every other master through the map of BAR0. -/
def State.regAt (s : State) (master off : Nat) : Option Reg :=
  if (vfOf master).isSome then s.vfReg master off else bar0Reg off

/-- The offset in BAR0 of a protected register; none for any other register (R110). -/
def Reg.wp : Reg → Option Nat
  | .resetCtrl => some 0x40
  | .bar4Win => some 0xA00
  | .hsw w 3 => some (0xE10 + 0x20 * w)
  | .tbSeconds => some 0x4020
  | .bindCtrl => some 0x5010
  | .img 0 => some 0x7000
  | .ringCtrl => some 0x200010
  | .cnt key 2 => some (if 96 ≤ key then 0x400010 + 0x20 * (key - 96) else 0x401010 + 0x20 * key)
  | .pwrCtrl => some 0x500010
  | .consCtrl => some 0x508010
  | .safeCtrl => some 0x50A010
  | .loan ch bank => some (0x1301000 + 0x400000 * ch + 8 * bank)
  | _ => none

/-- Whether the power domain of a register is off (R113, R435): engines, codec and memory controller in their own domains, the
codec's registers in either of its two, the ingest block in ING. -/
def State.regOff (s : State) : Reg → Bool
  | .me ch _ | .mb (.meBusy ch) => !s.domainOn ch 0
  | .ae ch _ | .mb (.aeBusy ch) => !s.domainOn ch 1
  | .det ch | .srv ch => !s.domainOn ch 5
  | .slot ch _ _ | .mb (.slotPics ch _) | .mb (.slotConc ch _) => !s.domainOn ch 3 && !s.domainOn ch 4
  | .leafPool ch => !s.domainOn ch 6
  | .port _ _ | .vdlStatus | .mb (.portMac _) | .mb (.rxFrames _) | .mb (.rxDrops _) | .mb (.txRecords _) | .mb (.flowBytes _)
  | .mb (.flowLost _) => !s.pwr.ing
  | _ => false

/-- Whether a virtual function may not reach a counter (R397). -/
def State.cntForeign (s : State) (master key : Nat) : Bool := match vfOf master with
  | some vf => s.cntOwner key == 0 || s.cntOwner key != s.tenantOfVf vf
  | none => false

/-- Whether an access is refused for its master's identity: a mailbox side, a host window, a tenant's counter (R123, R348, R397). -/
def State.regDenied (s : State) (master : Nat) : Reg → Bool
  | .side m b _ => !s.mbMay master m b
  | .hsw w _ => master != s.winMaster w
  | .cnt key _ | .mb (.cntSnap key) => s.cntForeign master key
  | _ => false

end Sys2Proof.Machine
end

