-- ==== Sys2Proof/Machine/RegRead.lean ====
section
/-! DEFINITION. What registers and MB values read as (the register tables of spec/02 to spec/23). -/

namespace Sys2Proof.Machine

/-- A register from its fields: lowest bit, width, value. Every other bit is reserved and reads 0 (R6). -/
def packed (l : List (Nat × Nat × Nat)) : Nat := (l.map fun f => f.2.2 % 2 ^ f.2.1 * 2 ^ f.1).sum

/-- A Bool as a field. -/
def flag (b : Bool) : Nat := if b then 1 else 0

/-! ### Codes of states -/

/-- LOCK of TB_STATUS (R52). -/
def Lock.code : Lock → Nat
  | .free => 0
  | .acquiring => 1
  | .locked => 2
  | .holdover => 3

/-- ROLE of TICK_STATUS (R53). -/
def TickRole.code : TickRole → Nat
  | .standalone => 0
  | .leader => 1
  | .follower => 2

/-- COLD_STATE (R76). -/
def ColdState.code : ColdState → Nat
  | .unbound => 0
  | .validating => 1
  | .bound => 2

/-- REBIND_STATE (R76). -/
def RebindState.code : RebindState → Nat
  | .idle => 0
  | .validating => 1
  | .staged => 2
  | .rejected => 3
  | .applied => 4

/-- SPC_MODE (R133, R143). -/
def SpcMode.code : SpcMode → Nat
  | .normal => 0
  | .start => 1
  | .test => 2
  | .recovery => 3

/-- Q_STATUS STATE (R164). -/
def QState.code : QState → Nat
  | .idle => 0
  | .active => 1
  | .paced => 2
  | .halted => 3

/-- SLOT_STATUS STATE (R300). -/
def CodecState.code : CodecState → Nat
  | .closed => 0
  | .waitRap => 1
  | .running => 2
  | .suspended => 3

/-- LIFECYCLE (R386). -/
def LifeCycle.code : LifeCycle → Nat
  | .blank => 0
  | .provisioned => 1
  | .field => 2
  | .returned => 3
  | .scrapped => 4

/-- UNIT_STATE: BENCHED and held is 6 (R433). -/
def UnitRun.code (x : UnitRun) : Nat :=
  match x.state with
  | .healthy => 0
  | .suspect => 1
  | .benched => if x.held then 6 else 2
  | .cleared => 3

/-- COPY_STATE (R433). -/
def CopyHealth.code : CopyHealth → Nat
  | .ok => 0
  | .suspect => 1
  | .reloading => 2
  | .reloaded => 3

/-- A health state (R412, R413). -/
def HealthState.code : HealthState → Nat
  | .ok => 0
  | .watch => 1
  | .replace => 2

/-- The role of a pair's member (R470). -/
def PairRole.code : PairRole → Nat
  | .standby => 0
  | .claiming => 1
  | .active => 2

/-- STAGE (R492). -/
def Stage.code : Stage → Nat
  | .rom => 0
  | .images => 1
  | .training => 2
  | .binding => 3
  | .ringWait => 4
  | .running => 5
  | .unbound => 6
  | .recovery => 7

/-- IMG_STATUS STATE (R493). -/
def ImgState.code : ImgState → Nat
  | .idle => 0
  | .erasing => 1
  | .opened => 2
  | .verifying => 3
  | .verified => 4
  | .failed => 5

/-! ### Words that several registers or tray responses share -/

/-- IMG_STATUS (R493). -/
def Image.status (x : Image) : Nat := packed [(0, 3, x.state.code), (3, 1, flag x.busy), (8, 8, x.result), (16, 8, x.owner)]

/-- The image registers (R493); commands read 0. -/
def Image.reg (x : Image) : Nat → Nat
  | 1 => x.length.toNat
  | 2 => x.offset.toNat
  | 3 => x.blkLen.toNat
  | 4 => x.crc.toNat
  | 5 => x.status
  | 6 => x.blocks.length
  | 7 => x.detail % 65536
  | _ => 0

/-- BIND_STATUS (R76). -/
def State.bindStatus (s : State) : Nat :=
  packed [(0, 3, s.bind.cold.code), (3, 1, flag s.bind.activeSlot), (4, 1, flag s.bind.fallback), (5, 1, flag s.bind.confirmed),
    (8, 3, s.bind.rebind.code)]

/-- TICK_STATUS (R53). -/
def State.tickStatus (s : State) : Nat :=
  packed [(0, 3, s.b.plan.common.source), (3, 2, s.tick.role.code), (5, 1, flag s.tick.running), (6, 1, flag s.boundaryHeld),
    (7, 1, flag s.tick.filler), (8, 3, s.pwr.profile), (11, 3, s.memberIdx), (16, 16, s.planGen)]

/-- PAIR_STATUS (R470): the fitness and the lines count only with a PAIR gathering. -/
def State.pairStatus (s : State) : Nat :=
  packed [(0, 1, flag s.paired), (1, 1, flag s.ringB), (2, 2, s.pair.role.code),
    (4, 2, if !s.paired then 0 else if s.unfit then 2 else if s.ringFit then 0 else 1),
    (6, 1, flag (s.isMember && s.pair.admission == .admitted)), (7, 1, flag s.pair.ownBus), (8, 1, flag s.pair.peer),
    (9, 1, flag (s.paired && s.mayDrive)), (10, 6, s.pair.absent.toNat), (16, 6, s.pair.suspect.toNat), (22, 4, s.pair.cause.toNat)]

/-- PWR_STATUS (R453). -/
def State.pwrStatus (s : State) : Nat :=
  packed [(0, 3, s.pwr.profile), (3, 3, s.thermal), (6, 1, flag s.pwr.capFail), (7, 1, flag s.pwr.safe), (8, 1, flag s.pwr.fast),
    (9, 1, flag s.pwr.throttle), (10, 1, flag s.pwr.pcapPin), (11, 1, flag s.pwr.flowLow), (12, 6, s.pwr.shed.toNat)]

/-- The publication numbers of the live snapshots of a channel's activities (R224). -/
def State.livePubs (s : State) (ch : Nat) : List Nat := (s.acts.filter fun a => a.1 / 16 == ch).filterMap fun a => match a.2.run with
  | some r => match r.snap with
    | some x => if x.cache then some x.pub else none
    | none => none
  | none => none

/-- AE_SNAP: the least publication number, and whether a snapshot is live (R238). -/
def State.aeSnap (s : State) (ch : Nat) : Nat := match s.livePubs ch with
  | [] => 0
  | p :: r => packed [(0, 16, r.foldl min p), (16, 1, 1)]

/-- ME_STATUS and AE_STATUS (R189, R238). -/
def EngineRegs.status (x : EngineRegs) : Nat :=
  packed [(0, 1, flag x.busy), (1, 1, flag x.saved), (2, 1, flag x.waiting), (8, 7, x.activity), (16, 8, x.code)]

/-- The registers of a mailbox side; MB_STAT too, whose read also clears it (R123). -/
def State.sideWord (s : State) (m : Nat) (sideB : Bool) (i : Nat) : Nat :=
  let x := s.mbSide m sideB
  let g := x.queue.headD {}
  match i with
  | 0 => x.tx0.toNat
  | 1 => x.tx1.toNat
  | 2 => x.tx2.toNat
  | 3 => x.tx3.toNat
  | 4 => x.txSend.toNat
  | 5 => match s.mbRec m with
    | some r => (s.genOf (r.owner (!sideB))).toNat
    | none => 1
  | 8 => g.hdr.toNat
  | 9 => (g.pay.getD 0 0).toNat
  | 10 => (g.pay.getD 1 0).toNat
  | 11 => (g.pay.getD 2 0).toNat
  | 12 => (g.pay.getD 3 0).toNat
  | 13 => x.rxPop.toNat
  | 14 => packed [(0, 4, x.words), (4, 1, flag x.notice)]
  | 15 => x.stat
  | _ => 0

/-- The registers of a queue (R164). -/
def State.queueWord (s : State) (a i : Nat) : Nat :=
  let q := s.dma.queues.get a
  let p := q.regs
  let r := s.b.dq a
  match i with
  | 0 => p.src.toNat % 2 ^ 32
  | 1 => p.src.toNat / 2 ^ 32
  | 2 => p.dst.toNat % 2 ^ 32
  | 3 => p.dst.toNat / 2 ^ 32
  | 4 => p.count % 2 ^ 25
  | 5 => packed [(0, 3, p.srcW), (4, 3, p.dstW), (8, 1, flag p.pace)]
  | 6 => packed [(0, 16, p.n0), (16, 16, p.n1)]
  | 7 => p.n2 % 65536
  | 8 => p.step0.toNat
  | 9 => p.step1.toNat
  | 10 => p.step2.toNat
  | 11 => p.step3.toNat
  | 12 => p.step4.toNat
  | 13 => p.step5.toNat
  | 14 => q.chainHead.toNat
  | 15 => packed [(0, 16, r.paceHigh), (16, 16, r.paceLow)]
  | 17 => packed [(0, 2, q.state.code), (2, 1, r.mode), (8, 8, q.code), (16, 8, r.paceFifo)]
  | 18 => q.events.toNat
  | _ => 0

/-- A host spill window's registers (R348). -/
def State.winWord (s : State) (w i : Nat) : Nat :=
  let x := s.host.wins.get w
  match i with
  | 0 => x.base.toNat * 4096 % 2 ^ 32
  | 1 => x.base.toNat / 2 ^ 20
  | 2 => x.slots.toNat
  | 3 => flag x.enabled
  | _ => packed [(0, 1, flag x.enabled), (1, 1, flag x.fault), (4, 4, s.winOwner w)]

/-- A counter's registers (R397). -/
def State.cntWord (s : State) (key i : Nat) : Nat :=
  match i with
  | 0 => match s.cntrRec key with
    | some r => packed [(0, 8, r.event), (8, 8, r.scope), (16, 2, r.mode), (18, 1, 1), (24, 8, r.owner)]
    | none => 0
  | 1 => packed [(0, 1, flag (s.cnt.get key).ovf), (1, 1, flag (s.cntGated key))]
  | _ => 0

/-- An ingest port's status (R319). -/
def State.portStatus (s : State) (p : Nat) : Nat :=
  packed [(0, 2, (s.portCfg p).mode), (2, 1, flag (s.ing.ports.get p).linkUp),
    (3, 1, flag (s.bound && s.b.netw.glob.discSrc == 1 && s.b.netw.glob.ptpPort == p)),
    (8, 8, (s.b.netw.flows.filter fun f => f.port == p).length)]

/-- A codec slot's status (R300). -/
def State.slotStatus (s : State) (ch k : Nat) : Nat :=
  let x := s.codec.get (8 * ch + k)
  let r := (s.codcRec ch k).getD {}
  packed [(0, 3, x.state.code), (3, 1, r.flags), (4, 1, r.direction), (8, 4, x.waiting.length), (16, 5, x.pool)]

/-- What a register reads as, its side effects apart (R5, R6). -/
def State.regVal (s : State) (master : Nat) : Reg → Nat
  | .modId => 0x06A1
  | .curBuild => packed [(0, 24, s.keep.build.toNat), (24, 8, s.keep.line.toNat)]
  | .startStatus => packed [(0, 4, s.start.stage.code), (4, 1, flag s.start.fwCopy), (5, 1, flag s.keep.trial),
      (6, 1, flag s.start.fwFallback), (8, 8, s.keep.tries), (16, 6, s.keep.svnFloor)]
  | .resetCause => packed [(0, 4, s.keep.cause), (16, 16, s.keep.later)]
  | .rmb 0 => (s.bus.rmb.get master).addr.toNat
  | .rmb 1 =>
    let x := s.bus.rmb.get master
    packed [(0, 1, flag x.valid), (1, 1, flag x.busy), (2, 2, x.err.toNat)]
  | .rmb 2 => (s.bus.rmb.get master).data.toNat % 2 ^ 32
  | .rmb _ => (s.bus.rmb.get master).data.toNat / 2 ^ 32
  | .dbPending => (s.mbx.bells.get (if (vfOf master).isSome then master else idHostPf)).pending.toNat
  | .dbMask => (s.mbx.bells.get (if (vfOf master).isSome then master else idHostPf)).mask.toNat
  | .irqSum => s.irqSum.toNat
  | .irqEn => s.host.irqEn.toNat
  | .bar4Win => packed [(0, 3, s.bus.bar4Channel.toNat), (3, 1, flag s.bus.bar4Enable), (4, 14, s.bus.bar4Base.toNat)]
  | .regErr => (s.bus.regErr.get master).toNat
  | .hostStatus => packed ([(0, 1, flag s.host.linkUp), (1, 3, s.host.speed), (4, 4, s.host.width), (8, 4, s.host.numVfs),
      (12, 1, flag (s.host.streams.get 0).secure)] ++ (List.range 8).map fun k => (13 + k, 1, flag (s.host.streams.get (k + 1)).secure))
  | .hostEvents => s.host.events.toNat
  | .tdiState => packed ((List.range 8).map fun k => (4 * k, 4, (s.host.tdis.get (k + 1)).state.code))
  | .hsw w i => s.winWord w i
  | .tbStatus => packed [(0, 3, s.tb.discSrc), (3, 1, flag s.tb.ref10Ok), (4, 2, s.tb.lock.code), (6, 1, flag s.tb.stepNeeded)]
  | .tbSeconds => s.tb.seconds.toNat
  | .tickStatus => s.tickStatus
  | .tickEvents => s.tick.events.toNat
  | .bindStatus => s.bindStatus
  | .bindError => packed [(0, 16, s.bind.errCode), (16, 6, s.bind.errEntry), (22, 1, flag s.bind.errRebind)]
  | .bindErrorRec => s.bind.errRec.toNat
  | .leafStatus => packed [(0, 16, s.leaf.pubCount), (16, 1, flag !s.b.leaf.isEmpty),
      (17, 3, match s.b.leaf.find? fun l => l.kind == 0 with
        | some l => ((s.b.region l.mapRegion).getD {}).channel
        | none => 0),
      (20, 12, min 4095 s.leaf.shadow.length)]
  | .leafEvents => s.leaf.events.toNat
  | .img i => s.img.reg i
  | .imgBuf o => leField (rdBytes s.img.buf o 4) 0 4
  | .ksiStatus => packed [(0, 3, s.ksi.lifecycle.code), (8, 8, s.ksi.lcCount)]
  | .slotState i => packed ((List.range (if i = 2 then 8 else 16)).map fun k => (2 * k, 2, (s.ksi.slots.get (16 * i + k)).state.code))
  | .tenantState => packed ((List.range 8).map fun k => (4 * k, 4, (s.ksi.tenants.get (k + 1)).state.code))
  | .writeEpoch => packed ((List.range 8).map fun k => (k + 1, 1, flag (s.ksi.tenants.get (k + 1)).writeEpoch))
  | .consent => packed ((List.range 8).map (fun k => (k, 1, flag (s.ksi.tenants.get (k + 1)).debugging.inForce))
      ++ (List.range 8).map fun k => (k + 8, 1, flag (s.ksi.tenants.get (k + 1)).counters.inForce))
  | .ksiEvents => s.ksi.events.toNat
  | .vitrineStatus =>
    let v := s.ksi.vitrine
    packed [(0, 16, v.wipes), (16, 4, v.lastCause), (20, 4, v.lastArea), (24, 1, flag v.wiping)]
  | .ringStatus => packed [(0, 3, s.memberIdx), (3, 1, flag !s.b.netw.members.isEmpty), (4, 1, flag s.ring.bypassOpen),
      (5, 6, if s.tick.role == .leader then s.ring.absent.toNat else 0), (11, 6, s.reach.toNat)]
  | .ringCtrl => flag s.ring.forceBypass
  | .rport p 0 =>
    let x := s.rport p
    packed [(0, 3, x.state.code), (3, 1, flag x.narrow), (4, 2, x.skip), (6, 3, x.farMember), (9, 1, x.farRing), (10, 1, x.farPort)]
  | .rport p 1 => (s.rport p).events.toNat
  | .rport p _ => (s.rport p).delay.toNat
  | .pairStatus => s.pairStatus
  | .pairEvents => s.pair.events.toNat
  | .port p 0 => s.portStatus p
  | .port p _ => (s.ing.ports.get p).events.toNat
  | .vdlStatus => packed [(0, 8, s.ing.vdl.lines.toNat), (8, 1, flag s.ing.vdl.valid), (9, 1, flag s.mayDrive)]
  | .cnt key i => s.cntWord key i
  | .pwrStatus => s.pwrStatus
  | .pwrEvents => s.pwr.events.toNat
  | .pwrCtrl => s.pwr.reqProfile % 8
  | .pwrCap => packed [(0, 16, s.pwr.cap), (16, 16, s.pwr.fastTarget)]
  | .pwrDomains ch => s.pwr.domains.get ch % 256
  | .consStatus => packed [(0, 1, flag s.cons.replanBusy), (1, 3, s.cons.ceiling), (4, 2, s.moduleHealth),
      (6, 1, flag (s.cons.projHours != 0xFFFFFFFF))]
  | .consEvents => s.cons.events.toNat
  | .sensor i =>
    let x := s.sensor i
    packed [(0, 16, unsignedOf 16 x.value), (16, 1, flag x.valid), (17, 1, flag x.fault), (18, 1, flag (s.cons.trims.get i != {}))]
  | .safeStatus => packed [(0, 2, s.b.safe.checkLevel), (2, 1, flag s.chk.maintenance), (3, 1, flag s.chk.testing), (4, 6, s.chk.unit)]
  | .safeEvents => s.chk.events.toNat
  | .unitState ch => packed ((List.range 9).map fun k => (3 * k, 3, (s.chk.units.get (9 * ch + k)).code))
  | .copyState i => packed [(0, 2, (s.copy i).state.code), (2, 1, flag (s.copy i).alone), (16, 16, ((s.copyRec i).getD {}).group)]
  | .side m b i => s.sideWord m b i
  | .me ch 0 => (s.engs.get ch).me.status
  | .me ch _ => (s.engs.get ch).me.events.toNat
  | .ae ch 0 => (s.engs.get ch).ae.status
  | .ae ch 1 => (s.engs.get ch).ae.events.toNat
  | .ae ch _ => s.aeSnap ch
  | .det ch => (s.engs.get ch).detEvents.toNat
  | .srv ch => (s.engs.get ch).srvEvents.toNat
  | .slot ch k 0 => s.slotStatus ch k
  | .slot ch k _ => (s.codec.get (8 * ch + k)).events.toNat
  | .queue a i => s.queueWord a i
  | .spc ch 0 => packed [(0, 2, (s.spcMode ch).code), (2, 1, flag (s.spad.chan.get ch).sphOn)]
  | .spc ch _ => (s.spad.chan.get ch).events.toNat
  | .loan ch bank =>
    let l := s.loanOf ch bank
    packed [(0, 4, l.owner.toNat), (4, 1, flag l.owned), (5, 1, flag l.zero), (6, 1, flag l.busy), (7, 1, flag (s.bankOff ch bank)),
      (8, 4, l.tenant.toNat), (16, 16, l.share.toNat)]
  | .leafPool ch => packed [(0, 22, s.leaf.freeLatch.get ch), (22, 7, s.leaf.occLatch.get ch), (29, 1, flag (s.leaf.spilling.getLsbD ch))]
  | .vfId => match vfOf master with
    | some k => packed [(0, 4, k), (4, 4, s.tenantOfVf k)]
    | none => 0
  | .vfEvents => (s.host.funcs.get (master - idHostPf)).events.toNat
  | .vfEventsEn => (s.host.funcs.get (master - idHostPf)).eventsEn.toNat
  | .resetCtrl => 0
  | .bindCtrl => 0
  | .consCtrl => 0
  | .safeCtrl => 0
  | .mb _ => 0

/-! ### MB values -/

/-- A value latched at the boundary: 0 before the first one after a cold bind (R115). -/
def State.latched (s : State) (v : Nat) : Nat := if s.tick.latch.taken then v else 0

/-- PROJ_TIME: where the time base is LOCKED to PTP or PPS and a projection stands (R409). -/
def State.projTime (s : State) : Nat :=
  if s.cons.projHours != 0xFFFFFFFF && s.tb.lock == .locked && (s.tb.discSrc == 1 || s.tb.discSrc == 2)
  then s.tb.time + s.cons.projHours.toNat * 3600000000000 else 0

/-- An MB value as the read mailbox returns it, sign-extended where it is signed (R115 and the MB tables). -/
def State.mbVal (s : State) : Mb → Nat
  | .accession i => leField s.keep.accession (8 * i) 8
  | .tbTime => s.tb.time
  | .tbOffset => s.latched (unsignedOf 64 s.tick.latch.offset)
  | .tickNum => s.latched s.tick.latch.num
  | .tickStart => s.latched s.tick.latch.start
  | .lastStretch => s.latched (s.tick.latch.stretch % 2 ^ 32)
  | .encCount => s.latched s.tick.latch.encCount.toNat
  | .bindId => s.bind.bindingId.toNat
  | .rebindTick => s.bind.rebindTick
  | .leafHold k => s.latched (s.leaf.holdLatch.get k)
  | .orphans => s.ksi.orphans.toNat
  | .poisons => s.ksi.poisons.toNat
  | .lastRemoval => s.ksi.lastRemoval
  | .resealLeft k => s.latched (s.ksi.tenants.get k).resealLatch
  | .farAcc p i => leField (s.rport p).farAcc (8 * i) 8
  | .replays p => (s.rport p).replays.toNat
  | .retrains p => (s.rport p).retrains.toNat
  | .ringFrames p => s.latched (s.rport p).framesLatch.toNat
  | .admitCount => s.latched s.pair.admitCountLatch
  | .portMac p => leField (toBe 6 (s.portMac p).toNat) 0 6
  | .rxFrames p => s.latched (s.ing.ports.get p).rxFramesLatch.toNat
  | .rxDrops p => (s.ing.ports.get p).rxDrops.toNat
  | .txRecords p => (s.ing.ports.get p).txRecords.toNat
  | .flowBytes f => s.latched (s.ing.flows.get f).bytesLatch.toNat
  | .flowLost f => s.latched (s.ing.flows.get f).lostLatch.toNat
  | .cntSnap key => s.latched (s.cntSnap key).toNat
  | .dipLast => s.pwr.dipLast.toNat
  | .dipCount => s.pwr.dipCount.toNat
  | .droopCount => s.pwr.droopCount.toNat
  | .margin p => packed [(0, 24, unsignedOf 24 (s.cons.margins.get p)), (24, 8, s.cons.marginDoms.get p)]
  | .projHours => s.cons.projHours.toNat
  | .projTime => s.projTime
  | .poweredHours => s.poweredHours
  | .health c => packed [(0, 10, (s.cons.health.get c).score), (10, 2, (s.cons.health.get c).state.code)]
  | .testRuns u => packed [(0, 32, (s.chk.units.get u).clean), (32, 16, (s.chk.units.get u).failed)]
  | .copyDigest i w => leField (s.copy i).digest (8 * w) 8
  | .copyTick i => (s.copy i).digestTick
  | .stressResult u => (s.chk.units.get u).stress.toNat
  | .qBytes a => s.latched (s.dma.queues.get a).bytesLatch.toNat
  | .meBusy ch => s.latched (s.engs.get ch).me.busyLatch.toNat
  | .aeBusy ch => s.latched (s.engs.get ch).ae.busyLatch.toNat
  | .slotPics ch k => s.latched (s.codec.get (8 * ch + k)).picsLatch.toNat
  | .slotConc ch k => (s.codec.get (8 * ch + k)).conc.toNat

/-- Whether a master is refused an MB value through its read mailbox (R396, R397). -/
def State.mbDenied (s : State) (master : Nat) : Mb → Bool
  | .cntSnap key => s.cntDenied master key || s.cntForeign master key
  | _ => false

/-- A direct read, and the state it leaves: reading MB_STAT clears its counts, reading BIND_STATUS clears the BIND summary (R5,
R123, R344). Refused reads return 0 (R108, R113, R119). -/
def State.read4 (s : State) (master off : Nat) : Nat × State :=
  match s.regAt master off with
  | none => if off % 8 = 4 && ((s.regAt master (off - 4)).bind Reg.wp).isSome then (0, s) else (0, s.regErr master 0)
  | some r =>
    if s.regOff r then (0, s.regErr master 4)
    else if s.regDenied master r then (0, s.regErr master 6)
    else
      let s1 := match r with
        | .side m b 15 => s.onSide m b fun x => { x with fullDrops := 0, staleDrops := 0 }
        | .bindStatus => s.onHost fun h => { h with bindIrq := false }
        | _ => s
      (s.regVal master r, s1)

end Sys2Proof.Machine
end

