-- ==== Sys2Proof/Machine/Start.lean ====
section
/-! DEFINITION. Resets, the start and recovery (spec/23 R472 to R484, R498). -/

namespace Sys2Proof.Machine

/-! ### Resets (R472, R473) -/

/-- POWER_ON: after a loss of 48 V a power-on reset, whose cause the AON latch takes if it holds none; after INPUT_LOW the end of what that
hold waits for (R472, R473, log 41). -/
def State.powerOnEff (s : State) : State :=
  let s1 := s.onKeep fun k => { k with copyA := { k.copyA with rejected := false }, copyB := { k.copyB with rejected := false } }
  if !s.start.p48 then
    let s2 := (if s.start.aux then s1 else s1.onStart fun x => { x with hold := false }).resetModule 0
    s2.onStart fun x => { x with p48 := true, hold := true, waitInput := false, tripFreed := true }
  else if s.start.waitInput then s.onStart fun x => { x with waitInput := false }
  else s

/-- POWER_ON. -/
def execPowerOn (s : State) : Host.Outcome State Fault Refusal := .next (commit s.powerOnEff)

/-- MOD_RESET_N: its assertion resets the module and frees a thermal trip's hold; the hold lasts while it is asserted (R451, R473). -/
def State.modReset (s : State) (asserted : Bool) : State :=
  let s1 := s.onStart fun x => { x with rstPin := asserted }
  if asserted && !s.start.rstPin && s.start.p48 then (s1.resetModule 1).onStart fun x => { x with tripFreed := true } else s1

/-- MOD_RESET_N. -/
def execModResetN (asserted : Bool) (s : State) : Host.Outcome State Fault Refusal := .next (commit (s.modReset asserted))

/-- RESET_CTRL by HOST_PF or TRAY_SMB: another master is refused (R492). -/
def State.resetCmd (s : State) (master : Nat) (f : State → State) : State :=
  if master == idHostPf || master == idTray then f s else s.regErr master 6

/-- MODULE_RESET. -/
def State.softReset (s : State) (master : Nat) : State := s.resetCmd master fun s => s.resetModule 2

/-- MODULE_RESET. -/
def execModuleReset (master : Nat) (s : State) : Host.Outcome State Fault Refusal :=
  .next (if !s.live then s else commit (s.softReset master))

/-- RECOVERY_RESET: the next start enters recovery (R484). -/
def State.recoveryResetEff (s : State) (master : Nat) : State :=
  s.resetCmd master fun s => (s.onStart fun x => { x with recoverNext := true }).resetModule 12

/-- RECOVERY_RESET. -/
def execRecoveryReset (master : Nat) (s : State) : Host.Outcome State Fault Refusal :=
  .next (if !s.live then s else commit (s.recoveryResetEff master))

/-- WATCHDOG: the curator, which runs outside the ROM and recovery, did not service its watchdog for 2 s. -/
def execWatchdog (s : State) : Host.Outcome State Fault Refusal :=
  .next (if !s.live || s.start.stage == .rom || s.recovery then s else commit (s.resetModule 3))

/-- AUX_12V_PRESENCE: without 48 V its loss clears what the AON domain holds (R472, R498). -/
def State.auxPresence (s : State) (present : Bool) : State :=
  let s1 := s.onStart fun x => { x with aux := present }
  if present || s.start.p48 then s1
  else (s1.onKeep fun k => { k with cause := 0, later := 0 }).onHost fun h => { h with eid := 0 }

/-- AUX_12V_PRESENCE. -/
def execAux12vPresence (present : Bool) (s : State) : Host.Outcome State Fault Refusal := .next (commit (s.auxPresence present))

/-! ### The ROM (R475, R481, R482, R484) -/

/-- Whether a reset is over: the pin is released, the input is back, and after a thermal trip MOD_RESET_N or a power cycle has come and
every die site reads below T_TRIP less 20 degrees (R451, R473). -/
def State.holdOver (s : State) : Bool :=
  s.start.p48 && (s.start.hold || s.start.stage == .rom) && !s.start.rstPin && !s.start.waitInput
    && (!s.start.tripHold || (s.start.tripFreed && (List.range 30).all fun i =>
      decide ((s.sensor i).factory < 65536 * ((s.keep.tTrip : Int) - 200))))

/-- The boot record selects a copy, without trial. -/
def Persist.select (k : Persist) (copy : Bool) : Persist := { k with bootSel := copy, trial := false, tries := 0 }

/-- A start in trial: TRIES goes up; the start that would make it 4 returns to the copy that ran before ACTIVATE (R482). -/
def State.trialStep (s : State) : State :=
  if !s.keep.trial then s
  else if s.keep.tries + 1 < 4 then s.onKeep fun k => { k with tries := k.tries + 1 }
  else ((s.onKeep fun k => k.select (!k.bootSel)).onStart fun x => { x with fwFallback := true }).record { kind := .fallback, vals := [4] }

/-- A copy's record. -/
def Persist.copy (k : Persist) (b : Bool) : FwCopy := if b then k.copyB else k.copyA

/-- A copy was rejected in this power cycle. -/
def Persist.reject (k : Persist) (b : Bool) : Persist :=
  if b then { k with copyB := { k.copyB with rejected := true } } else { k with copyA := { k.copyA with rejected := true } }

/-- The copy that starts: the selected one, else the other with FW_FALLBACK, else none (R481). `bad` says that the stored curator of the
selected copy does not match its digest. -/
def State.romChoose (s : State) (bad : Bool) : Option (Bool × State) :=
  let sel := s.keep.bootSel
  if s.copyAccepted (s.keep.copy sel) && !bad then some (sel, s)
  else
    let s1 := s.onKeep fun k => k.reject sel
    if s1.copyAccepted (s1.keep.copy (!sel)) then
      some (!sel, (s1.onKeep fun k => k.select (!sel)).onStart fun x => { x with fwFallback := true })
    else none

/-- Recovery: the ROM runs without the curator (R133, R484). -/
def State.enterRecovery (s : State) : State :=
  (s.onStart fun x => { x with stage := .recovery, recoverNext := false }).onSpad fun p => { p with
    chan := p.chan.updAll (List.range 6) fun _ c => { c with mode := .recovery } }

/-- A component other than the curator does not match its digest: the other copy is selected, or recovery follows where it was rejected
already (R481). -/
def State.copyFault (s : State) (copy : Bool) : State :=
  let s1 := s.onKeep fun k => k.reject copy
  let s2 := if (s.keep.copy (!copy)).rejected then s1.onStart fun x => { x with recoverNext := true }
    else s1.onKeep fun k => k.select (!copy)
  s2.resetModule 11

/-- The settings areas as a start leaves them: where none holds the running format, the records are converted into the free area (R491). -/
def State.convertSettings (s : State) : State :=
  let f := s.runFormat
  let a := s.keep.settings0
  let b := s.keep.settings1
  if (a.used && a.format == f) || (b.used && b.format == f) then s
  else if !a.used then s.onKeep fun k => { k with
    settings0 := { used := true, format := f, trims := b.trims, cal := b.cal }, confirmedFormat := if b.used then k.confirmedFormat else f }
  else s.onKeep fun k => { k with settings1 := { used := true, format := f, trims := a.trims, cal := a.cal } }

/-- What a start writes to the accession record of what happened before it: a thermal trip, and a dip below 37.0 V (R447, R451). The
duration of that dip is free: nothing measured it. -/
def State.startLog (s : State) : State :=
  let s1 := if s.start.tripHold then s.record { kind := .trip, vals := [s.keep.cause] } else s
  if s.keep.dipMin = 0 then s1
  else
    let us := u32 (s1.freeBytes 4) 0
    (((s1.record { kind := .dipLog, vals := [s.keep.dipMin, us] }).tookFree 4).onPwr fun p => { p with
      dipLast := BitVec.ofNat 64 (s.keep.dipMin % 2 ^ 16 + 2 ^ 16 * us) }).onKeep fun k => { k with dipMin := 0 }

/-- The start from the images on: measurements, settings, the cold bind, its entry, and a trial that failed (R384, R475, R482). -/
def State.startUp (s : State) (copy : Bool) (bad : Bool) : State :=
  let s1 := (s.onStart fun x => { x with fwCopy := copy, stage := .images })
  let x := s1.runningBundle
  let s2 := ((s1.measureFree 1 0).measureFree 2 0).onKeep fun k => { k with
    build := BitVec.ofNat 24 (u32 x 0x10), line := BitVec.ofNat 8 (u8 x 0x13) }
  if bad || !((List.range 5).all fun i => componentOk x (i + 1)) then s2.copyFault copy
  else
    let s3 := (List.range 5).foldl (fun (s : State) i => s.measure 3 0 (componentDigest x (i + 1))) s2
    let s4 := s3.convertSettings
    let s5 := (s4.onCons fun c => { c with trims := s4.settings.trims }).coldBind
    let s6 := s5.record { kind := .reset, vals :=
      [s5.keep.cause, s5.keep.later, if copy then 1 else 0, if s5.keep.trial then 1 else 0, s5.keep.tries, s5.bind.slotErr, s5.bind.otherErr] }
    let lastOther := if copy then s6.keep.lastBoundA else s6.keep.lastBoundB
    let s7 := s6.onKeep fun k => if copy then { k with lastBoundB := s6.bound } else { k with lastBoundA := s6.bound }
    if !s7.bound && s7.keep.trial && lastOther then s7.resetModule 10 else s7

/-- MODULE_START: the hold of the reset is over, and the start runs to the end of its cold bind (R475). `corrupt` names the components
of the selected copy whose stored bytes do not match their digests. -/
def State.startEff (s : State) (slotId : Nat) (ringSel priN : Bool) (corrupt : Nat) : State :=
  if !s.holdOver then s
  else
    let s1 := ((s.startLog.wipeVitrine 3 0).onStart fun x => { x with
      stage := .rom, hold := false, tripHold := false, tripFreed := false, slotId := slotId, ringSel := ringSel, priN := priN })
    if s.start.recoverNext then s1.enterRecovery
    else
      let s2 := s1.trialStep
      match s2.romChoose (corrupt.testBit 0) with
      | none => s2.enterRecovery
      | some (copy, s3) => s3.startUp copy (copy == s2.keep.bootSel && corrupt / 2 % 32 != 0)

/-- MODULE_START. -/
def execModuleStart (slotId : Nat) (ringSel priN : Bool) (corrupt : Nat) (s : State) : Host.Outcome State Fault Refusal :=
  .next (commit (s.startEff slotId ringSel priN corrupt))

end Sys2Proof.Machine
end

