-- ==== Sys2Proof/Machine/Regs.lean ====
section
/-! DEFINITION. Register accesses: type codes, protected writes, the read mailbox (spec/00 R5, spec/05 R106 to R117), and the
commands that make them. -/

namespace Sys2Proof.Machine

/-! ### Writes of the plain type codes (R5) -/

/-- A W1C field: bits written 1 are cleared. -/
def w1c {w : Nat} (old : BitVec w) (v : Word) : BitVec w := old &&& ~~~ v.setWidth w

/-- A write to a queue's transfer registers (R164). -/
def Prog.write (p : Prog) (i : Nat) (v : Word) : Prog :=
  let n := v.toNat
  match i with
  | 0 => { p with src := p.src >>> 32 <<< 32 ||| v.setWidth 64 }
  | 1 => { p with src := (p.src.setWidth 32).setWidth 64 ||| v.setWidth 64 <<< 32 }
  | 2 => { p with dst := p.dst >>> 32 <<< 32 ||| v.setWidth 64 }
  | 3 => { p with dst := (p.dst.setWidth 32).setWidth 64 ||| v.setWidth 64 <<< 32 }
  | 4 => { p with count := n % 2 ^ 25 }
  | 5 => { p with srcW := n % 8, dstW := n / 16 % 8, pace := v.getLsbD 8 }
  | 6 => { p with n0 := n % 65536, n1 := n / 65536 }
  | 7 => { p with n2 := n % 65536 }
  | 8 => { p with step0 := v }
  | 9 => { p with step1 := v }
  | 10 => { p with step2 := v }
  | 11 => { p with step3 := v }
  | 12 => { p with step4 := v }
  | 13 => { p with step5 := v }
  | _ => p

/-- A write to a queue's registers by a master: only the driver's is performed; the transfer registers and CHAIN_HEAD are closed
while the queue is ACTIVE or PACED; GO is taken before ABORT (R148, R164, log 42). -/
def State.queueWrite (s : State) (master a i : Nat) (v : Word) : State :=
  let busy := (s.queue a).busy
  let closed := s.count 0x44 (some (a / 16)) (some a) 1
  if !s.drives master a then s.regErr master 6
  else if i ≤ 13 then (if busy then closed else s.onQueue a fun q => { q with regs := q.regs.write i v })
  else if i = 14 then (if busy then closed else s.onQueue a fun q => { q with chainHead := v.setWidth 27 })
  else if i = 16 then
    let s1 := if v.getLsbD 0 then s.queueGo a else s
    if v.getLsbD 1 then s1.queueStop a .aborted else s1
  else if i = 18 then (s.onQueue a fun q => { q with events := w1c q.events v }).reArm 0 1
  else s

/-- A write to a mailbox side by its owner (R123). -/
def State.sideWrite (s : State) (m : Nat) (sideB : Bool) (i : Nat) (v : Word) : State :=
  match i with
  | 0 => s.onSide m sideB fun x => { x with tx0 := v }
  | 1 => s.onSide m sideB fun x => { x with tx1 := v }
  | 2 => s.onSide m sideB fun x => { x with tx2 := v }
  | 3 => s.onSide m sideB fun x => { x with tx3 := v }
  | 4 => s.txSend m sideB v
  | 13 => s.rxPop m sideB v
  | 14 => s.onSide m sideB fun x => { x with notice := x.notice && !v.getLsbD 4 }
  | _ => s

/-- A write to a window's address or size by its owner; closed while the window is enabled (R349). -/
def State.winWrite (s : State) (w i : Nat) (v : Word) : State :=
  if 3 ≤ i then s
  else if (s.host.wins.get w).enabled then s.evHost 7 none
  else s.onHost fun h => { h with wins := h.wins.upd w fun x => match i with
    | 0 => { x with base := x.base >>> 20 <<< 20 ||| (v >>> 12).setWidth 52 }
    | 1 => { x with base := (x.base.setWidth 20).setWidth 52 ||| v.setWidth 52 <<< 20 }
    | _ => { x with slots := v.setWidth 24 } }

/-- A write to an image register or to IMG_BUF by HOST_PF or TRAY_SMB (R489, R493). -/
def State.imgWrite (s : State) (master : Nat) (f : Image → Image) : State :=
  if master == idHostPf || master == idTray then s.onImg f else s.regErr master 6

/-- The value a request latches at once: TB_TIME and PROJ_TIME (R55, R413). -/
def State.rmbLatch (s : State) (master off : Nat) : DWord :=
  match s.regAt master off with
  | some (.mb .tbTime) => BitVec.ofNat 64 (s.mbVal .tbTime)
  | some (.mb .projTime) => BitVec.ofNat 64 (s.mbVal .projTime)
  | _ => 0

/-- A write to RMB_ADDR: a request starts, or is dropped while one is in progress (R115). Masters without a read mailbox reach no
register there. -/
def State.rmbAsk (s : State) (master : Nat) (addr : Word) : State :=
  if !(master == idHostPf || (vfOf master).isSome || master == idTray) then s.regErr master 0
  else if (s.bus.rmb.get master).busy then s.regErr master 5
  else s.onBus fun u => { u with rmb := u.rmb.upd master fun x => { x with
    addr := addr.setWidth 26, valid := false, busy := true, latch := s.rmbLatch master (addr.setWidth 26).toNat } }

/-- The condition of IRQ_SUM is taken anew after a write to one of its event registers (R343). -/
def State.irqWrite (s : State) (f : State → State) : State := (f s).reArm 0 1

/-- A 32-bit write to a register that is not protected, under its type code. -/
def State.regPut (s : State) (master : Nat) (v : Word) : Reg → State
  | .rmb 0 => s.rmbAsk master v
  | .dbPending => s.dbClear (if (vfOf master).isSome then master else idHostPf) v
  | .dbMask =>
    let id := if (vfOf master).isSome then master else idHostPf
    (s.onMbx fun x => { x with bells := x.bells.upd id fun d => { d with mask := v } }).reArm (id - idHostPf) 0
  | .irqEn => s.irqWrite fun s => s.onHost fun h => { h with irqEn := v.setWidth 11 }
  | .regErr => s.onBus fun u => { u with regErr := u.regErr.upd master fun x => w1c x v }
  | .hostEvents => (s.onHost fun h => { h with events := w1c h.events v }).reArm 0 2
  | .hsw w i => s.winWrite w i v
  | .tickEvents => s.irqWrite fun s => s.onTick fun t => { t with events := w1c t.events v }
  | .leafEvents => s.irqWrite fun s => s.onLeaf fun l => { l with events := w1c l.events v }
  | .img 1 => s.imgWrite master fun x => { x with length := v }
  | .img 2 => s.imgWrite master fun x => { x with offset := v }
  | .img 3 => s.imgWrite master fun x => { x with blkLen := v.setWidth 13 }
  | .img 4 => s.imgWrite master fun x => { x with crc := v }
  | .imgBuf o => s.imgWrite master fun x => { x with buf := wrBytes x.buf o (toLe 4 v.toNat) }
  | .ksiEvents => s.irqWrite fun s => s.onKsi fun k => { k with events := w1c k.events v }
  | .rport p 1 => s.irqWrite fun s => s.onRport p fun x => { x with events := w1c x.events v }
  | .pairEvents => s.onPair fun p => { p with events := w1c p.events v }
  | .port p 1 => s.irqWrite fun s => s.onPort p fun x => { x with events := w1c x.events v }
  | .cnt key 1 => if v.getLsbD 0 then s.onCnt fun t => t.upd key fun c => { c with ovf := false } else s
  | .pwrEvents => s.irqWrite fun s => s.onPwr fun p => { p with events := w1c p.events v }
  | .consEvents => s.irqWrite fun s => s.onCons fun c => { c with events := w1c c.events v }
  | .safeEvents => s.irqWrite fun s => s.onChk fun c => { c with events := w1c c.events v }
  | .side m b i => s.sideWrite m b i v
  | .me ch 1 => s.irqWrite fun s => s.onEngs fun t => t.upd ch fun g => { g with me := { g.me with events := w1c g.me.events v } }
  | .ae ch 1 => s.irqWrite fun s => s.onEngs fun t => t.upd ch fun g => { g with ae := { g.ae with events := w1c g.ae.events v } }
  | .det ch => s.irqWrite fun s => s.onEngs fun t => t.upd ch fun g => { g with detEvents := w1c g.detEvents v }
  | .srv ch => s.irqWrite fun s => s.onEngs fun t => t.upd ch fun g => { g with srvEvents := w1c g.srvEvents v }
  | .slot ch k 1 => s.irqWrite fun s => s.onCodec fun t => t.upd (8 * ch + k) fun x => { x with events := w1c x.events v }
  | .queue a i => s.queueWrite master a i v
  | .spc ch 1 => s.irqWrite fun s => s.onSpad fun p => { p with chan := p.chan.upd ch fun c => { c with events := w1c c.events v } }
  | .vfEvents => match vfOf master with
    | some k => (s.onHost fun h => { h with funcs := h.funcs.upd k fun f => { f with events := w1c f.events v } }).reArm k 1
    | none => s
  | .vfEventsEn => match vfOf master with
    | some k => (s.onHost fun h => { h with funcs := h.funcs.upd k fun f => { f with eventsEn := v.setWidth 4 } }).reArm k 1
    | none => s
  | _ => s

/-! ### Protected registers (R110, R111) -/

/-- TB_SECONDS: software sets the seconds before the time base locks (R22). -/
def State.secondsPut (s : State) (v : Word) : State :=
  if s.tb.lock == .free || s.tb.lock == .acquiring then s.onTb fun t => { t with seconds := v } else s

/-- A completed write to BIND_CTRL; a value that names no command fits no state (R77, log 42). -/
def State.bindCtrl (s : State) (v : Word) : State :=
  match v.toNat % 16 with
  | 1 => s.rebindValidate
  | 2 => s.rebindCancel
  | 3 => s.coldSelect
  | 4 => s.coldConfirm
  | _ => s.bindRefused

/-- A completed write to IMG_CTRL (R486, R493). -/
def State.imgCtrl (s : State) (master : Nat) (v : Word) : State :=
  match v.toNat % 16 with
  | 1 => s.imgOpenEff master (v.toNat / 16 % 16) s.img.length.toNat
  | 2 => s.imgBlockEff master
  | 3 => s.imgCloseEff master
  | 4 => s.imgAbortEff master
  | 5 => s.imgActivateEff master
  | 6 => s.fwConfirmEff master
  | _ => s

/-- A completed write to SAFE_CTRL (R433). -/
def State.safeCtrl (s : State) (master : Nat) (v : Word) : State :=
  match v.toNat % 8 with
  | 1 => s.maintEnter
  | 2 => s.maintExit
  | 3 => s.stressStart
  | 4 => s.markSuspect (v.toNat / 256 % 128)
  | 5 => s.markUnit master (v.toNat / 65536 % 64)
  | _ => s

/-- What a completed protected write does. -/
def State.wpTake (s : State) (master : Nat) (v : Word) : Reg → State
  | .resetCtrl => match v.toNat % 4 with
    | 1 => s.softReset master
    | 2 => s.recoveryResetEff master
    | _ => s
  | .bar4Win => s.bar4Win master v
  | .hsw w _ => s.hswCtrl master w v
  | .tbSeconds => s.secondsPut v
  | .bindCtrl => s.bindCtrl v
  | .img _ => s.imgCtrl master v
  | .ringCtrl => (s.onRing fun r => { r with forceBypass := v.getLsbD 0 }).bypassUpdate
  | .cnt key _ => if v.getLsbD 0 then s.cntClear master key else s
  | .pwrCtrl => s.reqProfileEff master (v.toNat % 8)
  | .consCtrl => if v.getLsbD 0 then s.replanStart else s
  | .safeCtrl => s.safeCtrl master v
  | .loan ch bank => s.loanPut master ch bank v
  | _ => s

/-- 64 bus cycles in ns: SYS runs at 1.0 GHz, in HOLD at 0.5 GHz (R437). -/
def State.wpWindow (s : State) : Nat := if s.pwr.profile = 4 then 128 else 64

/-- The pending write at a protected register. -/
def State.wpAt (s : State) (key : Nat) : WpPend := s.bus.wp.get key

/-- The pending write goes. -/
def State.wpGone (s : State) (key : Nat) : State := s.onBus fun u => { u with wp := u.wp.erase key }

/-- A pending write whose window has ended is dropped with WP_DROP in its master's REG_ERR (R110). -/
def State.wpExpire (s : State) (key : Nat) : State :=
  let p := s.wpAt key
  if p.used && decide (p.since + s.wpWindow ≤ s.tb.time) then (s.wpGone key).regErr p.master 2 else s

/-- As `wpExpire`, ahead of an access: at the last instant of the window the complement is still in time. -/
def State.wpLate (s : State) (key : Nat) : State :=
  if decide ((s.wpAt key).since + s.wpWindow < s.tb.time) then s.wpExpire key else s

/-- A write to a protected register: it pends, or is dropped where another master's is pending (R110, R111). -/
def State.wpFirst (s : State) (master key : Nat) (v : Word) : State :=
  let s1 := s.wpLate key
  let p := s1.wpAt key
  if p.used && p.master != master then s1.regErr master 3
  else s1.onBus fun u => { u with wp := u.wp.set key { used := true, master := master, value := v, since := s.tb.time } }

/-- A write to the address after a protected register (R110, R111). -/
def State.wpSecond (s : State) (master key : Nat) (r : Reg) (v : Word) : State :=
  let s1 := s.wpLate key
  let p := s1.wpAt key
  if !p.used then s1.regErr master 2
  else if p.master != master then s1.regErr master 3
  else if v != ~~~ p.value then (s1.wpGone key).regErr master 2
  else (s1.wpGone key).wpTake master p.value r

/-! ### Accesses (R106 to R108, R113) -/

/-- A 32-bit write: to no register, to one whose domain is off, to one its master may not reach, to a protected register, or under
the register's type code. -/
def State.write4 (s : State) (master off : Nat) (v : Word) : State :=
  match s.regAt master off with
  | some r =>
    if s.regOff r then s.regErr master 4
    else if s.regDenied master r then s.regErr master 6
    else match r.wp with
      | some key => s.wpFirst master key v
      | none => s.regPut master v r
  | none => match if off % 8 = 4 then s.regAt master (off - 4) else none with
    | some r => match r.wp with
      | some key => if s.regDenied master r then s.regErr master 6 else s.wpSecond master key r v
      | none => s.regErr master 0
    | none => s.regErr master 0

/-- A register access of a size at an offset (R106, R107): the data a read returned stands in the bus. -/
def State.access (s : State) (isRead : Bool) (master size off : Nat) (v : BitVec 64) : State :=
  if !((size == 4 && off % 4 == 0) || (size == 8 && off % 8 == 0)) then
    (if isRead then s.returns 0 else s).regErr master 1
  else if isRead then
    let x := s.read4 master off
    if size = 4 then x.2.returns x.1
    else
      let y := x.2.read4 master (off + 4)
      y.2.returns (x.1 + 2 ^ 32 * y.1)
  else
    let s1 := s.write4 master off (v.setWidth 32)
    if size = 4 then s1 else s1.write4 master (off + 4) ((v >>> 32).setWidth 32)

/-- Whether R353 refuses a host request to a virtual function's BAR: its TDI is RUN and the request did not come on its Secure
Selective stream with the T bit set. -/
def State.nonTee (s : State) (master : Nat) (tee : Bool) : Bool := match vfOf master with
  | some k => (s.tdi k).state == .run && !(tee && (s.host.streams.get k).secure)
  | none => false

/-- A register access by a master; `tee` says that it came on the function's Selective stream with the T bit set. A refused read
is completed with UR: the data the bus last returned stays (R353). -/
def State.regAccess (s : State) (isRead tee : Bool) (master size off : Nat) (v : BitVec 64) : State :=
  if s.nonTee master tee then
    (if isRead then s.out { kind := .completion, port := 0, code := off, status := 1 } else s).evHost 6 none
  else s.access isRead master size off v

/-- REGISTER_WRITE: an access to a register, applied under its type code. -/
def execRegisterWrite (isRead tee : Bool) (master size off : Nat) (value : BitVec 64) (s : State) :
    Host.Outcome State Fault Refusal :=
  .next (if !s.live then s else commit (s.regAccess isRead tee master size off value))

/-- A 4-byte write at a protected register; at any other offset there is no protected write to hold. -/
def State.wpWriteEff (s : State) (master off : Nat) (v : Word) : State :=
  match (s.regAt master off).bind Reg.wp with
  | some _ => s.write4 master off v
  | none => s

/-- WP_WRITE. -/
def execWpWrite (master off : Nat) (value : BitVec 32) (s : State) : Host.Outcome State Fault Refusal :=
  .next (if !s.live then s else commit (s.wpWriteEff master off value))

/-- A 4-byte write to the address after a protected register, which `off` names. -/
def State.wpComplementEff (s : State) (master off : Nat) (v : Word) : State :=
  match (s.regAt master off).bind Reg.wp with
  | some _ => s.write4 master (off + 4) v
  | none => s

/-- WP_COMPLEMENT. -/
def execWpComplement (master off : Nat) (value : BitVec 32) (s : State) : Host.Outcome State Fault Refusal :=
  .next (if !s.live then s else commit (s.wpComplementEff master off value))

/-- WP_WINDOW_EXPIRE at the protected register at an offset of BAR0. -/
def execWpWindowExpire (off : Nat) (s : State) : Host.Outcome State Fault Refusal :=
  .next (if !s.live then s else commit (s.wpExpire off))

/-- RMB_REQUEST. -/
def execRmbRequest (master : Nat) (addr : BitVec 32) (s : State) : Host.Outcome State Fault Refusal :=
  .next (if !s.live then s else commit (s.rmbAsk master addr))

/-- What a request captures: the value, which TB_TIME and PROJ_TIME have from the request, and ERR (R55, R115, R413). -/
def State.rmbValue (s : State) (master off : Nat) (latch : DWord) : DWord × BitVec 2 :=
  match if off % 8 = 0 then s.regAt master off else none with
  | some (.mb m) =>
    if s.regOff (.mb m) then (0, 3) else if s.mbDenied master m then (0, 2)
    else (match m with
      | .tbTime => latch
      | .projTime => latch
      | _ => BitVec.ofNat 64 (s.mbVal m), 0)
  | _ => (0, 1)

/-- The capture of a request in progress. -/
def State.rmbTake (s : State) (master : Nat) : State :=
  let x := s.bus.rmb.get master
  if !x.busy then s
  else
    let r := s.rmbValue master x.addr.toNat x.latch
    let y : Rmb := { addr := x.addr, valid := true, busy := false, err := r.2, data := r.1 }
    s.onBus fun u => { u with rmb := u.rmb.set master y }

/-- RMB_CAPTURE. -/
def execRmbCapture (master : Nat) (s : State) : Host.Outcome State Fault Refusal :=
  .next (if !s.live then s else commit (s.rmbTake master))

/-- A read of BIND_STATUS returns it and clears the BIND summary of IRQ_SUM (R344). A virtual function reaches no such register. -/
def State.bindStatusTake (s : State) (master : Nat) : State :=
  if (vfOf master).isSome then (s.returns 0).regErr master 0
  else (s.onHost fun h => { h with bindIrq := false }).returns s.bindStatus

/-- BIND_STATUS_READ. -/
def execBindStatusRead (master : Nat) (s : State) : Host.Outcome State Fault Refusal :=
  .next (if !s.live then s else commit (s.bindStatusTake master))

end Sys2Proof.Machine
end

