-- ==== Sys2Proof/Machine/Spdm.lean ====
section
/-! DEFINITION. The SPDM responder and the MCTP endpoint (spec/16 R356, R357, spec/17 R383, R384). -/

namespace Sys2Proof.Machine

/-- An SPDM response: its standard code, its status (the session for KEY_EXCHANGE, the error code for ERROR) and bytes. -/
def State.spdmOut (s : State) (code status : Nat) (bytes : List Byte) : State :=
  s.out { kind := .spdm, code := code, status := status, bytes := bytes }

/-- The open sessions. -/
def State.openSessions (s : State) : List Nat := (s.host.sessions.filter fun e => e.2.isOpen).map (·.1)

/-- The lowest session number, from 1, that is not open. -/
def State.newSession (s : State) : Nat := ((List.range 12).map (· + 1)).find? (fun n => !s.openSessions.contains n) |>.getD 0

/-- Whether a transport carries SPDM now: DOE on a link that is up, MCTP once an EID is set. -/
def State.spdmUp (s : State) (overMctp : Bool) : Bool := if overMctp then s.host.eid != 0 else s.host.linkUp

/-- KEY_EXCHANGE opens a session; a thirteenth is refused with SessionLimitExceeded. -/
def State.keyExchangeEff (s : State) (overMctp : Bool) : State :=
  if !s.spdmUp overMctp then s
  else if 12 ≤ s.openSessions.length then s.spdmOut 0x7F 0x0A []
  else
    let n := s.newSession
    ((s.onHost fun h => { h with sessions := h.sessions.set n {
      isOpen := true, cert := s.freeCount + 1, overMctp := overMctp, lastBeat := s.tb.time } }).tookFree 1).spdmOut 0x64 n []

/-- KEY_EXCHANGE. -/
def execKeyExchange (overMctp : Bool) (s : State) : Host.Outcome State Fault Refusal :=
  .next (if !s.live then s else commit (s.keyExchangeEff overMctp))

/-- A request in an open session. -/
def State.inSession (s : State) (n : Nat) (f : State → State) : State := if (s.host.sessions.get n).isOpen then f s else s

/-- Update a session. -/
def State.onSession (s : State) (n : Nat) (f : Session → Session) : State :=
  s.onHost fun h => { h with sessions := h.sessions.upd n f }

/-- END_SESSION. -/
def execEndSession (session : Nat) (s : State) : Host.Outcome State Fault Refusal :=
  .next (if !s.live then s else commit (s.inSession session fun s => (s.sessionEnd session).spdmOut 0x6C session []))

/-- An SPDM heartbeat. -/
def execSpdmHeartbeat (session : Nat) (s : State) : Host.Outcome State Fault Refusal :=
  .next (if !s.live then s else commit (s.inSession session fun s =>
    (s.onSession session fun x => { x with lastBeat := s.tb.time }).spdmOut 0x68 session []))

/-- SPDM_HEARTBEAT_LOST: 30 s without a heartbeat end the session. -/
def State.beatLost (s : State) (n : Nat) : State :=
  s.inSession n fun s => if (s.host.sessions.get n).lastBeat + 30000000000 ≤ s.tb.time then s.sessionEnd n else s

/-- SPDM_HEARTBEAT_LOST. -/
def execSpdmHeartbeatLost (session : Nat) (s : State) : Host.Outcome State Fault Refusal :=
  .next (if !s.live then s else commit (s.beatLost session))

/-- KEY_UPDATE. -/
def execKeyUpdate (session : Nat) (s : State) : Host.Outcome State Fault Refusal :=
  .next (if !s.live then s else commit (s.inSession session fun s =>
    (s.onSession session fun x => { x with keyGen := x.keyGen + 1 }).spdmOut 0x69 session []))

/-- GET_CERTIFICATE: slot 0, or slot 1 where the owner's chain is installed; another answer is an error (R383). -/
def execGetCertificate (slot : Nat) (s : State) : Host.Outcome State Fault Refusal :=
  .next (if !s.live then s else commit (
    if slot = 0 || (slot = 1 && s.ksi.slot1Chain) then s.spdmOut 0x02 slot [] else s.spdmOut 0x7F 0x01 []))

/-- CHALLENGE: answered with a signature by the Alias key, whose bytes are free. -/
def execChallenge (slot : Nat) (nonce : List Byte) (s : State) : Host.Outcome State Fault Refusal :=
  .next (if !s.live then s else commit (
    if slot = 0 || (slot = 1 && s.ksi.slot1Chain) then (s.tookFree 114).spdmOut 0x03 slot (nonce ++ s.freeBytes 114)
    else s.spdmOut 0x7F 0x01 []))

/-- The tenant whose index 7 a session may read. -/
def State.sessionTenant (s : State) (session : Nat) : Option Nat := (List.range 9).find? fun k => s.sessionFor session k

/-- A measurement in raw form, accumulator and entry count, or their SHA3-512 digest (R384). -/
def measureBytes (m : Measure) (raw : Bool) : List Byte :=
  let b := m.acc ++ toLe 4 m.count
  if raw then b else sha3 b

/-- GET_MEASUREMENTS of an index. -/
def State.measurements (s : State) (session index : Nat) (raw : Bool) : State :=
  if index = 7 then match s.sessionTenant session with
    | some k => s.spdmOut 0x60 index (measureBytes (s.ksi.measures.get (measureKey 7 k)) raw)
    | none => s.spdmOut 0x7F 0x01 []
  else if 1 ≤ index ∧ index ≤ 6 then s.spdmOut 0x60 index (measureBytes (s.ksi.measures.get index) raw)
  else s.spdmOut 0x7F 0x01 []

/-- GET_MEASUREMENTS. -/
def execGetMeasurements (session index : Nat) (raw : Bool) (s : State) : Host.Outcome State Fault Refusal :=
  .next (if !s.live then s else commit (s.measurements session index raw))

/-! ### MCTP control (R357): answered in the AON domain -/

/-- Whether the AON domain has power: 48 V or AUX_12V (R472, R498). -/
def State.aon (s : State) : Bool := s.start.p48 || s.start.aux

/-- An MCTP control response: command code, completion code, bytes. -/
def State.mctpOut (s : State) (code status : Nat) (bytes : List Byte) : State :=
  s.out { kind := .mctp, code := code, status := status, bytes := bytes }

/-- Set Endpoint ID: a change of the EID ends the sessions over MCTP; EIDs 0 and 255 are no endpoint's. -/
def State.setEid (s : State) (eid : Nat) : State :=
  if eid = 0 ∨ eid = 255 then s.mctpOut 1 2 []
  else
    let s1 := if s.host.eid = eid then s else (s.onHost fun h => { h with eid := eid }).sessionsEnd true
    s1.mctpOut 1 0 (toLe 1 eid)

/-- SET_ENDPOINT_ID. -/
def execSetEndpointId (eid : Byte) (s : State) : Host.Outcome State Fault Refusal :=
  .next (if !s.aon then s else commit (s.setEid eid.toNat))

/-- GET_ENDPOINT_ID. -/
def execGetEndpointId (s : State) : Host.Outcome State Fault Refusal :=
  .next (if !s.aon then s else commit (s.mctpOut 2 0 (toLe 1 s.host.eid)))

/-- GET_ENDPOINT_UUID: derived from the accession number. -/
def execGetEndpointUuid (s : State) : Host.Outcome State Fault Refusal :=
  .next (if !s.aon then s else commit (s.mctpOut 3 0 (Config.endpointUuid s.keep.accession)))

/-- GET_MCTP_VERSION_SUPPORT; the version bytes are free. -/
def execGetMctpVersionSupport (s : State) : Host.Outcome State Fault Refusal :=
  .next (if !s.aon then s else commit ((s.tookFree 4).mctpOut 4 0 (s.freeBytes 4)))

/-- GET_MESSAGE_TYPE_SUPPORT: SPDM, secured SPDM and vendor-defined PCI. -/
def execGetMessageTypeSupport (s : State) : Host.Outcome State Fault Refusal :=
  .next (if !s.aon then s else commit (s.mctpOut 5 0 [3, 0x05, 0x06, 0x7E]))

/-- GET_VENDOR_DEFINED_MESSAGE_SUPPORT: PCI vendor ID 0x1F4A. -/
def execGetVendorDefinedMessageSupport (s : State) : Host.Outcome State Fault Refusal :=
  .next (if !s.aon then s else commit (s.mctpOut 6 0 [0xFF, 0x00, 0x1F, 0x4A]))

end Sys2Proof.Machine
end

