-- ==== Sys2Proof/Machine/Tick.lean ====
section
/-! DEFINITION. The tick: sources, the hold, the boundary and everything that changes at it, TICK_OUT (spec/02 R25 to R55). -/

namespace Sys2Proof.Machine

/-! ### Sources and the nominal boundary (R25 to R28, R38, R45) -/

/-- The earliest instant of the next boundary: PLAN_LENGTH after the last one (R28). -/
def State.earliest (s : State) : Nat := s.tick.start + 8 * s.block.1.planLength

/-- The source has reached the nominal boundary of the next tick: the overrun policies are applied, and the boundary is held while a
STRETCH activity is outstanding; a leader issues the marker, or waits for what is missing (R38, R40, R41, R45). -/
def State.nominalReached (s : State) (at' : Nat) (filler : Bool) : State :=
  let s1 := (s.onTick fun t => { t with nominal := some at', pendFiller := filler }).overrun
  let held := s1.stretchOut
  if s.tick.role = .leader then
    if s1.missing = 0 then s1.markerIssue 0 else s1.onTick fun t => { t with waiting := true, stretching := true }
  else s1.onTick fun t => { t with stretching := held }

/-- A source event: too early, or while a boundary is still to come, it is deferred; with one deferred it is dropped (R28, R45). -/
def State.sourceEvent (s : State) (at' : Nat) : State :=
  if !s.tick.running || s.tick.role == .follower then s
  else if s.tick.nominal.isSome || decide (s.tb.time < s.earliest) then
    if s.tick.deferred then s.evTick 3 else (s.onTick fun t => { t with deferred := true }).evTick 2
  else s.nominalReached at' false

/-- NOMINAL_BOUNDARY of a source with a nominal grid (R25). -/
def State.gridEvent (s : State) : State :=
  if s.bound && s.hasGrid && s.b.plan.common.source != 3 && s.tick.running && decide (s.gridAfter 1 ≤ s.tb.time) then
    let g := s.gridAfter 1
    (s.sourceEvent g).onTick fun t => { t with lastNominal := g }
  else s

/-- NOMINAL_BOUNDARY. -/
def execNominalBoundary (s : State) : Host.Outcome State Fault Refusal :=
  .next (if !s.live then s else commit s.gridEvent)

/-- Whether an edge of ENC_IN is accepted: the level held for ENC_DEB, 100 ns since the last one, the edge ENC_EDGE selects (R26). -/
def State.encAccepted (s : State) (rising : Bool) (heldNs : Nat) : Bool :=
  let p := s.b.plan.common
  s.bound && p.source == 2 && decide (8 * p.encDeb ≤ heldNs)
    && (match s.tick.encLast with
      | some t => decide (t + 100 ≤ s.tb.time)
      | none => true)
    && (p.encEdge == 2 || (p.encEdge == 0) == rising)

/-- ENC_EDGE: an accepted edge is counted and advances the divider, whose ENC_DIV-th edge is a source event (R25, R26). -/
def State.encEdgeEff (s : State) (rising : Bool) (heldNs : Nat) : State :=
  let s0 := s.onTick fun t => { t with encLevel := rising }
  if s.tick.encLevel == rising || !s.live || !s0.encAccepted rising heldNs then s0
  else
    let full := decide (s.b.plan.common.encDiv ≤ s.tick.encDiv + 1)
    let s1 := s0.onTick fun t => { t with
      encLast := some s.tb.time, encCount := t.encCount + 1, encDiv := if full then 0 else t.encDiv + 1 }
    if full then s1.sourceEvent s.tb.time else s1

/-- ENC_EDGE. -/
def execEncEdge (rising : Bool) (heldNs : Nat) (s : State) : Host.Outcome State Fault Refusal :=
  .next (commit (s.encEdgeEff rising heldNs))

/-- DEFERRED_SOURCE: PLAN_LENGTH has passed since the boundary (R28). -/
def State.deferredEvent (s : State) : State :=
  if s.tick.deferred && s.tick.running && s.tick.nominal.isNone && s.tick.role != .follower && decide (s.earliest ≤ s.tb.time) then
    (s.onTick fun t => { t with deferred := false }).nominalReached s.tb.time false
  else s

/-- DEFERRED_SOURCE. -/
def execDeferredSource (s : State) : Host.Outcome State Fault Refusal :=
  .next (if !s.live then s else commit s.deferredEvent)

/-- FILLER: ENC_MAX_GAP has passed without a boundary (R27). -/
def State.fillerEvent (s : State) : State :=
  if s.bound && s.b.plan.common.source == 2 && s.tick.running && s.tick.role != .follower && s.tick.nominal.isNone && !s.tick.deferred
      && decide (s.tick.start + 8 * s.b.plan.common.encMaxGap ≤ s.tb.time) then
    (s.evTick 5).nominalReached s.tb.time true
  else s

/-- FILLER. -/
def execFiller (s : State) : Host.Outcome State Fault Refusal :=
  .next (if !s.live then s else commit s.fillerEvent)

/-- STRETCH_EXPIRED: MAX_STRETCH has passed since the nominal boundary of a module alone (R38); a ring leader's is WAITING_EXPIRE. -/
def State.stretchExpire (s : State) : State :=
  match s.tick.nominal with
  | some t => if s.tick.role == .standalone && s.tick.stretching && decide (t + s.maxStretchNs ≤ s.tb.time) then s.stretchDrop else s
  | none => s

/-- STRETCH_EXPIRED. -/
def execStretchExpired (s : State) : Host.Outcome State Fault Refusal :=
  .next (if !s.live then s else commit s.stretchExpire)

/-! ### The boundary (R10) -/

/-- The values of the registers that are latched at each boundary (R55, R164, R189, R238, R300, R319, R340). -/
def State.latches (s : State) : State :=
  let s1 := (s.onDma fun d => { d with queues := d.queues.updAll (d.queues.map (·.1)) fun _ q => { q with bytesLatch := q.bytes } }).onEngs
    fun t => t.updAll (t.map (·.1)) fun _ e => { e with
      me := { e.me with busyLatch := e.me.busyCyc }, ae := { e.ae with busyLatch := e.ae.busyCyc } }
  let s2 := (s1.onCodec fun t => t.updAll (t.map (·.1)) fun _ x => { x with picsLatch := x.pics }).onIng
    fun g => { g with
      ports := g.ports.updAll (g.ports.map (·.1)) fun _ p => { p with
        rxFramesLatch := p.rxFrames }
      flows := g.flows.updAll (g.flows.map (·.1)) fun _ f => { f with bytesLatch := f.bytes, lostLatch := f.lost }
      cal := g.calNext.foldl (fun t e => Tab.set t e.1 e.2) g.cal, calNext := [] }
  let s3 := s2.onRing fun r => { r with ports := r.ports.updAll (r.ports.map (·.1)) fun _ p => { p with framesLatch := p.frames } }
  s3.onTick fun t => { t with latch :=
    { taken := true, offset := s.tb.offset, num := t.num, start := t.start, stretch := t.lastStretch, encCount := t.encCount } }

/-- TICK_OUT at a boundary: a pulse still active ends, and a tick whose number TO_DIV divides starts one TO_OFFSET later (R51). -/
def State.tickOutArm (s : State) : State :=
  let p := s.b.plan.common
  let due := p.toDiv != 0 && s.tick.num % p.toDiv == 0 && (!s.tick.filler || p.toFlags.testBit 1)
  let s1 := if s.tick.tickOut then s.out { kind := .pulse, status := 0 } else s
  s1.onTick fun t => { t with
    tickOut := false, tickOutFall := none, tickOutRise := if due then some (t.start + 8 * p.toOffset) else none }

/-- The tick's own registers as tick `n` begins (R29, R43, R49, R53, R55, R314). -/
def State.tickAdvance (s : State) (n nominal : Nat) (filler : Bool) (prev : Option PrevTick) : State :=
  s.onTick fun t => { t with
    running := true, num := n, start := s.tb.time, t0 := if t.running then t.t0 else s.tb.time
    lastStretch := s.tb.time - nominal, lastNominal := nominal, filler := filler, prev := prev, nominal := none
    pendFiller := false, stretching := false, waiting := false, launch := none, ready := 0, readySent := false
    lastLaunch := s.tb.time }

/-- What a boundary changes before the new tick's work starts: the rebind's switch, power and clocks, rails and trims, the tick's own
registers, units and MAINTENANCE, tenants and keys (R10, R74, R103, R372, R402, R407, R440). -/
def State.boundaryParts (s : State) (n nominal : Nat) (filler : Bool) (prev : Option PrevTick) : State :=
  ((((s.rebindApply n).powerBoundary.consBoundary).tickAdvance n nominal filler prev).checkBoundary).ksiBoundary

/-- The causes of R456 that a boundary decides: a RESULT activity inactive by benching or shedding, a named ingest port down for a whole
tick, MAINTENANCE. -/
def State.fitness (s : State) : State :=
  let named := s.b.netw.flows.map (·.port) ++ s.b.netw.results.map (·.port)
  let down := fun p => !(s.ing.ports.get p).linkUp
  let lost := s.b.netw.results.any fun r => s.b.hasAct r.activity
    && ((s.block.2 && s.chanBenched (r.activity / 16)) || s.pwr.shed.getLsbD (r.activity / 16))
  let gone := named.any fun p => s.pair.portsDown.getLsbD p && down p
  let s1 := s.onPair fun x => { x with portsDown := (List.range 4).foldl (fun v p => bitPut v p (down p)) x.portsDown }
  ((s1.setCause 1 lost).setCause 2 gone).setCause 3 s.chk.maintenance

/-- Scratchpad modes at a boundary: NORMAL from the first tick, TEST in MAINTENANCE (R133). -/
def State.modesBoundary (s : State) (first : Bool) : State :=
  let m : Option SpcMode := if s.chk.maintenance then some .test else if first then some .normal else none
  match m with
  | some m => s.onSpad fun p => { p with chan := p.chan.updAll (List.range 6) fun _ c => { c with mode := m } }
  | none => s

/-- The ring's tick role after a marker of another member, and the first marker of a leader (R44, R49, R466). -/
def State.followMarker (s : State) (m : Option Marker) : State :=
  match m with
  | some m => if m.src = s.memberIdx then s.firstMark m.tick else s.setRole .follower m.src
  | none => s

/-- Tick `n` begins: the boundary as one instant for every channel (R10). `isFirst` says that no tick has run since the cold bind, `m`
is the marker on a ring. -/
def State.tickBegin (s : State) (isFirst : Bool) (n nominal : Nat) (filler : Bool) (m : Option Marker) : State :=
  let prev := if !isFirst && !s.tick.filler then
      some { num := s.tick.num, start := s.tick.start, planGen := s.planGen, profile := s.pwr.profile }
    else s.tick.prev
  let s0 := s.followMarker m
  let s1 := { s0 with cnt := s0.cntBoundary.cnt }
  let s2 := s1.b.actList.foldl State.releaseAll s1
  let new := s2.boundaryParts n nominal filler prev
  let goesOn := fun a => new.active a && !(s2.switchesAt n && s2.carryLost new.b n a)
  let skips := fun a => (new.actPlan a).skipFiller
  let s3 := s2.b.actList.foldl (fun (s : State) a =>
    if isFirst then s.onAct a fun _ => { workTick := n, finished := filler && skips a }
    else s.actBoundary goesOn skips filler n a) s2
  let s4 := s3.boundaryParts n nominal filler prev
  let s5 := if s4.chk.maintenance then s4 else s4.loanBoundary isFirst n
  let s6 := ((s5.modesBoundary isFirst).leafBoundary.codecSuspend.codecKill.copyBoundary.fitness.pairBoundary).admitBoundary.routeBoundary
  let s7 := if isFirst then s6.onStart fun x => { x with stage := .running } else s6
  s7.latches.tickOutArm

/-- Work that a follower's boundary ends at the launch time: CUT and CARRY policies, and STRETCH work, whose activities are flagged LATE
with the whole module where the marker names it (R40 to R42, R46). -/
def State.launchCut (s : State) (m : Marker) : State :=
  let s1 := if s.tick.role = .leader && m.src = s.memberIdx then s else s.overrun
  if m.late.getLsbD s.memberIdx then s1.straggle.allLate else s1.straggle

/-- TICK_BOUNDARY: alone, once the nominal boundary has come and no STRETCH activity is outstanding; on a ring, at the marker's launch time
(R38, R44). A running tick's next profile must have been decided (R440). -/
def State.boundaryEff (s : State) : State :=
  if !s.bound || (s.tick.running && s.pwr.decided.isEmpty) then s
  else if s.tick.role = .standalone then
    match s.tick.nominal with
    | some t => if s.tick.running && !s.stretchOut then s.tickBegin false (s.tick.num + 1) t s.tick.pendFiller none else s
    | none => s
  else match s.tick.launch with
    | some m =>
      if m.launch ≤ s.tb.time then
        let s1 := if s.tick.running then s.launchCut m else s
        s1.tickBegin (!s.tick.running) m.tick (if m.src = s.memberIdx then s.tick.nominal.getD m.launch else m.launch) m.filler (some m)
      else s
    | none => s

/-- TICK_BOUNDARY. -/
def execTickBoundary (s : State) : Host.Outcome State Fault Refusal :=
  .next (if !s.live then s else commit s.boundaryEff)

/-! ### Tick 0 (R476) -/

/-- The last point of the PTP grid at or before now, where it is more than 1 ms after the cold bind (R25). -/
def State.ptpGrid (s : State) : Option Nat :=
  let p := 8 * s.block.1.periodMin
  let e := s.b.plan.common.epoch
  if p = 0 || s.tb.time < e then none
  else
    let g := e + (s.tb.time - e) / p * p
    if s.start.bindTime + 1000000 < g then some g else none

/-- Whether nothing holds tick 0: lock, the ring's reach, and 1 ms since the cold bind (R476). -/
def State.zeroDue (s : State) : Bool :=
  let since := fun (n : Nat) => decide (s.start.bindTime + n ≤ s.tb.time)
  let lockOk := !(s.discSrc == 1 || s.discSrc == 2) || s.tb.lock == .locked || since 10000000000
  let reachOk := s.tick.role != .leader || since 2000000000
    || s.b.netw.members.all fun m => m.startRole != 0 || m.index == s.memberIdx || s.reach.getLsbD m.index
  s.bound && !s.tick.running && s.tick.launch.isNone && s.tick.role != .follower && lockOk && reachOk && since 1000000
    && !s.chk.maintenance

/-- TICK_ZERO: a module alone starts tick 0, a leader issues its marker. -/
def State.tickZeroEff (s : State) : State :=
  if !s.zeroDue then s
  else
    let at' := if s.b.plan.common.source = 1 then s.ptpGrid else some s.tb.time
    match at' with
    | none => s
    | some t => if s.tick.role = .leader then (s.onTick fun x => { x with nominal := some t }).markerIssue 0
      else s.tickBegin true 0 t false none

/-- TICK_ZERO. -/
def execTickZero (s : State) : Host.Outcome State Fault Refusal :=
  .next (if !s.live then s else commit s.tickZeroEff)

/-! ### TICK_OUT (R51) -/

/-- TICK_OUT_PULSE. -/
def State.pulse (s : State) : State :=
  match s.tick.tickOutRise with
  | some t => if t ≤ s.tb.time then
      (s.onTick fun x => { x with
        tickOut := true, tickOutRise := none, tickOutFall := some (t + 8 * s.b.plan.common.toWidth) }).out { kind := .pulse, status := 1 }
    else s
  | none => s

/-- TICK_OUT_PULSE. -/
def execTickOutPulse (s : State) : Host.Outcome State Fault Refusal :=
  .next (if !s.live then s else commit s.pulse)

/-- TICK_OUT_PULSE_END. -/
def State.pulseEnd (s : State) : State :=
  match s.tick.tickOutFall with
  | some t => if t ≤ s.tb.time then
      (s.onTick fun x => { x with tickOut := false, tickOutFall := none }).out { kind := .pulse, status := 0 }
    else s
  | none => s

/-- TICK_OUT_PULSE_END. -/
def execTickOutPulseEnd (s : State) : Host.Outcome State Fault Refusal :=
  .next (if !s.live then s else commit s.pulseEnd)

end Sys2Proof.Machine
end

