-- ==== Sys2Proof/Machine/Tray.lean ====
section
/-! DEFINITION. The tray protocol (spec/16 R358, spec/21 R442, R443, spec/23 R489). -/

namespace Sys2Proof.Machine

/-- A tray response: the command and tag of the request, a status, and what follows it. -/
def State.trayOut (s : State) (cmd tag status : Nat) (bytes : List Byte) : State :=
  s.out { kind := .tray, port := tag, code := cmd, status := status, bytes := bytes }

/-- A request of the tray protocol: taken only once an EID is set; outside the running module it is answered BUSY (R357, R472). -/
def State.trayReq (s : State) (cmd tag : Nat) (f : State → State) : State :=
  if !s.aon || s.host.eid == 0 then s
  else if !s.live then s.trayOut cmd tag 3 []
  else f s

/-- REG_READ: a 4-byte read by TRAY_SMB. -/
def State.trayRead (s : State) (tag off : Nat) : State :=
  let s1 := s.access true idTray 4 off 0
  s1.trayOut 0x01 tag 0 (toLe 4 s1.bus.readData.toNat)

/-- REG_READ. -/
def execRegRead (tag off : Nat) (s : State) : Host.Outcome State Fault Refusal :=
  .next (commit (s.trayReq 0x01 tag fun s => s.trayRead tag off))

/-- Whether an offset lies beyond BAR0 or in a channel's blocks from +0x30_0000 up. -/
def trayClosed (off : Nat) : Bool :=
  decide (0x4000000 ≤ off) || match blockAt off 0x1000000 0x400000 6 with
    | some x => decide (0x300000 ≤ x.2)
    | none => false

/-- REG_WRITE: at a protected register the value with its complement in one 8-byte write, else a 4-byte write. -/
def State.trayWrite (s : State) (tag off : Nat) (v : Word) : State :=
  if trayClosed off then s.trayOut 0x02 tag 1 []
  else
    let s1 := if ((s.regAt idTray off).bind Reg.wp).isSome then s.access false idTray 8 off ((~~~ v) ++ v)
      else s.access false idTray 4 off (v.setWidth 64)
    s1.trayOut 0x02 tag 0 []

/-- REG_WRITE. -/
def execRegWrite (tag off : Nat) (value : BitVec 32) (s : State) : Host.Outcome State Fault Refusal :=
  .next (commit (s.trayReq 0x02 tag fun s => s.trayWrite tag off value))

/-- Either command restarts the heartbeat timer, which runs from the end of the cold bind (R442, R443). -/
def State.beat1 (s : State) : State := if s.bound then s.onPwr fun p => { p with beating := true, lastBeat := s.tb.time } else s

/-- What a HEARTBEAT response carries after its status (R442). -/
def State.beatBytes (s : State) : List Byte :=
  let p := s.pwr
  let flags := packed [(0, 1, flag p.capFail), (1, 1, flag p.safe), (2, 1, flag p.fast), (3, 1, flag p.throttle), (4, 1, flag p.degradedPrev),
    (5, 1, flag p.flowLow)]
  toLe 1 p.profile ++ toLe 1 flags ++ toLe 2 p.cap ++ toLe 2 (unsignedOf 16 (s.sensor 71).value) ++ toLe 1 s.moduleHealth

/-- HEARTBEAT: the timer restarts, and after a loss TRAY_SMB's role changes again (R443). -/
def State.heartbeatEff (s : State) (tag : Nat) : State :=
  let s1 := s.beat1
  let s2 := if s1.pwr.trayLost then (s1.onPwr fun p => { p with trayLost := false }).roleChange idTray else s1
  s2.trayOut 0x10 tag 0 s2.beatBytes

/-- HEARTBEAT; the sequence number is the sender's. -/
def execHeartbeat (tag _seq : Nat) (s : State) : Host.Outcome State Fault Refusal :=
  .next (commit (s.trayReq 0x10 tag fun s => s.heartbeatEff tag))

/-- CAP_SET: 36 to 650 W, else BAD_ARG (R442). -/
def State.capSetEff (s : State) (tag cap : Nat) : State :=
  if cap < 36 || 650 < cap then s.trayOut 0x11 tag 2 []
  else ((s.capTake cap).onPwr fun p => { p with safe := false }).beat1.trayOut 0x11 tag 0 []

/-- CAP_SET. -/
def execCapSet (tag cap : Nat) (s : State) : Host.Outcome State Fault Refusal :=
  .next (commit (s.trayReq 0x11 tag fun s => s.capSetEff tag cap))

/-- The image command of an IMAGE_BLOCK, on what the request carries in place of the image registers. -/
def State.imageRun (s : State) (cmd typ value : Nat) : State :=
  match cmd with
  | 1 => s.imgOpenEff idTray typ value
  | 2 => s.imgBlockEff idTray
  | 3 => s.imgCloseEff idTray
  | 4 => s.imgAbortEff idTray
  | 5 => s.imgActivateEff idTray
  | _ => s.fwConfirmEff idTray

/-- IMAGE_BLOCK (R489): the registers of the host's commands keep their values. A command that fails with BUSY is answered BUSY,
one that fails otherwise BAD_ARG; RESULT gives the code (log 42). -/
def State.imageBlockEff (s : State) (tag cmd typ value blkLen : Nat) (crc : Word) (bytes : List Byte) : State :=
  if cmd = 0 || 6 < cmd || 4096 < blkLen || bytes.length ≠ blkLen then s.trayOut 0x20 tag 2 []
  else
    let s1 := s.onImg fun x => { x with
      offset := BitVec.ofNat 32 value, blkLen := BitVec.ofNat 13 blkLen, crc := crc, buf := wrBytes [] 0 bytes }
    let s2 := (s1.imageRun cmd typ value).onImg fun x => { x with
      offset := s.img.offset, blkLen := s.img.blkLen, crc := s.img.crc, buf := s.img.buf }
    s2.trayOut 0x20 tag (if s2.img.result = 0 then 0 else if s2.img.result = 1 then 3 else 2) []

/-- IMAGE_BLOCK. -/
def execImageBlock (tag cmd typ value blkLen : Nat) (crc : BitVec 32) (bytes : List (BitVec 8)) (s : State) :
    Host.Outcome State Fault Refusal :=
  .next (commit (s.trayReq 0x20 tag fun s => s.imageBlockEff tag cmd typ value blkLen crc bytes))

/-- IMAGE_STATUS: IMG_STATUS, IMG_RECEIVED and IMG_DETAIL (R489). -/
def State.imageStatusEff (s : State) (tag : Nat) : State :=
  s.trayOut 0x21 tag 0 (toLe 4 s.img.status ++ toLe 4 s.img.blocks.length ++ toLe 4 (s.img.detail % 65536))

/-- IMAGE_STATUS. -/
def execImageStatus (tag : Nat) (s : State) : Host.Outcome State Fault Refusal :=
  .next (commit (s.trayReq 0x21 tag fun s => s.imageStatusEff tag))

end Sys2Proof.Machine
end

