-- ==== Sys2Proof/Machine/Dispatch.lean ====
section
/-! DEFINITION. The dispatch: one arm for each command, each one direct call of that command's own meaning. -/

namespace Sys2Proof.Machine

/-- The effect of a command on everything but the queue. -/
def exec (i : Instr) (s : State) : Host.Outcome State Fault Refusal :=
  match i with
  | .ptpSync port domain master seq twoStep origin corr => Sys2Proof.Machine.execPtpSync port domain master seq twoStep origin corr s
  | .ppsEdge => Sys2Proof.Machine.execPpsEdge s
  | .tbHoldover => Sys2Proof.Machine.execTbHoldover s
  | .encEdge rising heldNs => Sys2Proof.Machine.execEncEdge rising heldNs s
  | .nominalBoundary => Sys2Proof.Machine.execNominalBoundary s
  | .deferredSource => Sys2Proof.Machine.execDeferredSource s
  | .filler => Sys2Proof.Machine.execFiller s
  | .stretchExpired => Sys2Proof.Machine.execStretchExpired s
  | .tickBoundary => Sys2Proof.Machine.execTickBoundary s
  | .ready => Sys2Proof.Machine.execReady s
  | .readyReceived member tick planGen => Sys2Proof.Machine.execReadyReceived member tick planGen s
  | .waitingExpire => Sys2Proof.Machine.execWaitingExpire s
  | .markerReceived port src tick launch issue corr profile planGen isFiller late => Sys2Proof.Machine.execMarkerReceived port src tick launch issue corr profile planGen isFiller late s
  | .memberAbsent member => Sys2Proof.Machine.execMemberAbsent member s
  | .leaderLost => Sys2Proof.Machine.execLeaderLost s
  | .tickOutPulse => Sys2Proof.Machine.execTickOutPulse s
  | .tickOutPulseEnd => Sys2Proof.Machine.execTickOutPulseEnd s
  | .rebindValidate => Sys2Proof.Machine.execRebindValidate s
  | .rebindCancel => Sys2Proof.Machine.execRebindCancel s
  | .coldSelect => Sys2Proof.Machine.execColdSelect s
  | .coldConfirm => Sys2Proof.Machine.execColdConfirm s
  | .rebindValidationDone => Sys2Proof.Machine.execRebindValidationDone s
  | .registerWrite isRead tee master size off value => Sys2Proof.Machine.execRegisterWrite isRead tee master size off value s
  | .wpWrite master off value => Sys2Proof.Machine.execWpWrite master off value s
  | .wpComplement master off value => Sys2Proof.Machine.execWpComplement master off value s
  | .wpWindowExpire off => Sys2Proof.Machine.execWpWindowExpire off s
  | .rmbRequest master addr => Sys2Proof.Machine.execRmbRequest master addr s
  | .rmbCapture master => Sys2Proof.Machine.execRmbCapture master s
  | .txSend master mailbox sideB header => Sys2Proof.Machine.execTxSend master mailbox sideB header s
  | .rxPop master mailbox sideB value => Sys2Proof.Machine.execRxPop master mailbox sideB value s
  | .mbStatRead master mailbox sideB => Sys2Proof.Machine.execMbStatRead master mailbox sideB s
  | .dbPendingClear master value => Sys2Proof.Machine.execDbPendingClear master value s
  | .bindStatusRead master => Sys2Proof.Machine.execBindStatusRead master s
  | .bar2Access isRead off size bytes => Sys2Proof.Machine.execBar2Access isRead off size bytes s
  | .bar2Timeout off => Sys2Proof.Machine.execBar2Timeout off s
  | .bar4Access isRead off size bytes => Sys2Proof.Machine.execBar4Access isRead off size bytes s
  | .bar4Timeout off => Sys2Proof.Machine.execBar4Timeout off s
  | .bar4WinWrite value => Sys2Proof.Machine.execBar4WinWrite value s
  | .bankZeroDone ch bank => Sys2Proof.Machine.execBankZeroDone ch bank s
  | .loanWrite master ch bank value => Sys2Proof.Machine.execLoanWrite master ch bank value s
  | .dmaGo master ch q => Sys2Proof.Machine.execDmaGo master ch q s
  | .dmaAbort master ch q => Sys2Proof.Machine.execDmaAbort master ch q s
  | .dmaBeat ch q line inBytes => Sys2Proof.Machine.execDmaBeat ch q line inBytes s
  | .dmaTransferDone ch q ack => Sys2Proof.Machine.execDmaTransferDone ch q ack s
  | .reservationStart act ch cls inst opseq budget cycles line => Sys2Proof.Machine.execReservationStart act ch cls inst opseq budget cycles line s
  | .reservationEnd act ch cls inst => Sys2Proof.Machine.execReservationEnd act ch cls inst s
  | .matmul act budget cycles line stall => Sys2Proof.Machine.execMatmul act budget cycles line stall s
  | .conv act budget cycles line stall => Sys2Proof.Machine.execConv act budget cycles line stall s
  | .attn act => Sys2Proof.Machine.execAttn act s
  | .attnSnapshot act budget cycles line => Sys2Proof.Machine.execAttnSnapshot act budget cycles line s
  | .gemvStream act budget cycles line => Sys2Proof.Machine.execGemvStream act budget cycles line s
  | .copy act => Sys2Proof.Machine.execCopy act s
  | .space2depth act core fits => Sys2Proof.Machine.execSpace2depth act core fits s
  | .depth2space act core fits => Sys2Proof.Machine.execDepth2space act core fits s
  | .tconvPrep act core fits => Sys2Proof.Machine.execTconvPrep act core fits s
  | .leafEdit act core fits => Sys2Proof.Machine.execLeafEdit act core fits s
  | .leafEditRecord act ack => Sys2Proof.Machine.execLeafEditRecord act ack s
  | .spillComplete leaf ack => Sys2Proof.Machine.execSpillComplete leaf ack s
  | .fetchSlotTaken leaf => Sys2Proof.Machine.execFetchSlotTaken leaf s
  | .fetchComplete leaf ack macOk => Sys2Proof.Machine.execFetchComplete leaf ack macOk s
  | .codecSetup act core => Sys2Proof.Machine.execCodecSetup act core s
  | .codecCollect act core => Sys2Proof.Machine.execCodecCollect act core s
  | .codecSubmit act core => Sys2Proof.Machine.execCodecSubmit act core s
  | .codecRestart act core => Sys2Proof.Machine.execCodecRestart act core s
  | .boxdec act fits => Sys2Proof.Machine.execBoxdec act fits s
  | .nmsTidy act fits => Sys2Proof.Machine.execNmsTidy act fits s
  | .sample act budget => Sys2Proof.Machine.execSample act budget s
  | .draft act budget => Sys2Proof.Machine.execDraft act budget s
  | .rmsnorm act fits => Sys2Proof.Machine.execRmsnorm act fits s
  | .swiglu act fits => Sys2Proof.Machine.execSwiglu act fits s
  | .check act fits => Sys2Proof.Machine.execCheck act fits s
  | .digest act fits => Sys2Proof.Machine.execDigest act fits s
  | .resultOut act => Sys2Proof.Machine.execResultOut act s
  | .opEnd act => Sys2Proof.Machine.execOpEnd act s
  | .accessUnit ch slot isRap supported isReference isRasl pts size => Sys2Proof.Machine.execAccessUnit ch slot isRap supported isReference isRasl pts size s
  | .pictureDone ch slot poc width height depth concBlocks pool outputs syntaxError missingRef fence predicts stall isRap isIdr data => Sys2Proof.Machine.execPictureDone ch slot poc width height depth concBlocks pool outputs syntaxError missingRef fence predicts stall isRap isIdr data s
  | .timeCut ch slot => Sys2Proof.Machine.execTimeCut ch slot s
  | .ethernetFrame port frame => Sys2Proof.Machine.execEthernetFrame port frame s
  | .gvspLeader port srcIp srcUdp dstUdp blockId payloadType pixelFormat sizeX sizeY => Sys2Proof.Machine.execGvspLeader port srcIp srcUdp dstUdp blockId payloadType pixelFormat sizeX sizeY s
  | .gvspPayload port srcIp srcUdp dstUdp blockId packetId bytes => Sys2Proof.Machine.execGvspPayload port srcIp srcUdp dstUdp blockId packetId bytes s
  | .gvspTrailer port srcIp srcUdp dstUdp blockId => Sys2Proof.Machine.execGvspTrailer port srcIp srcUdp dstUdp blockId s
  | .zeroFill flow => Sys2Proof.Machine.execZeroFill flow s
  | .rtpPacket port srcIp dstUdp packet => Sys2Proof.Machine.execRtpPacket port srcIp dstUdp packet s
  | .ptpDelayResp port domain master seq received corr interval => Sys2Proof.Machine.execPtpDelayResp port domain master seq received corr interval s
  | .ptpAnnounce port domain master dataSet => Sys2Proof.Machine.execPtpAnnounce port domain master dataSet s
  | .delayReq => Sys2Proof.Machine.execDelayReq s
  | .arpRequest port senderIp senderMac targetIp => Sys2Proof.Machine.execArpRequest port senderIp senderMac targetIp s
  | .arpReply port ip mac => Sys2Proof.Machine.execArpReply port ip mac s
  | .arpTimer port ip => Sys2Proof.Machine.execArpTimer port ip s
  | .arpEntryExpire port ip => Sys2Proof.Machine.execArpEntryExpire port ip s
  | .resultRecordSend port => Sys2Proof.Machine.execResultRecordSend port s
  | .vdlUpdate act => Sys2Proof.Machine.execVdlUpdate act s
  | .vdlChange => Sys2Proof.Machine.execVdlChange s
  | .vdlValidRise => Sys2Proof.Machine.execVdlValidRise s
  | .portLinkDown port => Sys2Proof.Machine.execPortLinkDown port s
  | .portLinkUp port => Sys2Proof.Machine.execPortLinkUp port s
  | .ringSignalDetect port => Sys2Proof.Machine.execRingSignalDetect port s
  | .laneLock port narrow => Sys2Proof.Machine.execLaneLock port narrow s
  | .ident port accession ring farPort member planGen coldCount => Sys2Proof.Machine.execIdent port accession ring farPort member planGen coldCount s
  | .ringLossOfSignal port => Sys2Proof.Machine.execRingLossOfSignal port s
  | .delayTimer port => Sys2Proof.Machine.execDelayTimer port s
  | .delay port isResponse t1 t2 t3 => Sys2Proof.Machine.execDelay port isResponse t1 t2 t3 s
  | .linkReport member east west eastSkip westSkip => Sys2Proof.Machine.execLinkReport member east west eastSkip westSkip s
  | .linkReportSend => Sys2Proof.Machine.execLinkReportSend s
  | .ringFrame port header payload crc => Sys2Proof.Machine.execRingFrame port header payload crc s
  | .ringAck port seq => Sys2Proof.Machine.execRingAck port seq s
  | .ringNak port seq => Sys2Proof.Machine.execRingNak port seq s
  | .replayTimeout port => Sys2Proof.Machine.execReplayTimeout port s
  | .retrainDone port restored => Sys2Proof.Machine.execRetrainDone port restored s
  | .spillWrite lane src slot tenant channel => Sys2Proof.Machine.execSpillWrite lane src slot tenant channel s
  | .spillRead lane src slot tenant line => Sys2Proof.Machine.execSpillRead lane src slot tenant line s
  | .spillFree lane src slot tenant => Sys2Proof.Machine.execSpillFree lane src slot tenant s
  | .spillAck lane slot status => Sys2Proof.Machine.execSpillAck lane slot status s
  | .readData lane slot status => Sys2Proof.Machine.execReadData lane slot status s
  | .dataFrame lane src bytes => Sys2Proof.Machine.execDataFrame lane src bytes s
  | .ringEvent kind member tick => Sys2Proof.Machine.execRingEvent kind member tick s
  | .revoke src tenant tick => Sys2Proof.Machine.execRevoke src tenant tick s
  | .digestMessage src group kind tick value => Sys2Proof.Machine.execDigestMessage src group kind tick value s
  | .forceBypass value => Sys2Proof.Machine.execForceBypass value s
  | .vfFlr vf => Sys2Proof.Machine.execVfFlr vf s
  | .pfFlr => Sys2Proof.Machine.execPfFlr s
  | .hostLinkDown => Sys2Proof.Machine.execHostLinkDown s
  | .secondaryBusReset => Sys2Proof.Machine.execSecondaryBusReset s
  | .numvfsWrite count => Sys2Proof.Machine.execNumvfsWrite count s
  | .pciConfigWrite function item value => Sys2Proof.Machine.execPciConfigWrite function item value s
  | .perstN asserted => Sys2Proof.Machine.execPerstN asserted s
  | .msixUnmask function vector => Sys2Proof.Machine.execMsixUnmask function vector s
  | .hswCtrlWrite master window value => Sys2Proof.Machine.execHswCtrlWrite master window value s
  | .hostCompletion act status => Sys2Proof.Machine.execHostCompletion act status s
  | .cplTimeout act => Sys2Proof.Machine.execCplTimeout act s
  | .ideKm stream keySet kind => Sys2Proof.Machine.execIdeKm stream keySet kind s
  | .kSetGo stream keySet => Sys2Proof.Machine.execKSetGo stream keySet s
  | .ideInsecure stream => Sys2Proof.Machine.execIdeInsecure stream s
  | .getTdispVersion session vf => Sys2Proof.Machine.execGetTdispVersion session vf s
  | .getTdispCapabilities session vf => Sys2Proof.Machine.execGetTdispCapabilities session vf s
  | .lockInterfaceRequest session vf noFwUpdate => Sys2Proof.Machine.execLockInterfaceRequest session vf noFwUpdate s
  | .getDeviceInterfaceReport session vf => Sys2Proof.Machine.execGetDeviceInterfaceReport session vf s
  | .getDeviceInterfaceState session vf => Sys2Proof.Machine.execGetDeviceInterfaceState session vf s
  | .startInterfaceRequest session vf nonce => Sys2Proof.Machine.execStartInterfaceRequest session vf nonce s
  | .stopInterfaceRequest session vf => Sys2Proof.Machine.execStopInterfaceRequest session vf s
  | .tdispOtherRequest session vf code => Sys2Proof.Machine.execTdispOtherRequest session vf code s
  | .removalFence tenant => Sys2Proof.Machine.execRemovalFence tenant s
  | .removalComplete tenant => Sys2Proof.Machine.execRemovalComplete tenant s
  | .reclaimDone tenant => Sys2Proof.Machine.execReclaimDone tenant s
  | .keyExchange overMctp => Sys2Proof.Machine.execKeyExchange overMctp s
  | .endSession session => Sys2Proof.Machine.execEndSession session s
  | .spdmHeartbeat session => Sys2Proof.Machine.execSpdmHeartbeat session s
  | .spdmHeartbeatLost session => Sys2Proof.Machine.execSpdmHeartbeatLost session s
  | .keyUpdate session => Sys2Proof.Machine.execKeyUpdate session s
  | .getCertificate slot => Sys2Proof.Machine.execGetCertificate slot s
  | .challenge slot nonce => Sys2Proof.Machine.execChallenge slot nonce s
  | .getMeasurements session index raw => Sys2Proof.Machine.execGetMeasurements session index raw s
  | .setEndpointId eid => Sys2Proof.Machine.execSetEndpointId eid s
  | .getEndpointId => Sys2Proof.Machine.execGetEndpointId s
  | .getEndpointUuid => Sys2Proof.Machine.execGetEndpointUuid s
  | .getMctpVersionSupport => Sys2Proof.Machine.execGetMctpVersionSupport s
  | .getMessageTypeSupport => Sys2Proof.Machine.execGetMessageTypeSupport s
  | .getVendorDefinedMessageSupport => Sys2Proof.Machine.execGetVendorDefinedMessageSupport s
  | .regRead tag off => Sys2Proof.Machine.execRegRead tag off s
  | .regWrite tag off value => Sys2Proof.Machine.execRegWrite tag off value s
  | .heartbeat tag seq => Sys2Proof.Machine.execHeartbeat tag seq s
  | .capSet tag cap => Sys2Proof.Machine.execCapSet tag cap s
  | .imageBlock tag cmd typ value blkLen crc bytes => Sys2Proof.Machine.execImageBlock tag cmd typ value blkLen crc bytes s
  | .imageStatus tag => Sys2Proof.Machine.execImageStatus tag s
  | .keyDeliver session tenant modelId key => Sys2Proof.Machine.execKeyDeliver session tenant modelId key s
  | .weightLoad session tenant modelId srcRegion srcOffset dstRegion dstOffset firstChunk length => Sys2Proof.Machine.execWeightLoad session tenant modelId srcRegion srcOffset dstRegion dstOffset firstChunk length s
  | .loadComplete tenant => Sys2Proof.Machine.execLoadComplete tenant s
  | .rotate session tenant => Sys2Proof.Machine.execRotate session tenant s
  | .consent session tenant record => Sys2Proof.Machine.execConsent session tenant record s
  | .consentEnd session tenant scope => Sys2Proof.Machine.execConsentEnd session tenant scope s
  | .ksiStatus session tenant => Sys2Proof.Machine.execKsiStatus session tenant s
  | .tamper kind => Sys2Proof.Machine.execTamper kind s
  | .cntClear master isModule ch index => Sys2Proof.Machine.execCntClear master isModule ch index s
  | .sensorUpdate sensor raw => Sys2Proof.Machine.execSensorUpdate sensor raw s
  | .sensorFaultClear sensor => Sys2Proof.Machine.execSensorFaultClear sensor s
  | .thermalRelease level ch => Sys2Proof.Machine.execThermalRelease level ch s
  | .flowLow => Sys2Proof.Machine.execFlowLow s
  | .thermalTrip site => Sys2Proof.Machine.execThermalTrip site s
  | .replan => Sys2Proof.Machine.execReplan s
  | .replanTimer => Sys2Proof.Machine.execReplanTimer s
  | .replanDone drift => Sys2Proof.Machine.execReplanDone drift s
  | .healthUpdate inputs => Sys2Proof.Machine.execHealthUpdate inputs s
  | .calCommit => Sys2Proof.Machine.execCalCommit s
  | .spotCompare source equal => Sys2Proof.Machine.execSpotCompare source equal s
  | .spotTimeout source => Sys2Proof.Machine.execSpotTimeout source s
  | .testSegment testUnit => Sys2Proof.Machine.execTestSegment testUnit s
  | .testSegmentDone good => Sys2Proof.Machine.execTestSegmentDone good s
  | .testRunTimeout => Sys2Proof.Machine.execTestRunTimeout s
  | .copyRoundStart copyIndex => Sys2Proof.Machine.execCopyRoundStart copyIndex s
  | .copyDigestFinal copyIndex poisoned => Sys2Proof.Machine.execCopyDigestFinal copyIndex poisoned s
  | .copyDecision copyIndex => Sys2Proof.Machine.execCopyDecision copyIndex s
  | .copyReloadDone copyIndex => Sys2Proof.Machine.execCopyReloadDone copyIndex s
  | .maintEnter => Sys2Proof.Machine.execMaintEnter s
  | .maintExit => Sys2Proof.Machine.execMaintExit s
  | .stressStart => Sys2Proof.Machine.execStressStart s
  | .stressDone results => Sys2Proof.Machine.execStressDone results s
  | .markSuspect copyIndex => Sys2Proof.Machine.execMarkSuspect copyIndex s
  | .markUnit master testUnit => Sys2Proof.Machine.execMarkUnit master testUnit s
  | .profileDecision => Sys2Proof.Machine.execProfileDecision s
  | .reqProfile master profile => Sys2Proof.Machine.execReqProfile master profile s
  | .heartbeatLost => Sys2Proof.Machine.execHeartbeatLost s
  | .fastStep => Sys2Proof.Machine.execFastStep s
  | .pcapRelease => Sys2Proof.Machine.execPcapRelease s
  | .inputDip centivolts => Sys2Proof.Machine.execInputDip centivolts s
  | .throttleLift centivolts => Sys2Proof.Machine.execThrottleLift centivolts s
  | .inputLow centivolts => Sys2Proof.Machine.execInputLow centivolts s
  | .droop domain => Sys2Proof.Machine.execDroop domain s
  | .droopRecover domain cycles removed => Sys2Proof.Machine.execDroopRecover domain cycles removed s
  | .ilkPeerChange asserted => Sys2Proof.Machine.execIlkPeerChange asserted s
  | .ownBusChange asserted => Sys2Proof.Machine.execOwnBusChange asserted s
  | .claimGuard => Sys2Proof.Machine.execClaimGuard s
  | .claimConfirm => Sys2Proof.Machine.execClaimConfirm s
  | .stuckLine => Sys2Proof.Machine.execStuckLine s
  | .revertClaim => Sys2Proof.Machine.execRevertClaim s
  | .admitDecision tick => Sys2Proof.Machine.execAdmitDecision tick s
  | .powerOn => Sys2Proof.Machine.execPowerOn s
  | .modResetN asserted => Sys2Proof.Machine.execModResetN asserted s
  | .moduleReset master => Sys2Proof.Machine.execModuleReset master s
  | .recoveryReset master => Sys2Proof.Machine.execRecoveryReset master s
  | .watchdog => Sys2Proof.Machine.execWatchdog s
  | .moduleStart slotId ringSel priN corrupt => Sys2Proof.Machine.execModuleStart slotId ringSel priN corrupt s
  | .tickZero => Sys2Proof.Machine.execTickZero s
  | .imgOpen master typ length => Sys2Proof.Machine.execImgOpen master typ length s
  | .eraseDone => Sys2Proof.Machine.execEraseDone s
  | .imgBlock master => Sys2Proof.Machine.execImgBlock master s
  | .blockProgrammed => Sys2Proof.Machine.execBlockProgrammed s
  | .imgClose master => Sys2Proof.Machine.execImgClose master s
  | .verifyDone => Sys2Proof.Machine.execVerifyDone s
  | .imgAbort master => Sys2Proof.Machine.execImgAbort master s
  | .imgActivate master => Sys2Proof.Machine.execImgActivate master s
  | .fwConfirm master => Sys2Proof.Machine.execFwConfirm master s
  | .ptpFollowUp port domain master seq origin corr => Sys2Proof.Machine.execPtpFollowUp port domain master seq origin corr s
  | .hostLinkUp speed width => Sys2Proof.Machine.execHostLinkUp speed width s
  | .ringTrainingFailure port => Sys2Proof.Machine.execRingTrainingFailure port s
  | .aux12vPresence present => Sys2Proof.Machine.execAux12vPresence present s
  | .ref10mPresence present inRange => Sys2Proof.Machine.execRef10mPresence present inRange s

end Sys2Proof.Machine
end

