-- ==== Sys2Proof/Safety.lean ====
section
/-! DEFINITION. The terms in which statements about runs are written: the parts of the state, what it means that a command
touches only some of them, and safe steps. -/

namespace Sys2Proof

open Machine

/-- The parts of the state, one for each field of `State`. -/
inductive Part where
  | tb | tick | bind | bus | mbx | spad | dma | acts | engs | leaf | codec | ing | ring | host | ksi | gddr | cnt | cons
  | chk | pwr | pair | start | img | keep | sent | pending | freeCount
deriving DecidableEq, Repr

/-- Two states agree on a part. Of the host interface the vector table is left out, and interrupt messages may have been
added to those sent: these two are what the settling of interrupts at the end of every command changes (R343). -/
def Part.Agree (s t : State) : Part → Prop
  | .tb => t.tb = s.tb
  | .tick => t.tick = s.tick
  | .bind => t.bind = s.bind
  | .bus => t.bus = s.bus
  | .mbx => t.mbx = s.mbx
  | .spad => t.spad = s.spad
  | .dma => t.dma = s.dma
  | .acts => t.acts = s.acts
  | .engs => t.engs = s.engs
  | .leaf => t.leaf = s.leaf
  | .codec => t.codec = s.codec
  | .ing => t.ing = s.ing
  | .ring => t.ring = s.ring
  | .host => { t.host with msix := s.host.msix } = s.host
  | .ksi => t.ksi = s.ksi
  | .gddr => t.gddr = s.gddr
  | .cnt => t.cnt = s.cnt
  | .cons => t.cons = s.cons
  | .chk => t.chk = s.chk
  | .pwr => t.pwr = s.pwr
  | .pair => t.pair = s.pair
  | .start => t.start = s.start
  | .img => t.img = s.img
  | .keep => t.keep = s.keep
  | .sent => ∃ l, t.sent = l ++ s.sent ∧ ∀ o ∈ l, o.kind = .msix
  | .pending => t.pending = s.pending
  | .freeCount => t.freeCount = s.freeCount

/-- From `s` to `t` nothing changed outside the named parts: the frame of a command. -/
structure OnlyIn (ps : List Part) (s t : State) : Prop where
  rest : ∀ p : Part, p ∉ ps → p.Agree s t

/-- A step that ends in a next state. -/
def SafeStep (s : State) : Prop := ∃ t, step s = .next t

/-- Every interrupt vector a host can receive holds its present condition (R343). -/
def VectorsSettled (s : State) : Prop :=
  ∀ v ∈ s.vectors, (s.host.msix.get (vecKey v.1 v.2)).cond = s.vecCond v.1 v.2

end Sys2Proof
end

