-- ==== Sys2Proof/Certificates/Slice0/Obligations.lean ====
section
/-! DEFINITION. The statements for the provers. -/

open Sys2Proof Sys2Proof.Machine

/-- The block interface: a step with a command at the front of the queue is that command on the state with the queue's rest; with an empty
queue one nanosecond passes while the module runs (the model's choice, log 1), which leaves all but the time base and the powered time,
and nothing happens while its supply is off; every command answers a next state. -/
def Obligations.StepRunsFront : Prop :=
  (∀ (s : State) (c : Instr) (rest : List Instr), step { s with pending := c :: rest } = exec c { s with pending := rest }) ∧
  (∀ s : State, s.pending = [] → s.live = true →
    step s = .next { s with
      tb := { s.tb with time := s.tb.time + 1 }, cons := { s.cons with poweredNs := s.cons.poweredNs + 1 } }) ∧
  (∀ s : State, s.pending = [] → s.start.p48 = false → step s = .next s) ∧
  (∀ (c : Instr) (s : State), ∃ t, exec c s = .next t)
/-- What the model's state right after reset holds: nothing waiting or sent, no binding, no tick, no link, memories that list nothing,
the ring ports DOWN, role generation 1 for every master (R127), the pair in STANDBY, every tenant NONE. The values the spec does not
give are the model's (log 4). -/
def Obligations.ResetState : Prop :=
  State.reset.pending = [] ∧ State.reset.sent = [] ∧ State.reset.bind.running = none ∧ State.reset.bind.cold = .unbound ∧
  State.reset.bind.rebind = .idle ∧ State.reset.tick.running = false ∧ State.reset.tick.num = 0 ∧ State.reset.tb.time = 0 ∧
  State.reset.tb.lock = .free ∧ State.reset.tb.seconds = 0 ∧ State.reset.host.linkUp = false ∧ State.reset.host.numVfs = 0 ∧
  State.reset.host.irqEn = 0 ∧ State.reset.host.events = 0 ∧ State.reset.bus.bar4Enable = false ∧
  (∀ id, State.reset.genOf id = 1) ∧ (∀ p, (State.reset.rport p).state = .down) ∧ (∀ k, (State.reset.ten k).state = .none) ∧
  (∀ n, (State.reset.ksi.slots.get n).state = .empty) ∧ (∀ ch b, (State.reset.loanOf ch b).owned = false) ∧
  Memory.wf State.reset.spad.mem = true ∧ Memory.wf State.reset.gddr.mem = true ∧ State.reset.pair.role = .standby ∧
  State.reset.pair.cause = 0 ∧ State.reset.img.state = .idle ∧ State.reset.start.stage = .rom
/-- R343: right after reset every interrupt vector holds its present condition. -/
def Obligations.VectorsSettledAtReset : Prop := VectorsSettled State.reset
/-- R343: every step keeps every interrupt vector's condition up to date: whatever a command changed, the vectors the host can receive
have been taken anew at its end. -/
def Obligations.VectorsSettledKept : Prop :=
  ∀ s t : State, VectorsSettled s → step s = .next t → VectorsSettled t
/-- R343: at the end of a command an unmasked vector whose condition has just become true sends its message once while the link is up,
and one that is masked becomes pending and sends none; a vector whose condition did not rise sends none. -/
def Obligations.VectorMessages : Prop :=
  (∀ (s : State) (v : Nat × Nat), v ∈ s.vectors → s.vecCond v.1 v.2 = true → (s.host.msix.get (vecKey v.1 v.2)).cond = false →
    (s.host.msix.get (vecKey v.1 v.2)).masked = false → s.host.linkUp = true → msixOut v.1 v.2 ∈ (commit s).sent) ∧
  (∀ (s : State) (v : Nat × Nat), v ∈ s.vectors → s.vecCond v.1 v.2 = true → (s.host.msix.get (vecKey v.1 v.2)).cond = false →
    (s.host.msix.get (vecKey v.1 v.2)).masked = true →
    ((commit s).host.msix.get (vecKey v.1 v.2)).pend = true ∧ ((commit s).host.msix.get (vecKey v.1 v.2)).cond = true) ∧
  (∀ s : State, (∀ v ∈ s.vectors, s.vecCond v.1 v.2 = true → (s.host.msix.get (vecKey v.1 v.2)).cond = true ∨
      (s.host.msix.get (vecKey v.1 v.2)).masked = true) → (commit s).sent = s.sent) ∧
  (∀ s : State, s.host.msix.wf = true → (commit s).host.msix.wf = true) ∧
  (∀ s : State, (commit (commit s)).sent = (commit s).sent)
/-- R137, R139: the scratchpad's memory. A write through the normal window puts its bytes, one through the bit-set or the bit-clear window
sets or clears bits, a zeroed bank reads as zeros, every other byte stays, and the canonical form is kept. -/
def Obligations.ScratchpadWindows : Prop :=
  (∀ (s : State) (ch addr : Nat) (b : List (BitVec 8)), addr < 0x2000000 → Memory.wf s.spad.mem = true →
    (s.spWrite ch addr b).spGet ch addr b.length = b ∧ Memory.wf (s.spWrite ch addr b).spad.mem = true) ∧
  (∀ (s : State) (ch addr : Nat) (b : List (BitVec 8)), addr < 0x2000000 → Memory.wf s.spad.mem = true →
    (s.spWrite ch (0x2000000 + addr) b).spGet ch addr b.length =
      List.zipWith (· ||| ·) (s.spGet ch addr b.length) b) ∧
  (∀ (s : State) (ch addr : Nat) (b : List (BitVec 8)), addr < 0x2000000 → Memory.wf s.spad.mem = true →
    (s.spWrite ch (0x4000000 + addr) b).spGet ch addr b.length =
      List.zipWith (fun x y => x &&& ~~~ y) (s.spGet ch addr b.length) b) ∧
  (∀ (s : State) (ch addr x : Nat) (b : List (BitVec 8)), Memory.wf s.spad.mem = true →
    (x < spKey ch addr ∨ spKey ch addr + b.length ≤ x) →
    Tab.get (s.spWrite ch addr b).spad.mem x = Tab.get s.spad.mem x) ∧
  (∀ (s : State) (ch bank i : Nat), bank < 48 → i < 524288 → Memory.wf s.spad.mem = true →
    Tab.get (s.zeroBank ch bank).spad.mem (spKey ch (bank * 524288) + i) = 0) ∧
  (∀ (s : State) (ch bank x : Nat), Memory.wf s.spad.mem = true →
    (x < spKey ch (bank * 524288) ∨ spKey ch (bank * 524288) + 524288 ≤ x) →
    Tab.get (s.zeroBank ch bank).spad.mem x = Tab.get s.spad.mem x)
/-- R171: 4-bit elements lie two to a byte, element 2i in bits [3:0] of byte i and element 2i + 1 in bits [7:4]; multi-byte elements are
little-endian; elements packed into bytes are read back. -/
def Obligations.ElementPacking : Prop :=
  (∀ (f i : Nat) (b : List (BitVec 8)), elemBits f = 4 →
    elemRaw f b (2 * i) = u8 b i % 16 ∧ elemRaw f b (2 * i + 1) = u8 b i / 16) ∧
  (∀ (f i : Nat) (b : List (BitVec 8)), elemBits f = 16 → elemRaw f b i = u8 b (2 * i) + 256 * u8 b (2 * i + 1)) ∧
  (∀ (f i : Nat) (b : List (BitVec 8)), elemBits f = 32 → elemRaw f b i =
    u8 b (4 * i) + 256 * u8 b (4 * i + 1) + 65536 * u8 b (4 * i + 2) + 16777216 * u8 b (4 * i + 3)) ∧
  (∀ (f i : Nat) (b : List (BitVec 8)), elemBits f = 8 → elemRaw f b i = u8 b i) ∧
  (∀ (s : State) (ch f base i n : Nat), elemBytes f (i + 1) ≤ n → base + n ≤ 0x2000000 →
    s.rawAt ch f base i = elemRaw f (s.spGet ch base n) i) ∧
  (∀ (f : Nat) (xs : List Nat) (i : Nat), (∀ x ∈ xs, x < 2 ^ elemBits f) → i < xs.length →
    elemRaw f (packElems f xs) i = xs.getD i 0)
/-- R353: while a function's TDI is RUN, an access to its BAR that does not come on its Secure Selective stream with the T bit set is
refused: a read is completed with UR, a write is dropped, and NON_TEE is set and counted; one that does is performed. -/
def Obligations.NonTeeAccesses : Prop :=
  (∀ (s : State) (j : Fin 8) (tee : Bool) (size off : Nat) (v : BitVec 64), s.live = true → (s.tdi (j + 1)).state = .run →
    (tee = false ∨ (s.host.streams.get (j + 1)).secure = false) →
    ∃ t, exec (.registerWrite true tee (j + 2) size off v) s = .next t ∧ OnlyIn [.host, .cnt, .sent] s t ∧
      ({ kind := .completion, port := 0, code := off, status := 1 } : Out) ∈ t.sent ∧
      t.host = { s.host with msix := t.host.msix, events := bitSet s.host.events 6 } ∧ t.cnt = (s.count 0xC6 none none 1).cnt) ∧
  (∀ (s : State) (j : Fin 8) (tee : Bool) (size off : Nat) (v : BitVec 64), s.live = true → (s.tdi (j + 1)).state = .run →
    (tee = false ∨ (s.host.streams.get (j + 1)).secure = false) →
    ∃ t, exec (.registerWrite false tee (j + 2) size off v) s = .next t ∧ OnlyIn [.host, .cnt] s t ∧
      t.host = { s.host with msix := t.host.msix, events := bitSet s.host.events 6 } ∧ t.cnt = (s.count 0xC6 none none 1).cnt) ∧
  (∀ (s : State) (j : Fin 8) (r tee : Bool) (size off : Nat) (v : BitVec 64), s.live = true →
    ((s.tdi (j + 1)).state ≠ .run ∨ (tee = true ∧ (s.host.streams.get (j + 1)).secure = true)) →
    exec (.registerWrite r tee (j + 2) size off v) s = .next (commit (s.access r (j + 2) size off v)))
/-- R381: a REVOKE clears the serve tags of that tenant that this member holds for the sender, as SPILL_FREE would, and nothing else, so
its own tenant of that number stays; a lender that missed it clears the borrower's tags when the borrower is marked ABSENT or comes with a
new COLD_COUNT (R335). -/
def Obligations.RevokeClearsTags : Prop :=
  (∀ (s : State) (m : Fin 6) (k n : Nat), s.live = true → s.isMember = true → s.ring.serve.wf = true →
    ∃ t, exec (.revoke m k n) s = .next t ∧ OnlyIn [.ring] s t ∧ t.ksi = s.ksi ∧
      { t.ring with serve := s.ring.serve } = s.ring ∧
      ∀ i, if (s.ring.serve.get i).used = true ∧ (s.ring.serve.get i).member = m.val ∧ (s.ring.serve.get i).tenant = k
        then ∀ (l : Fin 32) (u : State), (s.b.routeOf l).isSome = true → exec (.spillFree l m i k) s = .next u →
          t.ring.serve.get i = u.ring.serve.get i ∧ (t.ring.serve.get i).used = false
        else t.ring.serve.get i = s.ring.serve.get i) ∧
  (∀ (s : State) (m : Fin 6) (n : Nat), s.live = true → s.isMember = true → (s.b.memberRec m).isSome = true →
    s.tick.role = .follower → m.val ≠ s.memberIdx → s.ring.serve.wf = true →
    ∃ t, exec (.ringEvent 0 m n) s = .next t ∧ ∀ i, (t.ring.serve.get i).used = true → (t.ring.serve.get i).member ≠ m.val) ∧
  (∀ (s : State) (p : Fin 2) (a : List (BitVec 8)) (r f x g c : Nat) (m : NetMember), s.live = true →
    (s.rport p).state = .train → (s.rport p).locked = true → (s.b.netw.members.find? fun y => y.accession == a) = some m →
    s.ring.serve.wf = true →
    ∃ t, exec (.ident p a r f x g c) s = .next t ∧
      ∀ i, (t.ring.serve.get i).used = true → (t.ring.serve.get i).member = m.index → (t.ring.serve.get i).coldCount = c)
/-- R127: a role change raises the master's generation by one, from 0xFFFF to 1, and no other's; every message queued for it is removed and
counted, what it sent stays queued, and its partners get NOTICE. -/
def Obligations.RoleChangeClearsQueues : Prop :=
  (∀ (s : State) (id x : Nat), s.mbx.gens.wf = true → (s.roleChange id).genOf x =
    (if x = id then (if s.genOf id = 0xFFFF then 1 else s.genOf id + 1) else s.genOf x)) ∧
  (∀ (s : State) (id x : Nat), (∀ y, s.genOf y ≠ 0) → s.mbx.gens.wf = true → (s.roleChange id).genOf x ≠ 0) ∧
  (∀ (s : State) (id : Nat) (r : MboxRec) (sideB : Bool), s.mbx.sides.wf = true → r ∈ s.b.mbox → r.enable = 1 →
    s.b.mbox.Pairwise (fun x y => x.mailbox ≠ y.mailbox) → r.owner sideB = id → r.owner (!sideB) ≠ id →
    ((s.roleChange id).mbSide r.mailbox sideB).queue = [] ∧
    ((s.roleChange id).mbSide r.mailbox sideB).staleDrops =
      sat8 ((s.mbSide r.mailbox sideB).staleDrops + (s.mbSide r.mailbox sideB).queue.length) ∧
    ((s.roleChange id).mbSide r.mailbox (!sideB)).notice = true ∧
    ((s.roleChange id).mbSide r.mailbox (!sideB)).queue = (s.mbSide r.mailbox (!sideB)).queue)

/-- R22, R23, R52: what a reference edge, its loss and the 10 MHz input do to the discipline, and that each of these
commands then changes nothing else: PPS_EDGE in LOCKED and on the sixteenth edge within limit of ACQUIRING, TB_HOLDOVER with the PPS
source, REF_10M_PRESENCE. -/
def Obligations.TimeBaseReferences : Prop :=
  (∀ (s : State) (d : Int), s.live = true → s.bound = true → s.tb.discSrc = 2 → s.tb.lock = .locked →
    d = (s.tb.time : Int) - (s.tb.seconds.toNat * 1000000000 : Nat) → -100 ≤ d → d ≤ 100 →
    exec .ppsEdge s = .next (commit { s with tb := { s.tb with
      offset := d, lastRef := s.tb.time, inLimit := s.tb.inLimit + 1, seconds := s.tb.seconds + 1 } })) ∧
  (∀ (s : State) (d : Int), s.live = true → s.bound = true → s.tb.discSrc = 2 → s.tb.lock = .acquiring → s.tb.inLimit = 15 →
    d = (s.tb.time : Int) - (s.tb.seconds.toNat * 1000000000 : Nat) → -100 ≤ d → d ≤ 100 →
    exec .ppsEdge s = .next (commit { s with tb := { s.tb with
      offset := d, lastRef := s.tb.time, inLimit := 16, lock := .locked, everLocked := true, stepNeeded := false,
      seconds := s.tb.seconds + 1 } })) ∧
  (∀ s : State, s.live = true → s.bound = true → s.tb.discSrc = 2 → s.tb.lock = .locked →
    s.tb.lastRef + 1500000000 ≤ s.tb.time →
    ∃ t, exec .tbHoldover s = .next t ∧ t.tb = { s.tb with lock := .holdover, inLimit := 0 } ∧
      t.tick = { s.tick with events := s.tick.events ||| 2048#32 } ∧ OnlyIn [.tb, .tick, .cnt] s t) ∧
  (∀ (s : State) (present inRange : Bool),
    exec (.ref10mPresence present inRange) s =
      .next (commit { s with tb := { s.tb with ref10Present := present, ref10Ok := present && inRange } }))

/-- R10, R25 to R29, R38, R51, R53, R476: the tick sources and boundaries of a module alone. An accepted encoder edge is counted; the
ENC_DIV-th edge before PLAN_LENGTH has passed is deferred with EARLY_SOURCE; a deferred event, the nominal grid of INTERNAL and the
encoder's longest gap each set the nominal boundary of the next tick; MAX_STRETCH after it, every outstanding STRETCH activity is
abandoned. A boundary takes the next tick number at the present time, and LAST_STRETCH is how long after the nominal boundary it came;
TICK_ZERO starts tick 0; the TICK_OUT pulse rises at its time and ends at its time. -/
def Obligations.TickSourcesAndBoundaries : Prop :=
  (∀ (s : State) (rising : Bool) (heldNs : Nat), s.live = true → s.bound = true → s.b.plan.common.source = 2 →
    s.tick.encLevel = !rising → 8 * s.b.plan.common.encDeb ≤ heldNs →
    (s.b.plan.common.encEdge = 2 ∨ (s.b.plan.common.encEdge = 0 ∧ rising = true) ∨
      (s.b.plan.common.encEdge = 1 ∧ rising = false)) →
    (∀ l, s.tick.encLast = some l → l + 100 ≤ s.tb.time) → s.tick.encDiv + 1 < s.b.plan.common.encDiv →
    exec (.encEdge rising heldNs) s = .next (commit { s with tick := { s.tick with
      encLevel := rising, encLast := some s.tb.time, encCount := s.tick.encCount + 1, encDiv := s.tick.encDiv + 1 } })) ∧
  (∀ (s : State) (rising : Bool) (heldNs : Nat), s.live = true → s.bound = true → s.b.plan.common.source = 2 →
    s.tick.encLevel = !rising → 8 * s.b.plan.common.encDeb ≤ heldNs → s.b.plan.common.encEdge = 2 →
    s.tick.encLast = none → s.b.plan.common.encDiv ≤ s.tick.encDiv + 1 → s.tick.running = true → s.tick.role ≠ .follower →
    s.tick.nominal = none → s.tb.time < s.tick.start + 8 * s.block.1.planLength → s.tick.deferred = false →
    ∃ t, exec (.encEdge rising heldNs) s = .next t ∧ OnlyIn [.tick, .cnt] s t ∧
      t.tick = { s.tick with
        encLevel := rising, encLast := some s.tb.time, encCount := s.tick.encCount + 1, encDiv := 0, deferred := true,
        events := s.tick.events ||| 4#32 }) ∧
  (∀ s : State, s.live = true → s.tick.running = true → s.tick.role = .standalone → s.tick.nominal = none →
    s.tick.deferred = true → s.tick.start + 8 * s.block.1.planLength ≤ s.tb.time →
    ∃ t, exec .deferredSource s = .next t ∧ t.tick.deferred = false ∧ t.tick.nominal = some s.tb.time ∧
      t.tick.pendFiller = false ∧ t.tick.num = s.tick.num ∧ OnlyIn [.tick, .acts, .dma, .engs, .leaf, .cnt] s t) ∧
  (∀ s : State, s.live = true → s.bound = true → s.b.plan.common.source = 0 → s.tick.running = true →
    s.tick.role = .standalone → s.tick.nominal = none → s.block.1.periodMin ≠ 0 →
    s.tick.start + 8 * s.block.1.planLength ≤ s.tb.time →
    s.tick.t0 + ((s.tick.lastNominal - s.tick.t0) / (8 * s.block.1.periodMin) + 1) * (8 * s.block.1.periodMin) ≤ s.tb.time →
    ∃ t, exec .nominalBoundary s = .next t ∧ t.tick.num = s.tick.num ∧ t.tick.pendFiller = false ∧
      t.tick.nominal = some (s.tick.t0 + ((s.tick.lastNominal - s.tick.t0) / (8 * s.block.1.periodMin) + 1) *
        (8 * s.block.1.periodMin)) ∧ OnlyIn [.tick, .acts, .dma, .engs, .leaf, .cnt] s t) ∧
  (∀ s : State, s.live = true → s.bound = true → s.b.plan.common.source = 2 → s.tick.running = true →
    s.tick.role = .standalone → s.tick.nominal = none → s.tick.deferred = false →
    s.tick.start + 8 * s.b.plan.common.encMaxGap ≤ s.tb.time →
    ∃ t, exec .filler s = .next t ∧ t.tick.nominal = some s.tb.time ∧ t.tick.pendFiller = true ∧
      t.tick.events.getLsbD 5 = true ∧ t.tick.num = s.tick.num ∧ OnlyIn [.tick, .acts, .dma, .engs, .leaf, .cnt] s t) ∧
  (∀ (s : State) (n : Nat), s.live = true → s.tick.role = .standalone → s.tick.stretching = true → s.tick.nominal = some n →
    n + s.maxStretchNs ≤ s.tb.time → s.acts.wf = true →
    ∃ t, exec .stretchExpired s = .next t ∧ t.tick.nominal = some n ∧
      (∀ a ∈ s.outstandingOf 0, (t.act a).abandoned = true) ∧ OnlyIn [.tick, .acts, .dma, .engs, .leaf, .cnt] s t) ∧
  (∀ (s : State) (n : Nat), s.live = true → s.bound = true → s.pwr.decided.isEmpty = false → s.tick.role = .standalone →
    s.tick.running = true → s.tick.nominal = some n → s.stretchOut = false →
    ∃ t, exec .tickBoundary s = .next t ∧ t.tick.num = s.tick.num + 1 ∧ t.tick.start = s.tb.time ∧
      t.tick.lastStretch = s.tb.time - n ∧ t.tick.filler = s.tick.pendFiller ∧ t.tick.running = true ∧
      t.tick.nominal = none ∧ t.tb = s.tb ∧ t.bus = s.bus ∧ t.img = s.img) ∧
  (∀ s : State, s.live = true → s.zeroDue = true → s.b.plan.common.source ≠ 1 → s.tick.role = .standalone →
    ∃ t, exec .tickZero s = .next t ∧ t.tick.num = 0 ∧ t.tick.start = s.tb.time ∧ t.tick.running = true ∧
      t.start.stage = .running ∧ t.tb = s.tb) ∧
  (∀ (s : State) (r : Nat), s.live = true → s.tick.tickOutRise = some r → r ≤ s.tb.time →
    exec .tickOutPulse s = .next (commit { s with
      sent := { kind := .pulse, status := 1 } :: s.sent
      tick := { s.tick with tickOut := true, tickOutRise := none,
                            tickOutFall := some (r + 8 * s.b.plan.common.toWidth) } })) ∧
  (∀ (s : State) (r : Nat), s.live = true → s.tick.tickOutFall = some r → r ≤ s.tb.time →
    exec .tickOutPulseEnd s = .next (commit { s with
      sent := { kind := .pulse, status := 0 } :: s.sent
      tick := { s.tick with tickOut := false, tickOutFall := none } }))

/-- R43 to R49, R53: what the ring's tick protocol does on each event. READY of a member that does not lead is sent once; the leader holds a
received READY, and sets PLAN_MISMATCH for another plan generation; MAX_STRETCH after the nominal boundary the leader issues the marker
with the bit of each member still missing; a new marker is taken as the next boundary, and one received after its launch time sets event
bit 6 and changes no more than the tick record and counters; an absent member is marked with event bit 9; a follower whose marker is
overdue sets event bit 7 and turns to the next leader, and takes the lead itself with every bit set in the marker where it is next. -/
def Obligations.RingTickProtocol : Prop :=
  (∀ s : State, s.live = true → s.readyDue = true → s.tick.role ≠ .leader →
    ∃ t, exec .ready s = .next t ∧ t.tick = { s.tick with readySent := true } ∧ OnlyIn [.tick, .ring, .sent] s t) ∧
  (∀ (s : State) (m : Fin 6) (planGen : Nat), s.live = true → s.isMember = true → s.tick.running = true → s.tick.role = .leader →
    m.val ≠ s.memberIdx → (s.b.memberRec m).isSome = true → planGen ≠ s.planGen →
    ∃ t, exec (.readyReceived m s.tick.num planGen) s = .next t ∧
      t.tick = { s.tick with events := s.tick.events ||| 256#32 } ∧ OnlyIn [.tick, .cnt] s t) ∧
  (∀ (s : State) (m : Fin 6), s.live = true → s.isMember = true → s.tick.running = true → s.tick.role = .leader →
    m.val ≠ s.memberIdx → (s.b.memberRec m).isSome = true → s.pair.admittedSet.getLsbD m = true →
    s.ring.absent.getLsbD m = false → s.tick.waiting = false →
    exec (.readyReceived m s.tick.num s.planGen) s =
      .next (commit { s with tick := { s.tick with ready := bitSet s.tick.ready m } })) ∧
  (∀ (s : State) (n : Nat), s.live = true → s.tick.running = true → s.tick.role = .leader → s.tick.waiting = true →
    s.tick.nominal = some n → n + s.maxStretchNs ≤ s.tb.time →
    ∃ t m, exec .waitingExpire s = .next t ∧ t.tick.launch = some m ∧ t.tick.waiting = false ∧ m.tick = s.tick.num + 1 ∧
      m.launch = s.tb.time + s.b.markerLead ∧ m.late = s.missing) ∧
  (∀ (s : State) (port : Fin 2) (src : Fin 6) (tick launch issue corr profile planGen : Nat) (isFiller : Bool) (late : BitVec 6),
    s.live = true → s.markerNew src tick = true → s.discSrc ≠ 3 → s.pair.firstMarker.isSome = true → s.tb.time ≤ launch →
    exec (.markerReceived port src tick launch issue corr profile planGen isFiller late) s =
      .next (commit { s with tick := { s.tick with waiting := false, launch := some {
        src := src, tick := tick, launch := launch, profile := profile, planGen := planGen, filler := isFiller, late := late } } })) ∧
  (∀ (s : State) (port : Fin 2) (src : Fin 6) (tick launch issue corr profile planGen : Nat) (isFiller : Bool) (late : BitVec 6),
    s.live = true → s.markerNew src tick = true → s.discSrc ≠ 3 → s.pair.firstMarker.isSome = true → launch < s.tb.time →
    ∃ t, exec (.markerReceived port src tick launch issue corr profile planGen isFiller late) s = .next t ∧
      t.tick.events = s.tick.events ||| 64#32 ∧ OnlyIn [.tick, .cnt] s t) ∧
  (∀ (s : State) (m : Fin 6), s.live = true → s.absentDue m = true → s.tick.waiting = false →
    ∃ t, exec (.memberAbsent m) s = .next t ∧ t.ring.absent.getLsbD m = true ∧ t.tick.events.getLsbD 9 = true) ∧
  (∀ (s : State) (m : Nat), s.live = true → s.isMember = true → s.tick.role = .follower → s.tick.running = true →
    s.tick.launch = none → s.markerDeadline ≤ s.tb.time → s.nextLeader = some m → m ≠ s.memberIdx →
    ∃ t, exec .leaderLost s = .next t ∧ OnlyIn [.tick, .cnt] s t ∧
      t.tick = { s.tick with events := s.tick.events ||| 128#32, lastLaunch := s.tb.time, leader := m }) ∧
  (∀ (s : State), s.live = true → s.isMember = true → s.tick.role = .follower → s.tick.running = true →
    s.tick.launch = none → s.markerDeadline ≤ s.tb.time → s.nextLeader = some s.memberIdx →
    ∃ t m, exec .leaderLost s = .next t ∧ t.tick.role = .leader ∧ t.tick.leader = s.memberIdx ∧ t.tick.launch = some m ∧
      m.late = 0x3F#6 ∧ m.tick = s.tick.num + 1)

/-- R65, R69, R74, R76, R77, R432: the BIND_CTRL commands and the outcomes they lead to. REBIND_VALIDATE takes the staging region for
validation, or is refused with BUSY while a rebind is staged; REBIND_VALIDATION_DONE settles on STAGED or REJECTED as the validation
says; REBIND_CANCEL returns to IDLE before the switch; COLD_SELECT changes the active slot where the other slot passes, and is refused
and counted otherwise; COLD_CONFIRM raises SERIAL_FLOOR; MAINT_EXIT validates the active slot, then the other, and is bound by the first
that passes. -/
def Obligations.BindControl : Prop :=
  (∀ s : State, s.live = true → s.bound = true → s.bind.rebind ≠ .validating → s.bind.rebind ≠ .staged →
    exec .rebindValidate s = .next (commit { s with bind := { s.bind with
      rebind := .validating, inCheck := some (s.bind.staging.getD []) } })) ∧
  (∀ s : State, s.live = true → s.bound = true → s.bind.rebind = .staged →
    ∃ t, exec .rebindValidate s = .next t ∧ OnlyIn [.bind, .cnt] s t ∧
      t.bind = { s.bind with errCode := 0x806, errEntry := 0x3D, errRebind := true, errRec := 0xFFFFFFFF }) ∧
  (∀ (s : State) (x : List Byte) (run : Running), s.live = true → s.bind.inCheck = some x → s.bind.running = some run →
    ∃ t, exec .rebindValidationDone s = .next t ∧ OnlyIn [.bind, .host] s t ∧ t.host.bindIrq = true ∧
      match validateRebind s run x with
      | .error e => t.bind = { s.bind with
          rebind := .rejected, inCheck := none, staged := none, errCode := e.code, errEntry := e.entry, errRebind := true,
          errRec := BitVec.ofNat 32 e.recNo }
      | .ok m => t.bind.rebind = .staged ∧ t.bind.staged = some m ∧ t.bind.activate = (colophonOf x).activateTick ∧
          t.bind.running = some run) ∧
  (∀ s : State, s.live = true → s.bind.rebind = .staged → s.switchBegun = false →
    exec .rebindCancel s = .next (commit { s with bind := { s.bind with rebind := .idle, staged := none } })) ∧
  (∀ s : State, s.live = true →
    ∃ t, exec .coldSelect s = .next t ∧ OnlyIn [.bind, .cnt] s t ∧
      (if stages1to6 s false (s.slotBytes (!s.bind.activeSlot)) = none
       then t.bind = { s.bind with activeSlot := !s.bind.activeSlot } ∧ t.cnt = s.cnt
       else t.bind = s.bind ∧ t.cnt = (s.count 0x24 none none 1).cnt)) ∧
  (∀ s : State, s.live = true → s.bound = true → s.bind.fallback = false →
    ∃ t, exec .coldConfirm s = .next t ∧ t.bind.serialFloor = max s.bind.serialFloor s.b.col.serial ∧
      OnlyIn [.bind, .keep, .ksi, .freeCount] s t) ∧
  (∀ s u : State, s.live = true → s.chk.maintenance = true →
    u = (s.onBind fun x => { x with cold := .validating }).bypassUpdate →
    ∃ t, exec .maintExit s = .next t ∧ t.chk.maintenance = false ∧ t.tick.running = false ∧
      match validateCold u (u.slotBytes s.bind.activeSlot), validateCold u (u.slotBytes (!s.bind.activeSlot)) with
      | .ok r, _ => t.bind.cold = .bound ∧ t.bind.running = some r ∧ t.bind.fallback = false
      | .error _, .ok r => t.bind.cold = .bound ∧ t.bind.running = some r ∧ t.bind.fallback = true
      | .error e, .error _ => t.bind.cold = .unbound ∧ t.bind.running = none ∧ t.bind.slotErr = e.code)

/-- R110, R111: protected registers. A write pends for the window; the right complement makes it take effect (shown for TB_SECONDS, R22); a
wrong complement, or the end of the window, drops it with WP_DROP; a write of HOST_PF while another master's pends is dropped with
WP_BUSY. -/
def Obligations.ProtectedWrites : Prop :=
  (∀ (s : State) (master off key : Nat) (r : Reg) (v : BitVec 32), s.live = true → s.regAt master off = some r →
    r.wp = some key → s.regOff r = false → s.regDenied master r = false → (s.bus.wp.get key).used = false →
    exec (.wpWrite master off v) s = .next (commit { s with bus := { s.bus with
      wp := s.bus.wp.set key { used := true, master := master, value := v, since := s.tb.time } } })) ∧
  (∀ (s : State) (off key : Nat) (r : Reg) (v : BitVec 32), s.live = true → s.regAt 1 off = some r →
    r.wp = some key → s.regOff r = false → s.regDenied 1 r = false → (s.bus.wp.get key).used = true →
    (s.bus.wp.get key).master ≠ 1 → s.tb.time ≤ (s.bus.wp.get key).since + (if s.pwr.profile = 4 then 128 else 64) →
    ∃ t, exec (.wpWrite 1 off v) s = .next t ∧ OnlyIn [.bus, .cnt] s t ∧
      t.bus = { s.bus with regErr := s.bus.regErr.upd 1 fun e => e ||| 8#7 } ∧ t.cnt = (s.count 0x13 none none 1).cnt) ∧
  (∀ (s : State) (v : BitVec 32) (p : WpPend), s.live = true → s.bus.wp.get 0x4020 = p → p.used = true → p.master = 1 →
    s.tb.time ≤ p.since + (if s.pwr.profile = 4 then 128 else 64) → v = ~~~ p.value →
    s.tb.lock = .free ∨ s.tb.lock = .acquiring →
    exec (.wpComplement 1 0x4020 v) s = .next (commit { s with
      bus := { s.bus with wp := s.bus.wp.erase 0x4020 }, tb := { s.tb with seconds := p.value } })) ∧
  (∀ (s : State) (off key : Nat) (r : Reg) (v : BitVec 32) (p : WpPend), s.live = true → s.regAt 1 off = some r →
    r.wp = some key → s.regAt 1 (off + 4) = none → off % 8 = 0 → s.regDenied 1 r = false → s.bus.wp.get key = p →
    p.used = true → p.master = 1 → s.tb.time ≤ p.since + (if s.pwr.profile = 4 then 128 else 64) → v ≠ ~~~ p.value →
    ∃ t, exec (.wpComplement 1 off v) s = .next t ∧ OnlyIn [.bus, .cnt] s t ∧
      t.bus = { s.bus with wp := s.bus.wp.erase key, regErr := s.bus.regErr.upd 1 fun e => e ||| 4#7 } ∧
      t.cnt = (s.count 0x12 none none 1).cnt) ∧
  (∀ (s : State) (off : Nat), s.live = true → (s.bus.wp.get off).used = true → (s.bus.wp.get off).master = 1 →
    (s.bus.wp.get off).since + (if s.pwr.profile = 4 then 128 else 64) ≤ s.tb.time →
    ∃ t, exec (.wpWindowExpire off) s = .next t ∧ OnlyIn [.bus, .cnt] s t ∧
      t.bus = { s.bus with wp := s.bus.wp.erase off, regErr := s.bus.regErr.upd 1 fun e => e ||| 4#7 } ∧
      t.cnt = (s.count 0x12 none none 1).cnt)
/-- R106: a register sits at a multiple of 4; accesses of 4 bytes, and of 8 bytes aligned to 8, are performed, the lower word being the
less significant half; a write of any other size or alignment is dropped and such a read is answered with 0, each with PARTIAL in the
master's REG_ERR (the masters that have one). -/
def Obligations.RegisterSizes : Prop :=
  (∀ (s : State) (m off : Nat), off % 4 ≠ 0 → s.regAt m off = none) ∧
  (∀ (s : State) (tee : Bool) (m size off : Nat) (v : BitVec 64), s.live = true → s.nonTee m tee = false →
    ¬ (size = 4 ∧ off % 4 = 0) → ¬ (size = 8 ∧ off % 8 = 0) →
    ∃ t, exec (.registerWrite false tee m size off v) s = .next t ∧ OnlyIn [.bus, .cnt] s t ∧ t.cnt = (s.count 0x11 none none 1).cnt ∧
      t.bus = (if m = 1 ∨ m = 0x41 ∨ (vfOf m).isSome = true
        then { s.bus with regErr := s.bus.regErr.upd m fun e => e ||| 2#7 } else s.bus)) ∧
  (∀ (s : State) (tee : Bool) (m size off : Nat) (v : BitVec 64), s.live = true → s.nonTee m tee = false →
    ¬ (size = 4 ∧ off % 4 = 0) → ¬ (size = 8 ∧ off % 8 = 0) →
    ∃ t, exec (.registerWrite true tee m size off v) s = .next t ∧ OnlyIn [.bus, .cnt] s t ∧ t.cnt = (s.count 0x11 none none 1).cnt ∧
      t.bus = (if m = 1 ∨ m = 0x41 ∨ (vfOf m).isSome = true
        then { s.bus with readData := 0, regErr := s.bus.regErr.upd m fun e => e ||| 2#7 } else { s.bus with readData := 0 })) ∧
  (∀ (s : State) (tee : Bool) (m off : Nat) (v : BitVec 64), s.live = true → s.nonTee m tee = false → off % 4 = 0 →
    exec (.registerWrite false tee m 4 off v) s = .next (commit (s.write4 m off (v.setWidth 32))) ∧
    exec (.registerWrite true tee m 4 off v) s = .next (commit ((s.read4 m off).2.returns (s.read4 m off).1))) ∧
  (∀ (s : State) (tee : Bool) (m off : Nat) (v : BitVec 64), s.live = true → s.nonTee m tee = false → off % 8 = 0 →
    exec (.registerWrite false tee m 8 off v) s =
      .next (commit ((s.write4 m off (v.setWidth 32)).write4 m (off + 4) ((v >>> 32).setWidth 32))) ∧
    exec (.registerWrite true tee m 8 off v) s = .next (commit (((s.read4 m off).2.read4 m (off + 4)).2.returns
      ((s.read4 m off).1 + 2 ^ 32 * ((s.read4 m off).2.read4 m (off + 4)).1))))
/-- R107, R108, R114, R115, R117, R344: register accesses of HOST_PF. A write to an unmapped offset sets UNMAPPED and changes nothing else;
a write of ones clears event bits and a read returns them (shown for TICK_EVENTS, R54); a read mailbox takes a request, refuses one
while it is busy, and captures the value at its offset (TB_TIME as it was at the request) or reports that there is none; BIND_STATUS_READ clears the
BIND summary. -/
def Obligations.RegisterAccesses : Prop :=
  (∀ (s : State) (tee : Bool) (off : Nat) (v : BitVec 64), s.live = true → off % 4 = 0 → s.regAt 1 off = none →
    (off % 8 = 0 ∨ s.regAt 1 (off - 4) = none) →
    ∃ t, exec (.registerWrite false tee 1 4 off v) s = .next t ∧ OnlyIn [.bus, .cnt] s t ∧
      t.bus = { s.bus with regErr := s.bus.regErr.upd 1 fun e => e ||| 1#7 } ∧ t.cnt = (s.count 0x10 none none 1).cnt) ∧
  (∀ (s : State) (tee : Bool) (v : BitVec 64), s.live = true →
    ∃ t, exec (.registerWrite false tee 1 4 0x4104 v) s = .next t ∧ OnlyIn [.tick, .host] s t ∧
      t.tick = { s.tick with events := s.tick.events &&& ~~~ v.setWidth 32 }) ∧
  (∀ (s : State) (tee : Bool) (v : BitVec 64), s.live = true →
    ∃ t, exec (.registerWrite true tee 1 4 0x4104 v) s = .next t ∧ OnlyIn [.bus] s t ∧
      t.bus = { s.bus with readData := s.tick.events.setWidth 64 }) ∧
  (∀ (s : State) (a : BitVec 32), s.live = true → (s.bus.rmb.get 1).busy = false →
    exec (.rmbRequest 1 a) s = .next (commit { s with bus := { s.bus with
      rmb := s.bus.rmb.upd 1 fun x => { x with
        addr := a.setWidth 26, valid := false, busy := true, latch := s.rmbLatch 1 (a.setWidth 26).toNat } } })) ∧
  (∀ (s : State), s.rmbLatch 1 0x4008 = BitVec.ofNat 64 s.tb.time) ∧
  (∀ (s : State) (a : BitVec 32), s.live = true → (s.bus.rmb.get 1).busy = true →
    ∃ t, exec (.rmbRequest 1 a) s = .next t ∧ OnlyIn [.bus, .cnt] s t ∧
      t.bus = { s.bus with regErr := s.bus.regErr.upd 1 fun e => e ||| 32#7 } ∧ t.cnt = (s.count 0x15 none none 1).cnt) ∧
  (∀ (s : State), s.live = true → (s.bus.rmb.get 1).busy = true → (s.bus.rmb.get 1).addr = 0x4008 →
    exec (.rmbCapture 1) s = .next (commit { s with bus := { s.bus with
      rmb := s.bus.rmb.set 1 { addr := 0x4008, valid := true, busy := false, err := 0, data := (s.bus.rmb.get 1).latch } } })) ∧
  (∀ (s : State), s.live = true → (s.bus.rmb.get 1).busy = true → s.regAt 1 (s.bus.rmb.get 1).addr.toNat = none →
    exec (.rmbCapture 1) s = .next (commit { s with bus := { s.bus with
      rmb := s.bus.rmb.set 1 { addr := (s.bus.rmb.get 1).addr, valid := true, busy := false, err := 1, data := 0 } } })) ∧
  (∀ (s : State), s.live = true →
    ∃ t, exec (.bindStatusRead 1) s = .next t ∧ OnlyIn [.host, .bus] s t ∧ t.host.bindIrq = false ∧
      t.bus = { s.bus with readData := BitVec.ofNat 64 s.bindStatus })
/-- R123, R125, R126, R128: a mailbox send by the owner of a side, in each of the four outcomes: bad header, stale generation, full queue,
queued; RX_POP removes the oldest message and an empty queue ignores it; MB_STAT is returned and cleared; DB_PENDING bits written with 1
are cleared, but a doorbell bit that is held stays set. -/
def Obligations.Mailboxes : Prop :=
  (∀ (s : State) (m : Fin 32) (b : Bool) (h : BitVec 32) (r : MboxRec), s.live = true → s.mbRec m = some r →
    (h.toNat / 2 ^ 26 ≠ 0 ∨ h.toNat / 2 ^ 16 % 256 = 0xFF) →
    ∃ t, exec (.txSend (r.owner b) m b h) s = .next t ∧ OnlyIn [.mbx, .cnt] s t ∧ t.cnt = (s.count 0x20 none none 1).cnt ∧
      t.mbx = { s.mbx with sides := s.mbx.sides.upd (sideKey m b) fun x => { x with txSend := h } }) ∧
  (∀ (s : State) (m : Fin 32) (b : Bool) (h : BitVec 32) (r : MboxRec), s.live = true → s.mbRec m = some r →
    h.toNat / 2 ^ 26 = 0 → h.toNat / 2 ^ 16 % 256 ≠ 0xFF → h.toNat % 2 ^ 16 ≠ (s.mbx.gens.get (r.owner (!b))).gen.toNat →
    ∃ t, exec (.txSend (r.owner b) m b h) s = .next t ∧ OnlyIn [.mbx, .cnt] s t ∧ t.cnt = (s.count 0x21 none none 1).cnt ∧
      t.mbx = { s.mbx with
        sides := (s.mbx.sides.upd (sideKey m b) fun x => { x with txSend := h }).upd (sideKey m (!b)) fun x => { x with staleDrops := min 255 (x.staleDrops + 1) } }) ∧
  (∀ (s : State) (m : Fin 32) (b : Bool) (h : BitVec 32) (r : MboxRec), s.live = true → s.mbRec m = some r →
    h.toNat / 2 ^ 26 = 0 → h.toNat / 2 ^ 16 % 256 ≠ 0xFF → h.toNat % 2 ^ 16 = (s.mbx.gens.get (r.owner (!b))).gen.toNat →
    8 < ((s.mbx.sides.upd (sideKey m b) fun x => { x with txSend := h }).get (sideKey m (!b))).words + (1 + h.toNat / 2 ^ 24) →
    ∃ t, exec (.txSend (r.owner b) m b h) s = .next t ∧ OnlyIn [.mbx, .cnt] s t ∧ t.cnt = (s.count 0x22 none none 1).cnt ∧
      t.mbx = { s.mbx with
        sides := (s.mbx.sides.upd (sideKey m b) fun x => { x with txSend := h }).upd (sideKey m (!b)) fun x => { x with fullDrops := min 255 (x.fullDrops + 1) } }) ∧
  (∀ (s : State) (m : Fin 32) (b : Bool) (h : BitVec 32) (r : MboxRec), s.live = true → s.mbRec m = some r →
    h.toNat / 2 ^ 26 = 0 → h.toNat / 2 ^ 16 % 256 ≠ 0xFF → h.toNat % 2 ^ 16 = (s.mbx.gens.get (r.owner (!b))).gen.toNat →
    ((s.mbx.sides.upd (sideKey m b) fun x => { x with txSend := h }).get (sideKey m (!b))).words + (1 + h.toNat / 2 ^ 24) ≤ 8 →
    ∃ t, exec (.txSend (r.owner b) m b h) s = .next t ∧ OnlyIn [.mbx, .pwr, .cnt] s t ∧
      t.mbx.sides = (s.mbx.sides.upd (sideKey m b) fun x => { x with txSend := h }).upd (sideKey m (!b))
        fun x => { x with queue := x.queue ++ [{ hdr := h, pay :=
          ([(s.mbSide m b).tx0, (s.mbSide m b).tx1, (s.mbSide m b).tx2, (s.mbSide m b).tx3].take (h.toNat / 2 ^ 24)) }] }) ∧
  (∀ (s : State) (m : Fin 32) (b : Bool) (v : BitVec 32) (r : MboxRec), s.live = true → s.mbRec m = some r →
    exec (.rxPop (r.owner b) m b v) s = .next (commit { s with mbx := { s.mbx with
      sides := s.mbx.sides.upd (sideKey m b) fun x =>
        { x with rxPop := v, queue := if v.getLsbD 0 then x.queue.drop 1 else x.queue } } })) ∧
  (∀ (s : State) (m : Fin 32) (b : Bool) (r : MboxRec), s.live = true → s.mbRec m = some r →
    exec (.mbStatRead (r.owner b) m b) s = .next (commit { s with
      bus := { s.bus with
        readData := BitVec.ofNat 64 ((s.mbSide m b).fullDrops % 256 + 256 * ((s.mbSide m b).staleDrops % 256)) }
      mbx := { s.mbx with sides := s.mbx.sides.upd (sideKey m b) fun x => { x with fullDrops := 0, staleDrops := 0 } } })) ∧
  (∀ (s : State) (v : BitVec 32), s.live = true → (∀ m < 32, s.bellHeld 1 m = false) →
    ∃ t, exec (.dbPendingClear 1 v) s = .next t ∧ OnlyIn [.mbx, .host] s t ∧
      t.mbx = { s.mbx with bells := s.mbx.bells.upd 1 fun d => { d with pending := d.pending &&& ~~~ v } }) ∧
  (∀ (s : State) (v : BitVec 32) (m : Nat), s.live = true → m < 32 → v.getLsbD m = true → s.bellHeld 1 m = true →
    s.mbx.bells.wf = true →
    ∃ t, exec (.dbPendingClear 1 v) s = .next t ∧ (t.mbx.bells.get 1).pending.getLsbD m = true)

/-- R119, R120, R135, R507: the host's windows. A BAR2 write to banks of tenant-0 owners lands, and a read returns their bytes; a write that
is unmapped, or touches an unpowered bank or one of another tenant's owner, is refused with its REG_ERR bit; BAR4 reads and writes the
SYSTEM region the window points at, and is refused while disabled; an abandoned access moves no data; BAR4_WIN takes a valid value and
an invalid one is dropped whole. -/
def Obligations.HostWindows : Prop :=
  (∀ (s : State) (ch : Fin 6) (lo : Nat) (b : List (BitVec 8)), s.live = true → lo + b.length ≤ 25165824 →
    (∀ k ∈ banksOf lo b.length, s.bankOff ch k = false ∧ (s.loanOf ch k).owned = true ∧
      s.b.tenantOf (16 * ch + (s.loanOf ch k).owner.toNat) = 0) →
    exec (.bar2Access false (ch * 0x2000000 + lo) b.length b) s = .next (commit { s with
      spad := { s.spad with mem := wrBytes s.spad.mem (spKey ch lo) b } })) ∧
  (∀ (s : State) (ch : Fin 6) (lo n : Nat), s.live = true → lo + n ≤ 25165824 →
    (∀ k ∈ banksOf lo n, s.bankOff ch k = false ∧ (s.loanOf ch k).owned = true ∧
      s.b.tenantOf (16 * ch + (s.loanOf ch k).owner.toNat) = 0) →
    exec (.bar2Access true (ch * 0x2000000 + lo) n []) s = .next (commit { s with
      sent := { kind := .completion, port := 2, code := ch * 0x2000000 + lo, bytes := rdBytes s.spad.mem (spKey ch lo) n } :: s.sent })) ∧
  (∀ (s : State) (off n : Nat) (b : List (BitVec 8)), s.live = true →
    (6 * 0x2000000 ≤ off ∨ 25165824 < off % 0x2000000 + n) →
    ∃ t, exec (.bar2Access false off n b) s = .next t ∧ OnlyIn [.bus, .cnt] s t ∧
      t.bus = { s.bus with regErr := s.bus.regErr.upd 1 fun e => e ||| 1#7 } ∧ t.cnt = (s.count 0x10 none none 1).cnt) ∧
  (∀ (s : State) (ch : Fin 6) (lo n k : Nat) (b : List (BitVec 8)), s.live = true → lo + n ≤ 25165824 → k ∈ banksOf lo n →
    s.bankOff ch k = true →
    ∃ t, exec (.bar2Access false (ch * 0x2000000 + lo) n b) s = .next t ∧ OnlyIn [.bus, .spad, .cnt] s t ∧
      t.bus = { s.bus with regErr := s.bus.regErr.upd 1 fun e => e ||| 16#7 } ∧ t.spad.mem = s.spad.mem ∧
      t.spad.chan = s.spad.chan.upd ch fun c => { c with events := c.events ||| 4#4 }) ∧
  (∀ (s : State) (ch : Fin 6) (lo n k : Nat) (b : List (BitVec 8)), s.live = true → lo + n ≤ 25165824 → k ∈ banksOf lo n →
    (∀ j ∈ banksOf lo n, s.bankOff ch j = false) → (s.loanOf ch k).owned = true →
    s.b.tenantOf (16 * ch + (s.loanOf ch k).owner.toNat) ≠ 0 →
    ∃ t, exec (.bar2Access false (ch * 0x2000000 + lo) n b) s = .next t ∧ OnlyIn [.bus, .cnt] s t ∧
      t.bus = { s.bus with regErr := s.bus.regErr.upd 1 fun e => e ||| 64#7 } ∧ t.cnt = (s.count 0x16 none none 1).cnt) ∧
  (∀ (s : State) (off : Nat), s.live = true → off < 6 * 0x2000000 → off % 0x2000000 < 25165824 →
    ∃ t, exec (.bar2Timeout off) s = .next t ∧ OnlyIn [.spad, .cnt] s t ∧ t.spad = { s.spad with
      chan := s.spad.chan.upd (off / 0x2000000) fun c => { c with events := c.events ||| 2#4 } }) ∧
  (∀ (s : State) (off n : Nat), s.live = true → s.bus.bar4Enable = true → s.domainOn s.bus.bar4Channel.toNat 6 = true → 0 < n →
    s.bar4Ok s.bus.bar4Channel.toNat (s.bus.bar4Base.toNat * 2097152 + off) n = true →
    exec (.bar4Access true off n []) s = .next (commit { s with
      sent := { kind := .completion, port := 4, code := off, bytes := rdBytes s.gddr.mem (gdKey s.bus.bar4Channel.toNat (s.bus.bar4Base.toNat * 2097152 + off)) n } :: s.sent })) ∧
  (∀ (s : State) (off : Nat) (b : List (BitVec 8)), s.live = true → s.bus.bar4Enable = true →
    s.domainOn s.bus.bar4Channel.toNat 6 = true → b ≠ [] →
    s.bar4Ok s.bus.bar4Channel.toNat (s.bus.bar4Base.toNat * 2097152 + off) b.length = true → Memory.wf s.gddr.mem = true →
    ∃ t, exec (.bar4Access false off b.length b) s = .next t ∧ OnlyIn [.gddr] s t ∧
      rdBytes t.gddr.mem (gdKey s.bus.bar4Channel.toNat (s.bus.bar4Base.toNat * 2097152 + off)) b.length = b ∧
      (∀ x, (x < gdKey s.bus.bar4Channel.toNat (s.bus.bar4Base.toNat * 2097152 + off) ∨
        gdKey s.bus.bar4Channel.toNat (s.bus.bar4Base.toNat * 2097152 + off) + b.length ≤ x) →
        Tab.get t.gddr.mem x = Tab.get s.gddr.mem x)) ∧
  (∀ (s : State) (isRead : Bool) (off n : Nat) (b : List (BitVec 8)), s.live = true → s.bus.bar4Enable = false →
    ∃ t, exec (.bar4Access isRead off n b) s = .next t ∧ OnlyIn [.bus, .cnt, .sent] s t ∧
      t.bus = { s.bus with regErr := s.bus.regErr.upd 1 fun e => e ||| 64#7 } ∧ t.cnt = (s.count 0x16 none none 1).cnt) ∧
  (∀ (s : State) (off : Nat), s.live = true →
    ∃ t, exec (.bar4Timeout off) s = .next t ∧ OnlyIn [.bus, .cnt] s t ∧
      t.bus = { s.bus with regErr := s.bus.regErr.upd 1 fun e => e ||| 64#7 } ∧ t.cnt = (s.count 0x16 none none 1).cnt) ∧
  (∀ (s : State) (v : BitVec 32), s.live = true → v.toNat % 8 < 6 → v.toNat / 16 % 16384 % 2048 = 0 →
    v.toNat / 16 % 16384 ≤ 10240 →
    exec (.bar4WinWrite v) s = .next (commit { s with bus := { s.bus with
      bar4Channel := BitVec.ofNat 3 (v.toNat % 8), bar4Enable := v.getLsbD 3
      bar4Base := BitVec.ofNat 14 (v.toNat / 16 % 16384) } })) ∧
  (∀ (s : State) (v : BitVec 32), s.live = true →
    (6 ≤ v.toNat % 8 ∨ v.toNat / 16 % 16384 % 2048 ≠ 0 ∨ 10240 < v.toNat / 16 % 16384) →
    ∃ t, exec (.bar4WinWrite v) s = .next t ∧ OnlyIn [.bus, .cnt] s t ∧
      t.bus = { s.bus with regErr := s.bus.regErr.upd 1 fun e => e ||| 64#7 })
/-- R139, R142: BUSY of a bank clears when its zeroing is done; the curator writes a LOAN register while the channel's mode is not NORMAL; a
write by HOST_PF in NORMAL is dropped with DENIED. -/
def Obligations.LoanRegisters : Prop :=
  (∀ (s : State) (ch : Fin 6) (bank : Fin 48), s.live = true →
    exec (.bankZeroDone ch bank) s = .next (commit { s with spad := { s.spad with
      loans := s.spad.loans.upd (48 * ch + bank) fun l => { l with busy := false } } })) ∧
  (∀ (s : State) (ch : Fin 6) (bank : Fin 48) (v : BitVec 32), s.live = true → (s.spad.chan.get ch).mode ≠ .normal →
    exec (.loanWrite 0x10 ch bank v) s = .next (commit { s with spad := { s.spad with
      loans := s.spad.loans.upd (48 * ch + bank) fun l => { l with
        owner := BitVec.ofNat 4 (v.toNat % 16), owned := v.getLsbD 4, zero := v.getLsbD 5
        tenant := BitVec.ofNat 4 (if v.getLsbD 4 then s.b.tenantOf (16 * ch + v.toNat % 16) else 0)
        share := BitVec.ofNat 16 (v.toNat / 65536) } } })) ∧
  (∀ (s : State) (ch : Fin 6) (bank : Fin 48) (v : BitVec 32), s.live = true → (s.spad.chan.get ch).mode = .normal →
    ∃ t, exec (.loanWrite 1 ch bank v) s = .next t ∧ OnlyIn [.bus, .cnt] s t ∧
      t.bus = { s.bus with regErr := s.bus.regErr.upd 1 fun e => e ||| 64#7 } ∧ t.cnt = (s.count 0x16 none none 1).cnt)

/-- R148, R150 to R153, R158 to R161, R164: a DMA queue. GO on an idle queue by its driver takes the register program: a program in range
stands ready for its first beat with BYTES 0; one outside its ranges halts the queue with RANGE_FAULT and ERROR; GO on a busy queue is
dropped with GO_BUSY; GO by HOST_PF where it does not drive the queue is denied. A beat between banks of the activity's own channel
moves its bytes, counts them and changes no other byte; ABORT marks a transfer, whose next beat ends it with the ABORTED code; the
acknowledgement of an ended register transfer leaves the queue IDLE with DONE, or HALTED with ERROR and its code; where that ends carried
work of an activity without ops, the work's tick is flagged LATE (R41, R42). -/
def Obligations.DmaQueues : Prop :=
  (∀ (s : State) (ch : Fin 6) (q : Fin 16) (m : Nat), s.live = true → s.drives m (16 * ch + q) = true →
    (s.queue (16 * ch + q)).busy = false → (s.b.dq (16 * ch + q)).mode = 0 →
    progOk (s.queue (16 * ch + q)).regs (s.b.dq (16 * ch + q)).paceFifo = true →
    s.progInRange (16 * ch + q) (s.queue (16 * ch + q)).regs = true → (s.queue (16 * ch + q)).regs.pace = false →
    exec (.dmaGo m ch q) s = .next (commit { s with dma := { s.dma with
      queues := (s.dma.queues.upd (16 * ch + q) fun x => { x with
        state := .active, bytes := 0, stop := .none, descAt := none, chained := false, empty := false, pendCode := none }).upd
        (16 * ch + q) fun x => { x with
          state := .active, prog := (s.queue (16 * ch + q)).regs, pos := 0, started := false, isOpen := false
          pendCode := none, hold := [] } } })) ∧
  (∀ (s : State) (ch : Fin 6) (q : Fin 16) (m : Nat), s.live = true → s.drives m (16 * ch + q) = true →
    (s.queue (16 * ch + q)).busy = false → (s.b.dq (16 * ch + q)).mode = 0 → s.dma.queues.wf = true →
    progOk (s.queue (16 * ch + q)).regs (s.b.dq (16 * ch + q)).paceFifo = true →
    s.progInRange (16 * ch + q) (s.queue (16 * ch + q)).regs = false →
    ∃ t, exec (.dmaGo m ch q) s = .next t ∧ OnlyIn [.dma, .acts, .cnt] s t ∧ (t.queue (16 * ch + q)).state = .halted ∧
      (t.queue (16 * ch + q)).code = 4 ∧ (t.queue (16 * ch + q)).events.getLsbD 1 = true ∧
      (t.queue (16 * ch + q)).codeTick = s.tick.num % 65536) ∧
  (∀ (s : State) (ch : Fin 6) (q : Fin 16) (m : Nat), s.live = true → s.drives m (16 * ch + q) = true →
    (s.queue (16 * ch + q)).busy = true →
    ∃ t, exec (.dmaGo m ch q) s = .next t ∧ OnlyIn [.dma, .cnt] s t ∧ t.dma = { s.dma with
      queues := s.dma.queues.upd (16 * ch + q) fun x => { x with events := x.events ||| 4#4 } }) ∧
  (∀ (s : State) (ch : Fin 6) (q : Fin 16), s.live = true → s.drives 1 (16 * ch + q) = false →
    ∃ t, exec (.dmaGo 1 ch q) s = .next t ∧ OnlyIn [.bus, .cnt] s t ∧
      t.bus = { s.bus with regErr := s.bus.regErr.upd 1 fun e => e ||| 64#7 } ∧ t.cnt = (s.count 0x16 none none 1).cnt) ∧
  (∀ (s : State) (ch : Fin 6) (q : Fin 16) (x : Queue) (n sa da : Nat), s.live = true → s.queue (16 * ch + q) = x →
    x.state = .active → x.pendCode = none → (s.acts.get (16 * ch + q)).run = none → x.stop = .none → x.hold = [] → x.pos = 0 →
    n = 2 ^ x.prog.dstW → x.prog.srcW = x.prog.dstW → n < x.prog.total → 0 < x.prog.count →
    x.prog.src = BitVec.ofNat 64 sa → x.prog.dst = BitVec.ofNat 64 da → sa < 25165824 → da < 25165824 → x.prog.pace = false →
    s.spAcc (16 * ch + q) false sa n = .ok → s.spAcc (16 * ch + q) true da n = .ok → s.dma.queues.wf = true → Memory.wf s.spad.mem = true →
    ∃ t, exec (.dmaBeat ch q 0 []) s = .next t ∧ OnlyIn [.dma, .spad] s t ∧ (t.queue (16 * ch + q)).pos = n ∧
      (t.queue (16 * ch + q)).bytes = x.bytes + BitVec.ofNat 48 n ∧ (t.queue (16 * ch + q)).started = true ∧
      (t.queue (16 * ch + q)).pendCode = none ∧ t.spGet ch da n = s.spGet ch sa n ∧
      ∀ k, (k < spKey ch da ∨ spKey ch da + n ≤ k) → Tab.get t.spad.mem k = Tab.get s.spad.mem k) ∧
  (∀ (s : State) (ch : Fin 6) (q : Fin 16), s.live = true → (s.queue (16 * ch + q)).busy = true →
    (s.queue (16 * ch + q)).chained = false → (s.queue (16 * ch + q)).stop = .none → (s.b.opsOf (16 * ch + q)) = [] →
    (s.spad.chan.get ch).mode = .normal →
    exec (.dmaAbort 0x10 ch q) s = .next (commit { s with dma := { s.dma with
      queues := s.dma.queues.upd (16 * ch + q) fun x => { x with stop := .aborted } } })) ∧
  (∀ (s : State) (ch : Fin 6) (q : Fin 16) (inb : List (BitVec 8)) (line : Nat), s.live = true → (s.queue (16 * ch + q)).busy = true →
    (s.queue (16 * ch + q)).pendCode = none → (s.acts.get (16 * ch + q)).run = none → (s.queue (16 * ch + q)).stop = .aborted →
    s.beatLicensed (16 * ch + q) (s.queue (16 * ch + q)).prog = false →
    exec (.dmaBeat ch q line inb) s = .next (commit { s with dma := { s.dma with
      queues := s.dma.queues.upd (16 * ch + q) fun x => { x with pendCode := some 10, stop := .none } } })) ∧
  (∀ (s : State) (ch : Fin 6) (q : Fin 16) (x : Queue), s.live = true → s.queue (16 * ch + q) = x → x.pendCode = some 0 →
    x.descAt = none → s.dma.queues.wf = true → (s.act (16 * ch + q)).carry = false →
    ∃ t, exec (.dmaTransferDone ch q 0) s = .next t ∧ OnlyIn [.dma, .acts, .cnt] s t ∧ (t.queue (16 * ch + q)).state = .idle ∧
      (t.queue (16 * ch + q)).code = 0 ∧ (t.queue (16 * ch + q)).events = x.events ||| 1#4 ∧
      (t.queue (16 * ch + q)).late = (x.started && x.firstTick != s.tick.num) ∧
      (t.queue (16 * ch + q)).codeTick = s.tick.num % 65536) ∧
  (∀ (s : State) (ch : Fin 6) (q : Fin 16) (x : Queue) (c : Nat), s.live = true → s.queue (16 * ch + q) = x → x.pendCode = some c →
    c ≠ 0 → x.descAt = none → s.dma.queues.wf = true → (s.act (16 * ch + q)).carry = false →
    ∃ t, exec (.dmaTransferDone ch q 0) s = .next t ∧ OnlyIn [.dma, .acts, .cnt] s t ∧ (t.queue (16 * ch + q)).state = .halted ∧
      (t.queue (16 * ch + q)).code = c ∧ (t.queue (16 * ch + q)).events = x.events ||| 2#4) ∧
  (∀ (s : State) (ch : Fin 6) (q : Fin 16) (x : Queue) (c : Nat), s.live = true → s.queue (16 * ch + q) = x → x.pendCode = some c →
    x.descAt = none → s.dma.queues.wf = true → s.acts.wf = true → (s.act (16 * ch + q)).carry = true → s.b.opsOf (16 * ch + q) = [] →
    ∃ t, exec (.dmaTransferDone ch q 0) s = .next t ∧ OnlyIn [.dma, .acts, .cnt, .tick] s t ∧ (t.queue (16 * ch + q)).busy = false ∧
      (t.act (16 * ch + q)).carry = false ∧ (t.act (16 * ch + q)).flagsPrev.late = true ∧ t.tick.events.getLsbD 0 = true)

/-- R30 to R32, R99, R163, R187: reservations and the op sequence. A reservation that the plan has now is held, and one on a lane does
nothing else; the end of one with no op in hand releases it; at the end of the ME's a MATMUL in hand is saved with its accumulators and
no other byte changes; COPY loads the activity's queue with its program; OP_END takes the next op after OK, and after any other code
(CARRY apart) the activity's work of the tick is over. -/
def Obligations.OpSequence : Prop :=
  (∀ (s : State) (a : Fin 96) (ch : Fin 6) (cls inst opseq budget cycles line : Nat), s.live = true → 8 ≤ cls →
    s.resStarts a ch cls inst opseq = true →
    exec (.reservationStart a ch cls inst opseq budget cycles line) s = .next (commit { s with
      acts := s.acts.upd a fun x => { x with held := x.held ++ [{ channel := ch, cls := cls, inst := inst, opseq := opseq }] } })) ∧
  (∀ (s : State) (a : Fin 96) (ch : Fin 6) (cls inst : Nat), s.live = true → (s.act a).run = none →
    ((s.act a).held.any fun h => h.channel == ch.val && h.cls == cls && h.inst == inst) = true →
    exec (.reservationEnd a ch cls inst) s = .next (commit { s with
      acts := s.acts.upd a fun x => { x with
        held := x.held.filter fun h => !(h.channel == ch.val && h.cls == cls && h.inst == inst) } })) ∧
  (∀ (s : State) (a : Fin 96) (ch : Fin 6) (r : OpRun) (at' : Nat), s.live = true → s.acts.wf = true → Memory.wf s.spad.mem = true →
    s.engs.wf = true → (s.act a).run = some r → r.opcode = 0x0101 → r.code = none → r.loading = false → r.saved = false →
    ((s.act a).held.any fun h => h.channel == ch.val && h.cls == 1 && h.inst == 0) = true →
    at' = (matmulJob s (a / 16) (s.opOf a)).saveAddr → at' < 25165824 →
    s.firstRefusal a true [(at', 4 * r.acc.length + 64)] = .ok →
    ∃ t, exec (.reservationEnd a ch 1 0) s = .next t ∧ OnlyIn [.acts, .engs, .spad, .freeCount] s t ∧
      (t.act a).run = some { r with saved := true, acc := [] } ∧
      t.spGet (a / 16) at' (4 * r.acc.length) = r.acc.flatMap (fun w => toLe 4 w.toNat) ∧
      (∀ x, (x < spKey (a / 16) at' ∨ spKey (a / 16) at' + (4 * r.acc.length + 64) ≤ x) → Tab.get t.spad.mem x = Tab.get s.spad.mem x) ∧
      (t.engs.get (a / 16)).me.saved = true ∧ (t.engs.get (a / 16)).me.busy = false) ∧
  (∀ (s : State) (a : Fin 96) (o : OpRec), s.live = true → s.acts.wf = true → s.dma.queues.wf = true →
    s.opReady a 0x0301 3 0 = some o → (s.queue a).busy = false → u8 o.params 0 = 0 →
    (s.opBegin a o).progCode a (descProg (slice o.params 48 64)) = 0 → (descProg (slice o.params 48 64)).pace = false →
    ∃ t, exec (.copy a) s = .next t ∧ OnlyIn [.acts, .dma] s t ∧ (t.queue a).state = .active ∧
      (t.queue a).prog = descProg (slice o.params 48 64) ∧ (t.queue a).pos = 0 ∧
      (t.act a).run = some { seq := o.seq, opcode := o.opcode }) ∧
  (∀ (s : State) (a : Fin 96) (r : OpRun) (o : OpRec), s.live = true → (s.act a).run = some r → r.code = some 0 →
    s.b.opAt a r.seq = some o → o.last = false → (s.b.opAt a (r.seq + 1)).isSome = true →
    exec (.opEnd a) s = .next (commit { s with acts := s.acts.upd a fun x => { x with
      run := none, seqNext := r.seq + 1, ended := x.ended ++ [r.seq] } })) ∧
  (∀ (s : State) (a : Fin 96) (r : OpRun) (c : Nat), s.live = true → s.acts.wf = true → (s.act a).run = some r →
    r.code = some c → c ≠ 0 → (s.act a).carry = false →
    ∃ t, exec (.opEnd a) s = .next t ∧ OnlyIn [.acts] s t ∧ (t.act a).run = none ∧ (t.act a).finished = true ∧
      (t.act a).ended = (s.act a).ended ++ ((s.b.opsOf a).map (·.seq)).filter (r.seq ≤ ·))
/-- R183 to R187, R189, R199: the matrix engine. A MATMUL or CONV that may start takes the engine; a MATMUL of INT8 operands with one output
element into INT32 writes the sum of the products modulo 2^32 there and no other byte; a MATMUL or CONV of one pair and one k-tile
converts and writes it and is complete with OK; a CONV with a remote weight block first has its queue load it. -/
def Obligations.MatrixEngine : Prop :=
  (∀ (s : State) (a : Fin 96) (o : OpRec) (cycles line : Nat) (stall : Bool), s.live = true → s.acts.wf = true → s.engs.wf = true →
    line ≠ 2 → s.opReady a 0x0101 1 0 = some o →
    ∃ t, exec (.matmul a 0 cycles line stall) s = .next t ∧ OnlyIn [.acts, .engs, .chk, .cnt] s t ∧
      (t.act a).run = some { seq := o.seq, opcode := o.opcode } ∧ (t.engs.get (a / 16)).me.busy = true ∧
      (t.engs.get (a / 16)).me.activity = a.val ∧
      (t.engs.get (a / 16)).me.busyCyc = (s.engs.get (a / 16)).me.busyCyc + BitVec.ofNat 48 cycles) ∧
  (∀ (s : State) (a : Fin 96) (o : OpRec) (cycles : Nat) (j : MeJob), s.live = true → s.acts.wf = true → s.engs.wf = true →
    s.opReady a 0x0101 1 0 = some o → o.opcode = 0x0101 → o.spot = false → Memory.wf s.spad.mem = true →
    u8 o.params 0 = 7 → u8 o.params 1 = 7 → u8 o.params 2 = 10 → u8 o.params 3 = 0 → o.p32 8 = 1 → o.p32 12 = 1 →
    1 ≤ o.p32 16 → o.p32 16 ≤ 96 → j = matmulJob s (a / 16) o → s.firstRefusal a false (j.initReads 0 ++ j.reads 0 0) = .ok →
    s.firstRefusal a false (j.convReads 0) = .ok → s.firstRefusal a true (j.writes 0) = .ok →
    ∃ t, exec (.matmul a 1 cycles 0 false) s = .next t ∧ OnlyIn [.acts, .engs, .spad, .cnt] s t ∧
      ((t.act a).run.bind (·.code)) = some 0 ∧ (t.engs.get (a / 16)).me.busy = false ∧
      t.spGet (a / 16) (o.p32 36) 4 = toLe 4 (BitVec.ofInt 32 ((List.range (o.p32 16)).map fun k =>
        signedOf 8 (u8 (s.spGet (a / 16) (o.p32 20 + k) 1) 0) * signedOf 8 (u8 (s.spGet (a / 16) (o.p32 28 + k) 1) 0)).sum).toNat ∧
      (∀ x, (x < spKey (a / 16) (o.p32 36) ∨ spKey (a / 16) (o.p32 36) + 4 ≤ x) → Tab.get t.spad.mem x = Tab.get s.spad.mem x)) ∧
  (∀ (s s1 : State) (a : Fin 96) (o : OpRec) (cycles line : Nat) (stall : Bool) (j : MeJob), s.live = true → s.acts.wf = true →
    s.engs.wf = true → line ≠ 2 → s.opReady a 0x0101 1 0 = some o → o.opcode = 0x0101 →
    s1 = ((s.opBegin a o).meTake a).spotSample a o → j = matmulJob s1 (a / 16) o → j.pairs = 1 → j.ktilesAt 0 (j.col0 0) = 1 →
    s1.firstRefusal a false (j.initReads 0 ++ j.reads 0 0) = .ok → j.bad 0 0 = false →
    ((s1.meConvert a j 0 (j.stepPair 0 0 (j.initPair 0))).opInHand a 0x0101).isSome = true →
    ∃ t, exec (.matmul a 1 cycles line stall) s = .next t ∧ OnlyIn [.acts, .engs, .spad, .chk, .cnt] s t ∧
      ((t.act a).run.bind (·.code)) = some 0 ∧ (t.engs.get (a / 16)).me.busy = false ∧ (t.engs.get (a / 16)).me.code = 0 ∧
      t.spad = (s1.meConvert a j 0 (j.stepPair 0 0 (j.initPair 0))).spad) ∧
  (∀ (s : State) (a : Fin 96) (o : OpRec) (cycles line : Nat) (stall : Bool), s.live = true → s.acts.wf = true → s.engs.wf = true →
    line ≠ 2 → s.opReady a 0x0102 1 0 = some o → (u8 o.params 3).testBit 5 = false →
    ∃ t, exec (.conv a 0 cycles line stall) s = .next t ∧ OnlyIn [.acts, .engs, .chk, .cnt] s t ∧
      (t.act a).run = some { seq := o.seq, opcode := o.opcode } ∧ (t.engs.get (a / 16)).me.busy = true ∧
      (t.engs.get (a / 16)).me.activity = a.val) ∧
  (∀ (s s1 : State) (a : Fin 96) (o : OpRec) (cycles line : Nat) (stall : Bool) (j : MeJob), s.live = true → s.acts.wf = true →
    s.engs.wf = true → line ≠ 2 → s.opReady a 0x0102 1 0 = some o → o.opcode = 0x0102 → (u8 o.params 3).testBit 5 = false →
    s1 = ((s.opBegin a o).meTake a).spotSample a o → j = convJob s1 (a / 16) o → j.pairs = 1 → j.ktilesAt 0 (j.col0 0) = 1 →
    s1.firstRefusal a false (j.initReads 0 ++ j.reads 0 0) = .ok → j.bad 0 0 = false →
    ((s1.meConvert a j 0 (j.stepPair 0 0 (j.initPair 0))).opInHand a 0x0102).isSome = true →
    ∃ t, exec (.conv a 1 cycles line stall) s = .next t ∧ OnlyIn [.acts, .engs, .spad, .chk, .cnt] s t ∧
      ((t.act a).run.bind (·.code)) = some 0 ∧ (t.engs.get (a / 16)).me.code = 0 ∧
      t.spad = (s1.meConvert a j 0 (j.stepPair 0 0 (j.initPair 0))).spad) ∧
  (∀ (s : State) (a : Fin 96) (o : OpRec) (budget cycles line : Nat) (stall : Bool), s.live = true → s.acts.wf = true →
    s.dma.queues.wf = true → s.opReady a 0x0102 1 0 = some o → (u8 o.params 3).testBit 5 = true → o.spot = false →
    (s.queue a).busy = false → (s.opBegin a o).progCode a (convLoadProg o) = 0 →
    ∃ t, exec (.conv a budget cycles line stall) s = .next t ∧ OnlyIn [.acts, .engs, .dma, .cnt] s t ∧
      (t.act a).run = some { seq := o.seq, opcode := o.opcode, loading := true } ∧ (t.queue a).state = .active ∧
      (t.queue a).prog = convLoadProg o)
/-- R223, R225, R228, R235, R238: the attention engine. ATTN takes the engine when every needed leaf is resident, and waits otherwise;
ATTN_SNAPSHOT takes the snapshot once they all are; GEMV_STREAM ends with RANGE_FAULT where its weights lie outside the activity's
regions, and an op whose first step is its last completes with that step's writes. -/
def Obligations.AttentionEngine : Prop :=
  (∀ (s s1 : State) (a : Fin 96) (o : OpRec), s.live = true → s.acts.wf = true → s.engs.wf = true → s.opReady a 0x0201 2 0 = some o →
    s1 = (s.opBegin a o).aeTake a → s1.firstRefusal a false (attnInfoReads (attnShape o)) = .ok →
    missingLeaves (s1.segSnaps (a / 16) (attnShape o)) = [] →
    ∃ t, exec (.attn a) s = .next t ∧ OnlyIn [.acts, .engs] s t ∧ (t.act a).run = some { seq := o.seq, opcode := o.opcode } ∧
      (t.engs.get (a / 16)).ae.busy = true ∧ (t.engs.get (a / 16)).ae.waiting = false ∧ (t.engs.get (a / 16)).ae.activity = a.val) ∧
  (∀ (s s1 : State) (a : Fin 96) (o : OpRec), s.live = true → s.acts.wf = true → s.engs.wf = true → s.opReady a 0x0201 2 0 = some o →
    s1 = (s.opBegin a o).aeTake a → s1.firstRefusal a false (attnInfoReads (attnShape o)) = .ok →
    missingLeaves (s1.segSnaps (a / 16) (attnShape o)) ≠ [] →
    ∃ t, exec (.attn a) s = .next t ∧ (t.act a).run = some { seq := o.seq, opcode := o.opcode, waiting := true } ∧
      (t.engs.get (a / 16)).ae.busy = false ∧ (t.engs.get (a / 16)).ae.waiting = true ∧ t.spad = s.spad) ∧
  (∀ (s : State) (a : Fin 96) (r : OpRun) (x : AttnShape) (cycles line : Nat), s.live = true → s.acts.wf = true → s.engs.wf = true →
    s.opInHand a 0x0201 = some r → r.snap = none → r.saved = false → s.holdsFor a 2 0 r.seq = true → x = attnShape (s.opOf a) →
    s.firstRefusal a false (attnInfoReads x) = .ok → missingLeaves (s.segSnaps (a / 16) x) = [] →
    s.attnCheck a x (s.segSnaps (a / 16) x) = 0 →
    ∃ t, exec (.attnSnapshot a 0 cycles line) s = .next t ∧ ((t.act a).run.bind (·.snap)).isSome = true ∧
      ((t.act a).run.map (·.waiting)) = some false ∧ (t.engs.get (a / 16)).ae.busy = true ∧
      (t.engs.get (a / 16)).ae.waiting = false ∧ t.spad = s.spad) ∧
  (∀ (s s1 : State) (a : Fin 96) (o : OpRec) (budget cycles line : Nat), s.live = true → s.acts.wf = true → s.engs.wf = true →
    s.opReady a 0x0202 2 0 = some o → s1 = (s.opBegin a o).aeTake a → s1.gemvInRange a o = false →
    ∃ t, exec (.gemvStream a budget cycles line) s = .next t ∧ OnlyIn [.acts, .engs] s t ∧
      (t.act a).run = some { seq := o.seq, opcode := o.opcode, code := some 4 } ∧
      (t.engs.get (a / 16)).ae.busy = false ∧ (t.engs.get (a / 16)).ae.code = 4) ∧
  (∀ (s s1 s2 : State) (a : Fin 96) (o : OpRec) (cycles line : Nat), s.live = true → s.acts.wf = true → s.engs.wf = true →
    s.opReady a 0x0202 2 0 = some o → o.opcode = 0x0202 → s1 = (s.opBegin a o).aeTake a → s1.gemvInRange a o = true →
    s1.gemvStep a o line { seq := o.seq, opcode := o.opcode } = some s2 → ((s2.act a).run.bind (·.code)) = some 0 →
    ∃ t, exec (.gemvStream a 1 cycles line) s = .next t ∧ (t.act a).run = (s2.act a).run ∧ t.spad = s2.spad ∧
      (t.engs.get (a / 16)).ae.busy = false)

/-- R198, R201, R202: the general-core ops. One that fits its reservation completes with OK: SPACE2DEPTH (without its flag 0) and
DEPTH2SPACE move each element of R201 in output order, and TCONV_PREP copies COLSCALE and BIAS behind the phases and writes no byte
outside its destination. A SPACE2DEPTH that does not fit has begun and leaves memory as it was. -/
def Obligations.CoreOps : Prop :=
  (∀ (s : State) (a : Fin 96) (c : Fin 4) (o : OpRec), s.live = true → s.acts.wf = true → s.opReady a 0x0302 3 c = some o →
    exec (.space2depth a c false) s = .next (commit { s with acts := s.acts.upd a fun x =>
      { x with run := some { seq := o.seq, opcode := o.opcode } } })) ∧
  (∀ (s : State) (a : Fin 96) (c : Fin 4) (o : OpRec) (mv : List (Nat × Nat)) (w : Nat), s.live = true → s.acts.wf = true →
    s.opReady a 0x0302 3 c = some o → (u8 o.params 3).testBit 0 = false → w = elemBits (u8 o.params 0) →
    mv = s2dMoves false o.params w (elemBits (u8 o.params 1)) → s.firstRefusal a false (mv.map fun m => (m.1, w / 8)) = .ok →
    s.firstRefusal a true (mv.map fun m => (m.2, elemBits (u8 o.params 1) / 8)) = .ok →
    ∃ t, exec (.space2depth a c true) s = .next t ∧ OnlyIn [.acts, .spad] s t ∧ ((t.act a).run.bind (·.code)) = some 0 ∧
      t.spad.mem = mv.foldl (fun m x => wrBytes m (spKey (a / 16) x.2) (rdBytes m (spKey (a / 16) x.1) (w / 8))) s.spad.mem) ∧
  (∀ (s : State) (a : Fin 96) (c : Fin 4) (o : OpRec) (mv : List (Nat × Nat)) (w : Nat), s.live = true → s.acts.wf = true →
    s.opReady a 0x0303 3 c = some o → w = elemBits (u8 o.params 0) →
    mv = s2dMoves true o.params w (elemBits (u8 o.params 1)) → s.firstRefusal a false (mv.map fun m => (m.1, w / 8)) = .ok →
    s.firstRefusal a true (mv.map fun m => (m.2, elemBits (u8 o.params 1) / 8)) = .ok →
    ∃ t, exec (.depth2space a c true) s = .next t ∧ OnlyIn [.acts, .spad] s t ∧ ((t.act a).run.bind (·.code)) = some 0 ∧
      t.spad.mem = mv.foldl (fun m x => wrBytes m (spKey (a / 16) x.2) (rdBytes m (spKey (a / 16) x.1) (w / 8))) s.spad.mem) ∧
  (∀ (s : State) (a : Fin 96) (c : Fin 4) (o : OpRec) (bS bD : ConvBlock), s.live = true → s.acts.wf = true →
    Memory.wf s.spad.mem = true → s.opReady a 0x0304 3 c = some o → bS = (tconvShape o.params false).block (u8 o.params 0) false →
    bD = (tconvShape o.params true).block (u8 o.params 0) false → u16 o.params 12 ≠ 0 → o.p32 20 + bD.bias < 25165824 →
    s.firstRefusal a false [(o.p32 16, bS.bias + 4 * u16 o.params 12)] = .ok →
    s.firstRefusal a true [(o.p32 20, bD.bias + 4 * u16 o.params 12)] = .ok →
    ∃ t, exec (.tconvPrep a c true) s = .next t ∧ OnlyIn [.acts, .spad] s t ∧ ((t.act a).run.bind (·.code)) = some 0 ∧
      t.spGet (a / 16) (o.p32 20 + bD.bias) (4 * u16 o.params 12) = s.spGet (a / 16) (o.p32 16 + bS.bias) (4 * u16 o.params 12) ∧
      (∀ x, (x < spKey (a / 16) (o.p32 20) ∨ spKey (a / 16) (o.p32 20) + (bD.bias + 4 * u16 o.params 12) ≤ x) →
        Tab.get t.spad.mem x = Tab.get s.spad.mem x))
/-- R203 to R210: detection. BOXDEC writes the best candidates of its levels in order and the summary; NMS_TIDY writes the records that the
selection of R208 keeps and the summary, and stops with RANGE_FAULT where the summary it reads names more than 4,096 records. -/
def Obligations.DetectionOps : Prop :=
  (∀ (s : State) (a : Fin 96) (o : OpRec) (recs : List (List (BitVec 8))) (parts : List (List BoxCand × Nat))
    (cands out : List BoxCand), s.live = true → s.acts.wf = true → s.opReady a 0x0401 4 0 = some o →
    s.firstRefusal a false [(o.p32 40, 64 * u8 o.params 6)] = .ok →
    recs = (List.range (u8 o.params 6)).map (fun i => s.spGet (a / 16) (o.p32 40 + 64 * i) 64) →
    s.firstRefusal a false (recs.flatMap fun r => (List.range (u16 r 0)).map fun gy =>
      (u32 r 24 + gy * u32 r 28,
        u16 r 2 * ((elemBytes (u8 o.params 0) (u8 r 4 * (4 + u16 o.params 4)) + 15) / 16 * 16))) = .ok →
    parts = (List.range (u8 o.params 6)).map (fun i => s.boxLevel (a / 16) o (recs.getD i []) i (levelBase recs i)) →
    cands = sortBy BoxCand.before (parts.flatMap (·.1)) → out = cands.take (u16 o.params 52) →
    s.firstRefusal a true [(o.p32 44, 32 * out.length), (o.p32 48, 64)] = .ok →
    ∃ t, exec (.boxdec a true) s = .next t ∧ OnlyIn [.acts, .engs, .spad, .cnt] s t ∧ ((t.act a).run.bind (·.code)) = some 0 ∧
      t.spad.mem = wrBytes (wrBytes s.spad.mem (spKey (a / 16) (o.p32 44)) (out.flatMap (·.bytes))) (spKey (a / 16) (o.p32 48))
        (summaryBytes out.length cands.length (parts.map (·.2)).sum (decide (u16 o.params 52 < cands.length)) (classMask out)
          (s.act a).workTick)) ∧
  (∀ (s : State) (a : Fin 96) (o : OpRec) (n : Nat) (k : List BoxCand × Bool), s.live = true → s.acts.wf = true →
    s.opReady a 0x0402 4 0 = some o → s.firstRefusal a false [(o.p32 12, 64)] = .ok →
    n = u32 (s.spGet (a / 16) (o.p32 12) 4) 0 → n ≤ 4096 → s.firstRefusal a false [(o.p32 8, 32 * n)] = .ok →
    k = nmsKeep (u8 o.params 0 == 1) (o.pF 4) (u16 o.params 24) [] (sortBy BoxCand.before
      ((List.range n).map fun i => boxOf (s.spGet (a / 16) (o.p32 8 + 32 * i) 32))) →
    s.firstRefusal a true [(o.p32 16, 32 * k.1.length), (o.p32 20, 64)] = .ok →
    ∃ t, exec (.nmsTidy a true) s = .next t ∧ OnlyIn [.acts, .engs, .spad, .cnt] s t ∧ ((t.act a).run.bind (·.code)) = some 0 ∧
      t.spad.mem = wrBytes (wrBytes s.spad.mem (spKey (a / 16) (o.p32 16)) (k.1.flatMap (·.raw))) (spKey (a / 16) (o.p32 20))
        (summaryBytes k.1.length n 0 k.2 (classMask k.1) (s.act a).workTick)) ∧
  (∀ (s : State) (a : Fin 96) (o : OpRec), s.live = true → s.acts.wf = true →
    s.opReady a 0x0402 4 0 = some o → s.firstRefusal a false [(o.p32 12, 64)] = .ok →
    4096 < u32 (s.spGet (a / 16) (o.p32 12) 4) 0 →
    ∃ t, exec (.nmsTidy a true) s = .next t ∧ OnlyIn [.acts] s t ∧ ((t.act a).run.bind (·.code)) = some 4)
/-- R205, R208: what NMS_TIDY keeps is a selection of the records it was given in their order, no more than MAX_OUT, and no two kept
records of one class (of any class, with AGNOSTIC) overlap by more than the threshold. -/
def Obligations.NmsKeepsSeparated : Prop :=
  ∀ (agn : Bool) (thr : FVal) (maxOut : Nat) (l : List BoxCand),
    (nmsKeep agn thr maxOut [] l).1.Sublist l ∧ (nmsKeep agn thr maxOut [] l).1.length ≤ maxOut ∧
    (nmsKeep agn thr maxOut [] l).1.Pairwise (fun x y => (agn || x.cls == y.cls) = true → thr.lt (boxIou x y) = false)
/-- R270, R271, R274, R275, R278: the serving ops. SAMPLE and DRAFT of one sequence write that sequence's outputs and complete with OK;
RMSNORM and SWIGLU of one row write the row converted to the output format. -/
def Obligations.ServingOps : Prop :=
  (∀ (s s1 : State) (a : Fin 96) (o : OpRec) (chain : List Nat), s.live = true → s.acts.wf = true → s.opReady a 0x0403 4 0 = some o →
    o.opcode = 0x0403 → o.fn = 0 → u16 o.params 2 = 1 → s1 = s.opBegin a o →
    chain = (if s1.sampleStays (a / 16) o 0 then [0] else []) →
    s1.firstRefusal a false (s1.seqReads (a / 16) o 0 false) = .ok →
    s1.firstRefusal a true ((s1.sampleSeq (a / 16) o chain 0).writes.map fun w => (w.1, w.2.length)) = .ok →
    ∃ t, exec (.sample a 1) s = .next t ∧ OnlyIn [.acts, .engs, .spad, .cnt, .freeCount] s t ∧
      ((t.act a).run.bind (·.code)) = some 0 ∧
      t.spad = ((s1.sampleSeq (a / 16) o chain 0).writes.foldl (fun (s : State) w => s.spWrite (a / 16) w.1 w.2) s1).spad) ∧
  (∀ (s s1 : State) (a : Fin 96) (o : OpRec), s.live = true → s.acts.wf = true → s.opReady a 0x0403 4 0 = some o →
    o.opcode = 0x0403 → o.fn = 1 → u16 o.params 2 = 1 → s1 = s.opBegin a o →
    s1.firstRefusal a false (s1.seqReads (a / 16) o 0 true) = .ok →
    s1.firstRefusal a true ((s1.draftSeq (a / 16) o (s1.activeSeqs (a / 16) o) 0).writes.map fun w => (w.1, w.2.length)) = .ok →
    ∃ t, exec (.draft a 1) s = .next t ∧ OnlyIn [.acts, .engs, .spad, .cnt, .freeCount] s t ∧
      ((t.act a).run.bind (·.code)) = some 0 ∧
      t.spad = ((s1.draftSeq (a / 16) o (s1.activeSeqs (a / 16) o) 0).writes.foldl
        (fun (s : State) w => s.spWrite (a / 16) w.1 w.2) s1).spad) ∧
  (∀ (s : State) (a : Fin 96) (o : OpRec), s.live = true → s.acts.wf = true → Memory.wf s.spad.mem = true →
    s.opReady a 0x0403 4 0 = some o → o.fn = 2 → o.strict = false → o.p32 4 = 1 → o.p32 20 < 0x2000000 →
    s.firstRefusal a false [(o.p32 12, elemBytes (u8 o.params 1) (o.p32 8)), (o.p32 28, 4 * o.p32 8)] = .ok →
    s.firstRefusal a true [(o.p32 20, elemBytes (u8 o.params 2) (o.p32 8))] = .ok →
    ∃ t, exec (.rmsnorm a true) s = .next t ∧ OnlyIn [.acts, .spad] s t ∧ ((t.act a).run.bind (·.code)) = some 0 ∧
      t.spad.mem = wrBytes s.spad.mem (spKey (a / 16) (o.p32 20)) (packElems (u8 o.params 2)
        ((rmsRow ((List.range (o.p32 8)).map fun j => (s.valAt (a / 16) (u8 o.params 1) (o.p32 12) 0 j).r32)
          ((List.range (o.p32 8)).map fun j => s.f32At (a / 16) (o.p32 28) j) (o.p32 8) (o.pF 32)).map fun v =>
            (convPlain (u8 o.params 2) ((u8 o.params 3).testBit 0) ((u8 o.params 3).testBit 1) v).bits))) ∧
  (∀ (s : State) (a : Fin 96) (o : OpRec), s.live = true → s.acts.wf = true → Memory.wf s.spad.mem = true →
    s.opReady a 0x0403 4 0 = some o → o.fn = 3 → o.strict = false → o.p32 4 = 1 → o.p32 20 < 0x2000000 →
    s.firstRefusal a false [(o.p32 12, elemBytes (u8 o.params 1) (2 * o.p32 8))] = .ok →
    s.firstRefusal a true [(o.p32 20, elemBytes (u8 o.params 2) (o.p32 8))] = .ok →
    ∃ t, exec (.swiglu a true) s = .next t ∧ OnlyIn [.acts, .spad] s t ∧ ((t.act a).run.bind (·.code)) = some 0 ∧
      t.spad.mem = wrBytes s.spad.mem (spKey (a / 16) (o.p32 20)) (packElems (u8 o.params 2)
        ((swigluRow ((List.range (2 * o.p32 8)).map fun j => (s.valAt (a / 16) (u8 o.params 1) (o.p32 12) 0 j).r32) (o.p32 8)).map
          fun v => (convPlain (u8 o.params 2) ((u8 o.params 3).testBit 0) ((u8 o.params 3).testBit 1) v).bits)))

/-- R248 to R253, R261, R262, R264: leaves. A LEAF_EDIT whose records pass their checks holds its plan and starts its queue, and one that
fails ends with that code; neither changes the map or the shadow. The record phase, acknowledged, enters the edit in the shadow; not
acknowledged, it ends with that code and changes neither. A spill that is acknowledged publishes the leaf as SPILLED and retains its
slot, and one that fails leaves it LIVE and its tier bad; a waiting fetch takes a slot; a fetch brings the leaf back LIVE, a first
failure leaves it SPILLED, and a second one in a row loses it. -/
def Obligations.LeafService : Prop :=
  (∀ (s s1 : State) (a : Fin 96) (c : Fin 4) (o : OpRec) (t' : EditSt) (rs : List (Nat × Option Nat)), s.live = true →
    s.acts.wf = true → s.dma.queues.wf = true → s.opReady a 0x0305 3 c = some o → (s.queue a).busy = false → s1 = s.opBegin a o →
    s1.firstRefusal a false [(o.p32 4, 32 * u8 o.params 0)] = .ok →
    editRun s1 { act := a, k := s1.b.tenantOf a, ch := a / 16 }
      ((List.range (u8 o.params 0)).map fun i => s1.spGet (a / 16) (o.p32 4 + 32 * i) 32) { next := s1.leaf.nextLeaf } [] 0 =
        (t', rs, 0) → s1.firstRefusal a false t'.reads = .ok → t'.poison = false →
    ∃ t, exec (.leafEdit a c true) s = .next t ∧ OnlyIn [.acts, .dma, .leaf, .gddr] s t ∧
      ((t.act a).run.bind (·.edit)).isSome = true ∧ ((t.act a).run.bind (·.code)) = none ∧ (t.queue a).state = .active ∧
      t.leaf.map = s.leaf.map ∧ t.leaf.shadow = s.leaf.shadow) ∧
  (∀ (s s1 : State) (a : Fin 96) (c : Fin 4) (o : OpRec) (t' : EditSt) (rs : List (Nat × Option Nat)) (code : Nat), s.live = true →
    s.acts.wf = true → s.opReady a 0x0305 3 c = some o → (s.queue a).busy = false → s1 = s.opBegin a o →
    s1.firstRefusal a false [(o.p32 4, 32 * u8 o.params 0)] = .ok →
    editRun s1 { act := a, k := s1.b.tenantOf a, ch := a / 16 }
      ((List.range (u8 o.params 0)).map fun i => s1.spGet (a / 16) (o.p32 4 + 32 * i) 32) { next := s1.leaf.nextLeaf } [] 0 =
        (t', rs, code) → code ≠ 0 → s1.firstRefusal a true [(o.p32 8, 8 * rs.length)] = .ok →
    ∃ t, exec (.leafEdit a c true) s = .next t ∧ OnlyIn [.acts, .leaf, .spad, .cnt, .freeCount] s t ∧
      ((t.act a).run.bind (·.code)) = some code ∧ t.leaf.map = s.leaf.map ∧ t.leaf.shadow = s.leaf.shadow) ∧
  (∀ (s : State) (a : Fin 96) (r : OpRun) (p : EditPlan), s.live = true → s.acts.wf = true → s.opInHand a 0x0305 = some r →
    r.edit = some p → (s.queue a).stop = .none → s.firstRefusal a true [(p.outAddr, 8 * p.results.length)] = .ok → p.uses = [] →
    p.frees = [] → p.retire = [] →
    ∃ t, exec (.leafEditRecord a 0) s = .next t ∧ ((t.act a).run.bind (·.code)) = some 0 ∧
      t.leaf.shadow = p.writes.foldl (fun t w => Tab.set t w.leaf { used := true, entry := w.entry }) s.leaf.shadow ∧
      t.leaf.map = s.leaf.map) ∧
  (∀ (s : State) (a : Fin 96) (r : OpRun) (p : EditPlan) (ack : Nat), s.live = true → s.acts.wf = true →
    s.opInHand a 0x0305 = some r → r.edit = some p → (s.queue a).stop = .none → ack ≠ 0 →
    ∃ t, exec (.leafEditRecord a ack) s = .next t ∧ ((t.act a).run.bind (·.code)) = some ack ∧
      ((t.act a).run.bind (·.edit)) = none ∧ t.leaf.shadow = s.leaf.shadow ∧ t.leaf.map = s.leaf.map) ∧
  (∀ (s : State) (l : Nat) (x : Xfer), s.live = true → s.xferOf l = some x → x.isFetch = false → s.snapped l = false →
    s.leaf.map.wf = true →
    ∃ t, exec (.spillComplete l 0) s = .next t ∧ OnlyIn [.leaf] s t ∧
      t.leafE l = { s.leafE l with state := .spilled, tier := x.tier, site := x.site, slot := x.tierSlot } ∧ t.xferOf l = none ∧
      t.leaf.retained = s.leaf.retained ++ [{ channel := (s.leafE l).site, slot := (s.leafE l).slot, pub := s.leaf.pubCount }]) ∧
  (∀ (s : State) (l ack : Nat) (x : Xfer), s.live = true → s.xferOf l = some x → x.isFetch = false → ack ≠ 0 →
    s.leaf.map.wf = true →
    ∃ t, exec (.spillComplete l ack) s = .next t ∧ t.leafE l = { s.leafE l with state := .live } ∧ t.xferOf l = none ∧
      t.leaf.events.getLsbD 7 = true ∧ t.leaf.tierBad = (x.tier, x.site) :: s.leaf.tierBad) ∧
  (∀ (s : State) (l slot : Nat) (x : Xfer), s.live = true → s.xferOf l = some x → x.isFetch = true → x.localSlot = none →
    ((s.leaf.xfers.find? fun y => y.isFetch && y.channel == x.channel && y.localSlot.isNone).map (·.leaf)) = some l →
    s.slotFor (s.leafE l).tenant x.channel [] 0 = some slot →
    ∃ t, exec (.fetchSlotTaken l) s = .next t ∧ OnlyIn [.leaf, .ring, .sent, .cnt] s t ∧
      t.leaf.xfers = s.leaf.xfers.map fun z => if z.leaf = l then { z with localSlot := some slot } else z) ∧
  (∀ (s : State) (l slot : Nat) (x : Xfer), s.live = true → s.xferOf l = some x → x.isFetch = true → x.localSlot = some slot →
    s.fetchTurn l = true → s.leaf.map.wf = true →
    ∃ t, exec (.fetchComplete l 0 true) s = .next t ∧
      t.leafE l = { s.leafE l with state := .live, tier := .loc, site := x.channel, slot := slot } ∧ t.xferOf l = none) ∧
  (∀ (s : State) (l slot : Nat) (x : Xfer) (ok : Bool), s.live = true → s.xferOf l = some x → x.isFetch = true →
    x.localSlot = some slot → s.fetchTurn l = true → s.leaf.fails.get l = 0 → s.leaf.map.wf = true →
    ∃ t, exec (.fetchComplete l 7 ok) s = .next t ∧ OnlyIn [.leaf, .cnt] s t ∧
      t.leafE l = { s.leafE l with state := .spilled } ∧ t.xferOf l = none ∧ t.leaf.events.getLsbD 7 = true) ∧
  (∀ (s : State) (l slot : Nat) (x : Xfer) (ok : Bool), s.live = true → s.xferOf l = some x → x.isFetch = true →
    x.localSlot = some slot → s.fetchTurn l = true → 1 ≤ s.leaf.fails.get l → s.leaf.map.wf = true →
    ∃ t, exec (.fetchComplete l 7 ok) s = .next t ∧ (t.leafE l).state = .lost ∧ t.leaf.events.getLsbD 5 = true)

/-- R283 to R289: CODEC_CTL on a general core. SETUP with a work area too small ends with RANGE_FAULT, else it binds the areas and the slot
waits for a random access picture, or runs when it encodes; COLLECT hands over the oldest records and releases buffers; SUBMIT queues a
picture up to BACKLOG and sets OUT_DROP beyond; RESTART of a decoding slot discards its waiting and held pictures. -/
def Obligations.CodecControl : Prop :=
  (∀ (s : State) (a : Fin 96) (c : Fin 4) (o : OpRec), s.live = true → s.acts.wf = true → s.opReady a 0x0306 3 c = some o →
    u8 o.params 0 = 0 → u32 o.params 24 < ((s.codcRec (a / 16) (u8 o.params 1)).getD {}).work →
    ∃ t, exec (.codecSetup a c) s = .next t ∧ OnlyIn [.acts] s t ∧ ((t.act a).run.bind (·.code)) = some 4) ∧
  (∀ (s : State) (a : Fin 96) (c : Fin 4) (o : OpRec) (r : CodcRec) (k : Nat), s.live = true → s.acts.wf = true → s.codec.wf = true →
    s.opReady a 0x0306 3 c = some o → u8 o.params 0 = 0 → k = u8 o.params 1 → s.codcRec (a / 16) k = some r →
    r.work ≤ u32 o.params 24 → s.sideInRange a (BitVec.ofNat 64 (u64 o.params 8)) [1] [0] (u32 o.params 24) true = true →
    s.sideInRange a (BitVec.ofNat 64 (u64 o.params 16)) [1] [0] (u16 o.params 28 * r.pBytes) true = true →
    (s.suspends (a / 16)).contains k = false →
    ∃ t, exec (.codecSetup a c) s = .next t ∧ OnlyIn [.acts, .codec] s t ∧ ((t.act a).run.bind (·.code)) = some 0 ∧
      (t.slot (a / 16) k).isSetup = true ∧ (r.direction ≠ 1 → (t.slot (a / 16) k).waiting = []) ∧
      (t.slot (a / 16) k).workBytes = u32 o.params 24 ∧ (t.slot (a / 16) k).outBufs = u16 o.params 28 ∧
      (t.slot (a / 16) k).state = (if r.direction = 1 then .running else .waitRap)) ∧
  (∀ (s : State) (a : Fin 96) (c : Fin 4) (o : OpRec) (k n : Nat) (x : CodecSlot), s.live = true → s.acts.wf = true →
    s.codec.wf = true → s.opReady a 0x0306 3 c = some o → u8 o.params 0 = 1 → k = u8 o.params 1 → n = u8 o.params 8 →
    x = s.slot (a / 16) k → s.firstRefusal a true [(u32 o.params 4, 64 * n + 64)] = .ok →
    ∃ t, exec (.codecCollect a c) s = .next t ∧ OnlyIn [.acts, .codec, .spad, .freeCount] s t ∧
      ((t.act a).run.bind (·.code)) = some 0 ∧ (t.slot (a / 16) k).recs = x.recs.drop n ∧
      (t.slot (a / 16) k).filled = x.filled - u8 o.params 9) ∧
  (∀ (s : State) (a : Fin 96) (c : Fin 4) (o : OpRec) (k : Nat) (x : CodecSlot), s.live = true → s.acts.wf = true →
    s.codec.wf = true → s.opReady a 0x0306 3 c = some o → u8 o.params 0 = 2 → k = u8 o.params 1 → x = s.slot (a / 16) k →
    x.encode = true → x.isSetup = true → x.state ≠ .suspended → x.waiting.length < x.backlogMax →
    ∃ t, exec (.codecSubmit a c) s = .next t ∧ OnlyIn [.acts, .codec] s t ∧ ((t.act a).run.bind (·.code)) = some 0 ∧
      t.slot (a / 16) k = { x with waiting := x.waiting ++ [(u32 o.params 16, 0)] }) ∧
  (∀ (s : State) (a : Fin 96) (c : Fin 4) (o : OpRec) (k : Nat) (x : CodecSlot), s.live = true → s.acts.wf = true →
    s.codec.wf = true → s.opReady a 0x0306 3 c = some o → u8 o.params 0 = 2 → k = u8 o.params 1 → x = s.slot (a / 16) k →
    x.encode = true → x.isSetup = true → x.state ≠ .suspended → x.backlogMax ≤ x.waiting.length →
    ∃ t, exec (.codecSubmit a c) s = .next t ∧ OnlyIn [.acts, .codec, .cnt] s t ∧ ((t.act a).run.bind (·.code)) = some 0 ∧
      (t.slot (a / 16) k).waiting = x.waiting ∧ (t.slot (a / 16) k).events.getLsbD 4 = true) ∧
  (∀ (s : State) (a : Fin 96) (c : Fin 4) (o : OpRec) (k : Nat) (x : CodecSlot), s.live = true → s.acts.wf = true →
    s.codec.wf = true → s.opReady a 0x0306 3 c = some o → u8 o.params 0 = 3 → k = u8 o.params 1 → x = s.slot (a / 16) k →
    x.isSetup = true → x.encode = false → x.state ≠ .suspended →
    ∃ t, exec (.codecRestart a c) s = .next t ∧ OnlyIn [.acts, .codec] s t ∧ ((t.act a).run.bind (·.code)) = some 0 ∧
      (t.slot (a / 16) k).state = .waitRap ∧ (t.slot (a / 16) k).waiting = [] ∧ (t.slot (a / 16) k).held = [])
/-- R287, R290 to R297: the codec's slots. A supported random access picture starts a slot and leaves its FIFO; in WAIT_RAP an access unit
that is none is dropped and counted; a decoded picture is held for output; an encoded one is written to the output FIFO and reported; a
sealed slot's time bound sets the cut. -/
def Obligations.CodecPictures : Prop :=
  (∀ (s : State) (ch : Fin 6) (k : Fin 8) (isRef : Bool) (pts size : Nat) (x : CodecSlot), s.live = true → s.codec.wf = true →
    x = s.slot ch k → x.isSetup = true → x.encode = false → x.state = .waitRap → x.waiting.length < x.backlogMax →
    size ≤ (s.dma.fifos.get (ch * 256 + 16 + k)).data.length →
    ∃ t, exec (.accessUnit ch k true true isRef false pts size) s = .next t ∧ OnlyIn [.dma, .codec] s t ∧
      t.slot ch k = { x with state := .running, waiting := x.waiting ++ [(pts, size)] } ∧
      t.dma = { s.dma with fifos := s.dma.fifos.upd (ch * 256 + 16 + k) fun f => f.pop size }) ∧
  (∀ (s : State) (ch : Fin 6) (k : Fin 8) (isRef : Bool) (pts size : Nat) (x : CodecSlot), s.live = true → s.codec.wf = true →
    x = s.slot ch k → x.isSetup = true → x.encode = false → x.state = .waitRap →
    size ≤ (s.dma.fifos.get (ch * 256 + 16 + k)).data.length →
    ∃ t, exec (.accessUnit ch k false true isRef false pts size) s = .next t ∧ OnlyIn [.dma, .codec, .cnt] s t ∧
      (t.slot ch k).state = .waitRap ∧ (t.slot ch k).waiting = x.waiting ∧ (t.slot ch k).dropped = x.dropped + 1 ∧
      (t.slot ch k).events.getLsbD 9 = true) ∧
  (∀ (s : State) (ch : Fin 6) (k : Fin 8) (r : CodcRec) (poc : Int) (w h d pool pts size : Nat) (rest : List (Nat × Nat))
    (x : CodecSlot) (isRap isIdr : Bool) (data : List (BitVec 8)), s.live = true → s.codec.wf = true → s.codcRec ch k = some r →
    x = s.slot ch k → x.state = .running → x.encode = false → x.tainted = false → x.cutPending = false →
    x.waiting = (pts, size) :: rest → (s.holds r.activity 5 k = true ∨ s.holds r.activity 6 k = true) →
    ∃ t, exec (.pictureDone ch k poc w h d 0 pool 0 false false false false false isRap isIdr data) s = .next t ∧
      OnlyIn [.codec, .cnt] s t ∧ (t.slot ch k).waiting = rest ∧ (t.slot ch k).tainted = false ∧ (t.slot ch k).cycles = 0 ∧
      (t.slot ch k).held.length = x.held.length + 1) ∧
  (∀ (s : State) (ch : Fin 6) (k : Fin 8) (r : CodcRec) (poc : Int) (w h d pool pts : Nat) (rest : List (Nat × Nat))
    (x : CodecSlot) (data : List (BitVec 8)), s.live = true → s.codec.wf = true → s.dma.fifos.wf = true → s.codcRec ch k = some r →
    x = s.slot ch k → x.state = .running → x.encode = true → r.rateCap = 0 → x.waiting = (pts, 0) :: rest →
    (s.holds r.activity 5 k = true ∨ s.holds r.activity 6 k = true) →
    ∃ t, exec (.pictureDone ch k poc w h d 0 pool 0 false false false false false false false data) s = .next t ∧
      OnlyIn [.codec, .dma] s t ∧ (t.slot ch k).waiting = rest ∧ (t.slot ch k).picIndex = x.picIndex + 1 ∧
      (t.slot ch k).recs.length = x.recs.length + 1 ∧
      (t.dma.fifos.get (ch * 256 + 24 + k)).data = (s.dma.fifos.get (ch * 256 + 24 + k)).data ++ data) ∧
  (∀ (s : State) (ch : Fin 6) (k : Fin 8) (x : CodecSlot), s.live = true → s.codec.wf = true → x = s.slot ch k →
    x.isSealed = true → x.state = .running → x.encode = false → x.waiting ≠ [] → x.cutPending = false →
    ∃ t, exec (.timeCut ch k) s = .next t ∧ OnlyIn [.codec, .cnt] s t ∧ (t.slot ch k).cutPending = true ∧
      (t.slot ch k).events.getLsbD 5 = true ∧ (t.slot ch k).waiting = x.waiting)

/-- R312 to R318: results and verdict lines. RESULT_OUT for a tick not yet reported puts one record into the transmit FIFO of its port and
ends with OK; one already reported ends with OK and nothing else; a record leaves in its activity's reservation and SEQ goes up, or is
discarded while the module may not drive; the armed update begins, its lines change 100 ns later, and VDL_VALID rises 200 ns after the
last one began. -/
def Obligations.ResultsAndVerdicts : Prop :=
  (∀ (s : State) (a : Fin 96) (o : OpRec) (r : NetResult) (n : PrevTick), s.live = true → s.acts.wf = true → s.ing.tx.wf = true →
    s.opReady a 0x0501 8 0x10 = some o → s.b.resultOf a = some r → s.tick.prev = some n → s.reported a r.port n.num = false →
    absent (o.p32 4) = true → s.firstRefusal a false [(o.p32 0, 64)] = .ok → (s.ing.tx.get r.port).length < 128 →
    ∃ t, exec (.resultOut a) s = .next t ∧ OnlyIn [.acts, .dma, .ing, .cnt] s t ∧ ((t.act a).run.bind (·.code)) = some 0 ∧
      t.ing.tx.get r.port = s.ing.tx.get r.port ++ [{
        activity := a, tick := some n.num
        bytes := s.resultBytes o n (s.spGet (a / 16) (o.p32 0) 64) (List.replicate 32 0) }]) ∧
  (∀ (s : State) (a : Fin 96) (o : OpRec) (r : NetResult) (n : PrevTick), s.live = true → s.acts.wf = true →
    s.opReady a 0x0501 8 0x10 = some o → s.b.resultOf a = some r → s.tick.prev = some n → s.reported a r.port n.num = true →
    ∃ t, exec (.resultOut a) s = .next t ∧ OnlyIn [.acts] s t ∧ ((t.act a).run.bind (·.code)) = some 0) ∧
  (∀ (s : State) (p : Fin 4) (x : TxRec) (rest : List TxRec) (r : NetResult) (m : BitVec 48), s.live = true → s.ing.tx.wf = true →
    s.ing.res.wf = true → s.ing.tx.get p = x :: rest → s.b.resultOf x.activity = some r → s.holds x.activity 11 p = true →
    s.mayDrive = true → s.portOn p = true → s.macFor p r.dstIp = some m → x.tick.isSome = true →
    ∃ t, exec (.resultRecordSend p) s = .next t ∧ OnlyIn [.ing, .dma, .sent, .freeCount] s t ∧ t.ing.tx.get p = rest ∧
      (t.ing.res.get x.activity).seq = (s.ing.res.get x.activity).seq + 1 ∧
      (t.ing.res.get x.activity).lastTick = x.tick) ∧
  (∀ (s : State) (p : Fin 4) (x : TxRec) (rest : List TxRec) (r : NetResult), s.live = true → s.ing.tx.wf = true →
    s.ing.tx.get p = x :: rest → s.b.resultOf x.activity = some r → s.holds x.activity 11 p = true → s.mayDrive = false →
    ∃ t, exec (.resultRecordSend p) s = .next t ∧ OnlyIn [.ing, .dma] s t ∧ t.ing.tx.get p = rest ∧ t.ing.res = s.ing.res) ∧
  (∀ (s : State) (a : Fin 96) (x : Nat × BitVec 8 × BitVec 8) (r : NetResult), s.live = true →
    s.ing.vdl.armed.find? (fun y => y.1 == a.val) = some x → s.b.resultOf a = some r → s.holds a 11 r.port = true →
    s.mayDrive = true →
    exec (.vdlUpdate a) s = .next (commit { s with ing := { s.ing with vdl := { s.ing.vdl with
      armed := s.ing.vdl.armed.filter fun y => y.1 != a.val
      valid := false, begun := s.ing.vdl.begun ++ [(s.tb.time + 100, x.2)], riseAt := some (s.tb.time + 200) } } })) ∧
  (∀ (s : State) (x : Nat × BitVec 8 × BitVec 8) (rest : List (Nat × BitVec 8 × BitVec 8)), s.live = true →
    s.ing.vdl.begun = x :: rest → x.1 ≤ s.tb.time →
    exec .vdlChange s = .next (commit { s with ing := { s.ing with vdl := { s.ing.vdl with
      lines := (s.ing.vdl.lines &&& ~~~ x.2.1) ||| x.2.2, begun := rest } } })) ∧
  (∀ (s : State) (r : Nat), s.live = true → s.ing.vdl.begun = [] → s.ing.vdl.riseAt = some r → r ≤ s.tb.time →
    exec .vdlValidRise s = .next (commit { s with ing := { s.ing with vdl := { s.ing.vdl with valid := true, riseAt := none } } }))
/-- R414 to R416, R427, R430, R467: CHECK whose records pass ends with OK, and one with a failing record of action 0 ends with OK and flags
the activity RANGE; DIGEST ends with OK; a digest message that concerns an own copy group is held. -/
def Obligations.ChecksAndDigests : Prop :=
  (∀ (s : State) (a : Fin 96) (o : OpRec), s.live = true → s.acts.wf = true → s.opReady a 0x0404 4 0 = some o →
    s.firstRefusal a false ((s.checkPairs a o).flatMap fun x => checkReads x.1 x.2.check) = .ok →
    (∀ x ∈ s.checkPairs a o, s.rangeFails (a / 16) x.1 x.2 = false) →
    ∃ t, exec (.check a true) s = .next t ∧ OnlyIn [.acts] s t ∧ ((t.act a).run.bind (·.code)) = some 0 ∧
      (t.act a).flags = (s.act a).flags) ∧
  (∀ (s : State) (a : Fin 96) (o : OpRec) (x : List (BitVec 8) × SafeRange), s.live = true → s.acts.wf = true →
    s.opReady a 0x0404 4 0 = some o → s.firstRefusal a false (checkReads x.1 x.2.check) = .ok → s.checkPairs a o = [x] →
    s.rangeFails (a / 16) x.1 x.2 = true → x.2.action = 0 → (s.act a).carry = false →
    ∃ t, exec (.check a true) s = .next t ∧ OnlyIn [.acts, .chk, .cnt] s t ∧ ((t.act a).run.bind (·.code)) = some 0 ∧
      (t.act a).flags.range = true ∧ t.chk = { s.chk with events := s.chk.events ||| 1 }) ∧
  (∀ (s : State) (a : Fin 96) (o : OpRec), s.live = true → s.acts.wf = true → s.opReady a 0x0405 4 0 = some o →
    s.firstRefusal a false (digestAreas o) = .ok → s.member = none →
    ∃ t, exec (.digest a true) s = .next t ∧ OnlyIn [.acts, .ring, .sent, .cnt] s t ∧ ((t.act a).run.bind (·.code)) = some 0) ∧
  (∀ (s : State) (src : Fin 6) (c : SafeCopy) (tick : Nat) (v : List (BitVec 8)), s.live = true → s.isMember = true →
    src.val ≠ s.memberIdx → c ∈ s.b.safe.copies → v.length = 64 →
    exec (.digestMessage src c.group 0 tick v) s = .next (commit { s with chk := { s.chk with
      digests := s.chk.digests ++ [{ sender := src, group := c.group, kind := 0, tick := tick, digest := v }] } }))

/-- R301 to R306: reception. A frame that fails its checks is dropped as a bad frame; an ARP request for another address is counted and not
answered; a leader under the record it matches opens its block, and one of a pixel format other than Mono8 is unsupported and its block
skipped; a payload packet in order goes to the buffer; a trailer of a whole block ends it with an end mark; owed fill is written as
zeros; a leader that matches no record is dropped and sets event bit 2. -/
def Obligations.GvspReception : Prop :=
  (∀ (s : State) (p : Fin 4) (b : List (BitVec 8)), s.live = true → s.portOn p = true → frameOk (s.portCfg p) b = false →
    ∃ t, exec (.ethernetFrame p b) s = .next t ∧ OnlyIn [.ing, .cnt] s t ∧
      t.ing = { s.ing with
        ports := (s.ing.ports.upd p fun x => { x with rxDrops := x.rxDrops + 1 }).upd p fun x => { x with events := bitSet x.events 1 } }) ∧
  (∀ (s : State) (p : Fin 4) (b l : List (BitVec 8)), s.live = true → s.portOn p = true → frameOk (s.portCfg p) b = true →
    (frameTag b).2.2.1 = 0x0806 → l = slice b (frameTag b).2.2.2 (b.length - 4 - (frameTag b).2.2.2) →
    slice l 0 6 = [0, 1, 8, 0, 6, 4] → beField l 6 2 = 1 → beField l 24 4 ≠ (s.portCfg p).ipv4 →
    exec (.ethernetFrame p b) s = .next (commit { s with ing := { s.ing with
      ports := s.ing.ports.upd p fun x => { x with rxFrames := x.rxFrames + 1 } } })) ∧
  (∀ (s : State) (p : Fin 4) (srcIp srcUdp dstUdp blk sx sy : Nat) (r : NetFlow) (a : Nat), s.live = true → s.portOn p = true →
    s.flowFor p srcIp srcUdp dstUdp 0 = some r → r.proto = 0 → s.tick.running = true → r.port = p.val → a = r.act s.oddTick →
    s.steers a = true → s.gvBlock [p.val, srcIp, srcUdp, dstUdp] = none → r.calSet = 0xFF →
    ∃ t, exec (.gvspLeader p srcIp srcUdp dstUdp blk 1 0x01080001 sx sy) s = .next t ∧ OnlyIn [.ing] s t ∧
      t.gvBlock [p.val, srcIp, srcUdp, dstUdp] = some {
        key := [p.val, srcIp, srcUdp, dstUdp], rcd := r, odd := s.oddTick, activity := a, blockId := blk, size := sx * sy
        sizeX := sx } ∧
      t.ing.rx = s.ing.rx) ∧
  (∀ (s : State) (p : Fin 4) (srcIp srcUdp dstUdp blk pf sx sy : Nat) (r : NetFlow), s.live = true → s.portOn p = true →
    s.flowFor p srcIp srcUdp dstUdp 0 = some r → r.proto = 0 → s.tick.running = true → r.port = p.val →
    s.steers (r.act s.oddTick) = true → s.gvBlock [p.val, srcIp, srcUdp, dstUdp] = none → pf ≠ 0x01080001 → s.ing.ports.wf = true →
    ∃ t, exec (.gvspLeader p srcIp srcUdp dstUdp blk 1 pf sx sy) s = .next t ∧ OnlyIn [.ing, .cnt] s t ∧
      (t.ing.ports.get p).events.getLsbD 5 = true ∧ (t.gvBlock [p.val, srcIp, srcUdp, dstUdp]).map (·.skip) = some true) ∧
  (∀ (s : State) (p : Fin 4) (srcIp srcUdp dstUdp pid : Nat) (b : List (BitVec 8)) (r : NetFlow) (g : GvBlock), s.live = true →
    s.portOn p = true → s.flowFor p srcIp srcUdp dstUdp 0 = some r → r.proto = 0 → s.tick.running = true → r.port = p.val →
    s.gvBlock [p.val, srcIp, srcUdp, dstUdp] = some g → g.key = [p.val, srcIp, srcUdp, dstUdp] → g.isOpen = true → g.skip = false →
    g.rcd = r → g.table = none → b ≠ [] → g.nextPacket = pid → g.payload = b.length → g.pos = (pid - 1) * b.length →
    g.pos + b.length ≤ g.size → s.ing.owed = [] → b.length ≤ s.rxRoom g.activity p → s.ing.rx.wf = true →
    ∃ t, exec (.gvspPayload p srcIp srcUdp dstUdp g.blockId pid b) s = .next t ∧ OnlyIn [.ing, .dma] s t ∧
      (t.ing.rx.get (4 * g.activity + p)).data = (s.ing.rx.get (4 * g.activity + p)).data ++ b ∧
      t.gvBlock [p.val, srcIp, srcUdp, dstUdp] = some { g with nextPacket := pid + 1, pos := g.pos + b.length }) ∧
  (∀ (s : State) (p : Fin 4) (srcIp srcUdp dstUdp : Nat) (r : NetFlow) (g : GvBlock), s.live = true →
    s.portOn p = true → s.flowFor p srcIp srcUdp dstUdp 0 = some r → r.proto = 0 → s.tick.running = true → r.port = p.val →
    s.gvBlock [p.val, srcIp, srcUdp, dstUdp] = some g → g.key = [p.val, srcIp, srcUdp, dstUdp] → g.isOpen = true → g.skip = false →
    g.rcd = r → g.pos = g.size → s.ing.owed = [] → s.ing.rx.wf = true →
    ∃ t, exec (.gvspTrailer p srcIp srcUdp dstUdp g.blockId) s = .next t ∧ OnlyIn [.ing, .dma] s t ∧
      (t.ing.rx.get (4 * g.activity + p)).marks = (s.ing.rx.get (4 * g.activity + p)).marks ++
        [(s.ing.rx.get (4 * g.activity + p)).data.length] ∧
      (t.gvBlock [p.val, srcIp, srcUdp, dstUdp]).map (·.isOpen) = some false) ∧
  (∀ (s : State) (f : Fin 256) (e : Owed), s.live = true → s.ing.owed = [e] → e.flow = f.val → e.mark = false → 0 < e.bytes →
    e.bytes ≤ s.rxRoom e.activity e.port → s.ing.rx.wf = true →
    ∃ t, exec (.zeroFill f) s = .next t ∧ OnlyIn [.ing, .dma] s t ∧ t.ing.owed = [] ∧
      (t.ing.rx.get (4 * e.activity + e.port)).data =
        (s.ing.rx.get (4 * e.activity + e.port)).data ++ List.replicate e.bytes 0) ∧
  (∀ (s : State) (p : Fin 4) (srcIp srcUdp dstUdp blk ty pf sx sy : Nat), s.live = true → s.portOn p = true →
    s.flowFor p srcIp srcUdp dstUdp 0 = none →
    ∃ t, exec (.gvspLeader p srcIp srcUdp dstUdp blk ty pf sx sy) s = .next t ∧ OnlyIn [.ing, .cnt] s t ∧
      t.ing = { s.ing with
        ports := (s.ing.ports.upd p fun x => { x with rxDrops := x.rxDrops + 1 }).upd p fun x => { x with events := bitSet x.events 2 } })
/-- R301, R309, R310, R315: an RTP packet in sequence with one whole unit goes to the buffer in Annex B form; an ARP request for the port's
address is answered, a reply of a destination installs its entry, the timer asks again, and an entry of 180 s is removed; a port's link
comes up and goes down. -/
def Obligations.RtpAndPorts : Prop :=
  (∀ (s : State) (p : Fin 4) (srcIp dstUdp a : Nat) (k b : List (BitVec 8)) (r : NetFlow), s.live = true → s.portOn p = true →
    s.flowFor p srcIp 0 dstUdp (beField k 8 4) = some r → r.proto = 1 → r.port = p.val → s.tick.running = true →
    a = r.act s.oddTick → s.steers a = true → (s.ing.flows.get r.flow).rtpNext = some (beField k 2 2) → rtpPayload k = some b →
    1 ≤ u8 b 0 % 32 → u8 b 0 % 32 ≤ 23 → b ≠ [] → (u8 k 1).testBit 7 = false → b.length + 4 ≤ s.rxRoom a p →
    s.ing.rx.wf = true → s.ing.flows.wf = true → beField k 2 2 < 65536 →
    ∃ t, exec (.rtpPacket p srcIp dstUdp k) s = .next t ∧ OnlyIn [.ing, .dma] s t ∧
      (t.ing.rx.get (4 * a + p)).data = (s.ing.rx.get (4 * a + p)).data ++ ([0, 0, 0, 1] ++ b) ∧
      (t.ing.flows.get r.flow).rtpNext = some ((beField k 2 2 + 1) % 65536)) ∧
  (∀ (s : State) (p : Fin 4) (ip : Nat) (mac : BitVec 48), s.live = true → s.portOn p = true →
    exec (.arpRequest p ip mac (s.portCfg p).ipv4) s = .next (commit { s with
      ing := { s.ing with ports := s.ing.ports.upd p fun x => { x with rxFrames := x.rxFrames + 1 } }
      sent := { kind := .eth, port := p, code := 0x0806, bytes := ethBytes mac (s.portMac p) (s.portCfg p).vlan 0x0806 (arpBytes 2 (s.portMac p) (s.portCfg p).ipv4 mac ip) } :: s.sent })) ∧
  (∀ (s : State) (p : Fin 4) (ip : Nat) (mac : BitVec 48), s.live = true → s.portOn p = true → s.isDest p ip = true →
    s.ing.ports.wf = true →
    ∃ t, exec (.arpReply p ip mac) s = .next t ∧ OnlyIn [.ing] s t ∧ t.ing.ports.get p = { s.ing.ports.get p with
      rxFrames := (s.ing.ports.get p).rxFrames + 1
      arp := arpUpd ip (fun e => { e with mac := some mac, lastReply := s.tb.time }) (s.ing.ports.get p).arp }) ∧
  (∀ (s : State) (p : Fin 4) (ip : Nat), s.live = true → s.portOn p = true → s.isDest p ip = true →
    ((s.ing.ports.get p).arp.find? fun e => e.ip == ip) = none →
    ∃ t, exec (.arpTimer p ip) s = .next t ∧ OnlyIn [.ing, .sent] s t ∧
      t.ing = { s.ing with ports := s.ing.ports.upd p fun x => { x with
        arp := arpUpd ip (fun e => { e with lastRequest := s.tb.time }) x.arp } }) ∧
  (∀ (s : State) (p : Fin 4) (ip : Nat), s.live = true →
    exec (.arpEntryExpire p ip) s = .next (commit { s with ing := { s.ing with ports := s.ing.ports.upd p fun x => { x with
      arp := x.arp.filter fun e => !(e.ip == ip && decide (e.lastReply + 180000000000 ≤ s.tb.time)) } } })) ∧
  (∀ (s : State) (p : Fin 4), s.live = true → s.bound = true → s.pwr.ing = true → (s.portCfg p).mode ≠ 0 →
    exec (.portLinkUp p) s = .next (commit { s with
      ing := { s.ing with ports := s.ing.ports.upd p fun x => { x with linkUp := true } }
      pair := { s.pair with portsDown := bitClr s.pair.portsDown p } })) ∧
  (∀ (s : State) (p : Fin 4), s.live = true → (s.ing.ports.get p).linkUp = true →
    ∃ t, exec (.portLinkDown p) s = .next t ∧ OnlyIn [.ing, .cnt] s t ∧ t.ing = { s.ing with
      ports := (s.ing.ports.upd p fun x => { x with linkUp := false }).upd p fun x => { x with events := bitSet x.events 0 } })

/-- R22, R311: PTP. A Sync under another discipline or on another port is dropped; from the chosen master in the chosen domain, a two-step
Sync waits for its Follow_Up, a one-step Sync or that Follow_Up measures the offset, and a Delay_Resp gives the mean path delay of the
exchange; an Announce enters the candidates and the best is the master; a Delay_Req opens the exchange. -/
def Obligations.PtpExchange : Prop :=
  (∀ (s : State) (p : Fin 4) (d m q : Nat) (two : Bool) (o : Nat) (c : Int), s.live = true → s.portOn p = true →
    (s.discSrc ≠ 1 ∨ p.val ≠ s.b.netw.glob.ptpPort) →
    exec (.ptpSync p d m q two o c) s = .next (commit { s with
      ing := { s.ing with ports := s.ing.ports.upd p fun x => { x with rxDrops := x.rxDrops + 1 } } })) ∧
  (∀ (s : State) (p : Fin 4) (m q : Nat) (o : Nat) (c : Int), s.live = true → s.portOn p = true → s.discSrc = 1 →
    p.val = s.b.netw.glob.ptpPort → s.ing.ptp.master = some m →
    exec (.ptpSync p s.b.netw.glob.ptpDomain m q true o c) s = .next (commit { s with
      ing := { s.ing with
        ports := s.ing.ports.upd p fun x => { x with rxFrames := x.rxFrames + 1 }
        ptp := { s.ing.ptp with syncSeq := q, syncRx := s.tb.time, t2 := s.tb.time, syncCorr := c, awaitFollow := true } } })) ∧
  (∀ (s : State) (p : Fin 4) (m q : Nat) (o : Nat) (c : Int), s.live = true → s.portOn p = true → s.discSrc = 1 →
    p.val = s.b.netw.glob.ptpPort → s.ing.ptp.master = some m →
    ∃ t, exec (.ptpSync p s.b.netw.glob.ptpDomain m q false o c) s = .next t ∧ OnlyIn [.ing, .tb, .tick, .cnt] s t ∧
      t.tb.offset = (s.tb.time : Int) - ((o : Int) + c) - s.ing.ptp.pathDelay ∧ t.ing.ptp.t1 = (o : Int) + c) ∧
  (∀ (s : State) (p : Fin 4) (m o : Nat) (c : Int), s.live = true → s.portOn p = true → s.discSrc = 1 →
    p.val = s.b.netw.glob.ptpPort → s.ing.ptp.master = some m → s.ing.ptp.awaitFollow = true →
    ∃ t, exec (.ptpFollowUp p s.b.netw.glob.ptpDomain m s.ing.ptp.syncSeq o c) s = .next t ∧
      OnlyIn [.ing, .tb, .tick, .cnt] s t ∧
      t.tb.offset = (s.ing.ptp.syncRx : Int) - ((o : Int) + c + s.ing.ptp.syncCorr) - s.ing.ptp.pathDelay ∧
      t.ing.ptp.awaitFollow = false) ∧
  (∀ (s : State) (p : Fin 4) (m r : Nat) (c i : Int), s.live = true → s.portOn p = true → s.discSrc = 1 →
    p.val = s.b.netw.glob.ptpPort → s.ing.ptp.master = some m → s.ing.ptp.delayOpen = true →
    exec (.ptpDelayResp p s.b.netw.glob.ptpDomain m s.ing.ptp.delaySeq r c i) s = .next (commit { s with
      ing := { s.ing with
        ports := s.ing.ports.upd p fun x => { x with rxFrames := x.rxFrames + 1 }
        ptp := { s.ing.ptp with
          delayOpen := false, interval := i
          pathDelay := (((s.ing.ptp.t2 : Int) - s.ing.ptp.t1) + ((r : Int) - c - s.ing.ptp.delayTx)) / 2 } } })) ∧
  (∀ (s : State) (p : Fin 4) (m : Nat) (x : List Nat), s.live = true → s.portOn p = true → s.discSrc = 1 →
    p.val = s.b.netw.glob.ptpPort →
    ∃ t, exec (.ptpAnnounce p s.b.netw.glob.ptpDomain m x) s = .next t ∧ OnlyIn [.ing] s t ∧
      t.ing.ptp.candidates = (s.ing.ptp.candidates.filter fun c => c.1 != m) ++ [(m, x)] ∧
      t.ing.ptp.master = (bestMaster t.ing.ptp.candidates).map (·.1)) ∧
  (∀ s : State, s.live = true → s.discSrc = 1 → s.portOn s.b.netw.glob.ptpPort = true → s.ing.ptp.master.isSome = true →
    exec .delayReq s = .next (commit { s with
      ing := { s.ing with ptp := { s.ing.ptp with
        delayTx := s.tb.time, delaySeq := (s.ing.ptp.delaySeq + 1) % 65536, delayOpen := true } }
      sent := { kind := .eth, port := s.b.netw.glob.ptpPort, code := 0x88F7
                status := (s.ing.ptp.delaySeq + 1) % 65536 } :: s.sent }))

/-- R320, R322 to R325, R328, R336: ring ports. With the switches open a signal starts training; locked lanes are noted and IDENT goes out;
IDENT from the member in place brings the port UP and one from no member leaves it in MGMT with WIRING_MISMATCH; loss of signal, a
failed training and closing the switches take it DOWN; the delay exchange measures the link's delay and answers; FORCE_BYPASS closes and
opens the switches; link reports are held, and sent every 256 ticks. -/
def Obligations.RingLinks : Prop :=
  (∀ (s : State) (p : Fin 2), s.live = true → s.ring.bypassOpen = true → (s.rport p).state = .down → s.ring.ports.wf = true →
    ∃ t, exec (.ringSignalDetect p) s = .next t ∧ OnlyIn [.ring, .sent] s t ∧ (t.rport p).state = .train ∧
      (t.rport p).locked = (s.rport p).locked) ∧
  (∀ (s : State) (p : Fin 2) (n : Bool), s.live = true → (s.rport p).state = .train → s.ring.ports.wf = true →
    ∃ t, exec (.laneLock p n) s = .next t ∧ OnlyIn [.ring, .sent, .cnt] s t ∧ (t.rport p).locked = true ∧
      (t.rport p).narrow = n ∧ (t.rport p).state = .train ∧ (n = true → (t.rport p).events.getLsbD 6 = true) ∧
      (t.rport p).frames = (s.rport p).frames + 1) ∧
  (∀ (s : State) (p : Fin 2) (a : List (BitVec 8)) (r f m g c : Nat) (k : Nat), s.live = true → (s.rport p).state = .train →
    (s.rport p).locked = true → s.skipFor p a r f = some k → s.ring.ports.wf = true →
    ∃ t, exec (.ident p a r f m g c) s = .next t ∧ (t.rport p).state = .up ∧ (t.rport p).skip = k ∧ (t.rport p).farAcc = a ∧
      (t.rport p).reported = true ∧ t.tick = s.tick ∧ t.bind = s.bind) ∧
  (∀ (s : State) (p : Fin 2) (a : List (BitVec 8)) (r f m g c : Nat), s.live = true → (s.rport p).state = .train →
    (s.rport p).locked = true → s.skipFor p a r f = none → (s.b.netw.members.find? fun x => x.accession == a) = none →
    s.ring.ports.wf = true →
    ∃ t, exec (.ident p a r f m g c) s = .next t ∧ OnlyIn [.ring, .sent, .cnt] s t ∧ (t.rport p).state = .mgmt ∧
      (t.rport p).skip = 0 ∧ (t.rport p).events.getLsbD 5 = true) ∧
  (∀ (s : State) (p : Fin 2), s.live = true → (s.rport p).state = .up → s.ring.ports.wf = true →
    ∃ t, exec (.ringLossOfSignal p) s = .next t ∧ OnlyIn [.ring, .sent, .cnt] s t ∧ (t.rport p).state = .down ∧
      (t.rport p).replay = [] ∧ (t.rport p).events.getLsbD 0 = true) ∧
  (∀ (s : State) (p : Fin 2), s.live = true → (s.rport p).state = .train → s.ring.ports.wf = true →
    ∃ t, exec (.ringTrainingFailure p) s = .next t ∧ OnlyIn [.ring, .sent, .cnt] s t ∧ (t.rport p).state = .down ∧
      (t.rport p).locked = false ∧ (t.rport p).replay = [] ∧ (t.rport p).events.getLsbD 0 = true) ∧
  (∀ (s : State) (p : Fin 2), s.live = true → (s.rport p).carries false = true → s.ring.ports.wf = true →
    ∃ t, exec (.delayTimer p) s = .next t ∧ OnlyIn [.ring, .sent] s t ∧ (t.rport p).frames = (s.rport p).frames + 1) ∧
  (∀ (s : State) (p : Fin 2) (t1 t2 t3 : Nat), s.live = true → (s.rport p).carries false = true →
    exec (.delay p true t1 t2 t3) s = .next (commit { s with ring := { s.ring with ports := s.ring.ports.upd p fun x => { x with
      delay := BitVec.ofNat 16 (8 * ((s.tb.time - t1) - (t3 - t2))) } } })) ∧
  (∀ (s : State) (p : Fin 2) (t1 t2 t3 : Nat), s.live = true → (s.rport p).carries false = true → s.ring.ports.wf = true →
    ∃ t, exec (.delay p false t1 t2 t3) s = .next t ∧ OnlyIn [.ring, .sent] s t ∧
      (t.rport p).frames = (s.rport p).frames + 1) ∧
  (∀ s : State, s.live = true → s.ring.ports.wf = true →
    ∃ t, exec (.forceBypass true) s = .next t ∧ OnlyIn [.ring, .sent, .cnt] s t ∧ t.ring.forceBypass = true ∧
      t.ring.bypassOpen = false ∧ (t.rport 0).state = .down ∧ (t.rport 1).state = .down) ∧
  (∀ s : State, s.live = true → s.bound = true → s.b.netw.members ≠ [] →
    exec (.forceBypass false) s = .next (commit { s with ring := { s.ring with forceBypass := false, bypassOpen := true } })) ∧
  (∀ (s : State) (m : Fin 6) (e w es ws : Nat), s.live = true → s.isMember = true → m.val ≠ s.memberIdx →
    exec (.linkReport m e w es ws) s = .next (commit { s with ring := { s.ring with
      reports := s.ring.reports.set m { seen := true, east := e, west := w, eastSkip := es, westSkip := ws } } })) ∧
  (∀ s : State, s.live = true → s.isMember = true → s.tick.running = true → s.tick.num % 256 = 0 → s.ring.ports.wf = true →
    ∃ t, exec .linkReportSend s = .next t ∧ OnlyIn [.ring, .sent] s t ∧ (t.rport 0).reported = true ∧
      (t.rport 1).reported = true) ∧
  (∀ s : State, s.live = true → s.tick.num % 256 ≠ 0 → exec .linkReportSend s = .next (commit s))
/-- R326, R327, R329: frames. A header whose check fails is answered with a NAK of the expected SEQ; the frame in order is taken and
acknowledged; one taken before is acknowledged again and changes nothing; an acknowledgement releases the replay buffer up to its SEQ;
a NAK or a timeout replays, and the fourth replay in a row of one SEQ retrains the link. -/
def Obligations.RingFrames : Prop :=
  (∀ (s : State) (p : Fin 2) (h : BitVec 64) (b : List (BitVec 8)) (c : BitVec 32), s.live = true →
    (s.rport p).carries false = true → headerOk h.toNat = false → s.ring.ports.wf = true →
    ∃ t, exec (.ringFrame p h b c) s = .next t ∧ OnlyIn [.ring, .sent, .cnt] s t ∧
      (t.rport p).rxSeq = (s.rport p).rxSeq ∧ (t.rport p).events.getLsbD 3 = true ∧
      ({ kind := .ring, port := p, code := 17, status := (s.rport p).rxSeq } : Out) ∈ t.sent) ∧
  (∀ (s : State) (p : Fin 2) (h : BitVec 64) (b : List (BitVec 8)), s.live = true →
    (s.rport p).carries false = true → headerOk h.toNat = true → (frameOf h.toNat b).seq = (s.rport p).rxSeq →
    b.length = 64 * (h.toNat / 2 ^ 18 % 16) → s.ring.ports.wf = true →
    ∃ t, exec (.ringFrame p h b (crc32c b)) s = .next t ∧ OnlyIn [.ring, .sent, .cnt] s t ∧
      (t.rport p).rxSeq = ((s.rport p).rxSeq + 1) % 4096 ∧ (t.rport p).replay = (s.rport p).replay ∧
      ({ kind := .ring, port := p, code := 16, status := (s.rport p).rxSeq } : Out) ∈ t.sent) ∧
  (∀ (s : State) (p : Fin 2) (h : BitVec 64) (b : List (BitVec 8)) (c : BitVec 32), s.live = true →
    (s.rport p).carries false = true → headerOk h.toNat = true → (frameOf h.toNat b).seq ≠ (s.rport p).rxSeq →
    ((s.rport p).rxSeq + 4096 - (frameOf h.toNat b).seq) % 4096 ≤ 2048 →
    exec (.ringFrame p h b c) s = .next (commit { s with
      sent := { kind := .ring, port := p, code := 16, status := (frameOf h.toNat b).seq } :: s.sent })) ∧
  (∀ (s : State) (p : Fin 2) (n : Nat) (f : RFrame) (x y : List RFrame), s.live = true → (s.rport p).replay = x ++ f :: y →
    f.seq = n → (∀ g ∈ x, g.seq ≠ n) →
    exec (.ringAck p n) s = .next (commit { s with ring := { s.ring with ports := s.ring.ports.upd p fun z => { z with
      replay := y, replayRun := 0 } } })) ∧
  (∀ (s : State) (p : Fin 2) (n : Nat) (f : RFrame) (x y : List RFrame), s.live = true → (s.rport p).replay = x ++ f :: y →
    f.seq = n → (∀ g ∈ x, g.seq ≠ n) → (s.rport p).retraining = false → (s.rport p).replayRun = 0 → s.ring.ports.wf = true →
    ∃ t, exec (.ringNak p n) s = .next t ∧ OnlyIn [.ring, .sent, .cnt] s t ∧ (t.rport p).replay = f :: y ∧
      (t.rport p).replays = (s.rport p).replays + 1 ∧ (t.rport p).replaySeq = n ∧ (t.rport p).replayRun = 1 ∧
      (t.rport p).events.getLsbD 2 = true ∧ (t.rport p).retraining = false) ∧
  (∀ (s : State) (p : Fin 2) (f : RFrame) (y : List RFrame), s.live = true → (s.rport p).replay = f :: y →
    (s.rport p).retraining = false → (s.rport p).replaySeq = f.seq → (s.rport p).replayRun = 3 → s.ring.ports.wf = true →
    ∃ t, exec (.replayTimeout p) s = .next t ∧ OnlyIn [.ring, .cnt] s t ∧ (t.rport p).replay = f :: y ∧
      (t.rport p).replays = (s.rport p).replays + 1 ∧ (t.rport p).retraining = true ∧
      (t.rport p).retrains = (s.rport p).retrains + 1 ∧ (t.rport p).events.getLsbD 1 = true) ∧
  (∀ (s : State) (p : Fin 2), s.live = true → (s.rport p).retraining = true → s.ring.ports.wf = true →
    ∃ t, exec (.retrainDone p true) s = .next t ∧ OnlyIn [.ring, .sent] s t ∧
      t.rport p = { s.rport p with retraining := false }) ∧
  (∀ (s : State) (p : Fin 2), s.live = true → (s.rport p).retraining = true → (s.rport p).state = .up → s.ring.ports.wf = true →
    ∃ t, exec (.retrainDone p false) s = .next t ∧ OnlyIn [.ring, .sent, .cnt] s t ∧ (t.rport p).state = .down ∧
      (t.rport p).replay = [])
/-- R262, R330, R332, R334, R335, R381: the peer spill service. A write takes a free slot inside the serve space, is discarded for one
outside or another tenant's, and is dropped on a lane without a route; its 17th frame stores the slot; a read leaves the serve space as
it is; a free clears the borrower's own tag and no other; a REVOKE clears the sender's tags of that tenant; an acknowledgement ends the
borrower's spill as SPILL_COMPLETE would, read data opens the lane's reception, and a refused read is a failed fetch. -/
def Obligations.PeerSpill : Prop :=
  (∀ (s : State) (l : Fin 32) (m : Fin 6) (slot k ch : Nat), s.live = true → s.isMember = true →
    (s.b.routeOf l).isSome = true → slot < s.serveSpace → (s.ring.serve.get slot).used = false →
    s.ring.serveFill + 8704 ≤ 524288 →
    exec (.spillWrite l m slot k ch) s = .next (commit { s with ring := { s.ring with
      serveFill := s.ring.serveFill + 8704
      serve := s.ring.serve.upd slot fun x => { x with
        used := true, member := m, tenant := k, coldCount := s.ring.farCold.get m, gen := x.gen + 1 }
      laneRx := s.ring.laneRx.set l { active := true, member := m, slot := slot, tenant := k } } })) ∧
  (∀ (s : State) (l : Fin 32) (m : Fin 6) (slot k ch : Nat), s.live = true → s.isMember = true →
    (s.b.routeOf l).isSome = true →
    (s.serveSpace ≤ slot ∨ ((s.ring.serve.get slot).used = true ∧ (s.ring.serve.get slot).tenant ≠ k)) → s.ring.laneRx.wf = true →
    ∃ t, exec (.spillWrite l m slot k ch) s = .next t ∧ OnlyIn [.ring, .sent] s t ∧ t.ring.serve = s.ring.serve ∧
      t.ring.serveFill = s.ring.serveFill ∧ (t.ring.laneRx.get l).discard = true) ∧
  (∀ (s : State) (l : Fin 32) (m : Fin 6) (slot k ch : Nat), s.live = true → s.isMember = true → s.b.routeOf l = none →
    ∃ t, exec (.spillWrite l m slot k ch) s = .next t ∧ OnlyIn [.ring, .cnt] s t ∧ t.ring.serve = s.ring.serve) ∧
  (∀ (s : State) (l : Fin 32) (m : Fin 6) (b : List (BitVec 8)), s.live = true → (s.ring.laneRx.get l).active = true →
    (s.ring.laneRx.get l).discard = false → (s.ring.laneRx.get l).isRead = false → (s.ring.laneRx.get l).frames < 16 →
    exec (.dataFrame l m b) s = .next (commit { s with ring := { s.ring with
      laneRx := s.ring.laneRx.set l { s.ring.laneRx.get l with
        frames := (s.ring.laneRx.get l).frames + 1, data := (s.ring.laneRx.get l).data ++ sliceZ b 0 512 } } })) ∧
  (∀ (s : State) (l : Fin 32) (m : Fin 6) (b : List (BitVec 8)), s.live = true → (s.ring.laneRx.get l).active = true →
    (s.ring.laneRx.get l).discard = false → (s.ring.laneRx.get l).isRead = false → (s.ring.laneRx.get l).frames = 16 →
    (s.ring.serve.get (s.ring.laneRx.get l).slot).used = true → s.ring.serve.wf = true → s.ring.laneRx.wf = true →
    ∃ t, exec (.dataFrame l m b) s = .next t ∧ OnlyIn [.ring, .sent] s t ∧
      t.ring.serve.get (s.ring.laneRx.get l).slot = { s.ring.serve.get (s.ring.laneRx.get l).slot with
        content := (s.ring.laneRx.get l).data ++ sliceZ b 0 512 } ∧
      t.ring.serveFill = s.ring.serveFill - 8704 ∧ t.ring.laneRx.get l = {}) ∧
  (∀ (s : State) (l : Fin 32) (m : Fin 6) (slot k line : Nat), s.live = true → s.isMember = true →
    (s.b.routeOf l).isSome = true → line ≤ 1 →
    ∃ t, exec (.spillRead l m slot k line) s = .next t ∧ OnlyIn [.ring, .sent] s t ∧ t.ring.serve = s.ring.serve) ∧
  (∀ (s : State) (l : Fin 32) (m : Fin 6) (slot k : Nat), s.live = true → s.isMember = true →
    (s.b.routeOf l).isSome = true → (s.ring.serve.get slot).used = true → (s.ring.serve.get slot).member = m.val →
    (s.ring.serve.get slot).tenant = k →
    exec (.spillFree l m slot k) s = .next (commit { s with ring := { s.ring with
      serve := s.ring.serve.set slot { gen := (s.ring.serve.get slot).gen } } })) ∧
  (∀ (s : State) (l : Fin 32) (m : Fin 6) (slot k : Nat), s.live = true → s.isMember = true →
    (s.b.routeOf l).isSome = true → ((s.ring.serve.get slot).member ≠ m.val ∨ (s.ring.serve.get slot).tenant ≠ k) →
    exec (.spillFree l m slot k) s = .next (commit s)) ∧
  (∀ (s : State) (m : Fin 6) (k n : Nat), s.live = true → s.isMember = true → s.ring.serve.wf = true →
    ∃ t, exec (.revoke m k n) s = .next t ∧ OnlyIn [.ring] s t ∧ ∀ i, t.ring.serve.get i =
      (if (s.ring.serve.get i).used = true ∧ (s.ring.serve.get i).member = m.val ∧ (s.ring.serve.get i).tenant = k
       then { gen := (s.ring.serve.get i).gen } else s.ring.serve.get i)) ∧
  (∀ (s : State) (l : Fin 32) (slot st leaf : Nat), s.live = true → s.peerXfer l slot false = some leaf →
    ∃ t, exec (.spillAck l slot st) s = .next t ∧ exec (.spillComplete leaf (if st = 0 then 0 else 8)) s = .next t) ∧
  (∀ (s : State) (l : Fin 32) (slot st : Nat), s.live = true → s.peerXfer l slot false = none → s.b.routeOf l = none →
    exec (.spillAck l slot st) s = .next (commit s)) ∧
  (∀ (s : State) (l : Fin 32) (slot : Nat), s.live = true → s.isMember = true →
    exec (.readData l slot 0) s = .next (commit { s with ring := { s.ring with
      laneRx := s.ring.laneRx.set l { active := true, isRead := true, slot := slot } } })) ∧
  (∀ (s : State) (l : Fin 32) (slot st leaf n : Nat) (x : Xfer), s.live = true → s.isMember = true → st ≠ 0 →
    s.peerXfer l slot true = some leaf → s.xferOf leaf = some x → x.isFetch = true → x.localSlot = some n →
    s.leaf.fails.get leaf = 0 → s.leaf.map.wf = true →
    ∃ t, exec (.readData l slot st) s = .next t ∧ OnlyIn [.leaf, .cnt] s t ∧
      t.leafE leaf = { s.leafE leaf with state := .spilled } ∧ t.leaf.events.getLsbD 7 = true)
/-- R48, R325, R456, R457, R466: RING_EVENT, without a pair. ABSENT of another member marks it and clears its serve tags, and of this member
sets it to SHADOW; SUSPECT marks the member, and for this member sets event bit 10; ADMITTED and CLEARED change the view; an event that
names no member changes nothing. -/
def Obligations.RingView : Prop :=
  (∀ (s : State) (k n : Nat) (m : Fin 6), s.live = true → s.b.memberRec m = none →
    exec (.ringEvent k m n) s = .next (commit s)) ∧
  (∀ (s : State) (n : Nat) (m : Fin 6), s.live = true → s.isMember = true → (s.b.memberRec m).isSome = true →
    s.tick.role = .follower → m.val ≠ s.memberIdx → s.leaf.map = [] → s.ring.serve.wf = true → s.paired = false →
    ∃ t, exec (.ringEvent 0 m n) s = .next t ∧ OnlyIn [.pair, .ring] s t ∧ t.pair.absent = bitSet s.pair.absent m ∧
      t.pair.admittedSet = bitClr s.pair.admittedSet m ∧
      ∀ i, (t.ring.serve.get i).used = true → (t.ring.serve.get i).member ≠ m.val) ∧
  (∀ (s : State) (n : Nat) (m : Fin 6), s.live = true → s.isMember = true → (s.b.memberRec m).isSome = true →
    m.val = s.memberIdx → s.paired = false →
    ∃ t, exec (.ringEvent 0 m n) s = .next t ∧ OnlyIn [.pair] s t ∧ t.pair.absent = bitSet s.pair.absent m ∧
      t.pair.admission = .shadow ∧ t.pair.admitCount = 0) ∧
  (∀ (s : State) (n : Nat) (m : Fin 6), s.live = true → s.isMember = true → (s.b.memberRec m).isSome = true →
    m.val ≠ s.memberIdx → s.paired = false →
    ∃ t, exec (.ringEvent 1 m n) s = .next t ∧ OnlyIn [.pair] s t ∧ t.pair.suspect = bitSet s.pair.suspect m) ∧
  (∀ (s : State) (n : Nat) (m : Fin 6), s.live = true → s.isMember = true → (s.b.memberRec m).isSome = true →
    m.val = s.memberIdx → s.paired = false →
    ∃ t, exec (.ringEvent 1 m n) s = .next t ∧ OnlyIn [.pair, .tick, .cnt] s t ∧ t.pair.suspect = bitSet s.pair.suspect m ∧
      t.tick = { s.tick with events := bitSet s.tick.events 10 }) ∧
  (∀ (s : State) (n : Nat) (m : Fin 6), s.live = true → s.isMember = true → (s.b.memberRec m).isSome = true →
    s.paired = false →
    ∃ t, exec (.ringEvent 2 m n) s = .next t ∧ OnlyIn [.pair, .cnt] s t ∧
      t.pair.admittedSet = bitSet s.pair.admittedSet m ∧ t.pair.absent = bitClr s.pair.absent m ∧
      t.pair.suspect = bitClr s.pair.suspect m ∧
      (m.val = s.memberIdx → s.pair.admission = .pending → t.pair.admission = .admitted)) ∧
  (∀ (s : State) (n : Nat) (m : Fin 6), s.live = true → s.isMember = true → (s.b.memberRec m).isSome = true →
    s.paired = false →
    ∃ t, exec (.ringEvent 3 m n) s = .next t ∧ OnlyIn [.pair] s t ∧ t.pair.suspect = bitClr s.pair.suspect m)

/-- R351, R343, R355, R472: events of the host side. A function reset unlocks the function's TDI and records FLR_VF; a reset of the physical
function, loss of the link and a secondary bus reset clear NumVFs and IRQ_EN, and the last two the IDE streams; none of them stops the
tick or changes the binding. PERST_N acts on the host interface and the start record's pin, not on the tick or the binding. NumVFs
grows, and shrinking it unlocks the functions that go; configuration writes of two items, one of which puts a held TDI in ERROR;
unmasking a pending vector sends its message. -/
def Obligations.HostSideEvents : Prop :=
  (∀ (s : State) (j : Fin 8), s.live = true → j + 1 ≤ s.host.numVfs → s.host.tdis.wf = true →
    ∃ t, exec (.vfFlr j) s = .next t ∧ t.tick = s.tick ∧ t.bind = s.bind ∧ (t.tdi (j + 1)).state = .unlocked ∧
      t.host.events.getLsbD 2 = true ∧ t.host.numVfs = s.host.numVfs) ∧
  (∀ (s : State) (j : Fin 8), s.live = true → j + 1 ≤ s.host.numVfs → s.host.tdis.wf = true → s.host.funcs.wf = true →
    s.mbx.gens.wf = true → s.b.tentOfVf (j + 1) = none → s.host.sessions = [] →
    ∃ t, exec (.vfFlr j) s = .next t ∧ OnlyIn [.host, .mbx, .bus, .cnt, .pwr] s t ∧
      t.host.funcs.get (j + 1) = {} ∧ (t.mbx.gens.get (j + 2)).gen =
        (if (s.mbx.gens.get (j + 2)).gen = 0xFFFF then 1 else (s.mbx.gens.get (j + 2)).gen + 1)) ∧
  (∀ s : State, s.live = true →
    ∃ t, exec .pfFlr s = .next t ∧ t.tick = s.tick ∧ t.bind = s.bind ∧ t.host.numVfs = 0 ∧ t.host.irqEn = 0 ∧
      t.bus.bar4Enable = false ∧ t.host.events.getLsbD 1 = true ∧ t.host.streams = s.host.streams) ∧
  (∀ s : State, s.live = true →
    ∃ t, exec .hostLinkDown s = .next t ∧ t.tick = s.tick ∧ t.bind = s.bind ∧ t.host.numVfs = 0 ∧ t.host.irqEn = 0 ∧
      t.host.events.getLsbD 0 = true ∧ t.host.linkUp = false ∧ t.host.streams = []) ∧
  (∀ s : State, s.live = true →
    ∃ t, exec .secondaryBusReset s = .next t ∧ t.tick = s.tick ∧ t.bind = s.bind ∧ t.host.numVfs = 0 ∧ t.host.irqEn = 0 ∧
      t.host.events.getLsbD 1 = true ∧ t.host.linkUp = s.host.linkUp ∧ t.host.streams = []) ∧
  (∀ (s : State) (speed width : Nat), s.live = true → s.start.perst = false →
    exec (.hostLinkUp speed width) s = .next (commit { s with
      host := { s.host with linkUp := true, speed := speed, width := width } })) ∧
  (∀ s : State, exec (.perstN false) s = .next (commit { s with start := { s.start with perst := false } })) ∧
  (∀ s : State, s.live = true → s.start.perst = false →
    ∃ t, exec (.perstN true) s = .next t ∧ t.tick = s.tick ∧ t.bind = s.bind ∧ t.start = { s.start with perst := true } ∧
      t.host.numVfs = 0 ∧ t.host.streams = [] ∧ t.host.linkUp = false) ∧
  (∀ (s : State) (n : Nat), s.live = true → s.host.numVfs ≤ n → n ≤ 8 →
    exec (.numvfsWrite n) s = .next (commit { s with host := { s.host with numVfs := n } })) ∧
  (∀ (s : State) (n : Nat), s.live = true → n < s.host.numVfs → s.host.numVfs ≤ 8 → s.host.tdis.wf = true →
    ∃ t, exec (.numvfsWrite n) s = .next t ∧ t.tick = s.tick ∧ t.bind = s.bind ∧ t.host.numVfs = n ∧
      ∀ j : Fin 8, n ≤ j.val → j.val < s.host.numVfs → (t.tdi (j + 1)).state = .unlocked) ∧
  (∀ (s : State) (us : Nat), s.live = true →
    exec (.pciConfigWrite 0 2 us) s = .next (commit { s with host := { s.host with cplTimeoutUs := us } })) ∧
  (∀ (s : State) (f : Fin 9) (v : Nat), s.live = true → f.val ≤ s.host.numVfs → s.tdiHeld f = false → v ≠ 0 →
    (s.host.funcs.get f).busMaster = false →
    exec (.pciConfigWrite f 1 v) s = .next (commit { s with host := { s.host with
      funcs := s.host.funcs.upd f fun x => { x with busMaster := true } } })) ∧
  (∀ (s : State) (j : Fin 8) (f : Fin 9), f.val = j.val + 1 → s.live = true → f.val ≤ s.host.numVfs → s.tdiHeld f = true →
    (s.host.funcs.get f).busMaster = true → s.b.tentOfVf f = none → s.host.tdis.wf = true → s.host.funcs.wf = true →
    ∃ t, exec (.pciConfigWrite f 1 0) s = .next t ∧ OnlyIn [.host, .cnt] s t ∧ (t.tdi f).state = .error ∧
      (t.host.funcs.get f).busMaster = false ∧ (t.host.funcs.get f).events.getLsbD 0 = true ∧
      t.host.events.getLsbD 8 = true) ∧
  (∀ (s : State) (v : Fin 3), s.live = true → s.host.linkUp = true → (s.host.msix.get v).masked = true →
    (s.host.msix.get v).pend = true →
    exec (.msixUnmask 0 v) s = .next (commit { s with
      host := { s.host with msix := s.host.msix.upd v fun x => { x with masked := false, pend := false } }
      sent := msixOut 0 v :: s.sent })) ∧
  (∀ (s : State) (f : Fin 9) (v : Nat), s.live = true → (s.host.msix.get (4 * f + v)).masked = false →
    exec (.msixUnmask f v) s = .next (commit s))

/-- R347 to R350, R352: host windows and IDE streams. A control write is refused to HOST_PF where it is not the window's owner; ENABLE is
refused with WIN_REFUSED where its condition fails, and otherwise enables the window; clearing it disables it; a bad completion or a
timeout ends the transfer with HOST_ERROR and sets FAULT; keys, key-set switches and failures of a stream, the failure of a function's
stream putting its held TDI in ERROR. -/
def Obligations.HostWindowsAndStreams : Prop :=
  (∀ (s : State) (w : Fin 16) (v : BitVec 32), s.live = true → s.winMaster w ≠ 1 →
    ∃ t, exec (.hswCtrlWrite 1 w v) s = .next t ∧ OnlyIn [.bus, .cnt] s t ∧
      t.bus = { s.bus with regErr := s.bus.regErr.upd 1 fun e => e ||| 64#7 } ∧ t.cnt = (s.count 0x16 none none 1).cnt) ∧
  (∀ (s : State) (m : Nat) (w : Fin 16) (v : BitVec 32), s.live = true → s.winMaster w = m → v.getLsbD 0 = true →
    (s.host.wins.get w).enabled = false → s.winOk w = true →
    exec (.hswCtrlWrite m w v) s = .next (commit { s with host := { s.host with
      wins := s.host.wins.upd w fun x => { x with enabled := true } } })) ∧
  (∀ (s : State) (m : Nat) (w : Fin 16) (v : BitVec 32), s.live = true → s.winMaster w = m → v.getLsbD 0 = true →
    (s.host.wins.get w).enabled = false → s.winOk w = false →
    ∃ t, exec (.hswCtrlWrite m w v) s = .next t ∧ OnlyIn [.host, .cnt] s t ∧ t.host.wins = s.host.wins ∧
      t.host.events = bitSet s.host.events 7) ∧
  (∀ (s : State) (w : Fin 16) (v : BitVec 32), s.live = true → s.winMaster w = 1 → v.getLsbD 0 = false →
    s.host.wins.wf = true →
    ∃ t, exec (.hswCtrlWrite 1 w v) s = .next t ∧ (t.host.wins.get w).enabled = false ∧ t.tick = s.tick ∧ t.bind = s.bind) ∧
  (∀ (s : State) (a : Fin 96), s.live = true → exec (.hostCompletion a 0) s = .next (commit s)) ∧
  (∀ (s : State) (a : Fin 96) (n : Nat), s.live = true → n ≠ 0 → (s.queue a).busy = true → (s.queue a).pendCode = none →
    adSpace (s.queue a).prog.src = 2 → s.dma.queues.wf = true → s.host.wins.wf = true →
    ∃ t, exec (.hostCompletion a n) s = .next t ∧ OnlyIn [.host, .dma, .cnt] s t ∧
      (t.queue a).pendCode = some 7 ∧ (t.host.wins.get (adWin (s.queue a).prog.src)).fault = true ∧
      t.host.events = bitSet s.host.events 4) ∧
  (∀ (s : State) (a : Fin 96), s.live = true → (s.queue a).busy = true → (s.queue a).pendCode = none →
    adSpace (s.queue a).prog.src = 2 → s.dma.queues.wf = true → s.host.wins.wf = true →
    ∃ t, exec (.cplTimeout a) s = .next t ∧ OnlyIn [.host, .dma, .cnt] s t ∧
      (t.queue a).pendCode = some 7 ∧ (t.host.wins.get (adWin (s.queue a).prog.src)).fault = true ∧
      t.host.events = bitSet s.host.events 3) ∧
  (∀ (s : State) (n : Fin 9), s.live = true → s.host.linkUp = true →
    exec (.ideKm n true 0) s = .next (commit { s with host := { s.host with
      streams := s.host.streams.upd n fun x => { x with keys1 := true } } })) ∧
  (∀ (s : State) (n : Fin 9), s.live = true → s.host.linkUp = true → (s.host.streams.get n).keySet = false →
    exec (.ideKm n false 1) s = .next (commit { s with host := { s.host with
      streams := s.host.streams.upd n fun x => { x with keys0 := false, secure := false } } })) ∧
  (∀ (s : State) (n : Fin 9), s.live = true → s.host.linkUp = true → (s.host.streams.get n).keys1 = true →
    exec (.kSetGo n true) s = .next (commit { s with host := { s.host with
      streams := s.host.streams.upd n fun x => { x with keySet := true, secure := true } } })) ∧
  (∀ (s : State) (n : Fin 9), s.live = true → s.host.linkUp = true → (s.host.streams.get n).keys1 = false →
    exec (.kSetGo n true) s = .next (commit s)) ∧
  (∀ s : State, s.live = true → (s.host.streams.get 0).secure = true →
    ∃ t, exec (.ideInsecure 0) s = .next t ∧ OnlyIn [.host, .cnt] s t ∧ t.host = { s.host with
      msix := t.host.msix, streams := s.host.streams.upd 0 fun x => { x with secure := false }
      events := bitSet s.host.events 5 }) ∧
  (∀ (s : State) (n : Fin 9), s.live = true → n.val ≠ 0 → (s.host.streams.get n).secure = true → s.tdiHeld n = true →
    s.host.tdis.wf = true → s.host.streams.wf = true →
    ∃ t, exec (.ideInsecure n) s = .next t ∧ t.tick = s.tick ∧ t.bind = s.bind ∧ (t.tdi n).state = .error ∧
      (t.host.streams.get n).secure = false ∧ t.host.events.getLsbD 5 = true ∧ t.host.events.getLsbD 8 = true)

/-- R354, R355: TDISP requests in an open session for a function that exists. Version and capabilities; LOCK takes an unlocked TDI of a
function with a tenant and a Secure stream, with a fresh nonce; START with that nonce runs the TDI and begins the admission of an
admissible tenant; the report is given while it is held; STOP unlocks it; LOCK, START and STOP in a state that does not allow them leave
it unchanged and are answered INVALID_INTERFACE_STATE, and any other request UNSUPPORTED_REQUEST. The response and error codes are the
model's (log 35). -/
def Obligations.TdispRequests : Prop :=
  (∀ (s : State) (n : Nat) (j : Fin 8), s.live = true → (s.host.sessions.get n).isOpen = true → j + 1 ≤ s.host.numVfs →
    exec (.getTdispVersion n j) s = .next (commit { s with
      sent := { kind := .tdisp, port := j + 1, code := 1, bytes := [1, 0x10] } :: s.sent })) ∧
  (∀ (s : State) (n : Nat) (j : Fin 8), s.live = true → (s.host.sessions.get n).isOpen = true → j + 1 ≤ s.host.numVfs →
    exec (.getTdispCapabilities n j) s = .next (commit { s with
      sent := { kind := .tdisp, port := j + 1, code := 2, bytes := toLe 16 0xFE } :: s.sent })) ∧
  (∀ (s : State) (n : Nat) (j : Fin 8) (c : Bool), s.live = true → (s.host.sessions.get n).isOpen = true → j + 1 ≤ s.host.numVfs →
    (s.tdi (j + 1)).state = .unlocked → (s.b.tentOfVf (j + 1)).isSome = true → (s.host.streams.get (j + 1)).secure = true →
    s.host.tdis.wf = true →
    ∃ t, exec (.lockInterfaceRequest n j c) s = .next t ∧ OnlyIn [.host, .freeCount, .sent] s t ∧
      t.tdi (j + 1) = { state := .locked, nonce := s.freeBytes 32, session := n, noFwUpdate := c
                        stopOwed := (s.tdi (j + 1)).stopOwed } ∧ t.freeCount = s.freeCount + 32) ∧
  (∀ (s : State) (n : Nat) (j : Fin 8) (c : Bool), s.live = true → (s.host.sessions.get n).isOpen = true → j + 1 ≤ s.host.numVfs →
    ((s.tdi (j + 1)).state ≠ .unlocked ∨ s.b.tentOfVf (j + 1) = none ∨ (s.host.streams.get (j + 1)).secure = false) →
    exec (.lockInterfaceRequest n j c) s = .next (commit { s with
      sent := { kind := .tdisp, port := j + 1, code := 0x7F, status := 4 } :: s.sent })) ∧
  (∀ (s : State) (n : Nat) (j : Fin 8), s.live = true → (s.host.sessions.get n).isOpen = true → j + 1 ≤ s.host.numVfs →
    s.tdiHeld (j + 1) = true →
    ∃ t, exec (.getDeviceInterfaceReport n j) s = .next t ∧ OnlyIn [.freeCount, .sent] s t ∧ t.freeCount = s.freeCount + 8) ∧
  (∀ (s : State) (n : Nat) (j : Fin 8), s.live = true → (s.host.sessions.get n).isOpen = true → j + 1 ≤ s.host.numVfs →
    exec (.getDeviceInterfaceState n j) s = .next (commit { s with
      sent := { kind := .tdisp, port := j + 1, code := 5, bytes := toLe 1 (s.tdi (j + 1)).state.code } :: s.sent })) ∧
  (∀ (s : State) (n : Nat) (j : Fin 8) (r : TentRec), s.live = true → (s.host.sessions.get n).isOpen = true →
    j + 1 ≤ s.host.numVfs → (s.tdi (j + 1)).state = .locked → s.b.tentOfVf (j + 1) = some r → s.admissible r.tenant = true →
    s.host.tdis.wf = true → s.ksi.tenants.wf = true →
    ∃ t, exec (.startInterfaceRequest n j (s.tdi (j + 1)).nonce) s = .next t ∧ (t.tdi (j + 1)).state = .run ∧
      (t.ten r.tenant).admitPend = true ∧ (t.ten r.tenant).state = .none ∧ t.tick = s.tick ∧ t.bind = s.bind) ∧
  (∀ (s : State) (n : Nat) (j : Fin 8) (x : List (BitVec 8)), s.live = true → (s.host.sessions.get n).isOpen = true →
    j + 1 ≤ s.host.numVfs → (s.tdi (j + 1)).state ≠ .locked →
    exec (.startInterfaceRequest n j x) s = .next (commit { s with
      sent := { kind := .tdisp, port := j + 1, code := 0x7F, status := 4 } :: s.sent })) ∧
  (∀ (s : State) (n : Nat) (j : Fin 8), s.live = true → (s.host.sessions.get n).isOpen = true → j + 1 ≤ s.host.numVfs →
    (s.tdi (j + 1)).state ≠ .unlocked → s.b.tentOfVf (j + 1) = none → s.host.tdis.wf = true →
    ∃ t, exec (.stopInterfaceRequest n j) s = .next t ∧ OnlyIn [.host, .sent] s t ∧ t.tdi (j + 1) = {} ∧
      ({ kind := .tdisp, port := j + 1, code := 7 } : Out) ∈ t.sent) ∧
  (∀ (s : State) (n : Nat) (j : Fin 8), s.live = true → (s.host.sessions.get n).isOpen = true → j + 1 ≤ s.host.numVfs →
    (s.tdi (j + 1)).state = .unlocked →
    exec (.stopInterfaceRequest n j) s = .next (commit { s with
      sent := { kind := .tdisp, port := j + 1, code := 0x7F, status := 4 } :: s.sent })) ∧
  (∀ (s : State) (n c : Nat) (j : Fin 8), s.live = true → (s.host.sessions.get n).isOpen = true → j + 1 ≤ s.host.numVfs →
    exec (.tdispOtherRequest n j c) s = .next (commit { s with
      sent := { kind := .tdisp, port := j + 1, code := 0x7F, status := 7 } :: s.sent }))

/-- R356, R383, R384: the SPDM responder. KEY_EXCHANGE opens a session while fewer than twelve are open and is refused otherwise; a session
that holds no TDI ends on END_SESSION or 30 s after its last heartbeat; a heartbeat and a key update of an open session are taken; the
certificate of slot 0, a challenge on it and measurements 1 to 6 are answered. The codes of the answers are the standard's (log 35). -/
def Obligations.SpdmSessions : Prop :=
  (∀ (s : State) (m : Bool), s.live = true → s.spdmUp m = true → s.openSessions.length < 12 → s.host.sessions.wf = true →
    ∃ t, exec (.keyExchange m) s = .next t ∧ OnlyIn [.host, .freeCount, .sent] s t ∧
      (t.host.sessions.get s.newSession).isOpen = true ∧ (t.host.sessions.get s.newSession).overMctp = m ∧
      (t.host.sessions.get s.newSession).lastBeat = s.tb.time ∧
      (s.host.sessions.get s.newSession).isOpen = false ∧ 1 ≤ s.newSession ∧ s.newSession ≤ 12) ∧
  (∀ (s : State) (m : Bool), s.live = true → s.spdmUp m = true → 12 ≤ s.openSessions.length →
    exec (.keyExchange m) s = .next (commit { s with sent := { kind := .spdm, code := 0x7F, status := 10 } :: s.sent })) ∧
  (∀ (s : State) (n : Nat), s.live = true → (s.host.sessions.get n).isOpen = true → (∀ i, (s.tdi i).session ≠ n) →
    exec (.endSession n) s = .next (commit { s with host := { s.host with sessions := s.host.sessions.erase n }
                                                    sent := { kind := .spdm, code := 0x6C, status := n } :: s.sent })) ∧
  (∀ (s : State) (n : Nat), s.live = true → (s.host.sessions.get n).isOpen = true →
    exec (.spdmHeartbeat n) s = .next (commit { s with
      host := { s.host with sessions := s.host.sessions.upd n fun x => { x with lastBeat := s.tb.time } }
      sent := { kind := .spdm, code := 0x68, status := n } :: s.sent })) ∧
  (∀ (s : State) (n : Nat), s.live = true → (s.host.sessions.get n).isOpen = true → (∀ i, (s.tdi i).session ≠ n) →
    exec (.spdmHeartbeatLost n) s = .next (commit (
      if (s.host.sessions.get n).lastBeat + 30000000000 ≤ s.tb.time
      then { s with host := { s.host with sessions := s.host.sessions.erase n } } else s))) ∧
  (∀ (s : State) (n : Nat), s.live = true → (s.host.sessions.get n).isOpen = true →
    exec (.keyUpdate n) s = .next (commit { s with
      host := { s.host with sessions := s.host.sessions.upd n fun x => { x with keyGen := x.keyGen + 1 } }
      sent := { kind := .spdm, code := 0x69, status := n } :: s.sent })) ∧
  (∀ s : State, s.live = true →
    exec (.getCertificate 0) s = .next (commit { s with sent := { kind := .spdm, code := 2 } :: s.sent })) ∧
  (∀ (s : State) (x : List (BitVec 8)), s.live = true →
    exec (.challenge 0 x) s = .next (commit { s with
      freeCount := s.freeCount + 114
      sent := { kind := .spdm, code := 3, bytes := x ++ s.freeBytes 114 } :: s.sent })) ∧
  (∀ (s : State) (n i : Nat), s.live = true → 1 ≤ i → i ≤ 6 →
    exec (.getMeasurements n i true) s = .next (commit { s with sent := {
      kind := .spdm, code := 0x60, status := i
      bytes := (s.ksi.measures.get i).acc ++ toLe 4 (s.ksi.measures.get i).count } :: s.sent })) ∧
  (∀ (s : State) (n : Nat) (raw : Bool), s.live = true → (∀ k, s.sessionFor n k = false) →
    exec (.getMeasurements n 7 raw) s = .next (commit { s with sent := { kind := .spdm, code := 0x7F, status := 1 } :: s.sent }))
/-- R357: the MCTP endpoint answers its six control commands while the AON domain has power; Set Endpoint ID changes the EID and ends the
sessions over MCTP. The codes of the answers are the standard's (log 35). -/
def Obligations.MctpControl : Prop :=
  (∀ (s : State) (e : BitVec 8), s.aon = true → e ≠ 0 → e ≠ 255 → s.host.sessions = [] →
    exec (.setEndpointId e) s = .next (commit { s with
      host := { s.host with eid := e.toNat }, sent := { kind := .mctp, code := 1, bytes := toLe 1 e.toNat } :: s.sent })) ∧
  (∀ (s : State) (e : BitVec 8) (n : Nat), s.aon = true → e ≠ 0 → e ≠ 255 → s.host.eid ≠ e.toNat → s.host.sessions.wf = true →
    (s.host.sessions.get n).isOpen = true → (s.host.sessions.get n).overMctp = true →
    ∃ t, exec (.setEndpointId e) s = .next t ∧ t.host.eid = e.toNat ∧ (t.host.sessions.get n).isOpen = false) ∧
  (∀ s : State, s.aon = true →
    exec .getEndpointId s = .next (commit { s with
      sent := { kind := .mctp, code := 2, bytes := toLe 1 s.host.eid } :: s.sent })) ∧
  (∀ s : State, s.aon = true →
    exec .getEndpointUuid s = .next (commit { s with
      sent := { kind := .mctp, code := 3, bytes := Config.endpointUuid s.keep.accession } :: s.sent })) ∧
  (∀ s : State, s.aon = true →
    exec .getMctpVersionSupport s = .next (commit { s with
      freeCount := s.freeCount + 4, sent := { kind := .mctp, code := 4, bytes := s.freeBytes 4 } :: s.sent })) ∧
  (∀ s : State, s.aon = true →
    exec .getMessageTypeSupport s = .next (commit { s with
      sent := { kind := .mctp, code := 5, bytes := [3, 0x05, 0x06, 0x7E] } :: s.sent })) ∧
  (∀ s : State, s.aon = true →
    exec .getVendorDefinedMessageSupport s = .next (commit { s with
      sent := { kind := .mctp, code := 6, bytes := [0xFF, 0x00, 0x1F, 0x4A] } :: s.sent }))

/-- R358, R442, R443, R489: the tray protocol. A REG_READ while the module does not run is answered BUSY; REG_WRITE beyond BAR0 is DENIED;
REG_READ gives the register's value and REG_WRITE writes it (shown for TICK_EVENTS); a heartbeat restarts the timer, and the first after
a loss changes the tray's role; CAP_SET takes 36 to 650 W for the next decision, or at once under PCAP_DN_N where it lowers the power,
and is BAD_ARG outside; IMAGE_BLOCK with a bad command or length is BAD_ARG, and with no transfer open changes none of the transfer's
registers shown; IMAGE_STATUS is answered. -/
def Obligations.TrayProtocol : Prop :=
  (∀ (s : State) (tag off : Nat), s.aon = true → s.host.eid ≠ 0 → s.live = false →
    exec (.regRead tag off) s = .next (commit { s with
      sent := { kind := .tray, port := tag, code := 1, status := 3 } :: s.sent })) ∧
  (∀ (s : State) (tag : Nat), s.live = true → s.host.eid ≠ 0 →
    ∃ t, exec (.regRead tag 0x4104) s = .next t ∧ OnlyIn [.bus, .sent] s t ∧
      ({ kind := .tray, port := tag, code := 1, bytes := toLe 4 s.tick.events.toNat } : Out) ∈ t.sent) ∧
  (∀ (s : State) (tag off : Nat) (v : BitVec 32), s.live = true → s.host.eid ≠ 0 → 0x4000000 ≤ off →
    exec (.regWrite tag off v) s = .next (commit { s with
      sent := { kind := .tray, port := tag, code := 2, status := 1 } :: s.sent })) ∧
  (∀ (s : State) (tag : Nat) (v : BitVec 32), s.live = true → s.host.eid ≠ 0 →
    ∃ t, exec (.regWrite tag 0x4104 v) s = .next t ∧ OnlyIn [.tick, .host, .sent] s t ∧
      t.tick = { s.tick with events := s.tick.events &&& ~~~ v } ∧
      ({ kind := .tray, port := tag, code := 2 } : Out) ∈ t.sent) ∧
  (∀ (s : State) (tag n : Nat), s.live = true → s.host.eid ≠ 0 → s.pwr.trayLost = false → s.bound = true →
    exec (.heartbeat tag n) s = .next (commit { s with
      pwr := { s.pwr with beating := true, lastBeat := s.tb.time }
      sent := { kind := .tray, port := tag, code := 0x10, bytes := s.beatBytes } :: s.sent })) ∧
  (∀ (s : State) (tag n : Nat), s.live = true → s.host.eid ≠ 0 → s.pwr.trayLost = true → s.mbx.gens.wf = true →
    ∃ t, exec (.heartbeat tag n) s = .next t ∧ OnlyIn [.pwr, .mbx, .cnt, .sent] s t ∧ t.pwr.trayLost = false ∧
      (t.mbx.gens.get idTray).gen = (if (s.mbx.gens.get idTray).gen = 0xFFFF then 1 else (s.mbx.gens.get idTray).gen + 1)) ∧
  (∀ (s : State) (tag cap : Nat), s.live = true → s.host.eid ≠ 0 → (cap < 36 ∨ 650 < cap) →
    exec (.capSet tag cap) s = .next (commit { s with
      sent := { kind := .tray, port := tag, code := 0x11, status := 2 } :: s.sent })) ∧
  (∀ (s : State) (tag cap : Nat), s.live = true → s.host.eid ≠ 0 → 36 ≤ cap → cap ≤ 650 → s.pwr.pcapPin = false →
    s.bound = true →
    ∃ t, exec (.capSet tag cap) s = .next t ∧ OnlyIn [.pwr, .cnt, .sent] s t ∧
      t.pwr = { s.pwr with capNext := some cap, fastTarget := 0, safe := false, beating := true, lastBeat := s.tb.time
                           events := bitSet s.pwr.events 0 }) ∧
  (∀ (s : State) (tag cap : Nat), s.live = true → s.host.eid ≠ 0 → 36 ≤ cap → cap < profileWatts s.pwr.profile → cap ≤ 650 →
    s.pwr.pcapPin = true →
    ∃ t, exec (.capSet tag cap) s = .next t ∧ OnlyIn [.pwr, .cnt, .sent] s t ∧ t.pwr.cap = cap ∧ t.pwr.capNext = none ∧
      t.pwr.fast = true ∧ t.pwr.safe = false) ∧
  (∀ (s : State) (tag cmd typ v n : Nat) (c : BitVec 32) (b : List (BitVec 8)), s.live = true → s.host.eid ≠ 0 →
    (cmd = 0 ∨ 6 < cmd ∨ 4096 < n) →
    exec (.imageBlock tag cmd typ v n c b) s = .next (commit { s with
      sent := { kind := .tray, port := tag, code := 0x20, status := 2 } :: s.sent })) ∧
  (∀ (s : State) (tag : Nat) (c : BitVec 32) (b : List (BitVec 8)), s.live = true → s.host.eid ≠ 0 → b.length = 4096 →
    s.img.state = .idle → s.img.busy = false →
    ∃ t, exec (.imageBlock tag 4 0 0 4096 c b) s = .next t ∧ OnlyIn [.img, .sent] s t ∧ t.img.state = .idle ∧
      t.img.buf = s.img.buf ∧ t.img.offset = s.img.offset ∧ t.img.crc = s.img.crc) ∧
  (∀ (s : State) (tag : Nat), s.live = true → s.host.eid ≠ 0 →
    exec (.imageStatus tag) s = .next (commit { s with sent := {
      kind := .tray, port := tag, code := 0x21
      bytes := toLe 4 s.img.status ++ toLe 4 s.img.blocks.length ++ toLe 4 (s.img.detail % 65536) } :: s.sent }))

/-- R371, R373 to R375, R385, R388: the KSI's services. KEY_DELIVER of a session that may not ask is answered DENIED and nothing changes;
otherwise it keeps the model key; WEIGHT_LOAD starts a load, and one that ends leaves its status; ROTATE is taken once and BUSY while
one runs; CONSENT is refused for a bad record and pends otherwise; CONSENT_END ends it; STATUS answers with a fresh nonce. -/
def Obligations.KsiServices : Prop :=
  (∀ (s : State) (session : Nat) (k : Fin 9) (m : Nat) (key : List (BitVec 8)), s.live = true → s.sessionFor session k = false →
    exec (.keyDeliver session k m key) s = .next (commit { s with
      sent := { kind := .ksi, code := 1, status := 1, bytes := [] } :: s.sent })) ∧
  (∀ (s : State) (session : Nat) (k : Fin 9) (m : Nat) (key : List (BitVec 8)), s.live = true → s.sessionFor session k = true →
    s.isAdmitted k = true → 1 ≤ m → m ≤ 0xFFFFFFFF → (s.ten k).models.length < 16 →
    exec (.keyDeliver session k m key) s = .next (commit { s with
      ksi := { s.ksi with tenants := s.ksi.tenants.upd k fun x => { x with models := x.models.set m (sliceZ key 0 32) } }
      sent := { kind := .ksi, code := 1, status := 0, bytes := [] } :: s.sent })) ∧
  (∀ (s : State) (session : Nat) (k : Fin 9) (x : WLoad) (a : Nat), s.live = true → s.sessionFor session k = true →
    s.isAdmitted k = true → x.tenant = k.val → x.activity = 0 → s.loadArgs k x = true → (s.ten k).load = none →
    s.b.sealAct k ((s.b.region x.dstRegion).elim 0 (·.channel)) = some a →
    x = { tenant := k, modelId := x.modelId, srcRegion := x.srcRegion, srcOffset := x.srcOffset, dstRegion := x.dstRegion
          dstOffset := x.dstOffset, firstChunk := x.firstChunk, length := x.length } →
    exec (.weightLoad session k x.modelId x.srcRegion x.srcOffset x.dstRegion x.dstOffset x.firstChunk x.length) s =
      .next (commit { s with
        ksi := { s.ksi with tenants := s.ksi.tenants.upd k fun t => { t with load := some { x with activity := a } } }
        sent := { kind := .ksi, code := 2, status := 0, bytes := [] } :: s.sent })) ∧
  (∀ (s : State) (k : Fin 9) (x : WLoad), s.live = true → s.ksi.tenants.wf = true → (s.ten k).load = some x →
    ∃ t, exec (.loadComplete k) s = .next t ∧ (t.ten k).load = none ∧
      (t.ten k).lastLoad = (if (s.loadRun x).2 then 0 else 5) ∧ t.spad = s.spad ∧ t.acts = s.acts) ∧
  (∀ (s : State) (session : Nat) (k : Fin 9), s.live = true → s.sessionFor session k = true → (s.ten k).state = .admitted →
    (s.ten k).rotatePend = false → s.otherEmpty k = true → k.val ≠ 0 →
    exec (.rotate session k) s = .next (commit { s with
      ksi := { s.ksi with tenants := s.ksi.tenants.upd k fun x => { x with rotatePend := true } }
      sent := { kind := .ksi, code := 3, status := 0, bytes := [] } :: s.sent })) ∧
  (∀ (s : State) (session : Nat) (k : Fin 9), s.live = true → s.sessionFor session k = true → (s.ten k).state = .rotating →
    exec (.rotate session k) s = .next (commit { s with
      sent := { kind := .ksi, code := 3, status := 3, bytes := [] } :: s.sent })) ∧
  (∀ (s : State) (session : Nat) (k : Fin 9) (r : List (BitVec 8)), s.live = true → s.ksi.tenants.wf = true →
    s.sessionFor session k = true → s.isAdmitted k = true → (u8 r 1).testBit 1 = true →
    ∃ t, exec (.consent session k r) s = .next t ∧ OnlyIn [.ksi, .sent] s t ∧
      (t.ten k).counters.inForce = (s.ten k).counters.inForce ∧
      (if s.consentOk session k r = true
       then (t.ten k).counters.pend = true ∧ (t.ten k).counters.expires = u64 r 8 ∧
         ({ kind := .ksi, code := 4, status := 0, bytes := [] } : Out) ∈ t.sent
       else t.ksi = s.ksi ∧ ({ kind := .ksi, code := 4, status := 2, bytes := [] } : Out) ∈ t.sent)) ∧
  (∀ (s : State) (session : Nat) (k : Fin 9), s.live = true → s.ksi.tenants.wf = true → s.sessionFor session k = true →
    s.isAdmitted k = true →
    ∃ t, exec (.consentEnd session k 3) s = .next t ∧ OnlyIn [.ksi, .sent] s t ∧ (t.ten k).counters.pend = false ∧
      (t.ten k).counters.ending = (s.ten k).counters.inForce ∧ (t.ten k).debugging.ending = (s.ten k).debugging.inForce) ∧
  (∀ (s : State) (session : Nat) (k : Fin 9), s.live = true → s.ksi.tenants.wf = true → s.sessionFor session k = true →
    ∃ t, exec (.ksiStatus session k) s = .next t ∧ OnlyIn [.ksi, .sent, .freeCount] s t ∧ (t.ten k).nonce = s.freeBytes 16 ∧
      t.freeCount = s.freeCount + 16)
/-- R378 to R380, R387: removal and tamper. The fence, once no work of the tenant is left, empties the tenant's key slots and drops its
model keys; before, within three boundaries, nothing changes; the completion after it records the removal and its duration; the reclaim
makes the tenant NONE; a tamper event resets the module. -/
def Obligations.TenantRemoval : Prop :=
  (∀ (s : State) (j : Fin 8) (r : Removal), s.live = true → s.ksi.tenants.wf = true → s.ksi.slots.wf = true →
    (s.ten (j + 1)).removal = some r → r.fenced = false → 1 ≤ r.boundaries → s.tenantBusy (j + 1) = false →
    ∃ t, exec (.removalFence j) s = .next t ∧ (∀ n ∈ s.slotsOf (j + 1), (t.ksi.slots.get n).state = .empty) ∧
      (t.ten (j + 1)).models = [] ∧ (t.ten (j + 1)).removal = some { r with fenced := true } ∧
      (t.ten (j + 1)).writeEpoch = (s.ten (j + 1)).writeEpoch) ∧
  (∀ (s : State) (j : Fin 8) (r : Removal), s.live = true → (s.ten (j + 1)).removal = some r → r.fenced = false →
    r.boundaries < 3 → s.tenantBusy (j + 1) = true → exec (.removalFence j) s = .next (commit s)) ∧
  (∀ (s : State) (j : Fin 8) (r : Removal), s.live = true → s.ksi.tenants.wf = true → (s.ten (j + 1)).removal = some r →
    r.fenced = true →
    ∃ t, exec (.removalComplete j) s = .next t ∧ OnlyIn [.ksi, .host, .keep, .cnt, .sent] s t ∧
      (t.ten (j + 1)).state = .reclaiming ∧ (t.ten (j + 1)).removal = none ∧ t.ksi.lastRemoval = s.tb.time - r.start ∧
      t.keep.record = { kind := .removal, vals := [j + 1, 0, r.start, s.tb.time] } :: s.keep.record) ∧
  (∀ (s : State) (j : Fin 8), s.live = true → s.ksi.tenants.wf = true → (s.ten (j + 1)).state = .reclaiming →
    ∃ t, exec (.reclaimDone j) s = .next t ∧ (t.ten (j + 1)).state = .none ∧ t.ksi.slots = s.ksi.slots ∧ t.gddr = s.gddr ∧
      t.spad = s.spad) ∧
  (∀ (s : State) (k : Nat), s.start.p48 = true →
    ∃ t, exec (.tamper k) s = .next t ∧ t.start.hold = true ∧ t.bind.running = none)

/-- R398, R403, R404: counters and sensors. A counter's owner has it cleared at the next boundary and HOST_PF is refused where it may not; a
reading in range is trimmed and reported, one at an end of the range sets the fault, and ten seconds of plausible readings clear it;
while a reset is held only the factory value is kept. (The readings are shown for the sensors from 72 on, which take no part in the
thermal ladder.) -/
def Obligations.CountersAndSensors : Prop :=
  (∀ (s : State) (m : Nat) (md : Bool) (ch : Fin 6) (i : Fin 32), s.live = true → s.cntWriter m (cntKey md ch i) = true →
    exec (.cntClear m md ch i) s = .next (commit { s with
      cnt := s.cnt.upd (cntKey md ch i) fun c => { c with clearPend := true } })) ∧
  (∀ (s : State) (md : Bool) (ch : Fin 6) (i : Fin 32), s.live = true → s.cntWriter 1 (cntKey md ch i) = false →
    ∃ t, exec (.cntClear 1 md ch i) s = .next t ∧ OnlyIn [.bus, .cnt] s t ∧
      t.bus = { s.bus with regErr := s.bus.regErr.upd 1 fun e => e ||| 64#7 } ∧ t.cnt = (s.count 0x16 none none 1).cnt) ∧
  (∀ (s : State) (i : Fin 89) (v : Int), s.live = false → s.start.p48 = true →
    exec (.sensorUpdate i v) s = .next (commit { s with cons := { s.cons with
      sensors := s.cons.sensors.upd i fun x => { x with factory := x.gainF * v + x.offsetF } } })) ∧
  (∀ (s : State) (i : Fin 89) (v : Int), s.live = true → 72 ≤ i.val → (s.sensor i).fault = false → (sensorRange i).1 < v →
    v < (sensorRange i).2 → s.cons.sensors.wf = true →
    ∃ t, exec (.sensorUpdate i v) s = .next t ∧ OnlyIn [.cons, .freeCount] s t ∧ (t.sensor i).valid = true ∧
      (t.sensor i).fault = false ∧ (t.sensor i).factory = (s.sensor i).gainF * v + (s.sensor i).offsetF ∧
      ((t.sensor i).value * 4294967296 - trimmed (s.cons.trims.get i) (t.sensor i).factory).natAbs < 4294967296) ∧
  (∀ (s : State) (i : Fin 89) (v : Int), s.live = true → 72 ≤ i.val → (s.sensor i).fault = false →
    (v ≤ (sensorRange i).1 ∨ (sensorRange i).2 ≤ v) → s.cons.sensors.wf = true →
    ∃ t, exec (.sensorUpdate i v) s = .next t ∧ OnlyIn [.cons, .cnt, .freeCount] s t ∧ (t.sensor i).valid = false ∧
      (t.sensor i).fault = true ∧ (t.sensor i).plausSince = none ∧ t.cons.events = bitSet s.cons.events 5) ∧
  (∀ (s : State) (i : Fin 89) (n : Nat), s.live = true → (s.sensor i).fault = true → (s.sensor i).plausSince = some n →
    n + 10000000000 ≤ s.tb.time → s.cons.sensors.wf = true →
    ∃ t, exec (.sensorFaultClear i) s = .next t ∧ OnlyIn [.cons, .pwr, .cnt, .freeCount] s t ∧
      t.sensor i = { s.sensor i with fault := false, valid := true }) ∧
  (∀ (s : State) (i : Fin 89) (n : Nat), s.live = true → (s.sensor i).plausSince = some n → s.tb.time < n + 10000000000 →
    exec (.sensorFaultClear i) s = .next (commit s))
/-- R450, R451: the thermal ladder. A plausible reading of a die site at T_WARN, T_HOT or T_CRIT sets that step and leaves the profile to
the next decision; each step is released after its condition held for 60 s; five seconds of low flow count as HOT; a die site at T_TRIP
resets and holds the module. -/
def Obligations.ThermalLadder : Prop :=
  (∀ (s : State) (i : Fin 89) (v : Int), s.live = true → i.val < 24 → (s.sensor i).fault = false → s.plausible i v = true →
    s.cons.sensors.wf = true →
    ∃ t, exec (.sensorUpdate i v) s = .next t ∧ OnlyIn [.cons, .pwr, .cnt, .freeCount] s t ∧
      (s.tWarn ≤ (t.sensor i).value → t.pwr.warnOn = true) ∧ (s.tHot ≤ (t.sensor i).value → t.pwr.hotOn = true) ∧
      (s.tCrit ≤ (t.sensor i).value → t.pwr.critShed.getLsbD (i.val / 4) = true) ∧ t.pwr.profile = s.pwr.profile ∧
      (t.thermal ≠ s.thermal → t.pwr.events = bitSet s.pwr.events 6)) ∧
  (∀ (s : State) (ch : Fin 6), s.live = true → s.pwr.warnOn = true → s.pwr.hotOn = false →
    s.pwr.warnAt + 60000000000 ≤ s.tb.time →
    ∃ t, exec (.thermalRelease 0 ch) s = .next t ∧ OnlyIn [.pwr, .cnt] s t ∧
      t.pwr = { s.pwr with warnOn := false, events := bitSet s.pwr.events 6 } ∧ t.cnt = (s.count 0xE6 none none 1).cnt) ∧
  (∀ (s : State) (ch : Fin 6), s.live = true → s.tb.time < s.pwr.warnAt + 60000000000 →
    exec (.thermalRelease 0 ch) s = .next (commit s)) ∧
  (∀ (s : State) (ch : Fin 6), s.live = true → s.pwr.hotOn = true → s.pwr.hotAt + 60000000000 ≤ s.tb.time →
    150 ≤ (s.sensor 68).value →
    ∃ t, exec (.thermalRelease 1 ch) s = .next t ∧ OnlyIn [.pwr, .cnt] s t ∧
      t.pwr = { s.pwr with hotOn := false, flowLow := false, events := bitSet s.pwr.events 6 }) ∧
  (∀ (s : State) (ch : Fin 6), s.live = true → s.pwr.critShed.getLsbD ch = true →
    s.pwr.critAt.get ch + 60000000000 ≤ s.tb.time →
    exec (.thermalRelease 2 ch) s = .next (commit { s with pwr := { s.pwr with critShed := bitClr s.pwr.critShed ch } })) ∧
  (∀ (s : State) (ch : Fin 6), s.live = true → s.pwr.modShed ≠ 0 → s.pwr.critAt.get 6 + 60000000000 ≤ s.tb.time →
    exec (.thermalRelease 3 ch) s = .next (commit { s with pwr := { s.pwr with modShed := 0 } })) ∧
  (∀ (s : State) (n : Nat), s.live = true → s.pwr.flowSince = some n → n + 5000000000 ≤ s.tb.time → s.pwr.flowLow = false →
    s.pwr.hotOn = false →
    ∃ t, exec .flowLow s = .next t ∧ OnlyIn [.pwr, .cnt] s t ∧
      t.pwr = { s.pwr with flowLow := true, hotOn := true, events := bitSet s.pwr.events 6 }) ∧
  (∀ s : State, s.live = true → s.pwr.flowSince = none → exec .flowLow s = .next (commit s)) ∧
  (∀ (s : State) (i : Fin 89), s.live = true → i.val < 30 → 65536 * (s.keep.tTrip : Int) ≤ (s.sensor i).factory →
    ∃ t, exec (.thermalTrip i) s = .next t ∧ t.start.hold = true ∧ t.start.tripHold = true ∧ t.start.tripFreed = false ∧
      t.keep.cause = 9 ∧ t.bind.running = none ∧ t.pwr.domains = []) ∧
  (∀ (s : State) (i : Fin 89), s.live = true → (s.sensor i).factory < 65536 * (s.keep.tTrip : Int) →
    exec (.thermalTrip i) s = .next (commit s))
/-- R407, R408, R410, R411: the conservator. A replan starts on the command and every powered hour, and ends by placing voltages that never
fall and margins; a negative margin of the ceiling's profile lowers the ceiling for the next boundary; the health update takes the score
and state anew of each component from 1 on that is not a lane left out. -/
def Obligations.Conservator : Prop :=
  (∀ s : State, s.live = true →
    exec .replan s = .next (commit { s with cons := { s.cons with replanBusy := true } })) ∧
  (∀ s : State, s.live = true → s.bound = true → s.cons.replanFrom + 3600000000000 ≤ s.cons.poweredNs →
    exec .replanTimer s = .next (commit { s with cons := { s.cons with
      replanFrom := s.cons.replanFrom + 3600000000000, replanBusy := true } })) ∧
  (∀ s : State, s.live = true → s.cons.poweredNs < s.cons.replanFrom + 3600000000000 →
    exec .replanTimer s = .next (commit s)) ∧
  (∀ (s : State) (d : List Int), s.live = true → s.cons.replanBusy = true → s.cons.rails.wf = true →
    ∃ t, exec (.replanDone d) s = .next t ∧ OnlyIn [.cons, .keep, .cnt] s t ∧ t.cons.replanBusy = false ∧ t.cons.planned = true ∧
      t.cons.events.getLsbD 0 = true ∧
      (∀ p < 5, t.cons.margins.get p = (s.marginOf d p).1) ∧
      (∀ p < 5, ∀ c < 40, (t.cons.rails.get (railKey p c)).vNext =
        some (max (s.cons.rails.get (railKey p c)).vSet (min (s.vReq d p c) (s.cons.rails.get (railKey p c)).vMax))) ∧
      t.cons.ceiling = s.cons.ceiling ∧
      ((s.marginOf d (s.cons.ceilingNext.getD s.cons.ceiling)).1 < 0 → s.cons.ceilingNext.getD s.cons.ceiling < 4 →
        ∃ c, t.cons.ceilingNext = some c ∧ s.cons.ceilingNext.getD s.cons.ceiling < c ∧ c ≤ 4 ∧
          t.cons.events.getLsbD 2 = true)) ∧
  (∀ (s : State) (x : List (Nat × Nat × Nat)), s.live = true → s.cons.health.wf = true →
    ∃ t, exec (.healthUpdate x) s = .next t ∧ OnlyIn [.cons, .keep, .cnt, .freeCount, .pair, .ring, .sent] s t ∧
      (∀ c : Nat, 1 ≤ c → c < 70 → s.laneOut c = false →
        (t.cons.health.get c).score = healthScore c (x.getD c (0, 0, 0)) (s.freeBit c) ∧
        (t.cons.health.get c).state = healthNext (s.cons.health.get c) (t.cons.health.get c).score) ∧
      t.freeCount = s.freeCount + 70 ∧ t.pair.cause.getLsbD 0 = t.healthReplace)

/-- R418 to R425, R432: spot samples, field tests and units. An equal sample is only dropped, an unequal one makes both MEs SUSPECT and is
recorded; a sample or a run that takes too long is dropped with TEST_STARVED; a run starts at a segment, goes on, ends clean, or fails
and makes its unit SUSPECT with a record; MARK_UNIT makes a unit SUSPECT with a record; MAINTENANCE is asked for, and its stress test
started and recorded. -/
def Obligations.FieldTests : Prop :=
  (∀ (s : State) (src : Fin 6) (x : SpotRun) (l : List SpotRun), s.live = true →
    takeSpot (fun x => x.source == src.val && decide (x.ticks ≤ 64)) s.chk.spots = (some x, l) →
    exec (.spotCompare src true) s = .next (commit { s with chk := { s.chk with spots := l } })) ∧
  (∀ (s : State) (src : Fin 6) (x : SpotRun) (l : List SpotRun), s.live = true → s.chk.units.wf = true →
    takeSpot (fun x => x.source == src.val && decide (x.ticks ≤ 64)) s.chk.spots = (some x, l) → x.source ≠ x.checker →
    (s.chk.units.get (9 * x.source)).state = .healthy → (s.chk.units.get (9 * x.source)).eventTick = none →
    (s.chk.units.get (9 * x.checker)).state = .healthy → (s.chk.units.get (9 * x.checker)).eventTick = none →
    ∃ t, exec (.spotCompare src false) s = .next t ∧ OnlyIn [.chk, .acts, .keep, .cnt] s t ∧ t.chk.spots = l ∧
      (t.chk.units.get (9 * x.source)).state = .suspect ∧ (t.chk.units.get (9 * x.checker)).state = .suspect ∧
      t.keep.record = { kind := .spot, vals := [x.source, x.checker, x.activity, x.seq] } :: s.keep.record) ∧
  (∀ (s : State) (src : Fin 6) (x : SpotRun) (l : List SpotRun), s.live = true →
    takeSpot (fun x => x.source == src.val && decide (64 < x.ticks)) s.chk.spots = (some x, l) →
    ∃ t, exec (.spotTimeout src) s = .next t ∧ OnlyIn [.chk, .cnt] s t ∧
      t.chk = { s.chk with spots := l, events := bitSet s.chk.events 6 }) ∧
  (∀ (s : State) (u : Fin 54), s.live = true → s.bound = true → s.b.safe.checkLevel ≠ 0 → s.chk.maintenance = false →
    s.testable u = true → s.chk.run = none →
    exec (.testSegment u) s = .next (commit { s with chk := { s.chk with
      testing := true, unit := u, run := some { unit := u, seed := s.testSeed u, inSegment := true } } })) ∧
  (∀ (s : State) (r : TestRun), s.live = true → s.chk.run = some r → r.inSegment = true →
    r.segments + 1 < runSegments (r.unit % 9) →
    exec (.testSegmentDone true) s = .next (commit { s with chk := { s.chk with
      run := some { r with segments := r.segments + 1, inSegment := false } } })) ∧
  (∀ (s : State) (r : TestRun), s.live = true → s.chk.run = some r → r.inSegment = true →
    runSegments (r.unit % 9) ≤ r.segments + 1 →
    exec (.testSegmentDone true) s = .next (commit { s with chk := { s.chk with
      run := none, testing := false, units := s.chk.units.upd r.unit fun x => x.cleanRun s.tick.num } })) ∧
  (∀ (s : State) (r : TestRun), s.live = true → s.chk.run = some r → r.inSegment = true → s.chk.units.wf = true →
    (s.chk.units.get r.unit).state = .healthy → (s.chk.units.get r.unit).eventTick = none →
    ∃ t, exec (.testSegmentDone false) s = .next t ∧ OnlyIn [.chk, .keep, .cnt] s t ∧ t.chk.run = none ∧
      (t.chk.units.get r.unit).state = .suspect ∧ (t.chk.units.get r.unit).failed = (s.chk.units.get r.unit).failed + 1 ∧
      t.keep.record = { kind := .test, vals := [r.unit, r.segments], bytes := r.seed } :: s.keep.record) ∧
  (∀ (s : State) (r : TestRun), s.live = true → s.chk.run = some r → 1024 ≤ r.ticks →
    ∃ t, exec .testRunTimeout s = .next t ∧ OnlyIn [.chk, .cnt] s t ∧
      t.chk = { s.chk with run := none, testing := false, events := bitSet s.chk.events 6 }) ∧
  (∀ (s : State) (u : Nat), s.live = true → u ≤ 53 → s.chk.units.wf = true → (s.chk.units.get u).state = .healthy →
    (s.chk.units.get u).eventTick = none →
    ∃ t, exec (.markUnit 1 u) s = .next t ∧ OnlyIn [.chk, .keep] s t ∧ (t.chk.units.get u).state = .suspect ∧
      t.keep.record = { kind := .mark, vals := [1, u] } :: s.keep.record) ∧
  (∀ s : State, s.live = true → s.bound = true → s.bind.rebind = .idle →
    (∀ k ∈ List.range 9, k ≠ 0 → (s.ksi.tenants.get k).state = .none) →
    exec .maintEnter s = .next (commit { s with chk := { s.chk with maintPend := true } })) ∧
  (∀ s : State, s.live = true → s.chk.maintenance = true →
    exec .stressStart s = .next (commit { s with chk := { s.chk with stress := true } })) ∧
  (∀ (s : State) (l : List Nat), s.live = true → s.chk.stress = true → (∀ x ∈ l, x % 256 = 0) →
    ∃ t, exec (.stressDone l) s = .next t ∧ OnlyIn [.chk, .keep] s t ∧ t.chk.stress = false ∧
      t.keep.record = { kind := .stress, vals := (List.range 54).map fun u => l.getD u 0 } :: s.keep.record)
/-- R374, R426 to R429: weight copies. A round starts at a multiple of its interval; its digest is latched and held; alone in its group a
copy decides nothing, with a majority it is OK; MARK_SUSPECT makes a copy RELOADING where it can be replayed and SUSPECT otherwise, and
it is RELOADED after the replay. -/
def Obligations.WeightCopies : Prop :=
  (∀ (s : State) (i : Fin 96) (c : SafeCopy), s.live = true → s.copyRec i = some c → s.tick.running = true →
    s.chk.maintenance = false → s.copyInterval c ≠ 0 → s.tick.num % s.copyInterval c = 0 → (s.copy i).round = none →
    (s.copy i).digest = [] → (s.copySeal i).isSome = true →
    exec (.copyRoundStart i) s = .next (commit { s with chk := { s.chk with
      copies := s.chk.copies.upd i fun x => { x with round := some s.tick.num } } })) ∧
  (∀ (s : State) (i : Fin 96) (c : SafeCopy) (r : MemxRec) (n : Nat), s.live = true → s.chk.copies.wf = true →
    s.copyRec i = some c → s.copyRegion i = some r → (s.copy i).round = some n →
    s.rangeRead r.tenant r.channel (r.base * 2097152) (r.size * 2097152) 0 = .ok →
    ∃ t, exec (.copyDigestFinal i false) s = .next t ∧ OnlyIn [.chk, .ring, .sent, .cnt] s t ∧
      (t.copy i).digest = s.regionDigest r ∧ (t.copy i).digestTick = n ∧ (t.copy i).round = none ∧
      (t.copy i).boundaries = some 0) ∧
  (∀ (s : State) (i : Fin 96) (c : SafeCopy) (n : Nat), s.live = true → s.chk.copies.wf = true → s.copyRec i = some c →
    (s.copy i).boundaries = some n → 16 ≤ n → (s.roundDigests c.group (s.copy i).digestTick).length ≤ 1 →
    ∃ t, exec (.copyDecision i) s = .next t ∧ OnlyIn [.chk] s t ∧ (t.copy i).state = (s.copy i).state ∧
      (t.copy i).alone = true ∧ (t.copy i).boundaries = none) ∧
  (∀ (s : State) (i : Fin 96) (c : SafeCopy) (n : Nat), s.live = true → s.chk.copies.wf = true → s.copyRec i = some c →
    (s.copy i).boundaries = some n → 16 ≤ n → 2 ≤ (s.roundDigests c.group (s.copy i).digestTick).length →
    majority (s.roundDigests c.group (s.copy i).digestTick) (s.copy i).digest = true → (s.copy i).state ≠ .reloading →
    ∃ t, exec (.copyDecision i) s = .next t ∧ OnlyIn [.chk] s t ∧ (t.copy i).state = .ok ∧ (t.copy i).alone = false) ∧
  (∀ (s : State) (i : Nat), s.live = true → s.chk.copies.wf = true → (s.copyRec i).isSome = true → (s.copy i).state = .ok →
    s.canReplay i = true →
    ∃ t, exec (.markSuspect i) s = .next t ∧ OnlyIn [.chk, .cnt] s t ∧ (t.copy i).state = .reloading ∧
      t.chk.events = bitSet s.chk.events 4) ∧
  (∀ (s : State) (i : Nat), s.live = true → s.chk.copies.wf = true → (s.copyRec i).isSome = true → (s.copy i).state = .ok →
    s.canReplay i = false →
    ∃ t, exec (.markSuspect i) s = .next t ∧ OnlyIn [.chk, .cnt] s t ∧ (t.copy i).state = .suspect ∧
      t.chk.events = bitSet (bitSet s.chk.events 4) 5) ∧
  (∀ (s : State) (i : Fin 96) (r : MemxRec), s.live = true → s.chk.copies.wf = true → s.copyRegion i = some r →
    (s.copy i).state = .reloading → s.canReplay i = true → s.loadsOf r.region = [] →
    exec (.copyReloadDone i) s = .next (commit { s with chk := { s.chk with
      copies := s.chk.copies.upd i fun x => { x with state := .reloaded } } }))

/-- R439, R440, R442 to R448, R453: power. A decision point latches the cap and chooses a profile that the mask, ceiling, thermal limit,
request and cap allow, or HOLD, and with a cap below 120 W fails to HOLD; REQ_PROFILE of HOST_PF takes a profile of the mask and refuses
another; the tray's silence brings the safe cap; a falling PCAP_DN_N steps down one profile at once and its release ends the fast step;
an input dip throttles until the input is back, and below 37.0 V resets the module; the input's loss without AUX_12V clears the latch;
droops are counted and recover after 32 cycles. -/
def Obligations.PowerControl : Prop :=
  (∀ s : State, s.live = true → s.decisionDue = true → 120 ≤ s.capNow →
    ∃ t, exec .profileDecision s = .next t ∧ t.pwr.cap = s.pwr.capNext.getD s.pwr.cap ∧ t.pwr.capNext = none ∧
      (∃ p, t.pwr.decided = s.pwr.decided ++ [p] ∧
        (p = 4 ∨ (p < 5 ∧ s.b.powr.profileMask.testBit p = true ∧ s.ceilingSoon ≤ p ∧ s.thermal ≤ p ∧ s.pwr.reqProfile ≤ p ∧
          profileWatts p ≤ s.capNow))) ∧
      t.pwr.profile = s.pwr.profile ∧ t.tick = s.tick) ∧
  (∀ s : State, s.live = true → s.decisionDue = true → s.capNow < 120 →
    ∃ t, exec .profileDecision s = .next t ∧ t.pwr.capFail = true ∧ t.pwr.events.getLsbD 1 = true ∧
      t.pwr.decided = s.pwr.decided ++ [4]) ∧
  (∀ (s : State) (p : Nat), s.live = true → s.b.powr.profileMask.testBit p = true →
    exec (.reqProfile 1 p) s = .next (commit { s with pwr := { s.pwr with reqProfile := p } })) ∧
  (∀ (s : State) (p : Nat), s.live = true → s.b.powr.profileMask.testBit p = false →
    ∃ t, exec (.reqProfile 1 p) s = .next t ∧ OnlyIn [.bus, .cnt] s t ∧
      t.bus = { s.bus with regErr := s.bus.regErr.upd 1 fun e => e ||| 4#7 } ∧ t.cnt = (s.count 0x12 none none 1).cnt) ∧
  (∀ s : State, s.live = true → s.bound = true → s.pwr.beating = true →
    s.pwr.lastBeat + 1000000 * s.b.powr.capTimeout ≤ s.tb.time → s.pwr.pcapPin = false →
    ∃ t, exec .heartbeatLost s = .next t ∧ OnlyIn [.pwr, .mbx, .cnt] s t ∧ t.pwr.safe = true ∧ t.pwr.beating = false ∧
      t.pwr.trayLost = true ∧ t.pwr.capNext = some s.b.powr.safeCap ∧ t.pwr.fastTarget = 0 ∧ t.pwr.cap = s.pwr.cap ∧
      t.pwr.events = bitSet (bitSet s.pwr.events 0) 3) ∧
  (∀ s : State, s.live = true → s.pwr.beating = false → exec .heartbeatLost s = .next (commit s)) ∧
  (∀ s : State, s.live = true → s.bound = true → s.pwr.pcapPin = false →
    ∃ t, exec .fastStep s = .next t ∧ OnlyIn [.pwr, .cnt] s t ∧ t.pwr = { s.pwr with
      pcapPin := true, fast := true, degraded := true, events := bitSet s.pwr.events 2
      fastTarget := powerBelow (if s.pwr.fastTarget = 0 then profileWatts s.pwr.profile else s.pwr.fastTarget) }) ∧
  (∀ s : State, s.pwr.pcapPin = true → exec .fastStep s = .next (commit s)) ∧
  (∀ s : State, exec .pcapRelease s = .next (commit { s with pwr := { s.pwr with pcapPin := false, fast := false } })) ∧
  (∀ (s : State) (v : Nat), s.live = true → s.pwr.throttle = false → v < 4050 →
    ∃ t, exec (.inputDip v) s = .next t ∧ OnlyIn [.pwr, .cnt] s t ∧ t.pwr = { s.pwr with
      throttle := true, degraded := true, dipStart := s.tb.time, dipMin := v, dipCount := s.pwr.dipCount + 1
      events := bitSet s.pwr.events 4 }) ∧
  (∀ (s : State) (v : Nat), s.live = true → s.pwr.throttle = true → 4150 < v →
    ∃ t, exec (.throttleLift v) s = .next t ∧ OnlyIn [.pwr, .keep] s t ∧ t.pwr.throttle = false ∧
      t.keep.record = { kind := .dipLog, vals := [s.pwr.dipMin, (s.tb.time - s.pwr.dipStart) / 1000] } :: s.keep.record) ∧
  (∀ (s : State) (v : Nat), s.live = true → v ≤ 4150 → exec (.throttleLift v) s = .next (commit s)) ∧
  (∀ (s : State) (v : Nat), s.start.p48 = true → 0 < v → v < 3700 →
    ∃ t, exec (.inputLow v) s = .next t ∧ t.start.hold = true ∧ t.start.waitInput = true ∧ t.start.p48 = true ∧
      t.keep.dipMin = v ∧ t.bind.running = none) ∧
  (∀ s : State, s.start.p48 = true → s.start.aux = false →
    ∃ t, exec (.inputLow 0) s = .next t ∧ t.start.p48 = false ∧ t.keep.cause = 0 ∧ t.host.eid = 0) ∧
  (∀ (s : State) (d : Nat), s.live = true → s.pwr.droops.get d = false →
    ∃ t, exec (.droop d) s = .next t ∧ OnlyIn [.pwr, .cnt] s t ∧ t.pwr = { s.pwr with
      droops := s.pwr.droops.set d true, droopCount := s.pwr.droopCount + 1, events := bitSet s.pwr.events 5 }) ∧
  (∀ (s : State) (d c n : Nat), s.live = true → s.pwr.droops.get d = true → 32 ≤ c → 6 ≤ d →
    exec (.droopRecover d c n) s = .next (commit { s with pwr := { s.pwr with droops := s.pwr.droops.set d false } })) ∧
  (∀ (s : State) (d c n : Nat), s.live = true → s.pwr.droops.get d = true → 32 ≤ c → d < 6 →
    exec (.droopRecover d c n) s = .next (commit { s with pwr := { s.pwr with
      droops := s.pwr.droops.set d false, droopCycles := s.pwr.droopCycles.upd d (· + n) } })) ∧
  (∀ (s : State) (d c n : Nat), s.live = true → c < 32 → exec (.droopRecover d c n) s = .next (commit s))

/-- R458 to R460, R465: the interlock. A standby ring that is not unfit asserts its line after the guard with the peer released and is
CLAIMING; two microseconds later it is ACTIVE if the peer is still released, and ring B gives way otherwise; an active ring B stops when
ring A asserts; the peer's release and the own line's changes are noted; a line that stays asserted 10 us after a release is reported;
ring A reverts after REVERT_WAIT. -/
def Obligations.PairInterlock : Prop :=
  (∀ s : State, s.live = true → s.paired = true → s.tick.running = true → s.pair.role = .standby → s.unfit = false →
    s.pair.peer = false → max s.pair.peerReleased s.tick.t0 + s.guardNs ≤ s.tb.time →
    exec .claimGuard s = .next (commit { s with pair := { s.pair with
      pin := true, ownBus := true, ownAsserted := if s.pair.ownBus then s.pair.ownAsserted else s.tb.time
      role := .claiming, claimedFit := s.ringFit, claimAbsent := s.impairedCount, byRevert := false } })) ∧
  (∀ s : State, s.live = true → (s.pair.peer = true ∨ s.unfit = true ∨ s.tb.time < s.pair.peerReleased + 100000) →
    exec .claimGuard s = .next (commit s)) ∧
  (∀ s : State, s.live = true → s.paired = true → s.pair.role = .claiming → s.pair.ownBus = true →
    s.pair.ownAsserted + 2000 ≤ s.tb.time → s.pair.peer = false →
    ∃ t, exec .claimConfirm s = .next t ∧ OnlyIn [.pair, .cnt] s t ∧ t.pair.role = .active ∧ t.pair.pin = s.pair.pin ∧
      t.pair.lastTakeover = s.tb.time ∧ t.pair.events = bitSet s.pair.events 0 ∧ t.cnt = (s.count 0xE8 none none 1).cnt) ∧
  (∀ s : State, s.live = true → s.paired = true → s.pair.role = .claiming → s.pair.ownBus = true →
    s.pair.ownAsserted + 2000 ≤ s.tb.time → s.pair.peer = true → s.ringB = true →
    ∃ t, exec .claimConfirm s = .next t ∧ OnlyIn [.pair, .cnt] s t ∧ t.pair.role = .standby ∧ t.pair.pin = false ∧
      t.pair.events = bitSet s.pair.events 2) ∧
  (∀ s : State, s.live = true → s.tb.time < s.pair.ownAsserted + 2000 → exec .claimConfirm s = .next (commit s)) ∧
  (∀ s : State, s.paired = true → s.pair.peer = false → s.ringB = true → s.pair.role = .active →
    ∃ t, exec (.ilkPeerChange true) s = .next t ∧ OnlyIn [.pair, .cnt] s t ∧ t.pair.role = .standby ∧ t.pair.pin = false ∧
      t.pair.peer = true ∧ t.pair.events = bitSet s.pair.events 3 ∧ t.pair.releaseAt = some s.tb.time) ∧
  (∀ s : State, s.pair.peer = true → s.pair.role = .standby →
    exec (.ilkPeerChange false) s = .next (commit { s with pair := { s.pair with
      peer := false, peerReleased := s.tb.time } })) ∧
  (∀ s : State, s.live = true → s.paired = true → s.pair.ownBus = false → s.pair.role = .standby → s.unfit = false →
    ∃ t, exec (.ownBusChange true) s = .next t ∧ OnlyIn [.pair] s t ∧ t.pair.ownBus = true ∧
      t.pair.ownAsserted = s.tb.time ∧ (s.pair.releaseAt = none → t.pair.role = .claiming ∧ t.pair.pin = true)) ∧
  (∀ s : State, s.pair.pin = true → s.pair.ownBus = true → exec (.ownBusChange false) s = .next (commit s)) ∧
  (∀ (s : State) (n : Nat), s.live = true → s.paired = true → s.pair.releaseAt = some n → s.pair.pin = false →
    s.pair.ownBus = true → n + 10000 ≤ s.tb.time →
    ∃ t, exec .stuckLine s = .next t ∧ OnlyIn [.pair, .cnt] s t ∧
      t.pair = { s.pair with releaseAt := none, events := bitSet s.pair.events 7 }) ∧
  (∀ s : State, s.live = true → s.pair.releaseAt = none → exec .stuckLine s = .next (commit s)) ∧
  (∀ (s : State) (f g : Nat), s.live = true → s.paired = true → s.ringB = false → s.pair.role = .standby → s.pair.peer = true →
    s.unfit = false → s.ringFit = true → s.pair.fitSince = some f → s.pair.standbySince = some g →
    f + s.pair.revertWait * 1000000000 ≤ s.tick.start → g + s.pair.revertWait * 1000000000 ≤ s.tick.start →
    s.pairRec.startRole = 0 →
    exec .revertClaim s = .next (commit { s with pair := { s.pair with
      pin := true, ownBus := true, ownAsserted := if s.pair.ownBus then s.pair.ownAsserted else s.tb.time
      role := .claiming, claimedFit := true, claimAbsent := s.impairedCount, byRevert := true } })) ∧
  (∀ s : State, s.live = true → s.ringB = true → exec .revertClaim s = .next (commit s))
/-- R467, R468: a SHADOW module with one digested activity decides a tick sixteen ticks after its last digest: a digest that differs from
its buddy's sets the count back to 0 and is recorded, equal digests add 1, and at ADMIT_TICKS it is ready to be admitted; a module in
another role decides nothing. -/
def Obligations.AdmissionDecision : Prop :=
  (∀ (s : State) (n : Nat), s.live = true → s.pair.admission ≠ .shadow → exec (.admitDecision n) s = .next (commit s)) ∧
  (∀ (s : State) (n d a : Nat) (m : NetMember) (p q : List (BitVec 8)), s.live = true → s.member = some m →
    s.pair.admission = .shadow → s.pair.decideAt = [(n, d)] → d + 16 ≤ s.tick.num → s.b.safe.digests = [a] →
    s.digestOf m.index a n = some p → s.digestOf m.buddy a n = some q → p ≠ q → s.pair.absent.getLsbD m.buddy = false →
    ∃ t, exec (.admitDecision n) s = .next t ∧ OnlyIn [.pair, .chk, .keep, .cnt] s t ∧ t.pair.admitCount = 0 ∧
      t.pair.admission = .shadow ∧ t.pair.decideAt = [] ∧ t.pair.events = bitSet s.pair.events 6 ∧
      t.keep.record = { kind := .digest, vals := [n, a] } :: s.keep.record) ∧
  (∀ (s : State) (n d a : Nat) (m : NetMember) (p : List (BitVec 8)), s.live = true → s.member = some m →
    s.pair.admission = .shadow → s.pair.decideAt = [(n, d)] → d + 16 ≤ s.tick.num → s.b.safe.digests = [a] →
    s.digestOf m.index a n = some p → s.digestOf m.buddy a n = some p → s.pair.absent.getLsbD m.buddy = false →
    s.healthReplace = false →
    ∃ t, exec (.admitDecision n) s = .next t ∧ OnlyIn [.pair, .chk] s t ∧ t.pair.admitCount = s.pair.admitCount + 1 ∧
      t.pair.decideAt = [] ∧
      t.pair.admission = (if s.b.admitTicks ≤ s.pair.admitCount + 1 then .pending else .shadow))

/-- R472 to R475, R481, R482, R484, R498: resets and the start. Power, the pin, the two commands of HOST_PF and the tray, and the watchdog
outside ROM and recovery reset the module; a command by another master is refused; while the pin is asserted nothing starts;
RECOVERY_RESET's start ends in recovery, a start from an accepted copy with good components ends BOUND or UNBOUND, and one with neither
copy accepted in recovery; what the AON domain holds goes with the last supply. -/
def Obligations.ResetsAndStart : Prop :=
  (∀ s : State, s.start.p48 = false →
    ∃ t, exec .powerOn s = .next t ∧ t.start.p48 = true ∧ t.start.hold = true ∧ t.start.waitInput = false ∧
      t.bind.running = none ∧ t.keep.copyA.rejected = false ∧ t.keep.copyB.rejected = false ∧
      t.keep.bootSel = s.keep.bootSel ∧ t.keep.svnFloor = s.keep.svnFloor) ∧
  (∀ s : State, s.start.p48 = true → s.start.waitInput = true →
    exec .powerOn s = .next (commit { s with start := { s.start with waitInput := false } })) ∧
  (∀ s : State, s.start.p48 = true → s.start.rstPin = false →
    ∃ t, exec (.modResetN true) s = .next t ∧ t.start.hold = true ∧ t.start.rstPin = true ∧ t.start.tripFreed = true ∧
      t.bind.running = none ∧ (s.start.hold = false → t.keep.cause = 1 ∧ t.keep.later = 0) ∧
      (s.start.hold = true → t.keep.cause = s.keep.cause ∧ t.keep.later = min 0xFFFF (s.keep.later + 1))) ∧
  (∀ s : State, exec (.modResetN false) s = .next (commit { s with start := { s.start with rstPin := false } })) ∧
  (∀ (s : State) (m : Nat), s.live = true → (m = 1 ∨ m = 0x41) →
    ∃ t, exec (.moduleReset m) s = .next t ∧ t.start.hold = true ∧ t.keep.cause = 2 ∧ t.bind.running = none ∧
      t.start.recoverNext = s.start.recoverNext ∧ t.tick.running = false) ∧
  (∀ (s : State) (m : Nat), s.live = true → m ≠ 1 → m ≠ 0x41 →
    ∃ t, exec (.moduleReset m) s = .next t ∧ OnlyIn [.bus, .cnt] s t ∧ t.cnt = (s.count 0x16 none none 1).cnt) ∧
  (∀ (s : State) (m : Nat), s.live = true → (m = 1 ∨ m = 0x41) →
    ∃ t, exec (.recoveryReset m) s = .next t ∧ t.start.hold = true ∧ t.keep.cause = 12 ∧ t.start.recoverNext = true) ∧
  (∀ s : State, s.live = true → s.start.stage ≠ .rom → s.start.stage ≠ .recovery →
    ∃ t, exec .watchdog s = .next t ∧ t.start.hold = true ∧ t.keep.cause = 3) ∧
  (∀ s : State, s.live = true → s.start.stage = .recovery → exec .watchdog s = .next s) ∧
  (∀ s : State, s.start.p48 = false →
    exec (.aux12vPresence false) s = .next (commit { s with
      start := { s.start with aux := false }, keep := { s.keep with cause := 0, later := 0 }
      host := { s.host with eid := 0 } })) ∧
  (∀ s : State, exec (.aux12vPresence true) s = .next (commit { s with start := { s.start with aux := true } })) ∧
  (∀ (s : State) (n c : Nat) (r p : Bool), s.start.rstPin = true → exec (.moduleStart n r p c) s = .next (commit s)) ∧
  (∀ (s : State) (n c : Nat) (r p : Bool), s.holdOver = true → s.start.recoverNext = true →
    ∃ t, exec (.moduleStart n r p c) s = .next t ∧ t.start.stage = .recovery ∧ t.start.hold = false ∧
      t.start.recoverNext = false ∧ t.start.slotId = n ∧ t.bind.running = s.bind.running) ∧
  (∀ (s : State) (n : Nat) (r p : Bool), s.holdOver = true → s.start.recoverNext = false → s.keep.trial = false →
    ∃ t, exec (.moduleStart n r p 0) s = .next t ∧
      (s.copyAccepted (s.keep.copy s.keep.bootSel) = true →
        (∀ i < 5, componentOk (s.keep.copy s.keep.bootSel).bundle (i + 1) = true) →
        t.start.hold = false ∧ t.start.slotId = n ∧ t.start.ringSel = r ∧ t.start.priN = p ∧ t.start.fwCopy = s.keep.bootSel ∧ t.keep.trial = false ∧
        ((t.bind.cold = .bound ∧ t.start.stage = .ringWait ∧ t.bind.running.isSome = true) ∨
         (t.bind.cold = .unbound ∧ t.start.stage = .unbound ∧ t.bind.running = none))) ∧
      (s.copyAccepted s.keep.copyA = false → s.copyAccepted s.keep.copyB = false →
        t.start.hold = false ∧ t.start.stage = .recovery ∧ t.bind.running = s.bind.running ∧ t.start.slotId = n))
/-- R486 to R490, R493: the image transfer of HOST_PF. OPEN of a rebind, a firmware image or an unknown type; the erase; BLOCK takes a block
with the right checksum in its place once and answers a bad checksum; CLOSE wants every block and starts the verification, a rebind's
goes to the staging region; ABORT ends it; OPEN of another master is refused; VERIFY_DONE of a CAL, PRCL or REVOKE image that fails
gives its code. -/
def Obligations.ImageTransfer : Prop :=
  (∀ (s : State) (m typ len : Nat), s.live = true → m ≠ 1 → m ≠ 0x41 →
    ∃ t, exec (.imgOpen m typ len) s = .next t ∧ OnlyIn [.bus, .cnt] s t ∧ t.cnt = (s.count 0x16 none none 1).cnt) ∧
  (∀ (s : State) (len : Nat), s.live = true → s.img.state = .idle → s.start.stage ≠ .recovery → len ≤ 0x600000 →
    ∃ t, exec (.imgOpen 1 3 len) s = .next t ∧ OnlyIn [.img] s t ∧ t.img.state = .opened ∧ t.img.result = 0 ∧
      t.img.typ = 3 ∧ t.img.openLen = len ∧ t.img.owner = 1 ∧ t.img.blocks = []) ∧
  (∀ (s : State) (len : Nat), s.live = true → s.img.state = .idle → s.start.stage ≠ .recovery → len ≤ 0x1800000 →
    ∃ t, exec (.imgOpen 1 1 len) s = .next t ∧ OnlyIn [.img, .keep] s t ∧ t.img.state = .erasing ∧ t.img.result = 0 ∧
      (if s.start.fwCopy then t.keep.copyA.bundle = [] ∧ t.keep.copyB = s.keep.copyB
       else t.keep.copyB.bundle = [] ∧ t.keep.copyA = s.keep.copyA)) ∧
  (∀ (s : State) (typ len : Nat), s.live = true → s.img.state = .idle → (typ = 0 ∨ 6 < typ) →
    ∃ t, exec (.imgOpen 1 typ len) s = .next t ∧ OnlyIn [.img] s t ∧ t.img.state = .idle ∧ t.img.result = 2) ∧
  (∀ s : State, s.live = true → s.img.state = .erasing →
    exec .eraseDone s = .next (commit { s with img := { s.img with state := .opened } })) ∧
  (∀ (s : State) (b : List (BitVec 8)), s.live = true → s.img.state = .opened → s.img.owner = 1 → s.img.busy = false →
    b = rdBytes s.img.buf 0 s.img.blkLen.toNat → s.img.offset.toNat % 4096 = 0 → s.img.offset.toNat < s.img.openLen →
    s.img.blkLen.toNat = min 4096 (s.img.openLen - s.img.offset.toNat) → crc32c b = s.img.crc →
    s.img.blocks.contains s.img.offset.toNat = false →
    exec (.imgBlock 1) s = .next (commit { s with img := { s.img with
      blocks := s.img.offset.toNat :: s.img.blocks, data := wrBytes s.img.data s.img.offset.toNat b, busy := true
      result := 0 } })) ∧
  (∀ s : State, s.live = true → s.img.state = .opened → s.img.owner = 1 → s.img.busy = false →
    s.img.offset.toNat % 4096 = 0 → s.img.offset.toNat < s.img.openLen →
    s.img.blkLen.toNat = min 4096 (s.img.openLen - s.img.offset.toNat) →
    crc32c (rdBytes s.img.buf 0 s.img.blkLen.toNat) ≠ s.img.crc →
    exec (.imgBlock 1) s = .next (commit { s with img := { s.img with result := 4 } })) ∧
  (∀ s : State, s.live = true →
    exec .blockProgrammed s = .next (commit { s with img := { s.img with busy := false } })) ∧
  (∀ s : State, s.live = true → s.img.state = .opened → s.img.owner = 1 → s.img.busy = false → s.img.typ ≠ 3 →
    s.img.blocks.length = blockCount s.img.openLen →
    exec (.imgClose 1) s = .next (commit { s with img := { s.img with state := .verifying, result := 0 } })) ∧
  (∀ s : State, s.live = true → s.img.state = .opened → s.img.owner = 1 → s.img.busy = false → s.img.typ = 3 →
    s.img.blocks.length = blockCount s.img.openLen →
    exec (.imgClose 1) s = .next (commit { s with
      img := { s.img with state := .verified, result := 0 }, bind := { s.bind with staging := some s.img.bytes } })) ∧
  (∀ s : State, s.live = true → s.img.state = .opened → s.img.owner = 1 → s.img.busy = false →
    s.img.blocks.length ≠ blockCount s.img.openLen →
    exec (.imgClose 1) s = .next (commit { s with img := { s.img with result := 7 } })) ∧
  (∀ s : State, s.live = true → s.img.state = .opened → s.img.owner = 1 →
    exec (.imgAbort 1) s = .next (commit { s with img := { s.img with
      state := .idle, busy := false, blocks := [], data := [], detail := 0, result := 0 } })) ∧
  (∀ s : State, s.live = true → s.img.state = .verifying → 4 ≤ s.img.typ → s.imageCode s.img.typ s.img.bytes ≠ 0 →
    exec .verifyDone s = .next (commit { s with img := { s.img with
      state := .failed, detail := 0, result := s.imageCode s.img.typ s.img.bytes } })) ∧
  (∀ s : State, s.live = true → s.img.state ≠ .verifying → exec .verifyDone s = .next (commit s))
/-- R386, R402, R483, R491: what images do. VERIFY_DONE of a REVOKE image that is accepted revokes its key slot, and of a FIRMWARE image
outside recovery writes the destination copy; one not accepted changes neither; FW_CONFIRM is refused without a trial of the running
copy, and otherwise ends it and raises the SVN floor; a verified calibration set is stored for the next boundary. -/
def Obligations.ImageEffects : Prop :=
  (∀ s : State, s.live = true → s.img.state = .verifying → s.img.typ = 6 → s.bind.keys.wf = true →
    ∃ t, exec .verifyDone s = .next t ∧ OnlyIn [.img, .bind, .keep, .ksi, .freeCount] s t ∧
      (if s.imageCode 6 s.img.bytes = 0 ∧ s.revokeOk s.img.bytes = true
       then t.img.state = .verified ∧ (t.bind.keys.get (u8 s.img.bytes 0x100)).revoked = true
       else t.img.state = .failed ∧ t.bind = s.bind)) ∧
  (∀ s : State, s.live = true → s.img.state = .verifying → s.img.typ = 1 → s.start.stage ≠ .recovery →
    ∃ t, exec .verifyDone s = .next t ∧ OnlyIn [.img, .keep] s t ∧
      (if s.imageCode 1 s.img.bytes = 0
       then t.img.state = .verified ∧
         (if s.img.dest then t.keep.copyB = { bundle := s.img.bytes } ∧ t.keep.copyA = s.keep.copyA
          else t.keep.copyA = { bundle := s.img.bytes } ∧ t.keep.copyB = s.keep.copyB)
       else t.img.state = .failed ∧ t.keep = s.keep)) ∧
  (∀ s : State, s.live = true → s.img.state = .idle → (s.keep.trial = false ∨ s.keep.bootSel ≠ s.start.fwCopy) →
    exec (.fwConfirm 1) s = .next (commit { s with img := { s.img with result := 0x11 } })) ∧
  (∀ s : State, s.live = true → s.img.state = .idle → s.keep.trial = true → s.keep.bootSel = s.start.fwCopy →
    ∃ t, exec (.fwConfirm 1) s = .next t ∧ OnlyIn [.img, .keep] s t ∧ t.keep.trial = false ∧ t.keep.tries = 0 ∧
      t.keep.svnFloor = max s.keep.svnFloor (u16 s.runningBundle 0xA) ∧ t.keep.confirmedFormat = s.runFormat ∧
      t.keep.record = { kind := .image, vals := [u16 s.runningBundle 0xA] } :: s.keep.record) ∧
  (∀ s : State, s.live = true → s.img.state = .verified → s.img.typ = 4 → s.img.committed = false →
    u8 (s.img.bytes.drop 0x100) 0 = 1 →
    ∃ t, exec .calCommit s = .next t ∧ OnlyIn [.keep, .img, .ing, .cons, .cnt] s t ∧ t.img.committed = true ∧
      t.cons.events = bitSet s.cons.events 6 ∧ t.ing.calNext.get (u8 (s.img.bytes.drop 0x100) 1) =
        calSetOf (s.img.bytes.drop 0x100)) ∧
  (∀ s : State, s.live = true → s.img.state ≠ .verified → exec .calCommit s = .next (commit s))
/-- R488: ACTIVATE applies only to a VERIFIED FIRMWARE image: it writes the boot record to select that copy with TRIAL 1 and TRIES 0, and
nothing else but its result changes until the next start, which then runs that copy; it fails with NOT_VERIFIED, BUSY and LOCKED in
the three cases of the rule. -/
def Obligations.ImageActivate : Prop :=
  (∀ (s : State) (m : Nat), s.live = true → (m = 1 ∨ m = 0x41) → s.img.state = .verified → s.img.typ = 1 → s.keep.trial = false →
    (s.host.tdis.any fun e => e.2.noFwUpdate && (e.2.state == .locked || e.2.state == .run)) = false →
    exec (.imgActivate m) s = .next (commit { s with
      img := { s.img with result := 0 }, keep := { s.keep with bootSel := s.img.dest, trial := true, tries := 0 } })) ∧
  (∀ (s : State) (m : Nat), s.live = true → (m = 1 ∨ m = 0x41) → ¬ (s.img.state = .verified ∧ s.img.typ = 1) →
    (s.img.state = .erasing ∨ s.img.state = .opened ∨ s.img.state = .verifying → s.img.owner = m) →
    exec (.imgActivate m) s = .next (commit { s with img := { s.img with result := 0x0E } })) ∧
  (∀ (s : State) (m : Nat), s.live = true → (m = 1 ∨ m = 0x41) → s.img.state = .verified → s.img.typ = 1 → s.keep.trial = true →
    exec (.imgActivate m) s = .next (commit { s with img := { s.img with result := 1 } })) ∧
  (∀ (s : State) (m : Nat), s.live = true → (m = 1 ∨ m = 0x41) → s.img.state = .verified → s.img.typ = 1 → s.keep.trial = false →
    (s.host.tdis.any fun e => e.2.noFwUpdate && (e.2.state == .locked || e.2.state == .run)) = true →
    exec (.imgActivate m) s = .next (commit { s with img := { s.img with result := 0x0D } })) ∧
  (∀ (s : State) (n : Nat) (r p : Bool), s.holdOver = true → s.start.recoverNext = false → s.keep.trial = true → s.keep.tries < 3 →
    (if s.keep.bootSel then s.keep.lastBoundA else s.keep.lastBoundB) = false →
    ∃ t, exec (.moduleStart n r p 0) s = .next t ∧
      (s.copyAccepted (s.keep.copy s.keep.bootSel) = true →
        (∀ i < 5, componentOk (s.keep.copy s.keep.bootSel).bundle (i + 1) = true) →
        t.start.hold = false ∧ t.start.fwCopy = s.keep.bootSel ∧ t.keep.trial = true ∧ t.keep.tries = s.keep.tries + 1))
end

