-- ==== Sys2Proof/Laws/State.lean ====
section
/-! SUPPORT. What each part update does to each part: one lemma per field per update, all by definition. -/

namespace Sys2Proof.Machine

variable (s : State)

@[simp] theorem State.onTb_tb (f : TimeBase → TimeBase) : (s.onTb f).tb = f s.tb := rfl
@[simp] theorem State.onTb_tick (f : TimeBase → TimeBase) : (s.onTb f).tick = s.tick := rfl
@[simp] theorem State.onTb_bind (f : TimeBase → TimeBase) : (s.onTb f).bind = s.bind := rfl
@[simp] theorem State.onTb_bus (f : TimeBase → TimeBase) : (s.onTb f).bus = s.bus := rfl
@[simp] theorem State.onTb_mbx (f : TimeBase → TimeBase) : (s.onTb f).mbx = s.mbx := rfl
@[simp] theorem State.onTb_spad (f : TimeBase → TimeBase) : (s.onTb f).spad = s.spad := rfl
@[simp] theorem State.onTb_dma (f : TimeBase → TimeBase) : (s.onTb f).dma = s.dma := rfl
@[simp] theorem State.onTb_acts (f : TimeBase → TimeBase) : (s.onTb f).acts = s.acts := rfl
@[simp] theorem State.onTb_engs (f : TimeBase → TimeBase) : (s.onTb f).engs = s.engs := rfl
@[simp] theorem State.onTb_leaf (f : TimeBase → TimeBase) : (s.onTb f).leaf = s.leaf := rfl
@[simp] theorem State.onTb_codec (f : TimeBase → TimeBase) : (s.onTb f).codec = s.codec := rfl
@[simp] theorem State.onTb_ing (f : TimeBase → TimeBase) : (s.onTb f).ing = s.ing := rfl
@[simp] theorem State.onTb_ring (f : TimeBase → TimeBase) : (s.onTb f).ring = s.ring := rfl
@[simp] theorem State.onTb_host (f : TimeBase → TimeBase) : (s.onTb f).host = s.host := rfl
@[simp] theorem State.onTb_ksi (f : TimeBase → TimeBase) : (s.onTb f).ksi = s.ksi := rfl
@[simp] theorem State.onTb_gddr (f : TimeBase → TimeBase) : (s.onTb f).gddr = s.gddr := rfl
@[simp] theorem State.onTb_cnt (f : TimeBase → TimeBase) : (s.onTb f).cnt = s.cnt := rfl
@[simp] theorem State.onTb_cons (f : TimeBase → TimeBase) : (s.onTb f).cons = s.cons := rfl
@[simp] theorem State.onTb_chk (f : TimeBase → TimeBase) : (s.onTb f).chk = s.chk := rfl
@[simp] theorem State.onTb_pwr (f : TimeBase → TimeBase) : (s.onTb f).pwr = s.pwr := rfl
@[simp] theorem State.onTb_pair (f : TimeBase → TimeBase) : (s.onTb f).pair = s.pair := rfl
@[simp] theorem State.onTb_start (f : TimeBase → TimeBase) : (s.onTb f).start = s.start := rfl
@[simp] theorem State.onTb_img (f : TimeBase → TimeBase) : (s.onTb f).img = s.img := rfl
@[simp] theorem State.onTb_keep (f : TimeBase → TimeBase) : (s.onTb f).keep = s.keep := rfl
@[simp] theorem State.onTb_sent (f : TimeBase → TimeBase) : (s.onTb f).sent = s.sent := rfl
@[simp] theorem State.onTb_pending (f : TimeBase → TimeBase) : (s.onTb f).pending = s.pending := rfl
@[simp] theorem State.onTb_freeCount (f : TimeBase → TimeBase) : (s.onTb f).freeCount = s.freeCount := rfl

@[simp] theorem State.onTick_tb (f : Tick → Tick) : (s.onTick f).tb = s.tb := rfl
@[simp] theorem State.onTick_tick (f : Tick → Tick) : (s.onTick f).tick = f s.tick := rfl
@[simp] theorem State.onTick_bind (f : Tick → Tick) : (s.onTick f).bind = s.bind := rfl
@[simp] theorem State.onTick_bus (f : Tick → Tick) : (s.onTick f).bus = s.bus := rfl
@[simp] theorem State.onTick_mbx (f : Tick → Tick) : (s.onTick f).mbx = s.mbx := rfl
@[simp] theorem State.onTick_spad (f : Tick → Tick) : (s.onTick f).spad = s.spad := rfl
@[simp] theorem State.onTick_dma (f : Tick → Tick) : (s.onTick f).dma = s.dma := rfl
@[simp] theorem State.onTick_acts (f : Tick → Tick) : (s.onTick f).acts = s.acts := rfl
@[simp] theorem State.onTick_engs (f : Tick → Tick) : (s.onTick f).engs = s.engs := rfl
@[simp] theorem State.onTick_leaf (f : Tick → Tick) : (s.onTick f).leaf = s.leaf := rfl
@[simp] theorem State.onTick_codec (f : Tick → Tick) : (s.onTick f).codec = s.codec := rfl
@[simp] theorem State.onTick_ing (f : Tick → Tick) : (s.onTick f).ing = s.ing := rfl
@[simp] theorem State.onTick_ring (f : Tick → Tick) : (s.onTick f).ring = s.ring := rfl
@[simp] theorem State.onTick_host (f : Tick → Tick) : (s.onTick f).host = s.host := rfl
@[simp] theorem State.onTick_ksi (f : Tick → Tick) : (s.onTick f).ksi = s.ksi := rfl
@[simp] theorem State.onTick_gddr (f : Tick → Tick) : (s.onTick f).gddr = s.gddr := rfl
@[simp] theorem State.onTick_cnt (f : Tick → Tick) : (s.onTick f).cnt = s.cnt := rfl
@[simp] theorem State.onTick_cons (f : Tick → Tick) : (s.onTick f).cons = s.cons := rfl
@[simp] theorem State.onTick_chk (f : Tick → Tick) : (s.onTick f).chk = s.chk := rfl
@[simp] theorem State.onTick_pwr (f : Tick → Tick) : (s.onTick f).pwr = s.pwr := rfl
@[simp] theorem State.onTick_pair (f : Tick → Tick) : (s.onTick f).pair = s.pair := rfl
@[simp] theorem State.onTick_start (f : Tick → Tick) : (s.onTick f).start = s.start := rfl
@[simp] theorem State.onTick_img (f : Tick → Tick) : (s.onTick f).img = s.img := rfl
@[simp] theorem State.onTick_keep (f : Tick → Tick) : (s.onTick f).keep = s.keep := rfl
@[simp] theorem State.onTick_sent (f : Tick → Tick) : (s.onTick f).sent = s.sent := rfl
@[simp] theorem State.onTick_pending (f : Tick → Tick) : (s.onTick f).pending = s.pending := rfl
@[simp] theorem State.onTick_freeCount (f : Tick → Tick) : (s.onTick f).freeCount = s.freeCount := rfl

@[simp] theorem State.onBind_tb (f : Bind → Bind) : (s.onBind f).tb = s.tb := rfl
@[simp] theorem State.onBind_tick (f : Bind → Bind) : (s.onBind f).tick = s.tick := rfl
@[simp] theorem State.onBind_bind (f : Bind → Bind) : (s.onBind f).bind = f s.bind := rfl
@[simp] theorem State.onBind_bus (f : Bind → Bind) : (s.onBind f).bus = s.bus := rfl
@[simp] theorem State.onBind_mbx (f : Bind → Bind) : (s.onBind f).mbx = s.mbx := rfl
@[simp] theorem State.onBind_spad (f : Bind → Bind) : (s.onBind f).spad = s.spad := rfl
@[simp] theorem State.onBind_dma (f : Bind → Bind) : (s.onBind f).dma = s.dma := rfl
@[simp] theorem State.onBind_acts (f : Bind → Bind) : (s.onBind f).acts = s.acts := rfl
@[simp] theorem State.onBind_engs (f : Bind → Bind) : (s.onBind f).engs = s.engs := rfl
@[simp] theorem State.onBind_leaf (f : Bind → Bind) : (s.onBind f).leaf = s.leaf := rfl
@[simp] theorem State.onBind_codec (f : Bind → Bind) : (s.onBind f).codec = s.codec := rfl
@[simp] theorem State.onBind_ing (f : Bind → Bind) : (s.onBind f).ing = s.ing := rfl
@[simp] theorem State.onBind_ring (f : Bind → Bind) : (s.onBind f).ring = s.ring := rfl
@[simp] theorem State.onBind_host (f : Bind → Bind) : (s.onBind f).host = s.host := rfl
@[simp] theorem State.onBind_ksi (f : Bind → Bind) : (s.onBind f).ksi = s.ksi := rfl
@[simp] theorem State.onBind_gddr (f : Bind → Bind) : (s.onBind f).gddr = s.gddr := rfl
@[simp] theorem State.onBind_cnt (f : Bind → Bind) : (s.onBind f).cnt = s.cnt := rfl
@[simp] theorem State.onBind_cons (f : Bind → Bind) : (s.onBind f).cons = s.cons := rfl
@[simp] theorem State.onBind_chk (f : Bind → Bind) : (s.onBind f).chk = s.chk := rfl
@[simp] theorem State.onBind_pwr (f : Bind → Bind) : (s.onBind f).pwr = s.pwr := rfl
@[simp] theorem State.onBind_pair (f : Bind → Bind) : (s.onBind f).pair = s.pair := rfl
@[simp] theorem State.onBind_start (f : Bind → Bind) : (s.onBind f).start = s.start := rfl
@[simp] theorem State.onBind_img (f : Bind → Bind) : (s.onBind f).img = s.img := rfl
@[simp] theorem State.onBind_keep (f : Bind → Bind) : (s.onBind f).keep = s.keep := rfl
@[simp] theorem State.onBind_sent (f : Bind → Bind) : (s.onBind f).sent = s.sent := rfl
@[simp] theorem State.onBind_pending (f : Bind → Bind) : (s.onBind f).pending = s.pending := rfl
@[simp] theorem State.onBind_freeCount (f : Bind → Bind) : (s.onBind f).freeCount = s.freeCount := rfl

@[simp] theorem State.onBus_tb (f : Bus → Bus) : (s.onBus f).tb = s.tb := rfl
@[simp] theorem State.onBus_tick (f : Bus → Bus) : (s.onBus f).tick = s.tick := rfl
@[simp] theorem State.onBus_bind (f : Bus → Bus) : (s.onBus f).bind = s.bind := rfl
@[simp] theorem State.onBus_bus (f : Bus → Bus) : (s.onBus f).bus = f s.bus := rfl
@[simp] theorem State.onBus_mbx (f : Bus → Bus) : (s.onBus f).mbx = s.mbx := rfl
@[simp] theorem State.onBus_spad (f : Bus → Bus) : (s.onBus f).spad = s.spad := rfl
@[simp] theorem State.onBus_dma (f : Bus → Bus) : (s.onBus f).dma = s.dma := rfl
@[simp] theorem State.onBus_acts (f : Bus → Bus) : (s.onBus f).acts = s.acts := rfl
@[simp] theorem State.onBus_engs (f : Bus → Bus) : (s.onBus f).engs = s.engs := rfl
@[simp] theorem State.onBus_leaf (f : Bus → Bus) : (s.onBus f).leaf = s.leaf := rfl
@[simp] theorem State.onBus_codec (f : Bus → Bus) : (s.onBus f).codec = s.codec := rfl
@[simp] theorem State.onBus_ing (f : Bus → Bus) : (s.onBus f).ing = s.ing := rfl
@[simp] theorem State.onBus_ring (f : Bus → Bus) : (s.onBus f).ring = s.ring := rfl
@[simp] theorem State.onBus_host (f : Bus → Bus) : (s.onBus f).host = s.host := rfl
@[simp] theorem State.onBus_ksi (f : Bus → Bus) : (s.onBus f).ksi = s.ksi := rfl
@[simp] theorem State.onBus_gddr (f : Bus → Bus) : (s.onBus f).gddr = s.gddr := rfl
@[simp] theorem State.onBus_cnt (f : Bus → Bus) : (s.onBus f).cnt = s.cnt := rfl
@[simp] theorem State.onBus_cons (f : Bus → Bus) : (s.onBus f).cons = s.cons := rfl
@[simp] theorem State.onBus_chk (f : Bus → Bus) : (s.onBus f).chk = s.chk := rfl
@[simp] theorem State.onBus_pwr (f : Bus → Bus) : (s.onBus f).pwr = s.pwr := rfl
@[simp] theorem State.onBus_pair (f : Bus → Bus) : (s.onBus f).pair = s.pair := rfl
@[simp] theorem State.onBus_start (f : Bus → Bus) : (s.onBus f).start = s.start := rfl
@[simp] theorem State.onBus_img (f : Bus → Bus) : (s.onBus f).img = s.img := rfl
@[simp] theorem State.onBus_keep (f : Bus → Bus) : (s.onBus f).keep = s.keep := rfl
@[simp] theorem State.onBus_sent (f : Bus → Bus) : (s.onBus f).sent = s.sent := rfl
@[simp] theorem State.onBus_pending (f : Bus → Bus) : (s.onBus f).pending = s.pending := rfl
@[simp] theorem State.onBus_freeCount (f : Bus → Bus) : (s.onBus f).freeCount = s.freeCount := rfl

@[simp] theorem State.onMbx_tb (f : Mbx → Mbx) : (s.onMbx f).tb = s.tb := rfl
@[simp] theorem State.onMbx_tick (f : Mbx → Mbx) : (s.onMbx f).tick = s.tick := rfl
@[simp] theorem State.onMbx_bind (f : Mbx → Mbx) : (s.onMbx f).bind = s.bind := rfl
@[simp] theorem State.onMbx_bus (f : Mbx → Mbx) : (s.onMbx f).bus = s.bus := rfl
@[simp] theorem State.onMbx_mbx (f : Mbx → Mbx) : (s.onMbx f).mbx = f s.mbx := rfl
@[simp] theorem State.onMbx_spad (f : Mbx → Mbx) : (s.onMbx f).spad = s.spad := rfl
@[simp] theorem State.onMbx_dma (f : Mbx → Mbx) : (s.onMbx f).dma = s.dma := rfl
@[simp] theorem State.onMbx_acts (f : Mbx → Mbx) : (s.onMbx f).acts = s.acts := rfl
@[simp] theorem State.onMbx_engs (f : Mbx → Mbx) : (s.onMbx f).engs = s.engs := rfl
@[simp] theorem State.onMbx_leaf (f : Mbx → Mbx) : (s.onMbx f).leaf = s.leaf := rfl
@[simp] theorem State.onMbx_codec (f : Mbx → Mbx) : (s.onMbx f).codec = s.codec := rfl
@[simp] theorem State.onMbx_ing (f : Mbx → Mbx) : (s.onMbx f).ing = s.ing := rfl
@[simp] theorem State.onMbx_ring (f : Mbx → Mbx) : (s.onMbx f).ring = s.ring := rfl
@[simp] theorem State.onMbx_host (f : Mbx → Mbx) : (s.onMbx f).host = s.host := rfl
@[simp] theorem State.onMbx_ksi (f : Mbx → Mbx) : (s.onMbx f).ksi = s.ksi := rfl
@[simp] theorem State.onMbx_gddr (f : Mbx → Mbx) : (s.onMbx f).gddr = s.gddr := rfl
@[simp] theorem State.onMbx_cnt (f : Mbx → Mbx) : (s.onMbx f).cnt = s.cnt := rfl
@[simp] theorem State.onMbx_cons (f : Mbx → Mbx) : (s.onMbx f).cons = s.cons := rfl
@[simp] theorem State.onMbx_chk (f : Mbx → Mbx) : (s.onMbx f).chk = s.chk := rfl
@[simp] theorem State.onMbx_pwr (f : Mbx → Mbx) : (s.onMbx f).pwr = s.pwr := rfl
@[simp] theorem State.onMbx_pair (f : Mbx → Mbx) : (s.onMbx f).pair = s.pair := rfl
@[simp] theorem State.onMbx_start (f : Mbx → Mbx) : (s.onMbx f).start = s.start := rfl
@[simp] theorem State.onMbx_img (f : Mbx → Mbx) : (s.onMbx f).img = s.img := rfl
@[simp] theorem State.onMbx_keep (f : Mbx → Mbx) : (s.onMbx f).keep = s.keep := rfl
@[simp] theorem State.onMbx_sent (f : Mbx → Mbx) : (s.onMbx f).sent = s.sent := rfl
@[simp] theorem State.onMbx_pending (f : Mbx → Mbx) : (s.onMbx f).pending = s.pending := rfl
@[simp] theorem State.onMbx_freeCount (f : Mbx → Mbx) : (s.onMbx f).freeCount = s.freeCount := rfl

@[simp] theorem State.onSpad_tb (f : Spad → Spad) : (s.onSpad f).tb = s.tb := rfl
@[simp] theorem State.onSpad_tick (f : Spad → Spad) : (s.onSpad f).tick = s.tick := rfl
@[simp] theorem State.onSpad_bind (f : Spad → Spad) : (s.onSpad f).bind = s.bind := rfl
@[simp] theorem State.onSpad_bus (f : Spad → Spad) : (s.onSpad f).bus = s.bus := rfl
@[simp] theorem State.onSpad_mbx (f : Spad → Spad) : (s.onSpad f).mbx = s.mbx := rfl
@[simp] theorem State.onSpad_spad (f : Spad → Spad) : (s.onSpad f).spad = f s.spad := rfl
@[simp] theorem State.onSpad_dma (f : Spad → Spad) : (s.onSpad f).dma = s.dma := rfl
@[simp] theorem State.onSpad_acts (f : Spad → Spad) : (s.onSpad f).acts = s.acts := rfl
@[simp] theorem State.onSpad_engs (f : Spad → Spad) : (s.onSpad f).engs = s.engs := rfl
@[simp] theorem State.onSpad_leaf (f : Spad → Spad) : (s.onSpad f).leaf = s.leaf := rfl
@[simp] theorem State.onSpad_codec (f : Spad → Spad) : (s.onSpad f).codec = s.codec := rfl
@[simp] theorem State.onSpad_ing (f : Spad → Spad) : (s.onSpad f).ing = s.ing := rfl
@[simp] theorem State.onSpad_ring (f : Spad → Spad) : (s.onSpad f).ring = s.ring := rfl
@[simp] theorem State.onSpad_host (f : Spad → Spad) : (s.onSpad f).host = s.host := rfl
@[simp] theorem State.onSpad_ksi (f : Spad → Spad) : (s.onSpad f).ksi = s.ksi := rfl
@[simp] theorem State.onSpad_gddr (f : Spad → Spad) : (s.onSpad f).gddr = s.gddr := rfl
@[simp] theorem State.onSpad_cnt (f : Spad → Spad) : (s.onSpad f).cnt = s.cnt := rfl
@[simp] theorem State.onSpad_cons (f : Spad → Spad) : (s.onSpad f).cons = s.cons := rfl
@[simp] theorem State.onSpad_chk (f : Spad → Spad) : (s.onSpad f).chk = s.chk := rfl
@[simp] theorem State.onSpad_pwr (f : Spad → Spad) : (s.onSpad f).pwr = s.pwr := rfl
@[simp] theorem State.onSpad_pair (f : Spad → Spad) : (s.onSpad f).pair = s.pair := rfl
@[simp] theorem State.onSpad_start (f : Spad → Spad) : (s.onSpad f).start = s.start := rfl
@[simp] theorem State.onSpad_img (f : Spad → Spad) : (s.onSpad f).img = s.img := rfl
@[simp] theorem State.onSpad_keep (f : Spad → Spad) : (s.onSpad f).keep = s.keep := rfl
@[simp] theorem State.onSpad_sent (f : Spad → Spad) : (s.onSpad f).sent = s.sent := rfl
@[simp] theorem State.onSpad_pending (f : Spad → Spad) : (s.onSpad f).pending = s.pending := rfl
@[simp] theorem State.onSpad_freeCount (f : Spad → Spad) : (s.onSpad f).freeCount = s.freeCount := rfl

@[simp] theorem State.onDma_tb (f : Dma → Dma) : (s.onDma f).tb = s.tb := rfl
@[simp] theorem State.onDma_tick (f : Dma → Dma) : (s.onDma f).tick = s.tick := rfl
@[simp] theorem State.onDma_bind (f : Dma → Dma) : (s.onDma f).bind = s.bind := rfl
@[simp] theorem State.onDma_bus (f : Dma → Dma) : (s.onDma f).bus = s.bus := rfl
@[simp] theorem State.onDma_mbx (f : Dma → Dma) : (s.onDma f).mbx = s.mbx := rfl
@[simp] theorem State.onDma_spad (f : Dma → Dma) : (s.onDma f).spad = s.spad := rfl
@[simp] theorem State.onDma_dma (f : Dma → Dma) : (s.onDma f).dma = f s.dma := rfl
@[simp] theorem State.onDma_acts (f : Dma → Dma) : (s.onDma f).acts = s.acts := rfl
@[simp] theorem State.onDma_engs (f : Dma → Dma) : (s.onDma f).engs = s.engs := rfl
@[simp] theorem State.onDma_leaf (f : Dma → Dma) : (s.onDma f).leaf = s.leaf := rfl
@[simp] theorem State.onDma_codec (f : Dma → Dma) : (s.onDma f).codec = s.codec := rfl
@[simp] theorem State.onDma_ing (f : Dma → Dma) : (s.onDma f).ing = s.ing := rfl
@[simp] theorem State.onDma_ring (f : Dma → Dma) : (s.onDma f).ring = s.ring := rfl
@[simp] theorem State.onDma_host (f : Dma → Dma) : (s.onDma f).host = s.host := rfl
@[simp] theorem State.onDma_ksi (f : Dma → Dma) : (s.onDma f).ksi = s.ksi := rfl
@[simp] theorem State.onDma_gddr (f : Dma → Dma) : (s.onDma f).gddr = s.gddr := rfl
@[simp] theorem State.onDma_cnt (f : Dma → Dma) : (s.onDma f).cnt = s.cnt := rfl
@[simp] theorem State.onDma_cons (f : Dma → Dma) : (s.onDma f).cons = s.cons := rfl
@[simp] theorem State.onDma_chk (f : Dma → Dma) : (s.onDma f).chk = s.chk := rfl
@[simp] theorem State.onDma_pwr (f : Dma → Dma) : (s.onDma f).pwr = s.pwr := rfl
@[simp] theorem State.onDma_pair (f : Dma → Dma) : (s.onDma f).pair = s.pair := rfl
@[simp] theorem State.onDma_start (f : Dma → Dma) : (s.onDma f).start = s.start := rfl
@[simp] theorem State.onDma_img (f : Dma → Dma) : (s.onDma f).img = s.img := rfl
@[simp] theorem State.onDma_keep (f : Dma → Dma) : (s.onDma f).keep = s.keep := rfl
@[simp] theorem State.onDma_sent (f : Dma → Dma) : (s.onDma f).sent = s.sent := rfl
@[simp] theorem State.onDma_pending (f : Dma → Dma) : (s.onDma f).pending = s.pending := rfl
@[simp] theorem State.onDma_freeCount (f : Dma → Dma) : (s.onDma f).freeCount = s.freeCount := rfl

@[simp] theorem State.onActs_tb (f : (Tab Act) → (Tab Act)) : (s.onActs f).tb = s.tb := rfl
@[simp] theorem State.onActs_tick (f : (Tab Act) → (Tab Act)) : (s.onActs f).tick = s.tick := rfl
@[simp] theorem State.onActs_bind (f : (Tab Act) → (Tab Act)) : (s.onActs f).bind = s.bind := rfl
@[simp] theorem State.onActs_bus (f : (Tab Act) → (Tab Act)) : (s.onActs f).bus = s.bus := rfl
@[simp] theorem State.onActs_mbx (f : (Tab Act) → (Tab Act)) : (s.onActs f).mbx = s.mbx := rfl
@[simp] theorem State.onActs_spad (f : (Tab Act) → (Tab Act)) : (s.onActs f).spad = s.spad := rfl
@[simp] theorem State.onActs_dma (f : (Tab Act) → (Tab Act)) : (s.onActs f).dma = s.dma := rfl
@[simp] theorem State.onActs_acts (f : (Tab Act) → (Tab Act)) : (s.onActs f).acts = f s.acts := rfl
@[simp] theorem State.onActs_engs (f : (Tab Act) → (Tab Act)) : (s.onActs f).engs = s.engs := rfl
@[simp] theorem State.onActs_leaf (f : (Tab Act) → (Tab Act)) : (s.onActs f).leaf = s.leaf := rfl
@[simp] theorem State.onActs_codec (f : (Tab Act) → (Tab Act)) : (s.onActs f).codec = s.codec := rfl
@[simp] theorem State.onActs_ing (f : (Tab Act) → (Tab Act)) : (s.onActs f).ing = s.ing := rfl
@[simp] theorem State.onActs_ring (f : (Tab Act) → (Tab Act)) : (s.onActs f).ring = s.ring := rfl
@[simp] theorem State.onActs_host (f : (Tab Act) → (Tab Act)) : (s.onActs f).host = s.host := rfl
@[simp] theorem State.onActs_ksi (f : (Tab Act) → (Tab Act)) : (s.onActs f).ksi = s.ksi := rfl
@[simp] theorem State.onActs_gddr (f : (Tab Act) → (Tab Act)) : (s.onActs f).gddr = s.gddr := rfl
@[simp] theorem State.onActs_cnt (f : (Tab Act) → (Tab Act)) : (s.onActs f).cnt = s.cnt := rfl
@[simp] theorem State.onActs_cons (f : (Tab Act) → (Tab Act)) : (s.onActs f).cons = s.cons := rfl
@[simp] theorem State.onActs_chk (f : (Tab Act) → (Tab Act)) : (s.onActs f).chk = s.chk := rfl
@[simp] theorem State.onActs_pwr (f : (Tab Act) → (Tab Act)) : (s.onActs f).pwr = s.pwr := rfl
@[simp] theorem State.onActs_pair (f : (Tab Act) → (Tab Act)) : (s.onActs f).pair = s.pair := rfl
@[simp] theorem State.onActs_start (f : (Tab Act) → (Tab Act)) : (s.onActs f).start = s.start := rfl
@[simp] theorem State.onActs_img (f : (Tab Act) → (Tab Act)) : (s.onActs f).img = s.img := rfl
@[simp] theorem State.onActs_keep (f : (Tab Act) → (Tab Act)) : (s.onActs f).keep = s.keep := rfl
@[simp] theorem State.onActs_sent (f : (Tab Act) → (Tab Act)) : (s.onActs f).sent = s.sent := rfl
@[simp] theorem State.onActs_pending (f : (Tab Act) → (Tab Act)) : (s.onActs f).pending = s.pending := rfl
@[simp] theorem State.onActs_freeCount (f : (Tab Act) → (Tab Act)) : (s.onActs f).freeCount = s.freeCount := rfl

@[simp] theorem State.onEngs_tb (f : (Tab Engines) → (Tab Engines)) : (s.onEngs f).tb = s.tb := rfl
@[simp] theorem State.onEngs_tick (f : (Tab Engines) → (Tab Engines)) : (s.onEngs f).tick = s.tick := rfl
@[simp] theorem State.onEngs_bind (f : (Tab Engines) → (Tab Engines)) : (s.onEngs f).bind = s.bind := rfl
@[simp] theorem State.onEngs_bus (f : (Tab Engines) → (Tab Engines)) : (s.onEngs f).bus = s.bus := rfl
@[simp] theorem State.onEngs_mbx (f : (Tab Engines) → (Tab Engines)) : (s.onEngs f).mbx = s.mbx := rfl
@[simp] theorem State.onEngs_spad (f : (Tab Engines) → (Tab Engines)) : (s.onEngs f).spad = s.spad := rfl
@[simp] theorem State.onEngs_dma (f : (Tab Engines) → (Tab Engines)) : (s.onEngs f).dma = s.dma := rfl
@[simp] theorem State.onEngs_acts (f : (Tab Engines) → (Tab Engines)) : (s.onEngs f).acts = s.acts := rfl
@[simp] theorem State.onEngs_engs (f : (Tab Engines) → (Tab Engines)) : (s.onEngs f).engs = f s.engs := rfl
@[simp] theorem State.onEngs_leaf (f : (Tab Engines) → (Tab Engines)) : (s.onEngs f).leaf = s.leaf := rfl
@[simp] theorem State.onEngs_codec (f : (Tab Engines) → (Tab Engines)) : (s.onEngs f).codec = s.codec := rfl
@[simp] theorem State.onEngs_ing (f : (Tab Engines) → (Tab Engines)) : (s.onEngs f).ing = s.ing := rfl
@[simp] theorem State.onEngs_ring (f : (Tab Engines) → (Tab Engines)) : (s.onEngs f).ring = s.ring := rfl
@[simp] theorem State.onEngs_host (f : (Tab Engines) → (Tab Engines)) : (s.onEngs f).host = s.host := rfl
@[simp] theorem State.onEngs_ksi (f : (Tab Engines) → (Tab Engines)) : (s.onEngs f).ksi = s.ksi := rfl
@[simp] theorem State.onEngs_gddr (f : (Tab Engines) → (Tab Engines)) : (s.onEngs f).gddr = s.gddr := rfl
@[simp] theorem State.onEngs_cnt (f : (Tab Engines) → (Tab Engines)) : (s.onEngs f).cnt = s.cnt := rfl
@[simp] theorem State.onEngs_cons (f : (Tab Engines) → (Tab Engines)) : (s.onEngs f).cons = s.cons := rfl
@[simp] theorem State.onEngs_chk (f : (Tab Engines) → (Tab Engines)) : (s.onEngs f).chk = s.chk := rfl
@[simp] theorem State.onEngs_pwr (f : (Tab Engines) → (Tab Engines)) : (s.onEngs f).pwr = s.pwr := rfl
@[simp] theorem State.onEngs_pair (f : (Tab Engines) → (Tab Engines)) : (s.onEngs f).pair = s.pair := rfl
@[simp] theorem State.onEngs_start (f : (Tab Engines) → (Tab Engines)) : (s.onEngs f).start = s.start := rfl
@[simp] theorem State.onEngs_img (f : (Tab Engines) → (Tab Engines)) : (s.onEngs f).img = s.img := rfl
@[simp] theorem State.onEngs_keep (f : (Tab Engines) → (Tab Engines)) : (s.onEngs f).keep = s.keep := rfl
@[simp] theorem State.onEngs_sent (f : (Tab Engines) → (Tab Engines)) : (s.onEngs f).sent = s.sent := rfl
@[simp] theorem State.onEngs_pending (f : (Tab Engines) → (Tab Engines)) : (s.onEngs f).pending = s.pending := rfl
@[simp] theorem State.onEngs_freeCount (f : (Tab Engines) → (Tab Engines)) : (s.onEngs f).freeCount = s.freeCount := rfl

@[simp] theorem State.onLeaf_tb (f : Leaves → Leaves) : (s.onLeaf f).tb = s.tb := rfl
@[simp] theorem State.onLeaf_tick (f : Leaves → Leaves) : (s.onLeaf f).tick = s.tick := rfl
@[simp] theorem State.onLeaf_bind (f : Leaves → Leaves) : (s.onLeaf f).bind = s.bind := rfl
@[simp] theorem State.onLeaf_bus (f : Leaves → Leaves) : (s.onLeaf f).bus = s.bus := rfl
@[simp] theorem State.onLeaf_mbx (f : Leaves → Leaves) : (s.onLeaf f).mbx = s.mbx := rfl
@[simp] theorem State.onLeaf_spad (f : Leaves → Leaves) : (s.onLeaf f).spad = s.spad := rfl
@[simp] theorem State.onLeaf_dma (f : Leaves → Leaves) : (s.onLeaf f).dma = s.dma := rfl
@[simp] theorem State.onLeaf_acts (f : Leaves → Leaves) : (s.onLeaf f).acts = s.acts := rfl
@[simp] theorem State.onLeaf_engs (f : Leaves → Leaves) : (s.onLeaf f).engs = s.engs := rfl
@[simp] theorem State.onLeaf_leaf (f : Leaves → Leaves) : (s.onLeaf f).leaf = f s.leaf := rfl
@[simp] theorem State.onLeaf_codec (f : Leaves → Leaves) : (s.onLeaf f).codec = s.codec := rfl
@[simp] theorem State.onLeaf_ing (f : Leaves → Leaves) : (s.onLeaf f).ing = s.ing := rfl
@[simp] theorem State.onLeaf_ring (f : Leaves → Leaves) : (s.onLeaf f).ring = s.ring := rfl
@[simp] theorem State.onLeaf_host (f : Leaves → Leaves) : (s.onLeaf f).host = s.host := rfl
@[simp] theorem State.onLeaf_ksi (f : Leaves → Leaves) : (s.onLeaf f).ksi = s.ksi := rfl
@[simp] theorem State.onLeaf_gddr (f : Leaves → Leaves) : (s.onLeaf f).gddr = s.gddr := rfl
@[simp] theorem State.onLeaf_cnt (f : Leaves → Leaves) : (s.onLeaf f).cnt = s.cnt := rfl
@[simp] theorem State.onLeaf_cons (f : Leaves → Leaves) : (s.onLeaf f).cons = s.cons := rfl
@[simp] theorem State.onLeaf_chk (f : Leaves → Leaves) : (s.onLeaf f).chk = s.chk := rfl
@[simp] theorem State.onLeaf_pwr (f : Leaves → Leaves) : (s.onLeaf f).pwr = s.pwr := rfl
@[simp] theorem State.onLeaf_pair (f : Leaves → Leaves) : (s.onLeaf f).pair = s.pair := rfl
@[simp] theorem State.onLeaf_start (f : Leaves → Leaves) : (s.onLeaf f).start = s.start := rfl
@[simp] theorem State.onLeaf_img (f : Leaves → Leaves) : (s.onLeaf f).img = s.img := rfl
@[simp] theorem State.onLeaf_keep (f : Leaves → Leaves) : (s.onLeaf f).keep = s.keep := rfl
@[simp] theorem State.onLeaf_sent (f : Leaves → Leaves) : (s.onLeaf f).sent = s.sent := rfl
@[simp] theorem State.onLeaf_pending (f : Leaves → Leaves) : (s.onLeaf f).pending = s.pending := rfl
@[simp] theorem State.onLeaf_freeCount (f : Leaves → Leaves) : (s.onLeaf f).freeCount = s.freeCount := rfl

@[simp] theorem State.onCodec_tb (f : (Tab CodecSlot) → (Tab CodecSlot)) : (s.onCodec f).tb = s.tb := rfl
@[simp] theorem State.onCodec_tick (f : (Tab CodecSlot) → (Tab CodecSlot)) : (s.onCodec f).tick = s.tick := rfl
@[simp] theorem State.onCodec_bind (f : (Tab CodecSlot) → (Tab CodecSlot)) : (s.onCodec f).bind = s.bind := rfl
@[simp] theorem State.onCodec_bus (f : (Tab CodecSlot) → (Tab CodecSlot)) : (s.onCodec f).bus = s.bus := rfl
@[simp] theorem State.onCodec_mbx (f : (Tab CodecSlot) → (Tab CodecSlot)) : (s.onCodec f).mbx = s.mbx := rfl
@[simp] theorem State.onCodec_spad (f : (Tab CodecSlot) → (Tab CodecSlot)) : (s.onCodec f).spad = s.spad := rfl
@[simp] theorem State.onCodec_dma (f : (Tab CodecSlot) → (Tab CodecSlot)) : (s.onCodec f).dma = s.dma := rfl
@[simp] theorem State.onCodec_acts (f : (Tab CodecSlot) → (Tab CodecSlot)) : (s.onCodec f).acts = s.acts := rfl
@[simp] theorem State.onCodec_engs (f : (Tab CodecSlot) → (Tab CodecSlot)) : (s.onCodec f).engs = s.engs := rfl
@[simp] theorem State.onCodec_leaf (f : (Tab CodecSlot) → (Tab CodecSlot)) : (s.onCodec f).leaf = s.leaf := rfl
@[simp] theorem State.onCodec_codec (f : (Tab CodecSlot) → (Tab CodecSlot)) : (s.onCodec f).codec = f s.codec := rfl
@[simp] theorem State.onCodec_ing (f : (Tab CodecSlot) → (Tab CodecSlot)) : (s.onCodec f).ing = s.ing := rfl
@[simp] theorem State.onCodec_ring (f : (Tab CodecSlot) → (Tab CodecSlot)) : (s.onCodec f).ring = s.ring := rfl
@[simp] theorem State.onCodec_host (f : (Tab CodecSlot) → (Tab CodecSlot)) : (s.onCodec f).host = s.host := rfl
@[simp] theorem State.onCodec_ksi (f : (Tab CodecSlot) → (Tab CodecSlot)) : (s.onCodec f).ksi = s.ksi := rfl
@[simp] theorem State.onCodec_gddr (f : (Tab CodecSlot) → (Tab CodecSlot)) : (s.onCodec f).gddr = s.gddr := rfl
@[simp] theorem State.onCodec_cnt (f : (Tab CodecSlot) → (Tab CodecSlot)) : (s.onCodec f).cnt = s.cnt := rfl
@[simp] theorem State.onCodec_cons (f : (Tab CodecSlot) → (Tab CodecSlot)) : (s.onCodec f).cons = s.cons := rfl
@[simp] theorem State.onCodec_chk (f : (Tab CodecSlot) → (Tab CodecSlot)) : (s.onCodec f).chk = s.chk := rfl
@[simp] theorem State.onCodec_pwr (f : (Tab CodecSlot) → (Tab CodecSlot)) : (s.onCodec f).pwr = s.pwr := rfl
@[simp] theorem State.onCodec_pair (f : (Tab CodecSlot) → (Tab CodecSlot)) : (s.onCodec f).pair = s.pair := rfl
@[simp] theorem State.onCodec_start (f : (Tab CodecSlot) → (Tab CodecSlot)) : (s.onCodec f).start = s.start := rfl
@[simp] theorem State.onCodec_img (f : (Tab CodecSlot) → (Tab CodecSlot)) : (s.onCodec f).img = s.img := rfl
@[simp] theorem State.onCodec_keep (f : (Tab CodecSlot) → (Tab CodecSlot)) : (s.onCodec f).keep = s.keep := rfl
@[simp] theorem State.onCodec_sent (f : (Tab CodecSlot) → (Tab CodecSlot)) : (s.onCodec f).sent = s.sent := rfl
@[simp] theorem State.onCodec_pending (f : (Tab CodecSlot) → (Tab CodecSlot)) : (s.onCodec f).pending = s.pending := rfl
@[simp] theorem State.onCodec_freeCount (f : (Tab CodecSlot) → (Tab CodecSlot)) : (s.onCodec f).freeCount = s.freeCount := rfl

@[simp] theorem State.onIng_tb (f : Ingest → Ingest) : (s.onIng f).tb = s.tb := rfl
@[simp] theorem State.onIng_tick (f : Ingest → Ingest) : (s.onIng f).tick = s.tick := rfl
@[simp] theorem State.onIng_bind (f : Ingest → Ingest) : (s.onIng f).bind = s.bind := rfl
@[simp] theorem State.onIng_bus (f : Ingest → Ingest) : (s.onIng f).bus = s.bus := rfl
@[simp] theorem State.onIng_mbx (f : Ingest → Ingest) : (s.onIng f).mbx = s.mbx := rfl
@[simp] theorem State.onIng_spad (f : Ingest → Ingest) : (s.onIng f).spad = s.spad := rfl
@[simp] theorem State.onIng_dma (f : Ingest → Ingest) : (s.onIng f).dma = s.dma := rfl
@[simp] theorem State.onIng_acts (f : Ingest → Ingest) : (s.onIng f).acts = s.acts := rfl
@[simp] theorem State.onIng_engs (f : Ingest → Ingest) : (s.onIng f).engs = s.engs := rfl
@[simp] theorem State.onIng_leaf (f : Ingest → Ingest) : (s.onIng f).leaf = s.leaf := rfl
@[simp] theorem State.onIng_codec (f : Ingest → Ingest) : (s.onIng f).codec = s.codec := rfl
@[simp] theorem State.onIng_ing (f : Ingest → Ingest) : (s.onIng f).ing = f s.ing := rfl
@[simp] theorem State.onIng_ring (f : Ingest → Ingest) : (s.onIng f).ring = s.ring := rfl
@[simp] theorem State.onIng_host (f : Ingest → Ingest) : (s.onIng f).host = s.host := rfl
@[simp] theorem State.onIng_ksi (f : Ingest → Ingest) : (s.onIng f).ksi = s.ksi := rfl
@[simp] theorem State.onIng_gddr (f : Ingest → Ingest) : (s.onIng f).gddr = s.gddr := rfl
@[simp] theorem State.onIng_cnt (f : Ingest → Ingest) : (s.onIng f).cnt = s.cnt := rfl
@[simp] theorem State.onIng_cons (f : Ingest → Ingest) : (s.onIng f).cons = s.cons := rfl
@[simp] theorem State.onIng_chk (f : Ingest → Ingest) : (s.onIng f).chk = s.chk := rfl
@[simp] theorem State.onIng_pwr (f : Ingest → Ingest) : (s.onIng f).pwr = s.pwr := rfl
@[simp] theorem State.onIng_pair (f : Ingest → Ingest) : (s.onIng f).pair = s.pair := rfl
@[simp] theorem State.onIng_start (f : Ingest → Ingest) : (s.onIng f).start = s.start := rfl
@[simp] theorem State.onIng_img (f : Ingest → Ingest) : (s.onIng f).img = s.img := rfl
@[simp] theorem State.onIng_keep (f : Ingest → Ingest) : (s.onIng f).keep = s.keep := rfl
@[simp] theorem State.onIng_sent (f : Ingest → Ingest) : (s.onIng f).sent = s.sent := rfl
@[simp] theorem State.onIng_pending (f : Ingest → Ingest) : (s.onIng f).pending = s.pending := rfl
@[simp] theorem State.onIng_freeCount (f : Ingest → Ingest) : (s.onIng f).freeCount = s.freeCount := rfl

@[simp] theorem State.onRing_tb (f : Ring → Ring) : (s.onRing f).tb = s.tb := rfl
@[simp] theorem State.onRing_tick (f : Ring → Ring) : (s.onRing f).tick = s.tick := rfl
@[simp] theorem State.onRing_bind (f : Ring → Ring) : (s.onRing f).bind = s.bind := rfl
@[simp] theorem State.onRing_bus (f : Ring → Ring) : (s.onRing f).bus = s.bus := rfl
@[simp] theorem State.onRing_mbx (f : Ring → Ring) : (s.onRing f).mbx = s.mbx := rfl
@[simp] theorem State.onRing_spad (f : Ring → Ring) : (s.onRing f).spad = s.spad := rfl
@[simp] theorem State.onRing_dma (f : Ring → Ring) : (s.onRing f).dma = s.dma := rfl
@[simp] theorem State.onRing_acts (f : Ring → Ring) : (s.onRing f).acts = s.acts := rfl
@[simp] theorem State.onRing_engs (f : Ring → Ring) : (s.onRing f).engs = s.engs := rfl
@[simp] theorem State.onRing_leaf (f : Ring → Ring) : (s.onRing f).leaf = s.leaf := rfl
@[simp] theorem State.onRing_codec (f : Ring → Ring) : (s.onRing f).codec = s.codec := rfl
@[simp] theorem State.onRing_ing (f : Ring → Ring) : (s.onRing f).ing = s.ing := rfl
@[simp] theorem State.onRing_ring (f : Ring → Ring) : (s.onRing f).ring = f s.ring := rfl
@[simp] theorem State.onRing_host (f : Ring → Ring) : (s.onRing f).host = s.host := rfl
@[simp] theorem State.onRing_ksi (f : Ring → Ring) : (s.onRing f).ksi = s.ksi := rfl
@[simp] theorem State.onRing_gddr (f : Ring → Ring) : (s.onRing f).gddr = s.gddr := rfl
@[simp] theorem State.onRing_cnt (f : Ring → Ring) : (s.onRing f).cnt = s.cnt := rfl
@[simp] theorem State.onRing_cons (f : Ring → Ring) : (s.onRing f).cons = s.cons := rfl
@[simp] theorem State.onRing_chk (f : Ring → Ring) : (s.onRing f).chk = s.chk := rfl
@[simp] theorem State.onRing_pwr (f : Ring → Ring) : (s.onRing f).pwr = s.pwr := rfl
@[simp] theorem State.onRing_pair (f : Ring → Ring) : (s.onRing f).pair = s.pair := rfl
@[simp] theorem State.onRing_start (f : Ring → Ring) : (s.onRing f).start = s.start := rfl
@[simp] theorem State.onRing_img (f : Ring → Ring) : (s.onRing f).img = s.img := rfl
@[simp] theorem State.onRing_keep (f : Ring → Ring) : (s.onRing f).keep = s.keep := rfl
@[simp] theorem State.onRing_sent (f : Ring → Ring) : (s.onRing f).sent = s.sent := rfl
@[simp] theorem State.onRing_pending (f : Ring → Ring) : (s.onRing f).pending = s.pending := rfl
@[simp] theorem State.onRing_freeCount (f : Ring → Ring) : (s.onRing f).freeCount = s.freeCount := rfl

@[simp] theorem State.onHost_tb (f : HostIf → HostIf) : (s.onHost f).tb = s.tb := rfl
@[simp] theorem State.onHost_tick (f : HostIf → HostIf) : (s.onHost f).tick = s.tick := rfl
@[simp] theorem State.onHost_bind (f : HostIf → HostIf) : (s.onHost f).bind = s.bind := rfl
@[simp] theorem State.onHost_bus (f : HostIf → HostIf) : (s.onHost f).bus = s.bus := rfl
@[simp] theorem State.onHost_mbx (f : HostIf → HostIf) : (s.onHost f).mbx = s.mbx := rfl
@[simp] theorem State.onHost_spad (f : HostIf → HostIf) : (s.onHost f).spad = s.spad := rfl
@[simp] theorem State.onHost_dma (f : HostIf → HostIf) : (s.onHost f).dma = s.dma := rfl
@[simp] theorem State.onHost_acts (f : HostIf → HostIf) : (s.onHost f).acts = s.acts := rfl
@[simp] theorem State.onHost_engs (f : HostIf → HostIf) : (s.onHost f).engs = s.engs := rfl
@[simp] theorem State.onHost_leaf (f : HostIf → HostIf) : (s.onHost f).leaf = s.leaf := rfl
@[simp] theorem State.onHost_codec (f : HostIf → HostIf) : (s.onHost f).codec = s.codec := rfl
@[simp] theorem State.onHost_ing (f : HostIf → HostIf) : (s.onHost f).ing = s.ing := rfl
@[simp] theorem State.onHost_ring (f : HostIf → HostIf) : (s.onHost f).ring = s.ring := rfl
@[simp] theorem State.onHost_host (f : HostIf → HostIf) : (s.onHost f).host = f s.host := rfl
@[simp] theorem State.onHost_ksi (f : HostIf → HostIf) : (s.onHost f).ksi = s.ksi := rfl
@[simp] theorem State.onHost_gddr (f : HostIf → HostIf) : (s.onHost f).gddr = s.gddr := rfl
@[simp] theorem State.onHost_cnt (f : HostIf → HostIf) : (s.onHost f).cnt = s.cnt := rfl
@[simp] theorem State.onHost_cons (f : HostIf → HostIf) : (s.onHost f).cons = s.cons := rfl
@[simp] theorem State.onHost_chk (f : HostIf → HostIf) : (s.onHost f).chk = s.chk := rfl
@[simp] theorem State.onHost_pwr (f : HostIf → HostIf) : (s.onHost f).pwr = s.pwr := rfl
@[simp] theorem State.onHost_pair (f : HostIf → HostIf) : (s.onHost f).pair = s.pair := rfl
@[simp] theorem State.onHost_start (f : HostIf → HostIf) : (s.onHost f).start = s.start := rfl
@[simp] theorem State.onHost_img (f : HostIf → HostIf) : (s.onHost f).img = s.img := rfl
@[simp] theorem State.onHost_keep (f : HostIf → HostIf) : (s.onHost f).keep = s.keep := rfl
@[simp] theorem State.onHost_sent (f : HostIf → HostIf) : (s.onHost f).sent = s.sent := rfl
@[simp] theorem State.onHost_pending (f : HostIf → HostIf) : (s.onHost f).pending = s.pending := rfl
@[simp] theorem State.onHost_freeCount (f : HostIf → HostIf) : (s.onHost f).freeCount = s.freeCount := rfl

@[simp] theorem State.onKsi_tb (f : Ksi → Ksi) : (s.onKsi f).tb = s.tb := rfl
@[simp] theorem State.onKsi_tick (f : Ksi → Ksi) : (s.onKsi f).tick = s.tick := rfl
@[simp] theorem State.onKsi_bind (f : Ksi → Ksi) : (s.onKsi f).bind = s.bind := rfl
@[simp] theorem State.onKsi_bus (f : Ksi → Ksi) : (s.onKsi f).bus = s.bus := rfl
@[simp] theorem State.onKsi_mbx (f : Ksi → Ksi) : (s.onKsi f).mbx = s.mbx := rfl
@[simp] theorem State.onKsi_spad (f : Ksi → Ksi) : (s.onKsi f).spad = s.spad := rfl
@[simp] theorem State.onKsi_dma (f : Ksi → Ksi) : (s.onKsi f).dma = s.dma := rfl
@[simp] theorem State.onKsi_acts (f : Ksi → Ksi) : (s.onKsi f).acts = s.acts := rfl
@[simp] theorem State.onKsi_engs (f : Ksi → Ksi) : (s.onKsi f).engs = s.engs := rfl
@[simp] theorem State.onKsi_leaf (f : Ksi → Ksi) : (s.onKsi f).leaf = s.leaf := rfl
@[simp] theorem State.onKsi_codec (f : Ksi → Ksi) : (s.onKsi f).codec = s.codec := rfl
@[simp] theorem State.onKsi_ing (f : Ksi → Ksi) : (s.onKsi f).ing = s.ing := rfl
@[simp] theorem State.onKsi_ring (f : Ksi → Ksi) : (s.onKsi f).ring = s.ring := rfl
@[simp] theorem State.onKsi_host (f : Ksi → Ksi) : (s.onKsi f).host = s.host := rfl
@[simp] theorem State.onKsi_ksi (f : Ksi → Ksi) : (s.onKsi f).ksi = f s.ksi := rfl
@[simp] theorem State.onKsi_gddr (f : Ksi → Ksi) : (s.onKsi f).gddr = s.gddr := rfl
@[simp] theorem State.onKsi_cnt (f : Ksi → Ksi) : (s.onKsi f).cnt = s.cnt := rfl
@[simp] theorem State.onKsi_cons (f : Ksi → Ksi) : (s.onKsi f).cons = s.cons := rfl
@[simp] theorem State.onKsi_chk (f : Ksi → Ksi) : (s.onKsi f).chk = s.chk := rfl
@[simp] theorem State.onKsi_pwr (f : Ksi → Ksi) : (s.onKsi f).pwr = s.pwr := rfl
@[simp] theorem State.onKsi_pair (f : Ksi → Ksi) : (s.onKsi f).pair = s.pair := rfl
@[simp] theorem State.onKsi_start (f : Ksi → Ksi) : (s.onKsi f).start = s.start := rfl
@[simp] theorem State.onKsi_img (f : Ksi → Ksi) : (s.onKsi f).img = s.img := rfl
@[simp] theorem State.onKsi_keep (f : Ksi → Ksi) : (s.onKsi f).keep = s.keep := rfl
@[simp] theorem State.onKsi_sent (f : Ksi → Ksi) : (s.onKsi f).sent = s.sent := rfl
@[simp] theorem State.onKsi_pending (f : Ksi → Ksi) : (s.onKsi f).pending = s.pending := rfl
@[simp] theorem State.onKsi_freeCount (f : Ksi → Ksi) : (s.onKsi f).freeCount = s.freeCount := rfl

@[simp] theorem State.onGddr_tb (f : Gddr → Gddr) : (s.onGddr f).tb = s.tb := rfl
@[simp] theorem State.onGddr_tick (f : Gddr → Gddr) : (s.onGddr f).tick = s.tick := rfl
@[simp] theorem State.onGddr_bind (f : Gddr → Gddr) : (s.onGddr f).bind = s.bind := rfl
@[simp] theorem State.onGddr_bus (f : Gddr → Gddr) : (s.onGddr f).bus = s.bus := rfl
@[simp] theorem State.onGddr_mbx (f : Gddr → Gddr) : (s.onGddr f).mbx = s.mbx := rfl
@[simp] theorem State.onGddr_spad (f : Gddr → Gddr) : (s.onGddr f).spad = s.spad := rfl
@[simp] theorem State.onGddr_dma (f : Gddr → Gddr) : (s.onGddr f).dma = s.dma := rfl
@[simp] theorem State.onGddr_acts (f : Gddr → Gddr) : (s.onGddr f).acts = s.acts := rfl
@[simp] theorem State.onGddr_engs (f : Gddr → Gddr) : (s.onGddr f).engs = s.engs := rfl
@[simp] theorem State.onGddr_leaf (f : Gddr → Gddr) : (s.onGddr f).leaf = s.leaf := rfl
@[simp] theorem State.onGddr_codec (f : Gddr → Gddr) : (s.onGddr f).codec = s.codec := rfl
@[simp] theorem State.onGddr_ing (f : Gddr → Gddr) : (s.onGddr f).ing = s.ing := rfl
@[simp] theorem State.onGddr_ring (f : Gddr → Gddr) : (s.onGddr f).ring = s.ring := rfl
@[simp] theorem State.onGddr_host (f : Gddr → Gddr) : (s.onGddr f).host = s.host := rfl
@[simp] theorem State.onGddr_ksi (f : Gddr → Gddr) : (s.onGddr f).ksi = s.ksi := rfl
@[simp] theorem State.onGddr_gddr (f : Gddr → Gddr) : (s.onGddr f).gddr = f s.gddr := rfl
@[simp] theorem State.onGddr_cnt (f : Gddr → Gddr) : (s.onGddr f).cnt = s.cnt := rfl
@[simp] theorem State.onGddr_cons (f : Gddr → Gddr) : (s.onGddr f).cons = s.cons := rfl
@[simp] theorem State.onGddr_chk (f : Gddr → Gddr) : (s.onGddr f).chk = s.chk := rfl
@[simp] theorem State.onGddr_pwr (f : Gddr → Gddr) : (s.onGddr f).pwr = s.pwr := rfl
@[simp] theorem State.onGddr_pair (f : Gddr → Gddr) : (s.onGddr f).pair = s.pair := rfl
@[simp] theorem State.onGddr_start (f : Gddr → Gddr) : (s.onGddr f).start = s.start := rfl
@[simp] theorem State.onGddr_img (f : Gddr → Gddr) : (s.onGddr f).img = s.img := rfl
@[simp] theorem State.onGddr_keep (f : Gddr → Gddr) : (s.onGddr f).keep = s.keep := rfl
@[simp] theorem State.onGddr_sent (f : Gddr → Gddr) : (s.onGddr f).sent = s.sent := rfl
@[simp] theorem State.onGddr_pending (f : Gddr → Gddr) : (s.onGddr f).pending = s.pending := rfl
@[simp] theorem State.onGddr_freeCount (f : Gddr → Gddr) : (s.onGddr f).freeCount = s.freeCount := rfl

@[simp] theorem State.onCnt_tb (f : (Tab Counter) → (Tab Counter)) : (s.onCnt f).tb = s.tb := rfl
@[simp] theorem State.onCnt_tick (f : (Tab Counter) → (Tab Counter)) : (s.onCnt f).tick = s.tick := rfl
@[simp] theorem State.onCnt_bind (f : (Tab Counter) → (Tab Counter)) : (s.onCnt f).bind = s.bind := rfl
@[simp] theorem State.onCnt_bus (f : (Tab Counter) → (Tab Counter)) : (s.onCnt f).bus = s.bus := rfl
@[simp] theorem State.onCnt_mbx (f : (Tab Counter) → (Tab Counter)) : (s.onCnt f).mbx = s.mbx := rfl
@[simp] theorem State.onCnt_spad (f : (Tab Counter) → (Tab Counter)) : (s.onCnt f).spad = s.spad := rfl
@[simp] theorem State.onCnt_dma (f : (Tab Counter) → (Tab Counter)) : (s.onCnt f).dma = s.dma := rfl
@[simp] theorem State.onCnt_acts (f : (Tab Counter) → (Tab Counter)) : (s.onCnt f).acts = s.acts := rfl
@[simp] theorem State.onCnt_engs (f : (Tab Counter) → (Tab Counter)) : (s.onCnt f).engs = s.engs := rfl
@[simp] theorem State.onCnt_leaf (f : (Tab Counter) → (Tab Counter)) : (s.onCnt f).leaf = s.leaf := rfl
@[simp] theorem State.onCnt_codec (f : (Tab Counter) → (Tab Counter)) : (s.onCnt f).codec = s.codec := rfl
@[simp] theorem State.onCnt_ing (f : (Tab Counter) → (Tab Counter)) : (s.onCnt f).ing = s.ing := rfl
@[simp] theorem State.onCnt_ring (f : (Tab Counter) → (Tab Counter)) : (s.onCnt f).ring = s.ring := rfl
@[simp] theorem State.onCnt_host (f : (Tab Counter) → (Tab Counter)) : (s.onCnt f).host = s.host := rfl
@[simp] theorem State.onCnt_ksi (f : (Tab Counter) → (Tab Counter)) : (s.onCnt f).ksi = s.ksi := rfl
@[simp] theorem State.onCnt_gddr (f : (Tab Counter) → (Tab Counter)) : (s.onCnt f).gddr = s.gddr := rfl
@[simp] theorem State.onCnt_cnt (f : (Tab Counter) → (Tab Counter)) : (s.onCnt f).cnt = f s.cnt := rfl
@[simp] theorem State.onCnt_cons (f : (Tab Counter) → (Tab Counter)) : (s.onCnt f).cons = s.cons := rfl
@[simp] theorem State.onCnt_chk (f : (Tab Counter) → (Tab Counter)) : (s.onCnt f).chk = s.chk := rfl
@[simp] theorem State.onCnt_pwr (f : (Tab Counter) → (Tab Counter)) : (s.onCnt f).pwr = s.pwr := rfl
@[simp] theorem State.onCnt_pair (f : (Tab Counter) → (Tab Counter)) : (s.onCnt f).pair = s.pair := rfl
@[simp] theorem State.onCnt_start (f : (Tab Counter) → (Tab Counter)) : (s.onCnt f).start = s.start := rfl
@[simp] theorem State.onCnt_img (f : (Tab Counter) → (Tab Counter)) : (s.onCnt f).img = s.img := rfl
@[simp] theorem State.onCnt_keep (f : (Tab Counter) → (Tab Counter)) : (s.onCnt f).keep = s.keep := rfl
@[simp] theorem State.onCnt_sent (f : (Tab Counter) → (Tab Counter)) : (s.onCnt f).sent = s.sent := rfl
@[simp] theorem State.onCnt_pending (f : (Tab Counter) → (Tab Counter)) : (s.onCnt f).pending = s.pending := rfl
@[simp] theorem State.onCnt_freeCount (f : (Tab Counter) → (Tab Counter)) : (s.onCnt f).freeCount = s.freeCount := rfl

@[simp] theorem State.onCons_tb (f : Cons → Cons) : (s.onCons f).tb = s.tb := rfl
@[simp] theorem State.onCons_tick (f : Cons → Cons) : (s.onCons f).tick = s.tick := rfl
@[simp] theorem State.onCons_bind (f : Cons → Cons) : (s.onCons f).bind = s.bind := rfl
@[simp] theorem State.onCons_bus (f : Cons → Cons) : (s.onCons f).bus = s.bus := rfl
@[simp] theorem State.onCons_mbx (f : Cons → Cons) : (s.onCons f).mbx = s.mbx := rfl
@[simp] theorem State.onCons_spad (f : Cons → Cons) : (s.onCons f).spad = s.spad := rfl
@[simp] theorem State.onCons_dma (f : Cons → Cons) : (s.onCons f).dma = s.dma := rfl
@[simp] theorem State.onCons_acts (f : Cons → Cons) : (s.onCons f).acts = s.acts := rfl
@[simp] theorem State.onCons_engs (f : Cons → Cons) : (s.onCons f).engs = s.engs := rfl
@[simp] theorem State.onCons_leaf (f : Cons → Cons) : (s.onCons f).leaf = s.leaf := rfl
@[simp] theorem State.onCons_codec (f : Cons → Cons) : (s.onCons f).codec = s.codec := rfl
@[simp] theorem State.onCons_ing (f : Cons → Cons) : (s.onCons f).ing = s.ing := rfl
@[simp] theorem State.onCons_ring (f : Cons → Cons) : (s.onCons f).ring = s.ring := rfl
@[simp] theorem State.onCons_host (f : Cons → Cons) : (s.onCons f).host = s.host := rfl
@[simp] theorem State.onCons_ksi (f : Cons → Cons) : (s.onCons f).ksi = s.ksi := rfl
@[simp] theorem State.onCons_gddr (f : Cons → Cons) : (s.onCons f).gddr = s.gddr := rfl
@[simp] theorem State.onCons_cnt (f : Cons → Cons) : (s.onCons f).cnt = s.cnt := rfl
@[simp] theorem State.onCons_cons (f : Cons → Cons) : (s.onCons f).cons = f s.cons := rfl
@[simp] theorem State.onCons_chk (f : Cons → Cons) : (s.onCons f).chk = s.chk := rfl
@[simp] theorem State.onCons_pwr (f : Cons → Cons) : (s.onCons f).pwr = s.pwr := rfl
@[simp] theorem State.onCons_pair (f : Cons → Cons) : (s.onCons f).pair = s.pair := rfl
@[simp] theorem State.onCons_start (f : Cons → Cons) : (s.onCons f).start = s.start := rfl
@[simp] theorem State.onCons_img (f : Cons → Cons) : (s.onCons f).img = s.img := rfl
@[simp] theorem State.onCons_keep (f : Cons → Cons) : (s.onCons f).keep = s.keep := rfl
@[simp] theorem State.onCons_sent (f : Cons → Cons) : (s.onCons f).sent = s.sent := rfl
@[simp] theorem State.onCons_pending (f : Cons → Cons) : (s.onCons f).pending = s.pending := rfl
@[simp] theorem State.onCons_freeCount (f : Cons → Cons) : (s.onCons f).freeCount = s.freeCount := rfl

@[simp] theorem State.onChk_tb (f : Check → Check) : (s.onChk f).tb = s.tb := rfl
@[simp] theorem State.onChk_tick (f : Check → Check) : (s.onChk f).tick = s.tick := rfl
@[simp] theorem State.onChk_bind (f : Check → Check) : (s.onChk f).bind = s.bind := rfl
@[simp] theorem State.onChk_bus (f : Check → Check) : (s.onChk f).bus = s.bus := rfl
@[simp] theorem State.onChk_mbx (f : Check → Check) : (s.onChk f).mbx = s.mbx := rfl
@[simp] theorem State.onChk_spad (f : Check → Check) : (s.onChk f).spad = s.spad := rfl
@[simp] theorem State.onChk_dma (f : Check → Check) : (s.onChk f).dma = s.dma := rfl
@[simp] theorem State.onChk_acts (f : Check → Check) : (s.onChk f).acts = s.acts := rfl
@[simp] theorem State.onChk_engs (f : Check → Check) : (s.onChk f).engs = s.engs := rfl
@[simp] theorem State.onChk_leaf (f : Check → Check) : (s.onChk f).leaf = s.leaf := rfl
@[simp] theorem State.onChk_codec (f : Check → Check) : (s.onChk f).codec = s.codec := rfl
@[simp] theorem State.onChk_ing (f : Check → Check) : (s.onChk f).ing = s.ing := rfl
@[simp] theorem State.onChk_ring (f : Check → Check) : (s.onChk f).ring = s.ring := rfl
@[simp] theorem State.onChk_host (f : Check → Check) : (s.onChk f).host = s.host := rfl
@[simp] theorem State.onChk_ksi (f : Check → Check) : (s.onChk f).ksi = s.ksi := rfl
@[simp] theorem State.onChk_gddr (f : Check → Check) : (s.onChk f).gddr = s.gddr := rfl
@[simp] theorem State.onChk_cnt (f : Check → Check) : (s.onChk f).cnt = s.cnt := rfl
@[simp] theorem State.onChk_cons (f : Check → Check) : (s.onChk f).cons = s.cons := rfl
@[simp] theorem State.onChk_chk (f : Check → Check) : (s.onChk f).chk = f s.chk := rfl
@[simp] theorem State.onChk_pwr (f : Check → Check) : (s.onChk f).pwr = s.pwr := rfl
@[simp] theorem State.onChk_pair (f : Check → Check) : (s.onChk f).pair = s.pair := rfl
@[simp] theorem State.onChk_start (f : Check → Check) : (s.onChk f).start = s.start := rfl
@[simp] theorem State.onChk_img (f : Check → Check) : (s.onChk f).img = s.img := rfl
@[simp] theorem State.onChk_keep (f : Check → Check) : (s.onChk f).keep = s.keep := rfl
@[simp] theorem State.onChk_sent (f : Check → Check) : (s.onChk f).sent = s.sent := rfl
@[simp] theorem State.onChk_pending (f : Check → Check) : (s.onChk f).pending = s.pending := rfl
@[simp] theorem State.onChk_freeCount (f : Check → Check) : (s.onChk f).freeCount = s.freeCount := rfl

@[simp] theorem State.onPwr_tb (f : Power → Power) : (s.onPwr f).tb = s.tb := rfl
@[simp] theorem State.onPwr_tick (f : Power → Power) : (s.onPwr f).tick = s.tick := rfl
@[simp] theorem State.onPwr_bind (f : Power → Power) : (s.onPwr f).bind = s.bind := rfl
@[simp] theorem State.onPwr_bus (f : Power → Power) : (s.onPwr f).bus = s.bus := rfl
@[simp] theorem State.onPwr_mbx (f : Power → Power) : (s.onPwr f).mbx = s.mbx := rfl
@[simp] theorem State.onPwr_spad (f : Power → Power) : (s.onPwr f).spad = s.spad := rfl
@[simp] theorem State.onPwr_dma (f : Power → Power) : (s.onPwr f).dma = s.dma := rfl
@[simp] theorem State.onPwr_acts (f : Power → Power) : (s.onPwr f).acts = s.acts := rfl
@[simp] theorem State.onPwr_engs (f : Power → Power) : (s.onPwr f).engs = s.engs := rfl
@[simp] theorem State.onPwr_leaf (f : Power → Power) : (s.onPwr f).leaf = s.leaf := rfl
@[simp] theorem State.onPwr_codec (f : Power → Power) : (s.onPwr f).codec = s.codec := rfl
@[simp] theorem State.onPwr_ing (f : Power → Power) : (s.onPwr f).ing = s.ing := rfl
@[simp] theorem State.onPwr_ring (f : Power → Power) : (s.onPwr f).ring = s.ring := rfl
@[simp] theorem State.onPwr_host (f : Power → Power) : (s.onPwr f).host = s.host := rfl
@[simp] theorem State.onPwr_ksi (f : Power → Power) : (s.onPwr f).ksi = s.ksi := rfl
@[simp] theorem State.onPwr_gddr (f : Power → Power) : (s.onPwr f).gddr = s.gddr := rfl
@[simp] theorem State.onPwr_cnt (f : Power → Power) : (s.onPwr f).cnt = s.cnt := rfl
@[simp] theorem State.onPwr_cons (f : Power → Power) : (s.onPwr f).cons = s.cons := rfl
@[simp] theorem State.onPwr_chk (f : Power → Power) : (s.onPwr f).chk = s.chk := rfl
@[simp] theorem State.onPwr_pwr (f : Power → Power) : (s.onPwr f).pwr = f s.pwr := rfl
@[simp] theorem State.onPwr_pair (f : Power → Power) : (s.onPwr f).pair = s.pair := rfl
@[simp] theorem State.onPwr_start (f : Power → Power) : (s.onPwr f).start = s.start := rfl
@[simp] theorem State.onPwr_img (f : Power → Power) : (s.onPwr f).img = s.img := rfl
@[simp] theorem State.onPwr_keep (f : Power → Power) : (s.onPwr f).keep = s.keep := rfl
@[simp] theorem State.onPwr_sent (f : Power → Power) : (s.onPwr f).sent = s.sent := rfl
@[simp] theorem State.onPwr_pending (f : Power → Power) : (s.onPwr f).pending = s.pending := rfl
@[simp] theorem State.onPwr_freeCount (f : Power → Power) : (s.onPwr f).freeCount = s.freeCount := rfl

@[simp] theorem State.onPair_tb (f : Pair → Pair) : (s.onPair f).tb = s.tb := rfl
@[simp] theorem State.onPair_tick (f : Pair → Pair) : (s.onPair f).tick = s.tick := rfl
@[simp] theorem State.onPair_bind (f : Pair → Pair) : (s.onPair f).bind = s.bind := rfl
@[simp] theorem State.onPair_bus (f : Pair → Pair) : (s.onPair f).bus = s.bus := rfl
@[simp] theorem State.onPair_mbx (f : Pair → Pair) : (s.onPair f).mbx = s.mbx := rfl
@[simp] theorem State.onPair_spad (f : Pair → Pair) : (s.onPair f).spad = s.spad := rfl
@[simp] theorem State.onPair_dma (f : Pair → Pair) : (s.onPair f).dma = s.dma := rfl
@[simp] theorem State.onPair_acts (f : Pair → Pair) : (s.onPair f).acts = s.acts := rfl
@[simp] theorem State.onPair_engs (f : Pair → Pair) : (s.onPair f).engs = s.engs := rfl
@[simp] theorem State.onPair_leaf (f : Pair → Pair) : (s.onPair f).leaf = s.leaf := rfl
@[simp] theorem State.onPair_codec (f : Pair → Pair) : (s.onPair f).codec = s.codec := rfl
@[simp] theorem State.onPair_ing (f : Pair → Pair) : (s.onPair f).ing = s.ing := rfl
@[simp] theorem State.onPair_ring (f : Pair → Pair) : (s.onPair f).ring = s.ring := rfl
@[simp] theorem State.onPair_host (f : Pair → Pair) : (s.onPair f).host = s.host := rfl
@[simp] theorem State.onPair_ksi (f : Pair → Pair) : (s.onPair f).ksi = s.ksi := rfl
@[simp] theorem State.onPair_gddr (f : Pair → Pair) : (s.onPair f).gddr = s.gddr := rfl
@[simp] theorem State.onPair_cnt (f : Pair → Pair) : (s.onPair f).cnt = s.cnt := rfl
@[simp] theorem State.onPair_cons (f : Pair → Pair) : (s.onPair f).cons = s.cons := rfl
@[simp] theorem State.onPair_chk (f : Pair → Pair) : (s.onPair f).chk = s.chk := rfl
@[simp] theorem State.onPair_pwr (f : Pair → Pair) : (s.onPair f).pwr = s.pwr := rfl
@[simp] theorem State.onPair_pair (f : Pair → Pair) : (s.onPair f).pair = f s.pair := rfl
@[simp] theorem State.onPair_start (f : Pair → Pair) : (s.onPair f).start = s.start := rfl
@[simp] theorem State.onPair_img (f : Pair → Pair) : (s.onPair f).img = s.img := rfl
@[simp] theorem State.onPair_keep (f : Pair → Pair) : (s.onPair f).keep = s.keep := rfl
@[simp] theorem State.onPair_sent (f : Pair → Pair) : (s.onPair f).sent = s.sent := rfl
@[simp] theorem State.onPair_pending (f : Pair → Pair) : (s.onPair f).pending = s.pending := rfl
@[simp] theorem State.onPair_freeCount (f : Pair → Pair) : (s.onPair f).freeCount = s.freeCount := rfl

@[simp] theorem State.onStart_tb (f : Start → Start) : (s.onStart f).tb = s.tb := rfl
@[simp] theorem State.onStart_tick (f : Start → Start) : (s.onStart f).tick = s.tick := rfl
@[simp] theorem State.onStart_bind (f : Start → Start) : (s.onStart f).bind = s.bind := rfl
@[simp] theorem State.onStart_bus (f : Start → Start) : (s.onStart f).bus = s.bus := rfl
@[simp] theorem State.onStart_mbx (f : Start → Start) : (s.onStart f).mbx = s.mbx := rfl
@[simp] theorem State.onStart_spad (f : Start → Start) : (s.onStart f).spad = s.spad := rfl
@[simp] theorem State.onStart_dma (f : Start → Start) : (s.onStart f).dma = s.dma := rfl
@[simp] theorem State.onStart_acts (f : Start → Start) : (s.onStart f).acts = s.acts := rfl
@[simp] theorem State.onStart_engs (f : Start → Start) : (s.onStart f).engs = s.engs := rfl
@[simp] theorem State.onStart_leaf (f : Start → Start) : (s.onStart f).leaf = s.leaf := rfl
@[simp] theorem State.onStart_codec (f : Start → Start) : (s.onStart f).codec = s.codec := rfl
@[simp] theorem State.onStart_ing (f : Start → Start) : (s.onStart f).ing = s.ing := rfl
@[simp] theorem State.onStart_ring (f : Start → Start) : (s.onStart f).ring = s.ring := rfl
@[simp] theorem State.onStart_host (f : Start → Start) : (s.onStart f).host = s.host := rfl
@[simp] theorem State.onStart_ksi (f : Start → Start) : (s.onStart f).ksi = s.ksi := rfl
@[simp] theorem State.onStart_gddr (f : Start → Start) : (s.onStart f).gddr = s.gddr := rfl
@[simp] theorem State.onStart_cnt (f : Start → Start) : (s.onStart f).cnt = s.cnt := rfl
@[simp] theorem State.onStart_cons (f : Start → Start) : (s.onStart f).cons = s.cons := rfl
@[simp] theorem State.onStart_chk (f : Start → Start) : (s.onStart f).chk = s.chk := rfl
@[simp] theorem State.onStart_pwr (f : Start → Start) : (s.onStart f).pwr = s.pwr := rfl
@[simp] theorem State.onStart_pair (f : Start → Start) : (s.onStart f).pair = s.pair := rfl
@[simp] theorem State.onStart_start (f : Start → Start) : (s.onStart f).start = f s.start := rfl
@[simp] theorem State.onStart_img (f : Start → Start) : (s.onStart f).img = s.img := rfl
@[simp] theorem State.onStart_keep (f : Start → Start) : (s.onStart f).keep = s.keep := rfl
@[simp] theorem State.onStart_sent (f : Start → Start) : (s.onStart f).sent = s.sent := rfl
@[simp] theorem State.onStart_pending (f : Start → Start) : (s.onStart f).pending = s.pending := rfl
@[simp] theorem State.onStart_freeCount (f : Start → Start) : (s.onStart f).freeCount = s.freeCount := rfl

@[simp] theorem State.onImg_tb (f : Image → Image) : (s.onImg f).tb = s.tb := rfl
@[simp] theorem State.onImg_tick (f : Image → Image) : (s.onImg f).tick = s.tick := rfl
@[simp] theorem State.onImg_bind (f : Image → Image) : (s.onImg f).bind = s.bind := rfl
@[simp] theorem State.onImg_bus (f : Image → Image) : (s.onImg f).bus = s.bus := rfl
@[simp] theorem State.onImg_mbx (f : Image → Image) : (s.onImg f).mbx = s.mbx := rfl
@[simp] theorem State.onImg_spad (f : Image → Image) : (s.onImg f).spad = s.spad := rfl
@[simp] theorem State.onImg_dma (f : Image → Image) : (s.onImg f).dma = s.dma := rfl
@[simp] theorem State.onImg_acts (f : Image → Image) : (s.onImg f).acts = s.acts := rfl
@[simp] theorem State.onImg_engs (f : Image → Image) : (s.onImg f).engs = s.engs := rfl
@[simp] theorem State.onImg_leaf (f : Image → Image) : (s.onImg f).leaf = s.leaf := rfl
@[simp] theorem State.onImg_codec (f : Image → Image) : (s.onImg f).codec = s.codec := rfl
@[simp] theorem State.onImg_ing (f : Image → Image) : (s.onImg f).ing = s.ing := rfl
@[simp] theorem State.onImg_ring (f : Image → Image) : (s.onImg f).ring = s.ring := rfl
@[simp] theorem State.onImg_host (f : Image → Image) : (s.onImg f).host = s.host := rfl
@[simp] theorem State.onImg_ksi (f : Image → Image) : (s.onImg f).ksi = s.ksi := rfl
@[simp] theorem State.onImg_gddr (f : Image → Image) : (s.onImg f).gddr = s.gddr := rfl
@[simp] theorem State.onImg_cnt (f : Image → Image) : (s.onImg f).cnt = s.cnt := rfl
@[simp] theorem State.onImg_cons (f : Image → Image) : (s.onImg f).cons = s.cons := rfl
@[simp] theorem State.onImg_chk (f : Image → Image) : (s.onImg f).chk = s.chk := rfl
@[simp] theorem State.onImg_pwr (f : Image → Image) : (s.onImg f).pwr = s.pwr := rfl
@[simp] theorem State.onImg_pair (f : Image → Image) : (s.onImg f).pair = s.pair := rfl
@[simp] theorem State.onImg_start (f : Image → Image) : (s.onImg f).start = s.start := rfl
@[simp] theorem State.onImg_img (f : Image → Image) : (s.onImg f).img = f s.img := rfl
@[simp] theorem State.onImg_keep (f : Image → Image) : (s.onImg f).keep = s.keep := rfl
@[simp] theorem State.onImg_sent (f : Image → Image) : (s.onImg f).sent = s.sent := rfl
@[simp] theorem State.onImg_pending (f : Image → Image) : (s.onImg f).pending = s.pending := rfl
@[simp] theorem State.onImg_freeCount (f : Image → Image) : (s.onImg f).freeCount = s.freeCount := rfl

@[simp] theorem State.onKeep_tb (f : Persist → Persist) : (s.onKeep f).tb = s.tb := rfl
@[simp] theorem State.onKeep_tick (f : Persist → Persist) : (s.onKeep f).tick = s.tick := rfl
@[simp] theorem State.onKeep_bind (f : Persist → Persist) : (s.onKeep f).bind = s.bind := rfl
@[simp] theorem State.onKeep_bus (f : Persist → Persist) : (s.onKeep f).bus = s.bus := rfl
@[simp] theorem State.onKeep_mbx (f : Persist → Persist) : (s.onKeep f).mbx = s.mbx := rfl
@[simp] theorem State.onKeep_spad (f : Persist → Persist) : (s.onKeep f).spad = s.spad := rfl
@[simp] theorem State.onKeep_dma (f : Persist → Persist) : (s.onKeep f).dma = s.dma := rfl
@[simp] theorem State.onKeep_acts (f : Persist → Persist) : (s.onKeep f).acts = s.acts := rfl
@[simp] theorem State.onKeep_engs (f : Persist → Persist) : (s.onKeep f).engs = s.engs := rfl
@[simp] theorem State.onKeep_leaf (f : Persist → Persist) : (s.onKeep f).leaf = s.leaf := rfl
@[simp] theorem State.onKeep_codec (f : Persist → Persist) : (s.onKeep f).codec = s.codec := rfl
@[simp] theorem State.onKeep_ing (f : Persist → Persist) : (s.onKeep f).ing = s.ing := rfl
@[simp] theorem State.onKeep_ring (f : Persist → Persist) : (s.onKeep f).ring = s.ring := rfl
@[simp] theorem State.onKeep_host (f : Persist → Persist) : (s.onKeep f).host = s.host := rfl
@[simp] theorem State.onKeep_ksi (f : Persist → Persist) : (s.onKeep f).ksi = s.ksi := rfl
@[simp] theorem State.onKeep_gddr (f : Persist → Persist) : (s.onKeep f).gddr = s.gddr := rfl
@[simp] theorem State.onKeep_cnt (f : Persist → Persist) : (s.onKeep f).cnt = s.cnt := rfl
@[simp] theorem State.onKeep_cons (f : Persist → Persist) : (s.onKeep f).cons = s.cons := rfl
@[simp] theorem State.onKeep_chk (f : Persist → Persist) : (s.onKeep f).chk = s.chk := rfl
@[simp] theorem State.onKeep_pwr (f : Persist → Persist) : (s.onKeep f).pwr = s.pwr := rfl
@[simp] theorem State.onKeep_pair (f : Persist → Persist) : (s.onKeep f).pair = s.pair := rfl
@[simp] theorem State.onKeep_start (f : Persist → Persist) : (s.onKeep f).start = s.start := rfl
@[simp] theorem State.onKeep_img (f : Persist → Persist) : (s.onKeep f).img = s.img := rfl
@[simp] theorem State.onKeep_keep (f : Persist → Persist) : (s.onKeep f).keep = f s.keep := rfl
@[simp] theorem State.onKeep_sent (f : Persist → Persist) : (s.onKeep f).sent = s.sent := rfl
@[simp] theorem State.onKeep_pending (f : Persist → Persist) : (s.onKeep f).pending = s.pending := rfl
@[simp] theorem State.onKeep_freeCount (f : Persist → Persist) : (s.onKeep f).freeCount = s.freeCount := rfl

@[simp] theorem State.onSent_tb (f : (List Out) → (List Out)) : (s.onSent f).tb = s.tb := rfl
@[simp] theorem State.onSent_tick (f : (List Out) → (List Out)) : (s.onSent f).tick = s.tick := rfl
@[simp] theorem State.onSent_bind (f : (List Out) → (List Out)) : (s.onSent f).bind = s.bind := rfl
@[simp] theorem State.onSent_bus (f : (List Out) → (List Out)) : (s.onSent f).bus = s.bus := rfl
@[simp] theorem State.onSent_mbx (f : (List Out) → (List Out)) : (s.onSent f).mbx = s.mbx := rfl
@[simp] theorem State.onSent_spad (f : (List Out) → (List Out)) : (s.onSent f).spad = s.spad := rfl
@[simp] theorem State.onSent_dma (f : (List Out) → (List Out)) : (s.onSent f).dma = s.dma := rfl
@[simp] theorem State.onSent_acts (f : (List Out) → (List Out)) : (s.onSent f).acts = s.acts := rfl
@[simp] theorem State.onSent_engs (f : (List Out) → (List Out)) : (s.onSent f).engs = s.engs := rfl
@[simp] theorem State.onSent_leaf (f : (List Out) → (List Out)) : (s.onSent f).leaf = s.leaf := rfl
@[simp] theorem State.onSent_codec (f : (List Out) → (List Out)) : (s.onSent f).codec = s.codec := rfl
@[simp] theorem State.onSent_ing (f : (List Out) → (List Out)) : (s.onSent f).ing = s.ing := rfl
@[simp] theorem State.onSent_ring (f : (List Out) → (List Out)) : (s.onSent f).ring = s.ring := rfl
@[simp] theorem State.onSent_host (f : (List Out) → (List Out)) : (s.onSent f).host = s.host := rfl
@[simp] theorem State.onSent_ksi (f : (List Out) → (List Out)) : (s.onSent f).ksi = s.ksi := rfl
@[simp] theorem State.onSent_gddr (f : (List Out) → (List Out)) : (s.onSent f).gddr = s.gddr := rfl
@[simp] theorem State.onSent_cnt (f : (List Out) → (List Out)) : (s.onSent f).cnt = s.cnt := rfl
@[simp] theorem State.onSent_cons (f : (List Out) → (List Out)) : (s.onSent f).cons = s.cons := rfl
@[simp] theorem State.onSent_chk (f : (List Out) → (List Out)) : (s.onSent f).chk = s.chk := rfl
@[simp] theorem State.onSent_pwr (f : (List Out) → (List Out)) : (s.onSent f).pwr = s.pwr := rfl
@[simp] theorem State.onSent_pair (f : (List Out) → (List Out)) : (s.onSent f).pair = s.pair := rfl
@[simp] theorem State.onSent_start (f : (List Out) → (List Out)) : (s.onSent f).start = s.start := rfl
@[simp] theorem State.onSent_img (f : (List Out) → (List Out)) : (s.onSent f).img = s.img := rfl
@[simp] theorem State.onSent_keep (f : (List Out) → (List Out)) : (s.onSent f).keep = s.keep := rfl
@[simp] theorem State.onSent_sent (f : (List Out) → (List Out)) : (s.onSent f).sent = f s.sent := rfl
@[simp] theorem State.onSent_pending (f : (List Out) → (List Out)) : (s.onSent f).pending = s.pending := rfl
@[simp] theorem State.onSent_freeCount (f : (List Out) → (List Out)) : (s.onSent f).freeCount = s.freeCount := rfl

@[simp] theorem State.onPending_tb (f : (List Instr) → (List Instr)) : (s.onPending f).tb = s.tb := rfl
@[simp] theorem State.onPending_tick (f : (List Instr) → (List Instr)) : (s.onPending f).tick = s.tick := rfl
@[simp] theorem State.onPending_bind (f : (List Instr) → (List Instr)) : (s.onPending f).bind = s.bind := rfl
@[simp] theorem State.onPending_bus (f : (List Instr) → (List Instr)) : (s.onPending f).bus = s.bus := rfl
@[simp] theorem State.onPending_mbx (f : (List Instr) → (List Instr)) : (s.onPending f).mbx = s.mbx := rfl
@[simp] theorem State.onPending_spad (f : (List Instr) → (List Instr)) : (s.onPending f).spad = s.spad := rfl
@[simp] theorem State.onPending_dma (f : (List Instr) → (List Instr)) : (s.onPending f).dma = s.dma := rfl
@[simp] theorem State.onPending_acts (f : (List Instr) → (List Instr)) : (s.onPending f).acts = s.acts := rfl
@[simp] theorem State.onPending_engs (f : (List Instr) → (List Instr)) : (s.onPending f).engs = s.engs := rfl
@[simp] theorem State.onPending_leaf (f : (List Instr) → (List Instr)) : (s.onPending f).leaf = s.leaf := rfl
@[simp] theorem State.onPending_codec (f : (List Instr) → (List Instr)) : (s.onPending f).codec = s.codec := rfl
@[simp] theorem State.onPending_ing (f : (List Instr) → (List Instr)) : (s.onPending f).ing = s.ing := rfl
@[simp] theorem State.onPending_ring (f : (List Instr) → (List Instr)) : (s.onPending f).ring = s.ring := rfl
@[simp] theorem State.onPending_host (f : (List Instr) → (List Instr)) : (s.onPending f).host = s.host := rfl
@[simp] theorem State.onPending_ksi (f : (List Instr) → (List Instr)) : (s.onPending f).ksi = s.ksi := rfl
@[simp] theorem State.onPending_gddr (f : (List Instr) → (List Instr)) : (s.onPending f).gddr = s.gddr := rfl
@[simp] theorem State.onPending_cnt (f : (List Instr) → (List Instr)) : (s.onPending f).cnt = s.cnt := rfl
@[simp] theorem State.onPending_cons (f : (List Instr) → (List Instr)) : (s.onPending f).cons = s.cons := rfl
@[simp] theorem State.onPending_chk (f : (List Instr) → (List Instr)) : (s.onPending f).chk = s.chk := rfl
@[simp] theorem State.onPending_pwr (f : (List Instr) → (List Instr)) : (s.onPending f).pwr = s.pwr := rfl
@[simp] theorem State.onPending_pair (f : (List Instr) → (List Instr)) : (s.onPending f).pair = s.pair := rfl
@[simp] theorem State.onPending_start (f : (List Instr) → (List Instr)) : (s.onPending f).start = s.start := rfl
@[simp] theorem State.onPending_img (f : (List Instr) → (List Instr)) : (s.onPending f).img = s.img := rfl
@[simp] theorem State.onPending_keep (f : (List Instr) → (List Instr)) : (s.onPending f).keep = s.keep := rfl
@[simp] theorem State.onPending_sent (f : (List Instr) → (List Instr)) : (s.onPending f).sent = s.sent := rfl
@[simp] theorem State.onPending_pending (f : (List Instr) → (List Instr)) : (s.onPending f).pending = f s.pending := rfl
@[simp] theorem State.onPending_freeCount (f : (List Instr) → (List Instr)) : (s.onPending f).freeCount = s.freeCount := rfl

@[simp] theorem State.onFreeCount_tb (f : Nat → Nat) : (s.onFreeCount f).tb = s.tb := rfl
@[simp] theorem State.onFreeCount_tick (f : Nat → Nat) : (s.onFreeCount f).tick = s.tick := rfl
@[simp] theorem State.onFreeCount_bind (f : Nat → Nat) : (s.onFreeCount f).bind = s.bind := rfl
@[simp] theorem State.onFreeCount_bus (f : Nat → Nat) : (s.onFreeCount f).bus = s.bus := rfl
@[simp] theorem State.onFreeCount_mbx (f : Nat → Nat) : (s.onFreeCount f).mbx = s.mbx := rfl
@[simp] theorem State.onFreeCount_spad (f : Nat → Nat) : (s.onFreeCount f).spad = s.spad := rfl
@[simp] theorem State.onFreeCount_dma (f : Nat → Nat) : (s.onFreeCount f).dma = s.dma := rfl
@[simp] theorem State.onFreeCount_acts (f : Nat → Nat) : (s.onFreeCount f).acts = s.acts := rfl
@[simp] theorem State.onFreeCount_engs (f : Nat → Nat) : (s.onFreeCount f).engs = s.engs := rfl
@[simp] theorem State.onFreeCount_leaf (f : Nat → Nat) : (s.onFreeCount f).leaf = s.leaf := rfl
@[simp] theorem State.onFreeCount_codec (f : Nat → Nat) : (s.onFreeCount f).codec = s.codec := rfl
@[simp] theorem State.onFreeCount_ing (f : Nat → Nat) : (s.onFreeCount f).ing = s.ing := rfl
@[simp] theorem State.onFreeCount_ring (f : Nat → Nat) : (s.onFreeCount f).ring = s.ring := rfl
@[simp] theorem State.onFreeCount_host (f : Nat → Nat) : (s.onFreeCount f).host = s.host := rfl
@[simp] theorem State.onFreeCount_ksi (f : Nat → Nat) : (s.onFreeCount f).ksi = s.ksi := rfl
@[simp] theorem State.onFreeCount_gddr (f : Nat → Nat) : (s.onFreeCount f).gddr = s.gddr := rfl
@[simp] theorem State.onFreeCount_cnt (f : Nat → Nat) : (s.onFreeCount f).cnt = s.cnt := rfl
@[simp] theorem State.onFreeCount_cons (f : Nat → Nat) : (s.onFreeCount f).cons = s.cons := rfl
@[simp] theorem State.onFreeCount_chk (f : Nat → Nat) : (s.onFreeCount f).chk = s.chk := rfl
@[simp] theorem State.onFreeCount_pwr (f : Nat → Nat) : (s.onFreeCount f).pwr = s.pwr := rfl
@[simp] theorem State.onFreeCount_pair (f : Nat → Nat) : (s.onFreeCount f).pair = s.pair := rfl
@[simp] theorem State.onFreeCount_start (f : Nat → Nat) : (s.onFreeCount f).start = s.start := rfl
@[simp] theorem State.onFreeCount_img (f : Nat → Nat) : (s.onFreeCount f).img = s.img := rfl
@[simp] theorem State.onFreeCount_keep (f : Nat → Nat) : (s.onFreeCount f).keep = s.keep := rfl
@[simp] theorem State.onFreeCount_sent (f : Nat → Nat) : (s.onFreeCount f).sent = s.sent := rfl
@[simp] theorem State.onFreeCount_pending (f : Nat → Nat) : (s.onFreeCount f).pending = s.pending := rfl
@[simp] theorem State.onFreeCount_freeCount (f : Nat → Nat) : (s.onFreeCount f).freeCount = f s.freeCount := rfl

end Sys2Proof.Machine
end

