-- ==== Sys2Proof/Laws/Table.lean ====
section
/-! SUPPORT. Laws of sparse tables and of byte memories: reads after writes, and the canonical form that every write keeps. -/

namespace Sys2Proof.Machine

variable {α : Type}

theorem Tab.get_put [Inhabited α] (t : Tab α) (k j : Nat) (x : α) :
    (t.put k x).get j = if j = k then x else t.get j := by
  induction t with
  | nil => simp only [Tab.put, Tab.get]; split
           · rfl
           · split <;> rfl
  | cons e r ih =>
    obtain ⟨i, v⟩ := e
    simp only [Tab.put]
    split
    · subst_vars; simp only [Tab.get]; split
      · rfl
      · rfl
    · split
      · rename_i h1 h2
        simp only [Tab.get]
        split
        · rfl
        · split
          · have : ¬ j = i := by omega
            have : j < i := by omega
            simp [*]
          · rfl
      · simp only [Tab.get, ih]
        split
        · have : ¬ j = k := by omega
          rw [if_neg this]
        · split
          · have : ¬ j = k := by omega
            simp [*]
          · rfl

/-- Lower bounds of a canonical table weaken. -/
theorem Tab.wfFrom_mono [Inhabited α] [DecidableEq α] {lo hi : Nat} (h : lo ≤ hi) :
    ∀ t : Tab α, t.wfFrom hi = true → t.wfFrom lo = true
  | [], _ => rfl
  | (j, v) :: r, w => by
    simp only [Tab.wfFrom, Bool.and_eq_true, decide_eq_true_eq] at w ⊢
    exact ⟨⟨by omega, w.1.2⟩, w.2⟩

theorem Tab.get_below [Inhabited α] [DecidableEq α] {lo j : Nat} (h : j < lo) (t : Tab α) (w : t.wfFrom lo = true) :
    t.get j = default := by
  cases t with
  | nil => rfl
  | cons e r =>
    obtain ⟨i, v⟩ := e
    simp only [Tab.wfFrom, Bool.and_eq_true, decide_eq_true_eq] at w
    have h1 : ¬ j = i := by omega
    have h2 : j < i := by omega
    simp [Tab.get, h1, h2]

theorem Tab.get_erase [Inhabited α] [DecidableEq α] (k j : Nat) :
    ∀ (lo : Nat) (t : Tab α), t.wfFrom lo = true → (t.erase k).get j = if j = k then default else t.get j
  | _, [], _ => by simp [Tab.erase, Tab.get]
  | lo, (i, v) :: r, w => by
    simp only [Tab.wfFrom, Bool.and_eq_true, decide_eq_true_eq] at w
    simp only [Tab.erase]
    split
    · rename_i hk
      subst hk
      split
      · rename_i hj; subst hj; exact Tab.get_below (by omega) r w.2
      · rename_i hj
        simp only [Tab.get, hj, if_false]
        split
        · exact Tab.get_below (by omega) r w.2
        · rfl
    · split
      · rename_i h1 h2
        split
        · rename_i hj; subst hj; simp [Tab.get, h1, h2]
        · rfl
      · rename_i h1 h2
        simp only [Tab.get]
        rw [Tab.get_erase k j (i + 1) r w.2]
        split
        · have : ¬ j = k := by omega
          rw [if_neg this]
        · split
          · split <;> rfl
          · rfl

/-- Reading a canonical table after a write. -/
theorem Tab.get_set [Inhabited α] [DecidableEq α] (t : Tab α) (w : t.wf = true) (k j : Nat) (x : α) :
    (t.set k x).get j = if j = k then x else t.get j := by
  unfold Tab.set
  split
  · rename_i h; rw [Tab.get_erase k j 0 t w, h]
  · exact Tab.get_put t k j x

theorem Tab.wfFrom_put [Inhabited α] [DecidableEq α] (k : Nat) (x : α) (hx : x ≠ default) :
    ∀ (lo : Nat) (t : Tab α), lo ≤ k → t.wfFrom lo = true → (t.put k x).wfFrom lo = true
  | lo, [], h, _ => by simp [Tab.put, Tab.wfFrom, h, hx]
  | lo, (i, v) :: r, h, w => by
    simp only [Tab.wfFrom, Bool.and_eq_true, decide_eq_true_eq] at w
    simp only [Tab.put]
    split
    · subst_vars; simp [Tab.wfFrom, h, hx, w.2]
    · split
      · simp only [Tab.wfFrom, Bool.and_eq_true, decide_eq_true_eq]
        exact ⟨⟨h, hx⟩, ⟨by omega, w.1.2⟩, w.2⟩
      · simp only [Tab.wfFrom, Bool.and_eq_true, decide_eq_true_eq]
        exact ⟨⟨w.1.1, w.1.2⟩, Tab.wfFrom_put k x hx (i + 1) r (by omega) w.2⟩

theorem Tab.wfFrom_erase [Inhabited α] [DecidableEq α] (k : Nat) :
    ∀ (lo : Nat) (t : Tab α), t.wfFrom lo = true → (t.erase k).wfFrom lo = true
  | _, [], _ => rfl
  | lo, (i, v) :: r, w => by
    simp only [Tab.wfFrom, Bool.and_eq_true, decide_eq_true_eq] at w
    simp only [Tab.erase]
    split
    · exact Tab.wfFrom_mono (by omega) r w.2
    · split
      · simp [Tab.wfFrom, w.1.1, w.1.2, w.2]
      · simp [Tab.wfFrom, w.1.1, w.1.2, Tab.wfFrom_erase k (i + 1) r w.2]

/-- A write keeps the canonical form. -/
theorem Tab.wf_set [Inhabited α] [DecidableEq α] (t : Tab α) (w : t.wf = true) (k : Nat) (x : α) :
    (t.set k x).wf = true := by
  unfold Tab.set
  split
  · exact Tab.wfFrom_erase k 0 t w
  · rename_i h; exact Tab.wfFrom_put k x h 0 t (Nat.zero_le _) w

theorem Tab.wf_upd [Inhabited α] [DecidableEq α] (t : Tab α) (w : t.wf = true) (k : Nat) (f : α → α) :
    (t.upd k f).wf = true := Tab.wf_set t w k _

theorem Tab.get_upd [Inhabited α] [DecidableEq α] (t : Tab α) (w : t.wf = true) (k j : Nat) (f : α → α) :
    (t.upd k f).get j = if j = k then f (t.get k) else t.get j := Tab.get_set t w k j _

/-- A filter keeps the canonical form. -/
theorem Tab.wfFrom_keep [Inhabited α] [DecidableEq α] (p : Nat → α → Bool) :
    ∀ (lo : Nat) (t : Tab α), t.wfFrom lo = true → (t.keep p).wfFrom lo = true
  | _, [], _ => rfl
  | lo, (i, v) :: r, w => by
    simp only [Tab.wfFrom, Bool.and_eq_true, decide_eq_true_eq] at w
    have ih := Tab.wfFrom_keep p (i + 1) r w.2
    simp only [Tab.keep, List.filter] at ih ⊢
    split
    · simp only [Tab.wfFrom, Bool.and_eq_true, decide_eq_true_eq]
      exact ⟨w.1, ih⟩
    · exact Tab.wfFrom_mono (by omega) _ ih

/-- Writing bytes keeps the canonical form of a memory. -/
theorem wrBytes_wf : ∀ (b : List Byte) (m : Tab Byte) (a : Nat), m.wf = true → (wrBytes m a b).wf = true
  | [], _, _, w => w
  | x :: r, m, a, w => wrBytes_wf r (m.set a x) (a + 1) (Tab.wf_set m w a x)

/-- Erasing a range keeps the canonical form of a memory. -/
theorem clearRange_wf (m : Tab Byte) (a n : Nat) (w : m.wf = true) : (clearRange m a n).wf = true :=
  Tab.wfFrom_keep _ 0 m w

/-- Reading one byte after a run of bytes was written: the byte written there, or what stood there. -/
theorem wrBytes_get : ∀ (b : List Byte) (m : Tab Byte) (a j : Nat), m.wf = true →
    (wrBytes m a b).get j = if a ≤ j ∧ j < a + b.length then b.getD (j - a) default else m.get j
  | [], m, a, j, _ => by
    have h : ¬ (a ≤ j ∧ j < a + ([] : List Byte).length) := by simp
    rw [if_neg h]; rfl
  | x :: r, m, a, j, w => by
    simp only [wrBytes, List.length_cons]
    rw [wrBytes_get r _ _ _ (Tab.wf_set m w a x), Tab.get_set m w]
    by_cases h1 : a + 1 ≤ j ∧ j < a + 1 + r.length
    · have h2 : a ≤ j ∧ j < a + (r.length + 1) := by omega
      obtain ⟨n, hn⟩ : ∃ n, j - a = n + 1 := ⟨j - a - 1, by omega⟩
      have h3 : j - (a + 1) = n := by omega
      rw [if_pos h1, if_pos h2, hn, h3, List.getD_cons_succ]
    · rw [if_neg h1]
      by_cases h4 : j = a
      · have h2 : a ≤ j ∧ j < a + (r.length + 1) := by omega
        rw [if_pos h4, if_pos h2, h4, Nat.sub_self, List.getD_cons_zero]
      · have h2 : ¬ (a ≤ j ∧ j < a + (r.length + 1)) := by omega
        rw [if_neg h4, if_neg h2]

/-- A block of bytes reads back what was written to it. -/
theorem rdBytes_wrBytes (b : List Byte) (m : Tab Byte) (a : Nat) (w : m.wf = true) :
    rdBytes (wrBytes m a b) a b.length = b := by
  apply List.ext_getElem
  · simp [rdBytes]
  · intro i h1 h2
    simp only [rdBytes, List.getElem_map, List.getElem_range]
    rw [wrBytes_get b m a (a + i) w, if_pos (by omega)]
    simp [h2]

end Sys2Proof.Machine
end

