-- ==== Sys2Proof/Laws/Commit.lean ====
section
/-! SUPPORT. What counting an event and settling the interrupts leave alone: one lemma for each part of the state. -/

namespace Sys2Proof.Machine

/-- Counting an event changes the counters and nothing else. -/
theorem State.count_eq (s : State) (code : Nat) (ch act : Option Nat) (n : Nat) :
    s.count code ch act n = { s with cnt := (s.count code ch act n).cnt } := by
  unfold State.count
  dsimp only
  split
  · rfl
  · split <;> rfl

@[simp] theorem State.count_tb (s : State) (code : Nat) (ch act : Option Nat) (n : Nat) :
    (s.count code ch act n).tb = s.tb := by rw [State.count_eq]
@[simp] theorem State.count_tick (s : State) (code : Nat) (ch act : Option Nat) (n : Nat) :
    (s.count code ch act n).tick = s.tick := by rw [State.count_eq]
@[simp] theorem State.count_bind (s : State) (code : Nat) (ch act : Option Nat) (n : Nat) :
    (s.count code ch act n).bind = s.bind := by rw [State.count_eq]
@[simp] theorem State.count_bus (s : State) (code : Nat) (ch act : Option Nat) (n : Nat) :
    (s.count code ch act n).bus = s.bus := by rw [State.count_eq]
@[simp] theorem State.count_mbx (s : State) (code : Nat) (ch act : Option Nat) (n : Nat) :
    (s.count code ch act n).mbx = s.mbx := by rw [State.count_eq]
@[simp] theorem State.count_spad (s : State) (code : Nat) (ch act : Option Nat) (n : Nat) :
    (s.count code ch act n).spad = s.spad := by rw [State.count_eq]
@[simp] theorem State.count_dma (s : State) (code : Nat) (ch act : Option Nat) (n : Nat) :
    (s.count code ch act n).dma = s.dma := by rw [State.count_eq]
@[simp] theorem State.count_acts (s : State) (code : Nat) (ch act : Option Nat) (n : Nat) :
    (s.count code ch act n).acts = s.acts := by rw [State.count_eq]
@[simp] theorem State.count_engs (s : State) (code : Nat) (ch act : Option Nat) (n : Nat) :
    (s.count code ch act n).engs = s.engs := by rw [State.count_eq]
@[simp] theorem State.count_leaf (s : State) (code : Nat) (ch act : Option Nat) (n : Nat) :
    (s.count code ch act n).leaf = s.leaf := by rw [State.count_eq]
@[simp] theorem State.count_codec (s : State) (code : Nat) (ch act : Option Nat) (n : Nat) :
    (s.count code ch act n).codec = s.codec := by rw [State.count_eq]
@[simp] theorem State.count_ing (s : State) (code : Nat) (ch act : Option Nat) (n : Nat) :
    (s.count code ch act n).ing = s.ing := by rw [State.count_eq]
@[simp] theorem State.count_ring (s : State) (code : Nat) (ch act : Option Nat) (n : Nat) :
    (s.count code ch act n).ring = s.ring := by rw [State.count_eq]
@[simp] theorem State.count_host (s : State) (code : Nat) (ch act : Option Nat) (n : Nat) :
    (s.count code ch act n).host = s.host := by rw [State.count_eq]
@[simp] theorem State.count_ksi (s : State) (code : Nat) (ch act : Option Nat) (n : Nat) :
    (s.count code ch act n).ksi = s.ksi := by rw [State.count_eq]
@[simp] theorem State.count_gddr (s : State) (code : Nat) (ch act : Option Nat) (n : Nat) :
    (s.count code ch act n).gddr = s.gddr := by rw [State.count_eq]
@[simp] theorem State.count_cons (s : State) (code : Nat) (ch act : Option Nat) (n : Nat) :
    (s.count code ch act n).cons = s.cons := by rw [State.count_eq]
@[simp] theorem State.count_chk (s : State) (code : Nat) (ch act : Option Nat) (n : Nat) :
    (s.count code ch act n).chk = s.chk := by rw [State.count_eq]
@[simp] theorem State.count_pwr (s : State) (code : Nat) (ch act : Option Nat) (n : Nat) :
    (s.count code ch act n).pwr = s.pwr := by rw [State.count_eq]
@[simp] theorem State.count_pair (s : State) (code : Nat) (ch act : Option Nat) (n : Nat) :
    (s.count code ch act n).pair = s.pair := by rw [State.count_eq]
@[simp] theorem State.count_start (s : State) (code : Nat) (ch act : Option Nat) (n : Nat) :
    (s.count code ch act n).start = s.start := by rw [State.count_eq]
@[simp] theorem State.count_img (s : State) (code : Nat) (ch act : Option Nat) (n : Nat) :
    (s.count code ch act n).img = s.img := by rw [State.count_eq]
@[simp] theorem State.count_keep (s : State) (code : Nat) (ch act : Option Nat) (n : Nat) :
    (s.count code ch act n).keep = s.keep := by rw [State.count_eq]
@[simp] theorem State.count_sent (s : State) (code : Nat) (ch act : Option Nat) (n : Nat) :
    (s.count code ch act n).sent = s.sent := by rw [State.count_eq]
@[simp] theorem State.count_pending (s : State) (code : Nat) (ch act : Option Nat) (n : Nat) :
    (s.count code ch act n).pending = s.pending := by rw [State.count_eq]
@[simp] theorem State.count_freeCount (s : State) (code : Nat) (ch act : Option Nat) (n : Nat) :
    (s.count code ch act n).freeCount = s.freeCount := by rw [State.count_eq]

@[simp] theorem commit_tb (s : State) : (commit s).tb = s.tb := rfl
@[simp] theorem commit_tick (s : State) : (commit s).tick = s.tick := rfl
@[simp] theorem commit_bind (s : State) : (commit s).bind = s.bind := rfl
@[simp] theorem commit_bus (s : State) : (commit s).bus = s.bus := rfl
@[simp] theorem commit_mbx (s : State) : (commit s).mbx = s.mbx := rfl
@[simp] theorem commit_spad (s : State) : (commit s).spad = s.spad := rfl
@[simp] theorem commit_dma (s : State) : (commit s).dma = s.dma := rfl
@[simp] theorem commit_acts (s : State) : (commit s).acts = s.acts := rfl
@[simp] theorem commit_engs (s : State) : (commit s).engs = s.engs := rfl
@[simp] theorem commit_leaf (s : State) : (commit s).leaf = s.leaf := rfl
@[simp] theorem commit_codec (s : State) : (commit s).codec = s.codec := rfl
@[simp] theorem commit_ing (s : State) : (commit s).ing = s.ing := rfl
@[simp] theorem commit_ring (s : State) : (commit s).ring = s.ring := rfl
@[simp] theorem commit_ksi (s : State) : (commit s).ksi = s.ksi := rfl
@[simp] theorem commit_gddr (s : State) : (commit s).gddr = s.gddr := rfl
@[simp] theorem commit_cnt (s : State) : (commit s).cnt = s.cnt := rfl
@[simp] theorem commit_cons (s : State) : (commit s).cons = s.cons := rfl
@[simp] theorem commit_chk (s : State) : (commit s).chk = s.chk := rfl
@[simp] theorem commit_pwr (s : State) : (commit s).pwr = s.pwr := rfl
@[simp] theorem commit_pair (s : State) : (commit s).pair = s.pair := rfl
@[simp] theorem commit_start (s : State) : (commit s).start = s.start := rfl
@[simp] theorem commit_img (s : State) : (commit s).img = s.img := rfl
@[simp] theorem commit_keep (s : State) : (commit s).keep = s.keep := rfl
@[simp] theorem commit_pending (s : State) : (commit s).pending = s.pending := rfl
@[simp] theorem commit_freeCount (s : State) : (commit s).freeCount = s.freeCount := rfl

/-- Settling the interrupts changes of the host interface the vector table alone. -/
@[simp] theorem commit_host (s : State) : (commit s).host = { s.host with msix := s.settled.1 } := rfl

/-- Counting reads only the binding, the consents and the counters. -/
theorem State.count_congr {s t : State} (hb : t.bind = s.bind) (hk : t.ksi = s.ksi) (hc : t.cnt = s.cnt)
    (code : Nat) (ch act : Option Nat) (n : Nat) : (t.count code ch act n).cnt = (s.count code ch act n).cnt := by
  have pass : ∀ (u v : State) (c m : Nat) (x y : Option Nat), u.bind = v.bind → u.ksi = v.ksi → u.cnt = v.cnt →
      u.countPass c x y m = v.countPass c x y m := by
    intro u v c m x y h1 h2 h3
    unfold State.countPass State.gateOpen State.countersConsent State.b
    rw [h1, h2, h3]
  unfold State.count
  rw [pass t s code n ch act hb hk hc]
  dsimp only
  split
  · rfl
  · rw [pass { t with cnt := (s.countPass code ch act n).1 } { s with cnt := (s.countPass code ch act n).1 } _ _ _ _ hb hk rfl]
    split
    · rfl
    · exact congrArg Prod.fst (pass _ _ _ _ _ _ hb hk rfl)

/-- One vector's settling appends at most its own message. -/
theorem settled_fold_sent (s : State) : ∀ (vs : List (Nat × Nat)) (acc : Tab MsixVec × List Out),
    ∃ l, (vs.foldl (fun (acc : Tab MsixVec × List Out) v =>
      let x := s.host.msix.get (vecKey v.1 v.2)
      let c := s.vecCond v.1 v.2
      (if x.settle c = default then acc.1 else acc.1.put (vecKey v.1 v.2) (x.settle c),
       if c && !x.cond && !x.masked && s.host.linkUp then msixOut v.1 v.2 :: acc.2 else acc.2)) acc).2 = l ++ acc.2 ∧
      ∀ o ∈ l, o.kind = .msix
  | [], acc => ⟨[], rfl, by simp⟩
  | v :: vs, acc => by
    obtain ⟨l, h1, h2⟩ := settled_fold_sent s vs _
    rw [List.foldl_cons, h1]
    dsimp only
    split
    · refine ⟨l ++ [msixOut v.1 v.2], by simp, ?_⟩
      intro o ho
      rcases List.mem_append.1 ho with h | h
      · exact h2 o h
      · simp only [List.mem_singleton] at h; subst h; rfl
    · exact ⟨l, rfl, h2⟩

/-- Settling the interrupts adds only interrupt messages to those sent. -/
theorem commit_sent (s : State) : ∃ l, (commit s).sent = l ++ s.sent ∧ ∀ o ∈ l, o.kind = .msix :=
  settled_fold_sent s s.vectors _

/-- The settling of interrupts is in every frame. -/
theorem onlyIn_commit {ps : List Part} {s t : State} (h : OnlyIn ps s t) :
    OnlyIn ps s (commit t) := by
  refine ⟨fun p hp => ?_⟩
  have := h.rest p hp
  cases p <;> try exact this
  · obtain ⟨l, h1, h2⟩ := this
    obtain ⟨m, h3, h4⟩ := commit_sent t
    refine ⟨m ++ l, by rw [h3, h1, List.append_assoc], ?_⟩
    intro o ho
    rcases List.mem_append.1 ho with h | h
    · exact h4 o h
    · exact h2 o h

end Sys2Proof.Machine
end

