-- ==== Sys2Proof/Laws/Frames.lean ====
section
/-! SUPPORT. Frames: how `OnlyIn` composes, and which parts of the state each shared operation can change. -/

namespace Sys2Proof.Machine

variable {ps : List Part} {s t u : State}

theorem onlyIn_refl (ps : List Part) (s : State) : OnlyIn ps s s := by
  refine ⟨fun p _ => ?_⟩
  cases p <;> first | rfl | exact ⟨[], rfl, by simp⟩

theorem onlyIn_trans (h : OnlyIn ps s t) (k : OnlyIn ps t u) : OnlyIn ps s u := by
  refine ⟨fun p hp => ?_⟩
  have h1 := h.rest p hp
  have k1 := k.rest p hp
  cases p
  · exact Eq.trans k1 h1
  · exact Eq.trans k1 h1
  · exact Eq.trans k1 h1
  · exact Eq.trans k1 h1
  · exact Eq.trans k1 h1
  · exact Eq.trans k1 h1
  · exact Eq.trans k1 h1
  · exact Eq.trans k1 h1
  · exact Eq.trans k1 h1
  · exact Eq.trans k1 h1
  · exact Eq.trans k1 h1
  · exact Eq.trans k1 h1
  · exact Eq.trans k1 h1
  · simp only [Part.Agree] at h1 k1 ⊢
    have : u.host = { t.host with msix := u.host.msix } := by rw [← k1]
    rw [this, ← h1]
  · exact Eq.trans k1 h1
  · exact Eq.trans k1 h1
  · exact Eq.trans k1 h1
  · exact Eq.trans k1 h1
  · exact Eq.trans k1 h1
  · exact Eq.trans k1 h1
  · exact Eq.trans k1 h1
  · exact Eq.trans k1 h1
  · exact Eq.trans k1 h1
  · exact Eq.trans k1 h1
  · obtain ⟨l, h2, h3⟩ := h1
    obtain ⟨m, k2, k3⟩ := k1
    refine ⟨m ++ l, by rw [k2, h2, List.append_assoc], ?_⟩
    intro o ho
    rcases List.mem_append.1 ho with h | h
    · exact k3 o h
    · exact h3 o h
  · exact Eq.trans k1 h1
  · exact Eq.trans k1 h1

theorem onlyIn_mono {qs : List Part} (h : OnlyIn ps s t) (hs : ∀ p ∈ ps, p ∈ qs) : OnlyIn qs s t :=
  ⟨fun p hp => h.rest p fun hm => hp (hs p hm)⟩

/-- A fold of operations that keep a frame keeps it. -/
theorem onlyIn_foldl {α : Type} {ps : List Part} (f : State → α → State) (h : ∀ s x, OnlyIn ps s (f s x)) :
    ∀ (l : List α) (s : State), OnlyIn ps s (l.foldl f s)
  | [], s => onlyIn_refl ps s
  | x :: r, s => onlyIn_trans (h s x) (onlyIn_foldl f h r (f s x))

theorem onlyIn_ite {c : Prop} [Decidable c] (h : c → OnlyIn ps s t) (k : ¬ c → OnlyIn ps s u) :
    OnlyIn ps s (if c then t else u) := by
  split
  · exact h (by assumption)
  · exact k (by assumption)

theorem onlyIn_onTb (f : TimeBase → TimeBase) (h : Part.tb ∈ ps) : OnlyIn ps s (s.onTb f) := by
  refine ⟨fun p hp => ?_⟩
  cases p <;> first | rfl | exact absurd h hp | exact ⟨[], rfl, by simp⟩

theorem onlyIn_onTick (f : Tick → Tick) (h : Part.tick ∈ ps) : OnlyIn ps s (s.onTick f) := by
  refine ⟨fun p hp => ?_⟩
  cases p <;> first | rfl | exact absurd h hp | exact ⟨[], rfl, by simp⟩

theorem onlyIn_onBind (f : Bind → Bind) (h : Part.bind ∈ ps) : OnlyIn ps s (s.onBind f) := by
  refine ⟨fun p hp => ?_⟩
  cases p <;> first | rfl | exact absurd h hp | exact ⟨[], rfl, by simp⟩

theorem onlyIn_onBus (f : Bus → Bus) (h : Part.bus ∈ ps) : OnlyIn ps s (s.onBus f) := by
  refine ⟨fun p hp => ?_⟩
  cases p <;> first | rfl | exact absurd h hp | exact ⟨[], rfl, by simp⟩

theorem onlyIn_onMbx (f : Mbx → Mbx) (h : Part.mbx ∈ ps) : OnlyIn ps s (s.onMbx f) := by
  refine ⟨fun p hp => ?_⟩
  cases p <;> first | rfl | exact absurd h hp | exact ⟨[], rfl, by simp⟩

theorem onlyIn_onSpad (f : Spad → Spad) (h : Part.spad ∈ ps) : OnlyIn ps s (s.onSpad f) := by
  refine ⟨fun p hp => ?_⟩
  cases p <;> first | rfl | exact absurd h hp | exact ⟨[], rfl, by simp⟩

theorem onlyIn_onDma (f : Dma → Dma) (h : Part.dma ∈ ps) : OnlyIn ps s (s.onDma f) := by
  refine ⟨fun p hp => ?_⟩
  cases p <;> first | rfl | exact absurd h hp | exact ⟨[], rfl, by simp⟩

theorem onlyIn_onActs (f : Tab Act → Tab Act) (h : Part.acts ∈ ps) : OnlyIn ps s (s.onActs f) := by
  refine ⟨fun p hp => ?_⟩
  cases p <;> first | rfl | exact absurd h hp | exact ⟨[], rfl, by simp⟩

theorem onlyIn_onEngs (f : Tab Engines → Tab Engines) (h : Part.engs ∈ ps) : OnlyIn ps s (s.onEngs f) := by
  refine ⟨fun p hp => ?_⟩
  cases p <;> first | rfl | exact absurd h hp | exact ⟨[], rfl, by simp⟩

theorem onlyIn_onLeaf (f : Leaves → Leaves) (h : Part.leaf ∈ ps) : OnlyIn ps s (s.onLeaf f) := by
  refine ⟨fun p hp => ?_⟩
  cases p <;> first | rfl | exact absurd h hp | exact ⟨[], rfl, by simp⟩

theorem onlyIn_onCodec (f : Tab CodecSlot → Tab CodecSlot) (h : Part.codec ∈ ps) : OnlyIn ps s (s.onCodec f) := by
  refine ⟨fun p hp => ?_⟩
  cases p <;> first | rfl | exact absurd h hp | exact ⟨[], rfl, by simp⟩

theorem onlyIn_onIng (f : Ingest → Ingest) (h : Part.ing ∈ ps) : OnlyIn ps s (s.onIng f) := by
  refine ⟨fun p hp => ?_⟩
  cases p <;> first | rfl | exact absurd h hp | exact ⟨[], rfl, by simp⟩

theorem onlyIn_onRing (f : Ring → Ring) (h : Part.ring ∈ ps) : OnlyIn ps s (s.onRing f) := by
  refine ⟨fun p hp => ?_⟩
  cases p <;> first | rfl | exact absurd h hp | exact ⟨[], rfl, by simp⟩

theorem onlyIn_onHost (f : HostIf → HostIf) (h : Part.host ∈ ps) : OnlyIn ps s (s.onHost f) := by
  refine ⟨fun p hp => ?_⟩
  cases p <;> first | rfl | exact absurd h hp | exact ⟨[], rfl, by simp⟩

theorem onlyIn_onKsi (f : Ksi → Ksi) (h : Part.ksi ∈ ps) : OnlyIn ps s (s.onKsi f) := by
  refine ⟨fun p hp => ?_⟩
  cases p <;> first | rfl | exact absurd h hp | exact ⟨[], rfl, by simp⟩

theorem onlyIn_onGddr (f : Gddr → Gddr) (h : Part.gddr ∈ ps) : OnlyIn ps s (s.onGddr f) := by
  refine ⟨fun p hp => ?_⟩
  cases p <;> first | rfl | exact absurd h hp | exact ⟨[], rfl, by simp⟩

theorem onlyIn_onCnt (f : Tab Counter → Tab Counter) (h : Part.cnt ∈ ps) : OnlyIn ps s (s.onCnt f) := by
  refine ⟨fun p hp => ?_⟩
  cases p <;> first | rfl | exact absurd h hp | exact ⟨[], rfl, by simp⟩

theorem onlyIn_onCons (f : Cons → Cons) (h : Part.cons ∈ ps) : OnlyIn ps s (s.onCons f) := by
  refine ⟨fun p hp => ?_⟩
  cases p <;> first | rfl | exact absurd h hp | exact ⟨[], rfl, by simp⟩

theorem onlyIn_onChk (f : Check → Check) (h : Part.chk ∈ ps) : OnlyIn ps s (s.onChk f) := by
  refine ⟨fun p hp => ?_⟩
  cases p <;> first | rfl | exact absurd h hp | exact ⟨[], rfl, by simp⟩

theorem onlyIn_onPwr (f : Power → Power) (h : Part.pwr ∈ ps) : OnlyIn ps s (s.onPwr f) := by
  refine ⟨fun p hp => ?_⟩
  cases p <;> first | rfl | exact absurd h hp | exact ⟨[], rfl, by simp⟩

theorem onlyIn_onPair (f : Pair → Pair) (h : Part.pair ∈ ps) : OnlyIn ps s (s.onPair f) := by
  refine ⟨fun p hp => ?_⟩
  cases p <;> first | rfl | exact absurd h hp | exact ⟨[], rfl, by simp⟩

theorem onlyIn_onStart (f : Start → Start) (h : Part.start ∈ ps) : OnlyIn ps s (s.onStart f) := by
  refine ⟨fun p hp => ?_⟩
  cases p <;> first | rfl | exact absurd h hp | exact ⟨[], rfl, by simp⟩

theorem onlyIn_onImg (f : Image → Image) (h : Part.img ∈ ps) : OnlyIn ps s (s.onImg f) := by
  refine ⟨fun p hp => ?_⟩
  cases p <;> first | rfl | exact absurd h hp | exact ⟨[], rfl, by simp⟩

theorem onlyIn_onKeep (f : Persist → Persist) (h : Part.keep ∈ ps) : OnlyIn ps s (s.onKeep f) := by
  refine ⟨fun p hp => ?_⟩
  cases p <;> first | rfl | exact absurd h hp | exact ⟨[], rfl, by simp⟩

theorem onlyIn_onSent (f : List Out → List Out) (h : Part.sent ∈ ps) : OnlyIn ps s (s.onSent f) := by
  refine ⟨fun p hp => ?_⟩
  cases p <;> first | rfl | exact absurd h hp | exact ⟨[], rfl, by simp⟩

theorem onlyIn_onPending (f : List Instr → List Instr) (h : Part.pending ∈ ps) : OnlyIn ps s (s.onPending f) := by
  refine ⟨fun p hp => ?_⟩
  cases p <;> first | rfl | exact absurd h hp | exact ⟨[], rfl, by simp⟩

theorem onlyIn_onFreeCount (f : Nat → Nat) (h : Part.freeCount ∈ ps) : OnlyIn ps s (s.onFreeCount f) := by
  refine ⟨fun p hp => ?_⟩
  cases p <;> first | rfl | exact absurd h hp | exact ⟨[], rfl, by simp⟩

theorem onlyIn_count (code : Nat) (ch act : Option Nat) (n : Nat) (h : Part.cnt ∈ ps) : OnlyIn ps s (s.count code ch act n) := by
  rw [State.count_eq]
  exact onlyIn_onCnt (fun _ => (s.count code ch act n).cnt) h

theorem onlyIn_out (x : Out) (h : Part.sent ∈ ps) : OnlyIn ps s (s.out x) := onlyIn_onSent _ h

theorem onlyIn_record (x : AccEntry) (h : Part.keep ∈ ps) : OnlyIn ps s (s.record x) := onlyIn_onKeep _ h

theorem onlyIn_evTick (i : Nat) (h : Part.tick ∈ ps) (k : Part.cnt ∈ ps) : OnlyIn ps s (s.evTick i) :=
  onlyIn_trans (onlyIn_onTick _ h) (onlyIn_count _ _ _ _ k)

theorem onlyIn_evSpc (ch i : Nat) (act : Option Nat) (h : Part.spad ∈ ps) (k : Part.cnt ∈ ps) : OnlyIn ps s (s.evSpc ch i act) :=
  onlyIn_trans (onlyIn_onSpad _ h) (onlyIn_count _ _ _ _ k)

theorem onlyIn_evQueue (a i : Nat) (h : Part.dma ∈ ps) (k : Part.cnt ∈ ps) : OnlyIn ps s (s.evQueue a i) :=
  onlyIn_trans (onlyIn_onDma _ h) (onlyIn_count _ _ _ _ k)

theorem onlyIn_evLeaf (i : Nat) (act : Option Nat) (h : Part.leaf ∈ ps) (k : Part.cnt ∈ ps) : OnlyIn ps s (s.evLeaf i act) :=
  onlyIn_trans (onlyIn_onLeaf _ h) (onlyIn_count _ _ _ _ k)

theorem onlyIn_evPort (p i : Nat) (act : Option Nat) (h : Part.ing ∈ ps) (k : Part.cnt ∈ ps) : OnlyIn ps s (s.evPort p i act) :=
  onlyIn_trans (onlyIn_onIng _ h) (onlyIn_count _ _ _ _ k)

theorem onlyIn_evRport (p i : Nat) (act : Option Nat) (h : Part.ring ∈ ps) (k : Part.cnt ∈ ps) : OnlyIn ps s (s.evRport p i act) :=
  onlyIn_trans (onlyIn_onRing _ h) (onlyIn_count _ _ _ _ k)

theorem onlyIn_evHost (i : Nat) (act : Option Nat) (h : Part.host ∈ ps) (k : Part.cnt ∈ ps) : OnlyIn ps s (s.evHost i act) :=
  onlyIn_trans (onlyIn_onHost _ h) (onlyIn_count _ _ _ _ k)

theorem onlyIn_evKsi (i : Nat) (act : Option Nat) (h : Part.ksi ∈ ps) (k : Part.cnt ∈ ps) : OnlyIn ps s (s.evKsi i act) :=
  onlyIn_trans (onlyIn_onKsi _ h) (onlyIn_count _ _ _ _ k)

theorem onlyIn_evPwr (i : Nat) (h : Part.pwr ∈ ps) (k : Part.cnt ∈ ps) : OnlyIn ps s (s.evPwr i) :=
  onlyIn_trans (onlyIn_onPwr _ h) (onlyIn_count _ _ _ _ k)

theorem onlyIn_evPair (i : Nat) (h : Part.pair ∈ ps) (k : Part.cnt ∈ ps) : OnlyIn ps s (s.evPair i) :=
  onlyIn_trans (onlyIn_onPair _ h) (onlyIn_count _ _ _ _ k)

theorem onlyIn_evCons (i : Nat) (h : Part.cons ∈ ps) (k : Part.cnt ∈ ps) : OnlyIn ps s (s.evCons i) :=
  onlyIn_trans (onlyIn_onCons _ h) (onlyIn_count _ _ _ _ k)

theorem onlyIn_evSafe (i : Nat) (act : Option Nat) (h : Part.chk ∈ ps) (k : Part.cnt ∈ ps) : OnlyIn ps s (s.evSafe i act) :=
  onlyIn_trans (onlyIn_onChk _ h) (onlyIn_count _ _ _ _ k)

theorem onlyIn_evSrv (a i : Nat) (h : Part.engs ∈ ps) (k : Part.cnt ∈ ps) : OnlyIn ps s (s.evSrv a i) :=
  onlyIn_trans (onlyIn_onEngs _ h) (onlyIn_count _ _ _ _ k)

theorem onlyIn_evSlot (ch slot i : Nat) (h : Part.codec ∈ ps) (k : Part.cnt ∈ ps) : OnlyIn ps s (s.evSlot ch slot i) :=
  onlyIn_trans (onlyIn_onCodec _ h) (onlyIn_count _ _ _ _ k)

theorem onlyIn_evMe (a i n : Nat) (h : Part.engs ∈ ps) (k : Part.cnt ∈ ps) : OnlyIn ps s (s.evMe a i n) := by
  unfold State.evMe
  split
  · exact onlyIn_refl _ _
  · exact onlyIn_trans (onlyIn_onEngs _ h) (onlyIn_count _ _ _ _ k)

theorem onlyIn_evAe (a i n : Nat) (h : Part.engs ∈ ps) (k : Part.cnt ∈ ps) : OnlyIn ps s (s.evAe a i n) := by
  unfold State.evAe
  split
  · exact onlyIn_refl _ _
  · exact onlyIn_trans (onlyIn_onEngs _ h) (onlyIn_count _ _ _ _ k)

theorem onlyIn_evDet (a i n : Nat) (h : Part.engs ∈ ps) (k : Part.cnt ∈ ps) : OnlyIn ps s (s.evDet a i n) := by
  unfold State.evDet
  split
  · exact onlyIn_refl _ _
  · exact onlyIn_trans (onlyIn_onEngs _ h) (onlyIn_count _ _ _ _ k)

theorem onlyIn_regErr (m i : Nat) (h : Part.bus ∈ ps) (k : Part.cnt ∈ ps) : OnlyIn ps s (s.regErr m i) := by
  unfold State.regErr
  dsimp only
  split
  · exact onlyIn_trans (onlyIn_onBus _ h) (onlyIn_count _ _ _ _ k)
  · exact onlyIn_count _ _ _ _ k

theorem onlyIn_evVf (vf i : Nat) (h : Part.host ∈ ps) : OnlyIn ps s (s.evVf vf i) := onlyIn_onHost _ h

theorem onlyIn_flagAct (a : Nat) (f : OutFlags → OutFlags) (h : Part.acts ∈ ps) : OnlyIn ps s (s.flagAct a f) :=
  onlyIn_onActs (fun t => t.upd a fun x => if x.carry then { x with flagsPrev := f x.flagsPrev } else { x with flags := f x.flags }) h

theorem onlyIn_spPut (ch addr : Nat) (b : List Byte) (h : Part.spad ∈ ps) : OnlyIn ps s (s.spPut ch addr b) := onlyIn_onSpad _ h

theorem onlyIn_spWrite (ch addr : Nat) (b : List Byte) (h : Part.spad ∈ ps) : OnlyIn ps s (s.spWrite ch addr b) := by
  unfold State.spWrite
  split <;> exact onlyIn_spPut _ _ _ h

theorem onlyIn_gdPut (ch addr : Nat) (b : List Byte) (h : Part.gddr ∈ ps) : OnlyIn ps s (s.gdPut ch addr b) := by
  unfold State.gdPut
  refine onlyIn_trans ?_ (onlyIn_onGddr _ h)
  apply onlyIn_foldl
  intro s g
  split
  · split
    · exact onlyIn_onGddr _ h
    · exact onlyIn_refl _ _
  · exact onlyIn_refl _ _

theorem onlyIn_gdWrite (a k ch addr : Nat) (b : List Byte) (h : Part.gddr ∈ ps) (h1 : Part.ksi ∈ ps) (h2 : Part.cnt ∈ ps) :
    OnlyIn ps s (s.gdWrite a k ch addr b) := by
  unfold State.gdWrite
  apply onlyIn_foldl
  intro s x
  dsimp only
  split
  · exact onlyIn_gdPut _ _ _ h
  · exact onlyIn_evKsi _ _ h1 h2

theorem onlyIn_onSide (m : Nat) (b : Bool) (f : MbSide → MbSide) (h : Part.mbx ∈ ps) : OnlyIn ps s (s.onSide m b f) := onlyIn_onMbx _ h

/-- A wake event changes only the parts that hold wakes, doorbells, domains and counters. -/
theorem onlyIn_wake (id m : Nat) (h : Part.mbx ∈ ps) (p : Part.pwr ∈ ps) (k : Part.cnt ∈ ps) : OnlyIn ps s (s.wake id m) := by
  unfold State.wake State.gcPowerUp
  repeat' split
  all_goals first
    | exact onlyIn_onMbx _ h
    | exact onlyIn_refl _ _
    | exact onlyIn_onPwr _ p
    | exact onlyIn_count _ _ _ _ k

/-- So does a role change (R127). -/
theorem onlyIn_roleChange (id : Nat) (h : Part.mbx ∈ ps) (p : Part.pwr ∈ ps) (k : Part.cnt ∈ ps) :
    OnlyIn ps s (s.roleChange id) := by
  unfold State.roleChange
  refine onlyIn_trans (onlyIn_onMbx _ h) (onlyIn_foldl _ (fun s r => ?_) _ _)
  dsimp only
  split
  · exact onlyIn_refl _ _
  · have one : ∀ (t : State) (b : Bool), OnlyIn ps t (if r.owner b ≠ id then t else
        ((t.onSide r.mailbox b fun x => { x with staleDrops := sat8 (x.staleDrops + x.queue.length), queue := [] }).onSide
          r.mailbox (!b) fun x => { x with notice := true }).wake (r.owner (!b)) r.mailbox) := by
      intro t b
      split
      · exact onlyIn_refl _ _
      · exact onlyIn_trans (onlyIn_trans (onlyIn_onSide _ _ _ h) (onlyIn_onSide _ _ _ h)) (onlyIn_wake _ _ h p k)
    exact onlyIn_trans (one _ false) (one _ true)

end Sys2Proof.Machine
end

