-- ==== Sys2Proof/Laws/Settles.lean ====
section
/-! SUPPORT. Every command answers the state as it was, or a state whose interrupts it has settled. -/

namespace Sys2Proof.Machine

/-- A command's outcome is the state as it was, or a state whose interrupts have been settled. -/
def Settles (o : Host.Outcome State Fault Refusal) (s : State) : Prop := o = .next s ∨ ∃ u, o = .next (commit u)

theorem Settles.done (s u : State) : Settles (.next (commit u)) s := .inr ⟨u, rfl⟩

theorem Settles.guarded (c : Prop) [Decidable c] (s u : State) : Settles (.next (if c then s else commit u)) s := by
  split
  · exact .inl rfl
  · exact .inr ⟨_, rfl⟩

theorem exec_settles (i : Instr) (s : State) : Settles (exec i s) s := by
  cases i with
  | ptpSync port domain master seq twoStep origin corr =>
    exact (show Settles (execPtpSync port domain master seq twoStep origin corr s) s by
      unfold execPtpSync; with_reducible first | exact .done s _ | exact .guarded _ s _)
  | ppsEdge =>
    exact (show Settles (execPpsEdge s) s by
      unfold execPpsEdge; with_reducible first | exact .done s _ | exact .guarded _ s _)
  | tbHoldover =>
    exact (show Settles (execTbHoldover s) s by
      unfold execTbHoldover; with_reducible first | exact .done s _ | exact .guarded _ s _)
  | encEdge rising heldNs =>
    exact (show Settles (execEncEdge rising heldNs s) s by
      unfold execEncEdge; with_reducible first | exact .done s _ | exact .guarded _ s _)
  | nominalBoundary =>
    exact (show Settles (execNominalBoundary s) s by
      unfold execNominalBoundary; with_reducible first | exact .done s _ | exact .guarded _ s _)
  | deferredSource =>
    exact (show Settles (execDeferredSource s) s by
      unfold execDeferredSource; with_reducible first | exact .done s _ | exact .guarded _ s _)
  | filler =>
    exact (show Settles (execFiller s) s by
      unfold execFiller; with_reducible first | exact .done s _ | exact .guarded _ s _)
  | stretchExpired =>
    exact (show Settles (execStretchExpired s) s by
      unfold execStretchExpired; with_reducible first | exact .done s _ | exact .guarded _ s _)
  | tickBoundary =>
    exact (show Settles (execTickBoundary s) s by
      unfold execTickBoundary; with_reducible first | exact .done s _ | exact .guarded _ s _)
  | ready =>
    exact (show Settles (execReady s) s by
      unfold execReady; with_reducible first | exact .done s _ | exact .guarded _ s _)
  | readyReceived member tick planGen =>
    exact (show Settles (execReadyReceived member tick planGen s) s by
      unfold execReadyReceived; with_reducible first | exact .done s _ | exact .guarded _ s _)
  | waitingExpire =>
    exact (show Settles (execWaitingExpire s) s by
      unfold execWaitingExpire; with_reducible first | exact .done s _ | exact .guarded _ s _)
  | markerReceived port src tick launch issue corr profile planGen isFiller late =>
    exact (show Settles (execMarkerReceived port src tick launch issue corr profile planGen isFiller late s) s by
      unfold execMarkerReceived; with_reducible first | exact .done s _ | exact .guarded _ s _)
  | memberAbsent member =>
    exact (show Settles (execMemberAbsent member s) s by
      unfold execMemberAbsent; with_reducible first | exact .done s _ | exact .guarded _ s _)
  | leaderLost =>
    exact (show Settles (execLeaderLost s) s by
      unfold execLeaderLost; with_reducible first | exact .done s _ | exact .guarded _ s _)
  | tickOutPulse =>
    exact (show Settles (execTickOutPulse s) s by
      unfold execTickOutPulse; with_reducible first | exact .done s _ | exact .guarded _ s _)
  | tickOutPulseEnd =>
    exact (show Settles (execTickOutPulseEnd s) s by
      unfold execTickOutPulseEnd; with_reducible first | exact .done s _ | exact .guarded _ s _)
  | rebindValidate =>
    exact (show Settles (execRebindValidate s) s by
      unfold execRebindValidate; with_reducible first | exact .done s _ | exact .guarded _ s _)
  | rebindCancel =>
    exact (show Settles (execRebindCancel s) s by
      unfold execRebindCancel; with_reducible first | exact .done s _ | exact .guarded _ s _)
  | coldSelect =>
    exact (show Settles (execColdSelect s) s by
      unfold execColdSelect; with_reducible first | exact .done s _ | exact .guarded _ s _)
  | coldConfirm =>
    exact (show Settles (execColdConfirm s) s by
      unfold execColdConfirm; with_reducible first | exact .done s _ | exact .guarded _ s _)
  | rebindValidationDone =>
    exact (show Settles (execRebindValidationDone s) s by
      unfold execRebindValidationDone; with_reducible first | exact .done s _ | exact .guarded _ s _)
  | registerWrite isRead tee master size off value =>
    exact (show Settles (execRegisterWrite isRead tee master size off value s) s by
      unfold execRegisterWrite; with_reducible first | exact .done s _ | exact .guarded _ s _)
  | wpWrite master off value =>
    exact (show Settles (execWpWrite master off value s) s by
      unfold execWpWrite; with_reducible first | exact .done s _ | exact .guarded _ s _)
  | wpComplement master off value =>
    exact (show Settles (execWpComplement master off value s) s by
      unfold execWpComplement; with_reducible first | exact .done s _ | exact .guarded _ s _)
  | wpWindowExpire off =>
    exact (show Settles (execWpWindowExpire off s) s by
      unfold execWpWindowExpire; with_reducible first | exact .done s _ | exact .guarded _ s _)
  | rmbRequest master addr =>
    exact (show Settles (execRmbRequest master addr s) s by
      unfold execRmbRequest; with_reducible first | exact .done s _ | exact .guarded _ s _)
  | rmbCapture master =>
    exact (show Settles (execRmbCapture master s) s by
      unfold execRmbCapture; with_reducible first | exact .done s _ | exact .guarded _ s _)
  | txSend master mailbox sideB header =>
    exact (show Settles (execTxSend master mailbox sideB header s) s by
      unfold execTxSend; with_reducible first | exact .done s _ | exact .guarded _ s _)
  | rxPop master mailbox sideB value =>
    exact (show Settles (execRxPop master mailbox sideB value s) s by
      unfold execRxPop; with_reducible first | exact .done s _ | exact .guarded _ s _)
  | mbStatRead master mailbox sideB =>
    exact (show Settles (execMbStatRead master mailbox sideB s) s by
      unfold execMbStatRead; with_reducible first | exact .done s _ | exact .guarded _ s _)
  | dbPendingClear master value =>
    exact (show Settles (execDbPendingClear master value s) s by
      unfold execDbPendingClear; with_reducible first | exact .done s _ | exact .guarded _ s _)
  | bindStatusRead master =>
    exact (show Settles (execBindStatusRead master s) s by
      unfold execBindStatusRead; with_reducible first | exact .done s _ | exact .guarded _ s _)
  | bar2Access isRead off size bytes =>
    exact (show Settles (execBar2Access isRead off size bytes s) s by
      unfold execBar2Access; with_reducible first | exact .done s _ | exact .guarded _ s _)
  | bar2Timeout off =>
    exact (show Settles (execBar2Timeout off s) s by
      unfold execBar2Timeout; with_reducible first | exact .done s _ | exact .guarded _ s _)
  | bar4Access isRead off size bytes =>
    exact (show Settles (execBar4Access isRead off size bytes s) s by
      unfold execBar4Access; with_reducible first | exact .done s _ | exact .guarded _ s _)
  | bar4Timeout off =>
    exact (show Settles (execBar4Timeout off s) s by
      unfold execBar4Timeout; with_reducible first | exact .done s _ | exact .guarded _ s _)
  | bar4WinWrite value =>
    exact (show Settles (execBar4WinWrite value s) s by
      unfold execBar4WinWrite; with_reducible first | exact .done s _ | exact .guarded _ s _)
  | bankZeroDone ch bank =>
    exact (show Settles (execBankZeroDone ch bank s) s by
      unfold execBankZeroDone; with_reducible first | exact .done s _ | exact .guarded _ s _)
  | loanWrite master ch bank value =>
    exact (show Settles (execLoanWrite master ch bank value s) s by
      unfold execLoanWrite; with_reducible first | exact .done s _ | exact .guarded _ s _)
  | dmaGo master ch q =>
    exact (show Settles (execDmaGo master ch q s) s by
      unfold execDmaGo; with_reducible first | exact .done s _ | exact .guarded _ s _)
  | dmaAbort master ch q =>
    exact (show Settles (execDmaAbort master ch q s) s by
      unfold execDmaAbort; with_reducible first | exact .done s _ | exact .guarded _ s _)
  | dmaBeat ch q line inBytes =>
    exact (show Settles (execDmaBeat ch q line inBytes s) s by
      unfold execDmaBeat; with_reducible first | exact .done s _ | exact .guarded _ s _)
  | dmaTransferDone ch q ack =>
    exact (show Settles (execDmaTransferDone ch q ack s) s by
      unfold execDmaTransferDone; with_reducible first | exact .done s _ | exact .guarded _ s _)
  | reservationStart act ch cls inst opseq budget cycles line =>
    exact (show Settles (execReservationStart act ch cls inst opseq budget cycles line s) s by
      unfold execReservationStart; with_reducible first | exact .done s _ | exact .guarded _ s _)
  | reservationEnd act ch cls inst =>
    exact (show Settles (execReservationEnd act ch cls inst s) s by
      unfold execReservationEnd; with_reducible first | exact .done s _ | exact .guarded _ s _)
  | matmul act budget cycles line stall =>
    exact (show Settles (execMatmul act budget cycles line stall s) s by
      unfold execMatmul; with_reducible first | exact .done s _ | exact .guarded _ s _)
  | conv act budget cycles line stall =>
    exact (show Settles (execConv act budget cycles line stall s) s by
      unfold execConv; with_reducible first | exact .done s _ | exact .guarded _ s _)
  | attn act =>
    exact (show Settles (execAttn act s) s by
      unfold execAttn; with_reducible first | exact .done s _ | exact .guarded _ s _)
  | attnSnapshot act budget cycles line =>
    exact (show Settles (execAttnSnapshot act budget cycles line s) s by
      unfold execAttnSnapshot; with_reducible first | exact .done s _ | exact .guarded _ s _)
  | gemvStream act budget cycles line =>
    exact (show Settles (execGemvStream act budget cycles line s) s by
      unfold execGemvStream; with_reducible first | exact .done s _ | exact .guarded _ s _)
  | copy act =>
    exact (show Settles (execCopy act s) s by
      unfold execCopy; with_reducible first | exact .done s _ | exact .guarded _ s _)
  | space2depth act core fits =>
    exact (show Settles (execSpace2depth act core fits s) s by
      unfold execSpace2depth; with_reducible first | exact .done s _ | exact .guarded _ s _)
  | depth2space act core fits =>
    exact (show Settles (execDepth2space act core fits s) s by
      unfold execDepth2space; with_reducible first | exact .done s _ | exact .guarded _ s _)
  | tconvPrep act core fits =>
    exact (show Settles (execTconvPrep act core fits s) s by
      unfold execTconvPrep; with_reducible first | exact .done s _ | exact .guarded _ s _)
  | leafEdit act core fits =>
    exact (show Settles (execLeafEdit act core fits s) s by
      unfold execLeafEdit; with_reducible first | exact .done s _ | exact .guarded _ s _)
  | leafEditRecord act ack =>
    exact (show Settles (execLeafEditRecord act ack s) s by
      unfold execLeafEditRecord; with_reducible first | exact .done s _ | exact .guarded _ s _)
  | spillComplete leaf ack =>
    exact (show Settles (execSpillComplete leaf ack s) s by
      unfold execSpillComplete; with_reducible first | exact .done s _ | exact .guarded _ s _)
  | fetchSlotTaken leaf =>
    exact (show Settles (execFetchSlotTaken leaf s) s by
      unfold execFetchSlotTaken; with_reducible first | exact .done s _ | exact .guarded _ s _)
  | fetchComplete leaf ack macOk =>
    exact (show Settles (execFetchComplete leaf ack macOk s) s by
      unfold execFetchComplete; with_reducible first | exact .done s _ | exact .guarded _ s _)
  | codecSetup act core =>
    exact (show Settles (execCodecSetup act core s) s by
      unfold execCodecSetup; with_reducible first | exact .done s _ | exact .guarded _ s _)
  | codecCollect act core =>
    exact (show Settles (execCodecCollect act core s) s by
      unfold execCodecCollect; with_reducible first | exact .done s _ | exact .guarded _ s _)
  | codecSubmit act core =>
    exact (show Settles (execCodecSubmit act core s) s by
      unfold execCodecSubmit; with_reducible first | exact .done s _ | exact .guarded _ s _)
  | codecRestart act core =>
    exact (show Settles (execCodecRestart act core s) s by
      unfold execCodecRestart; with_reducible first | exact .done s _ | exact .guarded _ s _)
  | boxdec act fits =>
    exact (show Settles (execBoxdec act fits s) s by
      unfold execBoxdec; with_reducible first | exact .done s _ | exact .guarded _ s _)
  | nmsTidy act fits =>
    exact (show Settles (execNmsTidy act fits s) s by
      unfold execNmsTidy; with_reducible first | exact .done s _ | exact .guarded _ s _)
  | sample act budget =>
    exact (show Settles (execSample act budget s) s by
      unfold execSample; with_reducible first | exact .done s _ | exact .guarded _ s _)
  | draft act budget =>
    exact (show Settles (execDraft act budget s) s by
      unfold execDraft; with_reducible first | exact .done s _ | exact .guarded _ s _)
  | rmsnorm act fits =>
    exact (show Settles (execRmsnorm act fits s) s by
      unfold execRmsnorm; with_reducible first | exact .done s _ | exact .guarded _ s _)
  | swiglu act fits =>
    exact (show Settles (execSwiglu act fits s) s by
      unfold execSwiglu; with_reducible first | exact .done s _ | exact .guarded _ s _)
  | check act fits =>
    exact (show Settles (execCheck act fits s) s by
      unfold execCheck; with_reducible first | exact .done s _ | exact .guarded _ s _)
  | digest act fits =>
    exact (show Settles (execDigest act fits s) s by
      unfold execDigest; with_reducible first | exact .done s _ | exact .guarded _ s _)
  | resultOut act =>
    exact (show Settles (execResultOut act s) s by
      unfold execResultOut; with_reducible first | exact .done s _ | exact .guarded _ s _)
  | opEnd act =>
    exact (show Settles (execOpEnd act s) s by
      unfold execOpEnd; with_reducible first | exact .done s _ | exact .guarded _ s _)
  | accessUnit ch slot isRap supported isReference isRasl pts size =>
    exact (show Settles (execAccessUnit ch slot isRap supported isReference isRasl pts size s) s by
      unfold execAccessUnit; with_reducible first | exact .done s _ | exact .guarded _ s _)
  | pictureDone ch slot poc width height depth concBlocks pool outputs syntaxError missingRef fence predicts stall isRap isIdr data =>
    exact (show Settles (execPictureDone ch slot poc width height depth concBlocks pool outputs syntaxError missingRef fence predicts stall isRap isIdr data s) s by
      unfold execPictureDone; with_reducible first | exact .done s _ | exact .guarded _ s _)
  | timeCut ch slot =>
    exact (show Settles (execTimeCut ch slot s) s by
      unfold execTimeCut; with_reducible first | exact .done s _ | exact .guarded _ s _)
  | ethernetFrame port frame =>
    exact (show Settles (execEthernetFrame port frame s) s by
      unfold execEthernetFrame; with_reducible first | exact .done s _ | exact .guarded _ s _)
  | gvspLeader port srcIp srcUdp dstUdp blockId payloadType pixelFormat sizeX sizeY =>
    exact (show Settles (execGvspLeader port srcIp srcUdp dstUdp blockId payloadType pixelFormat sizeX sizeY s) s by
      unfold execGvspLeader; with_reducible first | exact .done s _ | exact .guarded _ s _)
  | gvspPayload port srcIp srcUdp dstUdp blockId packetId bytes =>
    exact (show Settles (execGvspPayload port srcIp srcUdp dstUdp blockId packetId bytes s) s by
      unfold execGvspPayload; with_reducible first | exact .done s _ | exact .guarded _ s _)
  | gvspTrailer port srcIp srcUdp dstUdp blockId =>
    exact (show Settles (execGvspTrailer port srcIp srcUdp dstUdp blockId s) s by
      unfold execGvspTrailer; with_reducible first | exact .done s _ | exact .guarded _ s _)
  | zeroFill flow =>
    exact (show Settles (execZeroFill flow s) s by
      unfold execZeroFill; with_reducible first | exact .done s _ | exact .guarded _ s _)
  | rtpPacket port srcIp dstUdp packet =>
    exact (show Settles (execRtpPacket port srcIp dstUdp packet s) s by
      unfold execRtpPacket; with_reducible first | exact .done s _ | exact .guarded _ s _)
  | ptpDelayResp port domain master seq received corr interval =>
    exact (show Settles (execPtpDelayResp port domain master seq received corr interval s) s by
      unfold execPtpDelayResp; with_reducible first | exact .done s _ | exact .guarded _ s _)
  | ptpAnnounce port domain master dataSet =>
    exact (show Settles (execPtpAnnounce port domain master dataSet s) s by
      unfold execPtpAnnounce; with_reducible first | exact .done s _ | exact .guarded _ s _)
  | delayReq =>
    exact (show Settles (execDelayReq s) s by
      unfold execDelayReq; with_reducible first | exact .done s _ | exact .guarded _ s _)
  | arpRequest port senderIp senderMac targetIp =>
    exact (show Settles (execArpRequest port senderIp senderMac targetIp s) s by
      unfold execArpRequest; with_reducible first | exact .done s _ | exact .guarded _ s _)
  | arpReply port ip mac =>
    exact (show Settles (execArpReply port ip mac s) s by
      unfold execArpReply; with_reducible first | exact .done s _ | exact .guarded _ s _)
  | arpTimer port ip =>
    exact (show Settles (execArpTimer port ip s) s by
      unfold execArpTimer; with_reducible first | exact .done s _ | exact .guarded _ s _)
  | arpEntryExpire port ip =>
    exact (show Settles (execArpEntryExpire port ip s) s by
      unfold execArpEntryExpire; with_reducible first | exact .done s _ | exact .guarded _ s _)
  | resultRecordSend port =>
    exact (show Settles (execResultRecordSend port s) s by
      unfold execResultRecordSend; with_reducible first | exact .done s _ | exact .guarded _ s _)
  | vdlUpdate act =>
    exact (show Settles (execVdlUpdate act s) s by
      unfold execVdlUpdate; with_reducible first | exact .done s _ | exact .guarded _ s _)
  | vdlChange =>
    exact (show Settles (execVdlChange s) s by
      unfold execVdlChange; with_reducible first | exact .done s _ | exact .guarded _ s _)
  | vdlValidRise =>
    exact (show Settles (execVdlValidRise s) s by
      unfold execVdlValidRise; with_reducible first | exact .done s _ | exact .guarded _ s _)
  | portLinkDown port =>
    exact (show Settles (execPortLinkDown port s) s by
      unfold execPortLinkDown; with_reducible first | exact .done s _ | exact .guarded _ s _)
  | portLinkUp port =>
    exact (show Settles (execPortLinkUp port s) s by
      unfold execPortLinkUp; with_reducible first | exact .done s _ | exact .guarded _ s _)
  | ringSignalDetect port =>
    exact (show Settles (execRingSignalDetect port s) s by
      unfold execRingSignalDetect; with_reducible first | exact .done s _ | exact .guarded _ s _)
  | laneLock port narrow =>
    exact (show Settles (execLaneLock port narrow s) s by
      unfold execLaneLock; with_reducible first | exact .done s _ | exact .guarded _ s _)
  | ident port accession ring farPort member planGen coldCount =>
    exact (show Settles (execIdent port accession ring farPort member planGen coldCount s) s by
      unfold execIdent; with_reducible first | exact .done s _ | exact .guarded _ s _)
  | ringLossOfSignal port =>
    exact (show Settles (execRingLossOfSignal port s) s by
      unfold execRingLossOfSignal; with_reducible first | exact .done s _ | exact .guarded _ s _)
  | delayTimer port =>
    exact (show Settles (execDelayTimer port s) s by
      unfold execDelayTimer; with_reducible first | exact .done s _ | exact .guarded _ s _)
  | delay port isResponse t1 t2 t3 =>
    exact (show Settles (execDelay port isResponse t1 t2 t3 s) s by
      unfold execDelay; with_reducible first | exact .done s _ | exact .guarded _ s _)
  | linkReport member east west eastSkip westSkip =>
    exact (show Settles (execLinkReport member east west eastSkip westSkip s) s by
      unfold execLinkReport; with_reducible first | exact .done s _ | exact .guarded _ s _)
  | linkReportSend =>
    exact (show Settles (execLinkReportSend s) s by
      unfold execLinkReportSend; with_reducible first | exact .done s _ | exact .guarded _ s _)
  | ringFrame port header payload crc =>
    exact (show Settles (execRingFrame port header payload crc s) s by
      unfold execRingFrame; with_reducible first | exact .done s _ | exact .guarded _ s _)
  | ringAck port seq =>
    exact (show Settles (execRingAck port seq s) s by
      unfold execRingAck; with_reducible first | exact .done s _ | exact .guarded _ s _)
  | ringNak port seq =>
    exact (show Settles (execRingNak port seq s) s by
      unfold execRingNak; with_reducible first | exact .done s _ | exact .guarded _ s _)
  | replayTimeout port =>
    exact (show Settles (execReplayTimeout port s) s by
      unfold execReplayTimeout; with_reducible first | exact .done s _ | exact .guarded _ s _)
  | retrainDone port restored =>
    exact (show Settles (execRetrainDone port restored s) s by
      unfold execRetrainDone; with_reducible first | exact .done s _ | exact .guarded _ s _)
  | spillWrite lane src slot tenant channel =>
    exact (show Settles (execSpillWrite lane src slot tenant channel s) s by
      unfold execSpillWrite; with_reducible first | exact .done s _ | exact .guarded _ s _)
  | spillRead lane src slot tenant line =>
    exact (show Settles (execSpillRead lane src slot tenant line s) s by
      unfold execSpillRead; with_reducible first | exact .done s _ | exact .guarded _ s _)
  | spillFree lane src slot tenant =>
    exact (show Settles (execSpillFree lane src slot tenant s) s by
      unfold execSpillFree; with_reducible first | exact .done s _ | exact .guarded _ s _)
  | spillAck lane slot status =>
    exact (show Settles (execSpillAck lane slot status s) s by
      unfold execSpillAck; with_reducible first | exact .done s _ | exact .guarded _ s _)
  | readData lane slot status =>
    exact (show Settles (execReadData lane slot status s) s by
      unfold execReadData; with_reducible first | exact .done s _ | exact .guarded _ s _)
  | dataFrame lane src bytes =>
    exact (show Settles (execDataFrame lane src bytes s) s by
      unfold execDataFrame; with_reducible first | exact .done s _ | exact .guarded _ s _)
  | ringEvent kind member tick =>
    exact (show Settles (execRingEvent kind member tick s) s by
      unfold execRingEvent; with_reducible first | exact .done s _ | exact .guarded _ s _)
  | revoke src tenant tick =>
    exact (show Settles (execRevoke src tenant tick s) s by
      unfold execRevoke; with_reducible first | exact .done s _ | exact .guarded _ s _)
  | digestMessage src group kind tick value =>
    exact (show Settles (execDigestMessage src group kind tick value s) s by
      unfold execDigestMessage; with_reducible first | exact .done s _ | exact .guarded _ s _)
  | forceBypass value =>
    exact (show Settles (execForceBypass value s) s by
      unfold execForceBypass; with_reducible first | exact .done s _ | exact .guarded _ s _)
  | vfFlr vf =>
    exact (show Settles (execVfFlr vf s) s by
      unfold execVfFlr; with_reducible first | exact .done s _ | exact .guarded _ s _)
  | pfFlr =>
    exact (show Settles (execPfFlr s) s by
      unfold execPfFlr; with_reducible first | exact .done s _ | exact .guarded _ s _)
  | hostLinkDown =>
    exact (show Settles (execHostLinkDown s) s by
      unfold execHostLinkDown; with_reducible first | exact .done s _ | exact .guarded _ s _)
  | secondaryBusReset =>
    exact (show Settles (execSecondaryBusReset s) s by
      unfold execSecondaryBusReset; with_reducible first | exact .done s _ | exact .guarded _ s _)
  | numvfsWrite count =>
    exact (show Settles (execNumvfsWrite count s) s by
      unfold execNumvfsWrite; with_reducible first | exact .done s _ | exact .guarded _ s _)
  | pciConfigWrite function item value =>
    exact (show Settles (execPciConfigWrite function item value s) s by
      unfold execPciConfigWrite; with_reducible first | exact .done s _ | exact .guarded _ s _)
  | perstN asserted =>
    exact (show Settles (execPerstN asserted s) s by
      unfold execPerstN; with_reducible first | exact .done s _ | exact .guarded _ s _)
  | msixUnmask function vector =>
    exact (show Settles (execMsixUnmask function vector s) s by
      unfold execMsixUnmask; with_reducible first | exact .done s _ | exact .guarded _ s _)
  | hswCtrlWrite master window value =>
    exact (show Settles (execHswCtrlWrite master window value s) s by
      unfold execHswCtrlWrite; with_reducible first | exact .done s _ | exact .guarded _ s _)
  | hostCompletion act status =>
    exact (show Settles (execHostCompletion act status s) s by
      unfold execHostCompletion; with_reducible first | exact .done s _ | exact .guarded _ s _)
  | cplTimeout act =>
    exact (show Settles (execCplTimeout act s) s by
      unfold execCplTimeout; with_reducible first | exact .done s _ | exact .guarded _ s _)
  | ideKm stream keySet kind =>
    exact (show Settles (execIdeKm stream keySet kind s) s by
      unfold execIdeKm; with_reducible first | exact .done s _ | exact .guarded _ s _)
  | kSetGo stream keySet =>
    exact (show Settles (execKSetGo stream keySet s) s by
      unfold execKSetGo; with_reducible first | exact .done s _ | exact .guarded _ s _)
  | ideInsecure stream =>
    exact (show Settles (execIdeInsecure stream s) s by
      unfold execIdeInsecure; with_reducible first | exact .done s _ | exact .guarded _ s _)
  | getTdispVersion session vf =>
    exact (show Settles (execGetTdispVersion session vf s) s by
      unfold execGetTdispVersion; with_reducible first | exact .done s _ | exact .guarded _ s _)
  | getTdispCapabilities session vf =>
    exact (show Settles (execGetTdispCapabilities session vf s) s by
      unfold execGetTdispCapabilities; with_reducible first | exact .done s _ | exact .guarded _ s _)
  | lockInterfaceRequest session vf noFwUpdate =>
    exact (show Settles (execLockInterfaceRequest session vf noFwUpdate s) s by
      unfold execLockInterfaceRequest; with_reducible first | exact .done s _ | exact .guarded _ s _)
  | getDeviceInterfaceReport session vf =>
    exact (show Settles (execGetDeviceInterfaceReport session vf s) s by
      unfold execGetDeviceInterfaceReport; with_reducible first | exact .done s _ | exact .guarded _ s _)
  | getDeviceInterfaceState session vf =>
    exact (show Settles (execGetDeviceInterfaceState session vf s) s by
      unfold execGetDeviceInterfaceState; with_reducible first | exact .done s _ | exact .guarded _ s _)
  | startInterfaceRequest session vf nonce =>
    exact (show Settles (execStartInterfaceRequest session vf nonce s) s by
      unfold execStartInterfaceRequest; with_reducible first | exact .done s _ | exact .guarded _ s _)
  | stopInterfaceRequest session vf =>
    exact (show Settles (execStopInterfaceRequest session vf s) s by
      unfold execStopInterfaceRequest; with_reducible first | exact .done s _ | exact .guarded _ s _)
  | tdispOtherRequest session vf code =>
    exact (show Settles (execTdispOtherRequest session vf code s) s by
      unfold execTdispOtherRequest; with_reducible first | exact .done s _ | exact .guarded _ s _)
  | removalFence tenant =>
    exact (show Settles (execRemovalFence tenant s) s by
      unfold execRemovalFence; with_reducible first | exact .done s _ | exact .guarded _ s _)
  | removalComplete tenant =>
    exact (show Settles (execRemovalComplete tenant s) s by
      unfold execRemovalComplete; with_reducible first | exact .done s _ | exact .guarded _ s _)
  | reclaimDone tenant =>
    exact (show Settles (execReclaimDone tenant s) s by
      unfold execReclaimDone; with_reducible first | exact .done s _ | exact .guarded _ s _)
  | keyExchange overMctp =>
    exact (show Settles (execKeyExchange overMctp s) s by
      unfold execKeyExchange; with_reducible first | exact .done s _ | exact .guarded _ s _)
  | endSession session =>
    exact (show Settles (execEndSession session s) s by
      unfold execEndSession; with_reducible first | exact .done s _ | exact .guarded _ s _)
  | spdmHeartbeat session =>
    exact (show Settles (execSpdmHeartbeat session s) s by
      unfold execSpdmHeartbeat; with_reducible first | exact .done s _ | exact .guarded _ s _)
  | spdmHeartbeatLost session =>
    exact (show Settles (execSpdmHeartbeatLost session s) s by
      unfold execSpdmHeartbeatLost; with_reducible first | exact .done s _ | exact .guarded _ s _)
  | keyUpdate session =>
    exact (show Settles (execKeyUpdate session s) s by
      unfold execKeyUpdate; with_reducible first | exact .done s _ | exact .guarded _ s _)
  | getCertificate slot =>
    exact (show Settles (execGetCertificate slot s) s by
      unfold execGetCertificate; with_reducible first | exact .done s _ | exact .guarded _ s _)
  | challenge slot nonce =>
    exact (show Settles (execChallenge slot nonce s) s by
      unfold execChallenge; with_reducible first | exact .done s _ | exact .guarded _ s _)
  | getMeasurements session index raw =>
    exact (show Settles (execGetMeasurements session index raw s) s by
      unfold execGetMeasurements; with_reducible first | exact .done s _ | exact .guarded _ s _)
  | setEndpointId eid =>
    exact (show Settles (execSetEndpointId eid s) s by
      unfold execSetEndpointId; with_reducible first | exact .done s _ | exact .guarded _ s _)
  | getEndpointId =>
    exact (show Settles (execGetEndpointId s) s by
      unfold execGetEndpointId; with_reducible first | exact .done s _ | exact .guarded _ s _)
  | getEndpointUuid =>
    exact (show Settles (execGetEndpointUuid s) s by
      unfold execGetEndpointUuid; with_reducible first | exact .done s _ | exact .guarded _ s _)
  | getMctpVersionSupport =>
    exact (show Settles (execGetMctpVersionSupport s) s by
      unfold execGetMctpVersionSupport; with_reducible first | exact .done s _ | exact .guarded _ s _)
  | getMessageTypeSupport =>
    exact (show Settles (execGetMessageTypeSupport s) s by
      unfold execGetMessageTypeSupport; with_reducible first | exact .done s _ | exact .guarded _ s _)
  | getVendorDefinedMessageSupport =>
    exact (show Settles (execGetVendorDefinedMessageSupport s) s by
      unfold execGetVendorDefinedMessageSupport; with_reducible first | exact .done s _ | exact .guarded _ s _)
  | regRead tag off =>
    exact (show Settles (execRegRead tag off s) s by
      unfold execRegRead; with_reducible first | exact .done s _ | exact .guarded _ s _)
  | regWrite tag off value =>
    exact (show Settles (execRegWrite tag off value s) s by
      unfold execRegWrite; with_reducible first | exact .done s _ | exact .guarded _ s _)
  | heartbeat tag seq =>
    exact (show Settles (execHeartbeat tag seq s) s by
      unfold execHeartbeat; with_reducible first | exact .done s _ | exact .guarded _ s _)
  | capSet tag cap =>
    exact (show Settles (execCapSet tag cap s) s by
      unfold execCapSet; with_reducible first | exact .done s _ | exact .guarded _ s _)
  | imageBlock tag cmd typ value blkLen crc bytes =>
    exact (show Settles (execImageBlock tag cmd typ value blkLen crc bytes s) s by
      unfold execImageBlock; with_reducible first | exact .done s _ | exact .guarded _ s _)
  | imageStatus tag =>
    exact (show Settles (execImageStatus tag s) s by
      unfold execImageStatus; with_reducible first | exact .done s _ | exact .guarded _ s _)
  | keyDeliver session tenant modelId key =>
    exact (show Settles (execKeyDeliver session tenant modelId key s) s by
      unfold execKeyDeliver; with_reducible first | exact .done s _ | exact .guarded _ s _)
  | weightLoad session tenant modelId srcRegion srcOffset dstRegion dstOffset firstChunk length =>
    exact (show Settles (execWeightLoad session tenant modelId srcRegion srcOffset dstRegion dstOffset firstChunk length s) s by
      unfold execWeightLoad; with_reducible first | exact .done s _ | exact .guarded _ s _)
  | loadComplete tenant =>
    exact (show Settles (execLoadComplete tenant s) s by
      unfold execLoadComplete; with_reducible first | exact .done s _ | exact .guarded _ s _)
  | rotate session tenant =>
    exact (show Settles (execRotate session tenant s) s by
      unfold execRotate; with_reducible first | exact .done s _ | exact .guarded _ s _)
  | consent session tenant record =>
    exact (show Settles (execConsent session tenant record s) s by
      unfold execConsent; with_reducible first | exact .done s _ | exact .guarded _ s _)
  | consentEnd session tenant scope =>
    exact (show Settles (execConsentEnd session tenant scope s) s by
      unfold execConsentEnd; with_reducible first | exact .done s _ | exact .guarded _ s _)
  | ksiStatus session tenant =>
    exact (show Settles (execKsiStatus session tenant s) s by
      unfold execKsiStatus; with_reducible first | exact .done s _ | exact .guarded _ s _)
  | tamper kind =>
    exact (show Settles (execTamper kind s) s by
      unfold execTamper; with_reducible first | exact .done s _ | exact .guarded _ s _)
  | cntClear master isModule ch index =>
    exact (show Settles (execCntClear master isModule ch index s) s by
      unfold execCntClear; with_reducible first | exact .done s _ | exact .guarded _ s _)
  | sensorUpdate sensor raw =>
    exact (show Settles (execSensorUpdate sensor raw s) s by
      unfold execSensorUpdate; with_reducible first | exact .done s _ | exact .guarded _ s _)
  | sensorFaultClear sensor =>
    exact (show Settles (execSensorFaultClear sensor s) s by
      unfold execSensorFaultClear; with_reducible first | exact .done s _ | exact .guarded _ s _)
  | thermalRelease level ch =>
    exact (show Settles (execThermalRelease level ch s) s by
      unfold execThermalRelease; with_reducible first | exact .done s _ | exact .guarded _ s _)
  | flowLow =>
    exact (show Settles (execFlowLow s) s by
      unfold execFlowLow; with_reducible first | exact .done s _ | exact .guarded _ s _)
  | thermalTrip site =>
    exact (show Settles (execThermalTrip site s) s by
      unfold execThermalTrip; with_reducible first | exact .done s _ | exact .guarded _ s _)
  | replan =>
    exact (show Settles (execReplan s) s by
      unfold execReplan; with_reducible first | exact .done s _ | exact .guarded _ s _)
  | replanTimer =>
    exact (show Settles (execReplanTimer s) s by
      unfold execReplanTimer; with_reducible first | exact .done s _ | exact .guarded _ s _)
  | replanDone drift =>
    exact (show Settles (execReplanDone drift s) s by
      unfold execReplanDone; with_reducible first | exact .done s _ | exact .guarded _ s _)
  | healthUpdate inputs =>
    exact (show Settles (execHealthUpdate inputs s) s by
      unfold execHealthUpdate; with_reducible first | exact .done s _ | exact .guarded _ s _)
  | calCommit =>
    exact (show Settles (execCalCommit s) s by
      unfold execCalCommit; with_reducible first | exact .done s _ | exact .guarded _ s _)
  | spotCompare source equal =>
    exact (show Settles (execSpotCompare source equal s) s by
      unfold execSpotCompare; with_reducible first | exact .done s _ | exact .guarded _ s _)
  | spotTimeout source =>
    exact (show Settles (execSpotTimeout source s) s by
      unfold execSpotTimeout; with_reducible first | exact .done s _ | exact .guarded _ s _)
  | testSegment testUnit =>
    exact (show Settles (execTestSegment testUnit s) s by
      unfold execTestSegment; with_reducible first | exact .done s _ | exact .guarded _ s _)
  | testSegmentDone good =>
    exact (show Settles (execTestSegmentDone good s) s by
      unfold execTestSegmentDone; with_reducible first | exact .done s _ | exact .guarded _ s _)
  | testRunTimeout =>
    exact (show Settles (execTestRunTimeout s) s by
      unfold execTestRunTimeout; with_reducible first | exact .done s _ | exact .guarded _ s _)
  | copyRoundStart copyIndex =>
    exact (show Settles (execCopyRoundStart copyIndex s) s by
      unfold execCopyRoundStart; with_reducible first | exact .done s _ | exact .guarded _ s _)
  | copyDigestFinal copyIndex poisoned =>
    exact (show Settles (execCopyDigestFinal copyIndex poisoned s) s by
      unfold execCopyDigestFinal; with_reducible first | exact .done s _ | exact .guarded _ s _)
  | copyDecision copyIndex =>
    exact (show Settles (execCopyDecision copyIndex s) s by
      unfold execCopyDecision; with_reducible first | exact .done s _ | exact .guarded _ s _)
  | copyReloadDone copyIndex =>
    exact (show Settles (execCopyReloadDone copyIndex s) s by
      unfold execCopyReloadDone; with_reducible first | exact .done s _ | exact .guarded _ s _)
  | maintEnter =>
    exact (show Settles (execMaintEnter s) s by
      unfold execMaintEnter; with_reducible first | exact .done s _ | exact .guarded _ s _)
  | maintExit =>
    exact (show Settles (execMaintExit s) s by
      unfold execMaintExit; with_reducible first | exact .done s _ | exact .guarded _ s _)
  | stressStart =>
    exact (show Settles (execStressStart s) s by
      unfold execStressStart; with_reducible first | exact .done s _ | exact .guarded _ s _)
  | stressDone results =>
    exact (show Settles (execStressDone results s) s by
      unfold execStressDone; with_reducible first | exact .done s _ | exact .guarded _ s _)
  | markSuspect copyIndex =>
    exact (show Settles (execMarkSuspect copyIndex s) s by
      unfold execMarkSuspect; with_reducible first | exact .done s _ | exact .guarded _ s _)
  | markUnit master testUnit =>
    exact (show Settles (execMarkUnit master testUnit s) s by
      unfold execMarkUnit; with_reducible first | exact .done s _ | exact .guarded _ s _)
  | profileDecision =>
    exact (show Settles (execProfileDecision s) s by
      unfold execProfileDecision; with_reducible first | exact .done s _ | exact .guarded _ s _)
  | reqProfile master profile =>
    exact (show Settles (execReqProfile master profile s) s by
      unfold execReqProfile; with_reducible first | exact .done s _ | exact .guarded _ s _)
  | heartbeatLost =>
    exact (show Settles (execHeartbeatLost s) s by
      unfold execHeartbeatLost; with_reducible first | exact .done s _ | exact .guarded _ s _)
  | fastStep =>
    exact (show Settles (execFastStep s) s by
      unfold execFastStep; with_reducible first | exact .done s _ | exact .guarded _ s _)
  | pcapRelease =>
    exact (show Settles (execPcapRelease s) s by
      unfold execPcapRelease; with_reducible first | exact .done s _ | exact .guarded _ s _)
  | inputDip centivolts =>
    exact (show Settles (execInputDip centivolts s) s by
      unfold execInputDip; with_reducible first | exact .done s _ | exact .guarded _ s _)
  | throttleLift centivolts =>
    exact (show Settles (execThrottleLift centivolts s) s by
      unfold execThrottleLift; with_reducible first | exact .done s _ | exact .guarded _ s _)
  | inputLow centivolts =>
    exact (show Settles (execInputLow centivolts s) s by
      unfold execInputLow; with_reducible first | exact .done s _ | exact .guarded _ s _)
  | droop domain =>
    exact (show Settles (execDroop domain s) s by
      unfold execDroop; with_reducible first | exact .done s _ | exact .guarded _ s _)
  | droopRecover domain cycles removed =>
    exact (show Settles (execDroopRecover domain cycles removed s) s by
      unfold execDroopRecover; with_reducible first | exact .done s _ | exact .guarded _ s _)
  | ilkPeerChange asserted =>
    exact (show Settles (execIlkPeerChange asserted s) s by
      unfold execIlkPeerChange; with_reducible first | exact .done s _ | exact .guarded _ s _)
  | ownBusChange asserted =>
    exact (show Settles (execOwnBusChange asserted s) s by
      unfold execOwnBusChange; with_reducible first | exact .done s _ | exact .guarded _ s _)
  | claimGuard =>
    exact (show Settles (execClaimGuard s) s by
      unfold execClaimGuard; with_reducible first | exact .done s _ | exact .guarded _ s _)
  | claimConfirm =>
    exact (show Settles (execClaimConfirm s) s by
      unfold execClaimConfirm; with_reducible first | exact .done s _ | exact .guarded _ s _)
  | stuckLine =>
    exact (show Settles (execStuckLine s) s by
      unfold execStuckLine; with_reducible first | exact .done s _ | exact .guarded _ s _)
  | revertClaim =>
    exact (show Settles (execRevertClaim s) s by
      unfold execRevertClaim; with_reducible first | exact .done s _ | exact .guarded _ s _)
  | admitDecision tick =>
    exact (show Settles (execAdmitDecision tick s) s by
      unfold execAdmitDecision; with_reducible first | exact .done s _ | exact .guarded _ s _)
  | powerOn =>
    exact (show Settles (execPowerOn s) s by
      unfold execPowerOn; with_reducible first | exact .done s _ | exact .guarded _ s _)
  | modResetN asserted =>
    exact (show Settles (execModResetN asserted s) s by
      unfold execModResetN; with_reducible first | exact .done s _ | exact .guarded _ s _)
  | moduleReset master =>
    exact (show Settles (execModuleReset master s) s by
      unfold execModuleReset; with_reducible first | exact .done s _ | exact .guarded _ s _)
  | recoveryReset master =>
    exact (show Settles (execRecoveryReset master s) s by
      unfold execRecoveryReset; with_reducible first | exact .done s _ | exact .guarded _ s _)
  | watchdog =>
    exact (show Settles (execWatchdog s) s by
      unfold execWatchdog; with_reducible first | exact .done s _ | exact .guarded _ s _)
  | moduleStart slotId ringSel priN corrupt =>
    exact (show Settles (execModuleStart slotId ringSel priN corrupt s) s by
      unfold execModuleStart; with_reducible first | exact .done s _ | exact .guarded _ s _)
  | tickZero =>
    exact (show Settles (execTickZero s) s by
      unfold execTickZero; with_reducible first | exact .done s _ | exact .guarded _ s _)
  | imgOpen master typ length =>
    exact (show Settles (execImgOpen master typ length s) s by
      unfold execImgOpen; with_reducible first | exact .done s _ | exact .guarded _ s _)
  | eraseDone =>
    exact (show Settles (execEraseDone s) s by
      unfold execEraseDone; with_reducible first | exact .done s _ | exact .guarded _ s _)
  | imgBlock master =>
    exact (show Settles (execImgBlock master s) s by
      unfold execImgBlock; with_reducible first | exact .done s _ | exact .guarded _ s _)
  | blockProgrammed =>
    exact (show Settles (execBlockProgrammed s) s by
      unfold execBlockProgrammed; with_reducible first | exact .done s _ | exact .guarded _ s _)
  | imgClose master =>
    exact (show Settles (execImgClose master s) s by
      unfold execImgClose; with_reducible first | exact .done s _ | exact .guarded _ s _)
  | verifyDone =>
    exact (show Settles (execVerifyDone s) s by
      unfold execVerifyDone; with_reducible first | exact .done s _ | exact .guarded _ s _)
  | imgAbort master =>
    exact (show Settles (execImgAbort master s) s by
      unfold execImgAbort; with_reducible first | exact .done s _ | exact .guarded _ s _)
  | imgActivate master =>
    exact (show Settles (execImgActivate master s) s by
      unfold execImgActivate; with_reducible first | exact .done s _ | exact .guarded _ s _)
  | fwConfirm master =>
    exact (show Settles (execFwConfirm master s) s by
      unfold execFwConfirm; with_reducible first | exact .done s _ | exact .guarded _ s _)
  | ptpFollowUp port domain master seq origin corr =>
    exact (show Settles (execPtpFollowUp port domain master seq origin corr s) s by
      unfold execPtpFollowUp; with_reducible first | exact .done s _ | exact .guarded _ s _)
  | hostLinkUp speed width =>
    exact (show Settles (execHostLinkUp speed width s) s by
      unfold execHostLinkUp; with_reducible first | exact .done s _ | exact .guarded _ s _)
  | ringTrainingFailure port =>
    exact (show Settles (execRingTrainingFailure port s) s by
      unfold execRingTrainingFailure; with_reducible first | exact .done s _ | exact .guarded _ s _)
  | aux12vPresence present =>
    exact (show Settles (execAux12vPresence present s) s by
      unfold execAux12vPresence; with_reducible first | exact .done s _ | exact .guarded _ s _)
  | ref10mPresence present inRange =>
    exact (show Settles (execRef10mPresence present inRange s) s by
      unfold execRef10mPresence; with_reducible first | exact .done s _ | exact .guarded _ s _)
end Sys2Proof.Machine
end

