-- ==== Sys2Proof/Laws/Work.lean ====
section
/-! SUPPORT. What the shared operations on work, queues, the ring and the pair can change: one frame for each, and what
they leave of the tick's own registers. -/

namespace Sys2Proof.Machine

variable {ps : List Part} {s t u : State}

/-- A frame is extended by one operation whose own frame it contains. -/
theorem onlyIn_then {qs : List Part} (h : OnlyIn ps s t) (k : OnlyIn qs t u) (hs : ∀ p ∈ qs, p ∈ ps) : OnlyIn ps s u :=
  onlyIn_trans h (onlyIn_mono k hs)

theorem onlyIn_onAct (a : Nat) (f : Act → Act) (h : Part.acts ∈ ps) : OnlyIn ps s (s.onAct a f) :=
  onlyIn_onActs (fun t => t.upd a f) h

theorem onlyIn_onRun (a : Nat) (f : OpRun → OpRun) (h : Part.acts ∈ ps) : OnlyIn ps s (s.onRun a f) := onlyIn_onAct a _ h

theorem onlyIn_opOutcome (a code : Nat) (h : Part.acts ∈ ps) : OnlyIn ps s (s.opOutcome a code) := onlyIn_onRun a _ h

theorem onlyIn_opBegin (a : Nat) (o : OpRec) (h : Part.acts ∈ ps) : OnlyIn ps s (s.opBegin a o) := onlyIn_onAct a _ h

theorem onlyIn_onEng (ch : Nat) (f : Engines → Engines) (h : Part.engs ∈ ps) : OnlyIn ps s (s.onEng ch f) :=
  onlyIn_onEngs (fun t => t.upd ch f) h

theorem onlyIn_meSet (ch : Nat) (f : EngineRegs → EngineRegs) (h : Part.engs ∈ ps) : OnlyIn ps s (s.meSet ch f) := onlyIn_onEng ch _ h

theorem onlyIn_aeSet (ch : Nat) (f : EngineRegs → EngineRegs) (h : Part.engs ∈ ps) : OnlyIn ps s (s.aeSet ch f) := onlyIn_onEng ch _ h

theorem onlyIn_onQueue (a : Nat) (f : Queue → Queue) (h : Part.dma ∈ ps) : OnlyIn ps s (s.onQueue a f) :=
  onlyIn_onDma (fun d => { d with queues := d.queues.upd a f }) h

theorem onlyIn_onRport (p : Nat) (f : RPort → RPort) (h : Part.ring ∈ ps) : OnlyIn ps s (s.onRport p f) :=
  onlyIn_onRing (fun r => { r with ports := r.ports.upd p f }) h

theorem onlyIn_meCycles (a n : Nat) (h : Part.engs ∈ ps) (k : Part.cnt ∈ ps) : OnlyIn ps s (s.meCycles a n) :=
  onlyIn_trans (onlyIn_meSet _ _ h) (onlyIn_count _ _ _ _ k)

theorem onlyIn_aeCycles (a n : Nat) (h : Part.engs ∈ ps) (k : Part.cnt ∈ ps) : OnlyIn ps s (s.aeCycles a n) :=
  onlyIn_trans (onlyIn_aeSet _ _ h) (onlyIn_count _ _ _ _ k)

theorem onlyIn_flagLate (a : Nat) : OnlyIn [.acts, .tick, .cnt] s (s.flagLate a) :=
  onlyIn_trans (onlyIn_flagAct _ _ (by decide)) (onlyIn_evTick _ (by decide) (by decide))

theorem onlyIn_copyOutcome (a code : Nat) : OnlyIn [.acts] s (s.copyOutcome a code) := onlyIn_onActs _ (by decide)

theorem onlyIn_queueEnd (a code : Nat) : OnlyIn [.dma, .acts, .cnt] s (s.queueEnd a code) :=
  onlyIn_trans (onlyIn_trans (onlyIn_onDma _ (by decide)) (onlyIn_evQueue _ _ (by decide) (by decide)))
    (onlyIn_mono (onlyIn_copyOutcome a code) (by decide))

theorem onlyIn_queueStop (a : Nat) (w : QStop) : OnlyIn [.dma, .acts, .cnt] s (s.queueStop a w) := by
  unfold State.queueStop
  dsimp only
  split
  · exact onlyIn_refl _ _
  · split
    · exact onlyIn_queueEnd _ _
    · split
      · exact onlyIn_onDma _ (by decide)
      · exact onlyIn_refl _ _

theorem onlyIn_editDrop (a : Nat) : OnlyIn [.leaf, .acts] s (s.editDrop a) := by
  unfold State.editDrop
  split
  · split
    · exact onlyIn_trans (onlyIn_onLeaf _ (by decide)) (onlyIn_onRun _ _ (by decide))
    · exact onlyIn_refl _ _
  · exact onlyIn_refl _ _

theorem onlyIn_enginesLeave (a : Nat) : OnlyIn [.engs] s (s.enginesLeave a) := by
  unfold State.enginesLeave
  split
  · split
    · exact onlyIn_meSet _ _ (by decide)
    · split
      · exact onlyIn_aeSet _ _ (by decide)
      · exact onlyIn_refl _ _
  · exact onlyIn_refl _ _

theorem onlyIn_dropWork (a : Nat) (w : QStop) : OnlyIn [.dma, .acts, .cnt, .leaf, .engs] s (s.dropWork a w) := by
  unfold State.dropWork
  dsimp only
  refine onlyIn_trans (onlyIn_then ?_ (onlyIn_enginesLeave a) (by decide)) (onlyIn_onAct _ _ (by decide))
  repeat' split
  all_goals first
    | exact onlyIn_mono (onlyIn_queueStop _ _) (by decide)
    | exact onlyIn_then (onlyIn_mono (onlyIn_queueEnd a w.code) (by decide)) (onlyIn_editDrop a) (by decide)

/-- The parts that giving work up can touch. -/
abbrev workParts : List Part := [.tick, .acts, .dma, .engs, .leaf, .cnt]

theorem onlyIn_abandon (a : Nat) : OnlyIn workParts s (s.abandon a) := by
  unfold State.abandon
  exact onlyIn_trans (onlyIn_then (onlyIn_mono (onlyIn_flagLate a) (by decide)) (onlyIn_dropWork a .cut) (by decide))
    (onlyIn_onAct _ _ (by decide))

theorem onlyIn_carryDrop (a : Nat) : OnlyIn workParts s (s.carryDrop a) := by
  unfold State.carryDrop
  exact onlyIn_trans (onlyIn_trans (onlyIn_then (onlyIn_mono (onlyIn_flagLate a) (by decide)) (onlyIn_dropWork a .cut) (by decide))
    (onlyIn_evTick _ (by decide) (by decide))) (onlyIn_onAct _ _ (by decide))

theorem onlyIn_stretchDrop : OnlyIn workParts s s.stretchDrop :=
  onlyIn_foldl _ (fun _ _ => onlyIn_trans (onlyIn_abandon _) (onlyIn_evTick _ (by decide) (by decide))) _ _

theorem onlyIn_straggle : OnlyIn workParts s s.straggle := onlyIn_foldl _ (fun _ _ => onlyIn_abandon _) _ _

theorem onlyIn_cutWork : OnlyIn workParts s s.cutWork := by
  unfold State.cutWork
  dsimp only
  exact onlyIn_trans (onlyIn_foldl _ (fun _ _ => onlyIn_abandon _) _ _)
    (onlyIn_foldl _ (fun _ _ => onlyIn_mono (onlyIn_queueStop _ _) (by decide)) _ _)

theorem onlyIn_carryExpire : OnlyIn workParts s s.carryExpire := by
  unfold State.carryExpire
  refine onlyIn_foldl _ (fun s a => ?_) _ _
  split
  · exact onlyIn_carryDrop a
  · exact onlyIn_refl _ _

theorem onlyIn_overrun : OnlyIn workParts s s.overrun := onlyIn_trans onlyIn_cutWork onlyIn_carryExpire

/-! ### The tick's own registers -/

/-- Two states whose ticks differ in their event register alone. -/
def EventsOnly (s t : State) : Prop := ∃ e, t.tick = { s.tick with events := e }

theorem eventsOnly_refl (s : State) : EventsOnly s s := ⟨s.tick.events, rfl⟩

theorem eventsOnly_trans (h : EventsOnly s t) (k : EventsOnly t u) : EventsOnly s u := by
  obtain ⟨e, he⟩ := h
  obtain ⟨f, hf⟩ := k
  exact ⟨f, by rw [hf, he]⟩

theorem eventsOnly_of_frame {qs : List Part} (h : OnlyIn qs s t) (hq : Part.tick ∉ qs) : EventsOnly s t :=
  ⟨s.tick.events, h.rest .tick hq⟩

theorem eventsOnly_foldl {α : Type} (f : State → α → State) (h : ∀ s x, EventsOnly s (f s x)) :
    ∀ (l : List α) (s : State), EventsOnly s (l.foldl f s)
  | [], s => eventsOnly_refl s
  | x :: r, s => eventsOnly_trans (h s x) (eventsOnly_foldl f h r (f s x))

theorem eventsOnly_evTick (i : Nat) : EventsOnly s (s.evTick i) := ⟨bitSet s.tick.events i, by simp [State.evTick]⟩

theorem eventsOnly_flagLate (a : Nat) : EventsOnly s (s.flagLate a) :=
  eventsOnly_trans (eventsOnly_of_frame (onlyIn_flagAct (ps := [.acts]) a _ (by decide)) (by decide)) (eventsOnly_evTick 0)

theorem eventsOnly_abandon (a : Nat) : EventsOnly s (s.abandon a) := by
  unfold State.abandon
  exact eventsOnly_trans (eventsOnly_trans (eventsOnly_flagLate a)
    (eventsOnly_of_frame (onlyIn_dropWork a .cut) (by decide)))
    (eventsOnly_of_frame (onlyIn_onAct (ps := [.acts]) _ _ (by decide)) (by decide))

theorem eventsOnly_carryDrop (a : Nat) : EventsOnly s (s.carryDrop a) := by
  unfold State.carryDrop
  exact eventsOnly_trans (eventsOnly_trans (eventsOnly_trans (eventsOnly_flagLate a)
    (eventsOnly_of_frame (onlyIn_dropWork a .cut) (by decide))) (eventsOnly_evTick 4))
    (eventsOnly_of_frame (onlyIn_onAct (ps := [.acts]) _ _ (by decide)) (by decide))

theorem eventsOnly_cutWork : EventsOnly s s.cutWork := by
  unfold State.cutWork
  dsimp only
  exact eventsOnly_trans (eventsOnly_foldl State.abandon (fun _ a => eventsOnly_abandon a) (s.outstandingOf 1) s)
    (eventsOnly_foldl _ (fun _ a => eventsOnly_of_frame (onlyIn_queueStop a .cut) (by decide)) _ _)

theorem eventsOnly_carryExpire : EventsOnly s s.carryExpire := by
  unfold State.carryExpire
  refine eventsOnly_foldl _ (fun s a => ?_) _ _
  split
  · exact eventsOnly_carryDrop a
  · exact eventsOnly_refl _

/-- The overrun policies change of the tick's own registers the event bits alone. -/
theorem eventsOnly_overrun : EventsOnly s s.overrun := eventsOnly_trans eventsOnly_cutWork eventsOnly_carryExpire

theorem eventsOnly_stretchDrop : EventsOnly s s.stretchDrop :=
  eventsOnly_foldl _ (fun _ a => eventsOnly_trans (eventsOnly_abandon a) (eventsOnly_evTick 1)) _ _

/-! ### The ring and the pair -/

theorem onlyIn_frameOut (p : Nat) (f : RFrame) : OnlyIn [.ring, .sent] s (s.frameOut p f) := by
  unfold State.frameOut
  dsimp only
  split
  · exact onlyIn_onRing _ (by decide)
  · exact onlyIn_trans (onlyIn_onRing _ (by decide)) (onlyIn_out _ (by decide))

theorem onlyIn_laneZero (dest typ : Nat) (b : List Byte) : OnlyIn [.ring, .sent] s (s.laneZero dest typ b) := by
  unfold State.laneZero
  split
  · exact onlyIn_frameOut _ _
  · exact onlyIn_refl _ _

theorem onlyIn_broadcast (typ : Nat) (b : List Byte) : OnlyIn [.ring, .sent] s (s.broadcast typ b) := by
  unfold State.broadcast
  refine onlyIn_foldl _ (fun s p => ?_) _ _
  split
  · exact onlyIn_frameOut _ _
  · exact onlyIn_refl _ _

theorem onlyIn_sendRingEvent (k m n : Nat) : OnlyIn [.ring, .sent] s (s.sendRingEvent k m n) := by
  unfold State.sendRingEvent
  split
  · exact onlyIn_refl _ _
  · exact onlyIn_broadcast _ _

theorem onlyIn_toStandby : OnlyIn [.pair] s s.toStandby := onlyIn_onPair _ (by decide)

theorem onlyIn_pairRelease : OnlyIn [.pair, .cnt] s s.pairRelease := by
  unfold State.pairRelease
  dsimp only
  exact onlyIn_trans (onlyIn_trans (onlyIn_mono onlyIn_toStandby (by decide)) (onlyIn_onPair _ (by decide)))
    (onlyIn_evPair _ (by decide) (by decide))

theorem onlyIn_pairUpdate : OnlyIn [.pair, .cnt] s s.pairUpdate := by
  have k : ∀ u : State, OnlyIn [.pair, .cnt] u u.toStandby := fun u => onlyIn_mono onlyIn_toStandby (by decide)
  unfold State.pairUpdate
  extract_lets s0
  have h0 : OnlyIn [.pair, .cnt] s s0 := onlyIn_onPair _ (by decide)
  clear_value s0
  repeat' split
  all_goals first
    | exact h0
    | exact onlyIn_trans h0 (k s0)
    | exact onlyIn_trans h0 onlyIn_pairRelease

theorem onlyIn_setCause (i : Nat) (v : Bool) : OnlyIn [.pair, .cnt, .ring, .sent] s (s.setCause i v) := by
  unfold State.setCause
  dsimp only
  split
  · refine onlyIn_then ?_ onlyIn_pairUpdate (by decide)
    split
    · exact onlyIn_trans (onlyIn_then (onlyIn_onPair _ (by decide)) (onlyIn_sendRingEvent _ _ _) (by decide))
        (onlyIn_onPair _ (by decide))
    · exact onlyIn_onPair _ (by decide)
  · exact onlyIn_then (onlyIn_onPair _ (by decide)) onlyIn_pairUpdate (by decide)

theorem onlyIn_suspects : OnlyIn [.pair, .tick, .cnt, .ring, .sent] s s.suspects := by
  unfold State.suspects
  refine onlyIn_foldl _ (fun s m => ?_) _ _
  dsimp only
  split
  · exact onlyIn_refl _ _
  · split
    · split
      · exact onlyIn_then (onlyIn_onPair _ (by decide)) (onlyIn_sendRingEvent _ _ _) (by decide)
      · exact onlyIn_refl _ _
    · split
      · exact onlyIn_then (onlyIn_trans (onlyIn_onPair _ (by decide)) (onlyIn_evTick _ (by decide) (by decide)))
          (onlyIn_sendRingEvent _ _ _) (by decide)
      · exact onlyIn_refl _ _

/-- Raising and clearing SUSPECT changes of the tick's own registers the event bits alone. -/
theorem eventsOnly_suspects : EventsOnly s s.suspects := by
  unfold State.suspects
  refine eventsOnly_foldl _ (fun s m => ?_) _ _
  dsimp only
  split
  · exact eventsOnly_refl _
  · split
    · split
      · exact eventsOnly_trans (eventsOnly_of_frame (onlyIn_onPair (ps := [.pair]) _ (by decide)) (by decide))
          (eventsOnly_of_frame (onlyIn_sendRingEvent _ _ _) (by decide))
      · exact eventsOnly_refl _
    · split
      · exact eventsOnly_trans (eventsOnly_trans (eventsOnly_of_frame (onlyIn_onPair (ps := [.pair]) _ (by decide)) (by decide))
          (eventsOnly_evTick 10)) (eventsOnly_of_frame (onlyIn_sendRingEvent _ _ _) (by decide))
      · exact eventsOnly_refl _

end Sys2Proof.Machine
end

