-- ==== Sys2Proof/WellFormed.lean ====
section
/-! DEFINITION. Well-formed commands: operands within what the rules let the event carry. -/

namespace Sys2Proof

/-- The master identities of R122. -/
def legalMaster (m : Nat) : Bool :=
  decide ((1 ≤ m ∧ m ≤ 9) ∨ (0x10 ≤ m ∧ m ≤ 0x12) ∨ (0x20 ≤ m ∧ m ≤ 0x37) ∨ m = 0x40 ∨ m = 0x41)

/-- Whether a command's operands are within their ranges. -/
def Instr.wellFormed : Instr → Bool
  | .ptpSync _ domain _ _ _ _ _ => decide (domain ≤ 127)
  | .ppsEdge => true
  | .tbHoldover => true
  | .encEdge _ _ => true
  | .nominalBoundary => true
  | .deferredSource => true
  | .filler => true
  | .stretchExpired => true
  | .tickBoundary => true
  | .ready => true
  | .readyReceived _ _ planGen => decide (planGen < 65536)
  | .waitingExpire => true
  | .markerReceived _ _ _ _ _ _ profile planGen _ _ => decide (profile ≤ 4) && decide (planGen < 65536)
  | .memberAbsent _ => true
  | .leaderLost => true
  | .tickOutPulse => true
  | .tickOutPulseEnd => true
  | .rebindValidate => true
  | .rebindCancel => true
  | .coldSelect => true
  | .coldConfirm => true
  | .rebindValidationDone => true
  | .registerWrite _ _ master _ _ _ => legalMaster master
  | .wpWrite master off _ => legalMaster master && decide (off % 4 = 0)
  | .wpComplement master off _ => legalMaster master && decide (off % 4 = 0)
  | .wpWindowExpire off => decide (off % 4 = 0)
  | .rmbRequest master _ => legalMaster master
  | .rmbCapture master => legalMaster master
  | .txSend master _ _ _ => legalMaster master
  | .rxPop master _ _ _ => legalMaster master
  | .mbStatRead master _ _ => legalMaster master
  | .dbPendingClear master _ => legalMaster master
  | .bindStatusRead master => legalMaster master
  | .bar2Access isRead off size bytes => decide (off + size ≤ 0x10000000) && (isRead || decide (bytes.length = size))
  | .bar2Timeout off => decide (off < 0x10000000)
  | .bar4Access isRead off size bytes => decide (off + size ≤ 0x100000000) && (isRead || decide (bytes.length = size))
  | .bar4Timeout off => decide (off < 0x100000000)
  | .bar4WinWrite _ => true
  | .bankZeroDone _ _ => true
  | .loanWrite master _ _ _ => legalMaster master
  | .dmaGo master _ _ => legalMaster master
  | .dmaAbort master _ _ => legalMaster master
  | .dmaBeat _ _ line inBytes => decide (line ≤ 3) && decide (inBytes.length ≤ 128)
  | .dmaTransferDone _ _ ack => decide (ack = 0 ∨ ack = 7 ∨ ack = 8)
  | .reservationStart _ _ cls _ opseq _ _ line => decide (1 ≤ cls ∧ cls ≤ 11) && decide (opseq ≤ 0xFF) && decide (line ≤ 3)
  | .reservationEnd _ _ cls _ => decide (1 ≤ cls ∧ cls ≤ 11)
  | .matmul _ _ _ line _ => decide (line ≤ 3)
  | .conv _ _ _ line _ => decide (line ≤ 3)
  | .attn _ => true
  | .attnSnapshot _ _ _ line => decide (line ≤ 3)
  | .gemvStream _ _ _ line => decide (line ≤ 3)
  | .copy _ => true
  | .space2depth _ _ _ => true
  | .depth2space _ _ _ => true
  | .tconvPrep _ _ _ => true
  | .leafEdit _ _ _ => true
  | .leafEditRecord _ ack => decide (ack = 0 ∨ ack = 7 ∨ ack = 8)
  | .spillComplete leaf ack => decide (ack = 0 ∨ ack = 7 ∨ ack = 8) && decide (leaf < 16777216)
  | .fetchSlotTaken leaf => decide (leaf < 16777216)
  | .fetchComplete leaf ack _ => decide (ack = 0 ∨ ack = 7 ∨ ack = 8) && decide (leaf < 16777216)
  | .codecSetup _ _ => true
  | .codecCollect _ _ => true
  | .codecSubmit _ _ => true
  | .codecRestart _ _ => true
  | .boxdec _ _ => true
  | .nmsTidy _ _ => true
  | .sample _ _ => true
  | .draft _ _ => true
  | .rmsnorm _ _ => true
  | .swiglu _ _ => true
  | .check _ _ => true
  | .digest _ _ => true
  | .resultOut _ => true
  | .opEnd _ => true
  | .accessUnit _ _ _ _ _ _ _ _ => true
  | .pictureDone _ _ _ _ _ _ _ _ _ _ _ _ _ _ _ _ _ => true
  | .timeCut _ _ => true
  | .ethernetFrame _ frame => decide (frame.length ≤ 9216)
  | .gvspLeader _ _ _ _ _ _ _ _ _ => true
  | .gvspPayload _ _ _ _ _ _ bytes => decide (bytes.length ≤ 9216)
  | .gvspTrailer _ _ _ _ _ => true
  | .zeroFill _ => true
  | .rtpPacket _ _ _ packet => decide (packet.length ≤ 9216)
  | .ptpDelayResp _ domain _ _ _ _ _ => decide (domain ≤ 127)
  | .ptpAnnounce _ domain _ _ => decide (domain ≤ 127)
  | .delayReq => true
  | .arpRequest _ _ _ _ => true
  | .arpReply _ _ _ => true
  | .arpTimer _ _ => true
  | .arpEntryExpire _ _ => true
  | .resultRecordSend _ => true
  | .vdlUpdate _ => true
  | .vdlChange => true
  | .vdlValidRise => true
  | .portLinkDown _ => true
  | .portLinkUp _ => true
  | .ringSignalDetect _ => true
  | .laneLock _ _ => true
  | .ident _ accession ring farPort _ _ _ => decide (accession.length = 16) && decide (ring ≤ 1) && decide (farPort ≤ 1)
  | .ringLossOfSignal _ => true
  | .delayTimer _ => true
  | .delay _ _ _ _ _ => true
  | .linkReport _ east west eastSkip westSkip => decide (east ≤ 3 ∧ west ≤ 3 ∧ eastSkip ≤ 2 ∧ westSkip ≤ 2)
  | .linkReportSend => true
  | .ringFrame _ _ payload _ => decide (payload.length % 64 = 0) && decide (payload.length ≤ 512)
  | .ringAck _ seq => decide (seq < 4096)
  | .ringNak _ seq => decide (seq < 4096)
  | .replayTimeout _ => true
  | .retrainDone _ _ => true
  | .spillWrite lane _ _ _ _ => decide (1 ≤ lane.val)
  | .spillRead lane _ _ _ line => decide (1 ≤ lane.val) && decide (line ≤ 3)
  | .spillFree lane _ _ _ => decide (1 ≤ lane.val)
  | .spillAck lane _ _ => decide (1 ≤ lane.val)
  | .readData lane _ _ => decide (1 ≤ lane.val)
  | .dataFrame lane _ bytes => decide (1 ≤ lane.val) && decide (bytes.length = 512)
  | .ringEvent kind _ _ => decide (kind ≤ 3)
  | .revoke _ _ _ => true
  | .digestMessage _ _ kind _ value => decide (kind ≤ 1) && decide (value.length = 64)
  | .forceBypass _ => true
  | .vfFlr _ => true
  | .pfFlr => true
  | .hostLinkDown => true
  | .secondaryBusReset => true
  | .numvfsWrite count => decide (count ≤ 8)
  | .pciConfigWrite _ _ _ => true
  | .perstN _ => true
  | .msixUnmask _ vector => decide (vector ≤ 3)
  | .hswCtrlWrite master _ _ => legalMaster master
  | .hostCompletion _ status => decide (status ≤ 3)
  | .cplTimeout _ => true
  | .ideKm _ _ _ => true
  | .kSetGo _ _ => true
  | .ideInsecure _ => true
  | .getTdispVersion _ _ => true
  | .getTdispCapabilities _ _ => true
  | .lockInterfaceRequest _ _ _ => true
  | .getDeviceInterfaceReport _ _ => true
  | .getDeviceInterfaceState _ _ => true
  | .startInterfaceRequest _ _ _ => true
  | .stopInterfaceRequest _ _ => true
  | .tdispOtherRequest _ _ _ => true
  | .removalFence _ => true
  | .removalComplete _ => true
  | .reclaimDone _ => true
  | .keyExchange _ => true
  | .endSession _ => true
  | .spdmHeartbeat _ => true
  | .spdmHeartbeatLost _ => true
  | .keyUpdate _ => true
  | .getCertificate _ => true
  | .challenge _ _ => true
  | .getMeasurements _ index _ => decide (1 ≤ index ∧ index ≤ 7)
  | .setEndpointId _ => true
  | .getEndpointId => true
  | .getEndpointUuid => true
  | .getMctpVersionSupport => true
  | .getMessageTypeSupport => true
  | .getVendorDefinedMessageSupport => true
  | .regRead tag _ => decide (tag < 256)
  | .regWrite tag _ _ => decide (tag < 256)
  | .heartbeat tag seq => decide (tag < 256) && decide (seq < 4294967296)
  | .capSet tag cap => decide (tag < 256) && decide (cap < 65536)
  | .imageBlock tag _ _ _ blkLen _ bytes => decide (tag < 256) && decide (blkLen ≤ 4096) && decide (bytes.length = blkLen)
  | .imageStatus tag => decide (tag < 256)
  | .keyDeliver _ _ _ key => decide (key.length = 32)
  | .weightLoad _ _ _ _ _ _ _ _ _ => true
  | .loadComplete _ => true
  | .rotate _ _ => true
  | .consent _ _ record => decide (record.length = 192)
  | .consentEnd _ _ _ => true
  | .ksiStatus _ _ => true
  | .tamper _ => true
  | .cntClear master isModule _ index => legalMaster master && (isModule || decide (index.val < 16))
  | .sensorUpdate _ _ => true
  | .sensorFaultClear _ => true
  | .thermalRelease _ _ => true
  | .flowLow => true
  | .thermalTrip _ => true
  | .replan => true
  | .replanTimer => true
  | .replanDone _ => true
  | .healthUpdate _ => true
  | .calCommit => true
  | .spotCompare _ _ => true
  | .spotTimeout _ => true
  | .testSegment _ => true
  | .testSegmentDone _ => true
  | .testRunTimeout => true
  | .copyRoundStart _ => true
  | .copyDigestFinal _ _ => true
  | .copyDecision _ => true
  | .copyReloadDone _ => true
  | .maintEnter => true
  | .maintExit => true
  | .stressStart => true
  | .stressDone _ => true
  | .markSuspect _ => true
  | .markUnit master _ => legalMaster master
  | .profileDecision => true
  | .reqProfile master _ => legalMaster master
  | .heartbeatLost => true
  | .fastStep => true
  | .pcapRelease => true
  | .inputDip _ => true
  | .throttleLift _ => true
  | .inputLow _ => true
  | .droop domain => decide (domain < 13)
  | .droopRecover domain _ _ => decide (domain < 13)
  | .ilkPeerChange _ => true
  | .ownBusChange _ => true
  | .claimGuard => true
  | .claimConfirm => true
  | .stuckLine => true
  | .revertClaim => true
  | .admitDecision _ => true
  | .powerOn => true
  | .modResetN _ => true
  | .moduleReset master => legalMaster master
  | .recoveryReset master => legalMaster master
  | .watchdog => true
  | .moduleStart slotId _ _ corrupt => decide (slotId ≤ 15) && decide (corrupt < 64)
  | .tickZero => true
  | .imgOpen master _ _ => legalMaster master
  | .eraseDone => true
  | .imgBlock master => legalMaster master
  | .blockProgrammed => true
  | .imgClose master => legalMaster master
  | .verifyDone => true
  | .imgAbort master => legalMaster master
  | .imgActivate master => legalMaster master
  | .fwConfirm master => legalMaster master
  | .ptpFollowUp _ domain _ _ _ _ => decide (domain ≤ 127)
  | .hostLinkUp speed width => decide (1 ≤ speed ∧ speed ≤ 5) && (decide (width = 1 ∨ width = 2 ∨ width = 4 ∨ width = 8))
  | .ringTrainingFailure _ => true
  | .aux12vPresence _ => true
  | .ref10mPresence _ _ => true

end Sys2Proof
end

