-- ==== Sys2Proof/Tests/Slice0.lean ====
section
/-! SUPPORT. Small checks of the model: ill-formed commands refused, worked examples of the spec, and for each statement a state and
operands that meet its hypotheses. -/

namespace Sys2Proof.Tests

open Sys2Proof Sys2Proof.Machine

set_option Elab.async false

/-- Sixteen zero bytes: the accession number of the module in these tests. -/
def zeros16 : List (BitVec 8) := List.replicate 16 0

/-- The reset state with a binding in force. -/
def bnd (b : Binding) : State := State.reset.onBind fun x => { x with cold := .bound, running := some { b := b } }

/-- A binding of a ring of two members, this module member 0. -/
def ringB2 : Binding := {
  netw := { members := [{ index := 0, succession := 1, buddy := 1, accession := zeros16 }, { index := 1, succession := 2, buddy := 0 }]
            routes := [{ lane := 0, activity := 0, destMember := 1 }] } }

/-- A binding of one activity with one op, ACTIVE in the NORMAL block of profile 0. -/
def opB (o : OpRec) : Binding := {
  dmaq := [{ used := 1 }], ops := [o]
  plan := { blocks := [{ acts := [{ active := true, overrun := 1 }], periodMin := 125000, res := [{ length := 10 }] }] } }

/-- That binding, with more, in force in a running tick, the activity holding a reservation of a class and instance, and owning banks 0
and 1. -/
def opSB (f : Binding → Binding) (o : OpRec) (cls inst : Nat) : State := { bnd (f (opB o)) with
  tick := { running := true }
  acts := [(0, { held := [{ channel := 0, cls := cls, inst := inst, opseq := o.seq }] })]
  spad := { loans := [(0, { owned := true }), (1, { owned := true })] } }

/-- The same with nothing more in the binding. -/
def opS (o : OpRec) (cls inst : Nat) : State := opSB id o cls inst

/-- An open session. -/
def withSession (s : State) (n : Nat) : State := s.onHost fun h => { h with sessions := [(n, { isOpen := true })] }

/-- A follower whose leader is a given member. -/
def mk0 (b : Binding) (leader : Nat) : State := { bnd b with tick := { running := true, role := .follower, leader := leader } }

/-- Parameter bytes: the listed offsets hold the listed values, every other byte 0. -/
def prm (n : Nat) (l : List (Nat × Nat)) : List (BitVec 8) :=
  (List.range n).map fun i => BitVec.ofNat 8 ((l.find? fun x => x.1 == i).elim 0 (·.2))

/-- A DMA program of 64 bytes from a scratchpad address to another. -/
def prog64 (src : DWord) : Prog := { src := src, dst := 64, count := 64, n0 := 1, n1 := 1, n2 := 1 }

/-- A queue of activity 0 in the reset state with a binding of that activity, which owns bank 0. -/
def qS (x : Queue) : State := { bnd { dmaq := [{ used := 1 }] } with
  dma := { queues := [(0, x)] }, spad := { loans := [(0, { owned := true })] } }

/-- A MATMUL of one INT8 row and column into INT32. -/
def mmOp : OpRec := { opcode := 0x0101, params := prm 96 [(0, 7), (1, 7), (2, 10), (8, 1), (12, 1), (16, 96), (28, 128), (37, 1), (45, 2)] }

/-- A 1 by 1 CONV of one pixel and one channel. -/
def cvOp (flags : Nat) : OpRec := { opcode := 0x0102, params := prm 128 [(0, 7), (1, 7), (2, 10), (3, flags), (6, 1), (8, 1), (10, 1), (12, 1), (14, 1),
  (16, 1), (17, 1), (18, 1), (19, 1), (20, 1), (21, 1), (32, 64), (34, 64), (36, 64), (41, 1), (44, 64), (49, 2), (52, 64)] }

/-- An ATTN of one row and one segment with a cache, its tables in bank 0. -/
def atOp : OpRec := { opcode := 0x0201, params := prm 96 [(3, 32), (4, 1), (6, 1), (10, 1), (12, 1), (14, 1), (33, 4)] }

/-- A core op with its parameters. -/
def op (opcode n : Nat) (l : List (Nat × Nat)) : OpRec := { opcode := opcode, params := prm n l }

/-- A codec slot's state in a running tick. -/
def codS (ch k : Nat) (r : CodcRec) (x : CodecSlot) : State := { bnd { dmaq := [{ used := 1 }], codc := [r] } with
  codec := [(8 * ch + k, x)], acts := [(0, { held := [{ cls := 5, inst := k }] })]
  dma := { fifos := [(ch * 256 + 16 + k, { data := [1, 2] })] } }

/-- An RTP packet: version 2, sequence number 65535, SSRC 0, one NAL unit of type 1. -/
def rtpK : List (BitVec 8) := [0x80, 0x60, 0xFF, 0xFF, 0, 0, 0, 0, 0, 0, 0, 0, 0x61, 0xAA]

/-- An ARP request for address 6, padded to 60 bytes, with its frame check sequence. -/
def arpBody : List (BitVec 8) := List.replicate 6 0xFF ++ [2, 0, 0, 0, 0, 1, 0x08, 0x06, 0, 1, 8, 0, 6, 4, 0, 1, 2, 0, 0, 0, 0, 1, 0, 0, 0, 5,
  0, 0, 0, 0, 0, 0, 0, 0, 0, 6] ++ List.replicate 18 0

/-- The frame. -/
def arpFrame : List (BitVec 8) := arpBody ++ toLe 4 (crc32 arpBody).toNat

/-- A frame header with its check. -/
def mkHdr (n : Nat) : BitVec 64 := BitVec.ofNat 64 (n + 2 ^ 48 * (crc16 (toLe 6 n)).toNat)

/-- A ring member with the state of port 1. -/
def rgS (x : RPort) : State := (bnd ringB2).onRing fun r => { r with ports := [(1, x)] }

/-! ### Ill-formed commands: one for each check of `Instr.wellFormed` -/

/-- No master identity (R122). -/
theorem test_wf_masters : [0, 0x0A, 0x0F, 0x13, 0x1F, 0x38, 0x3F, 0x42].map legalMaster = List.replicate 8 false ∧
    [1, 9, 0x10, 0x12, 0x20, 0x37, 0x40, 0x41].map legalMaster = List.replicate 8 true := by decide

/-- Commands from no master, one for each that names its sender. -/
theorem test_wf_refuses_masters : (([.registerWrite false false 0 4 0 0, .wpWrite 0 0 0, .wpComplement 0 0 0, .rmbRequest 0 0,
    .rmbCapture 0, .txSend 0 0 false 0, .rxPop 0 0 false 0, .mbStatRead 0 0 false, .dbPendingClear 0 0, .bindStatusRead 0,
    .loanWrite 0 0 0 0, .dmaGo 0 0 0, .dmaAbort 0 0 0, .hswCtrlWrite 0 0 0, .cntClear 0 true 0 0, .markUnit 0 0, .reqProfile 0 0,
    .moduleReset 0, .recoveryReset 0, .imgOpen 0 1 0, .imgBlock 0, .imgClose 0, .imgAbort 0, .imgActivate 0, .fwConfirm 0] :
      List Instr).any (·.wellFormed)) = false := by decide

/-- Addresses, sizes and lengths out of range. -/
theorem test_wf_refuses_sizes : (([.wpWrite 1 2 0, .wpComplement 1 2 0, .wpWindowExpire 2, .bar2Access true 0x10000000 1 [],
    .bar2Access false 0 2 [1], .bar2Timeout 0x10000000, .bar4Access true 0x100000000 1 [], .bar4Access false 0 2 [1],
    .bar4Timeout 0x100000000, .dmaBeat 0 0 0 (List.replicate 129 0), .ethernetFrame 0 (List.replicate 9217 0),
    .gvspPayload 0 0 0 0 0 0 (List.replicate 9217 0), .rtpPacket 0 0 0 (List.replicate 9217 0), .ident 0 [] 0 0 0 0 0,
    .ringFrame 0 0 [0] 0, .ringFrame 0 0 (List.replicate 576 0) 0, .dataFrame 1 0 [], .digestMessage 0 0 0 0 [], .keyDeliver 0 0 0 [],
    .consent 0 0 [], .imageBlock 256 0 0 0 0 0 [], .imageBlock 0 0 0 0 4097 0 (List.replicate 4097 0), .imageBlock 0 0 0 0 1 0 []] :
      List Instr).any (·.wellFormed)) = false := by decide +kernel

/-- Codes, numbers and times out of range. -/
theorem test_wf_refuses_codes : (([.ptpSync 0 128 0 0 false 0 0, .readyReceived 0 0 65536, .markerReceived 0 0 0 0 0 0 5 0 false 0,
    .markerReceived 0 0 0 0 0 0 0 65536 false 0, .dmaBeat 0 0 4 [], .dmaTransferDone 0 0 1, .reservationStart 0 0 0 0 0 0 0 0,
    .reservationStart 0 0 1 0 256 0 0 0, .reservationStart 0 0 1 0 0 0 0 4, .reservationEnd 0 0 12 0, .matmul 0 0 0 4 false,
    .conv 0 0 0 4 false, .attnSnapshot 0 0 0 4, .gemvStream 0 0 0 4, .leafEditRecord 0 1, .spillComplete 0 1, .spillComplete 16777216 0,
    .fetchSlotTaken 16777216, .fetchComplete 0 1 true, .fetchComplete 16777216 0 true, .ptpDelayResp 0 128 0 0 0 0 0,
    .ptpAnnounce 0 128 0 [], .ptpFollowUp 0 128 0 0 0 0, .ident 0 zeros16 2 0 0 0 0, .ident 0 zeros16 0 2 0 0 0, .linkReport 0 4 0 0 0,
    .linkReport 0 0 0 3 0, .ringAck 0 4096, .ringNak 0 4096, .spillWrite 0 0 0 0 0, .spillRead 0 0 0 0 0, .spillRead 1 0 0 0 4, .spillFree 0 0 0 0,
    .spillAck 0 0 0, .readData 0 0 0, .dataFrame 0 0 (List.replicate 512 0), .ringEvent 4 0 0, .digestMessage 0 0 2 0 (List.replicate 64 0),
    .numvfsWrite 9, .msixUnmask 0 4, .hostCompletion 0 4, .getMeasurements 0 0 false, .getMeasurements 0 8 false, .regRead 256 0,
    .regWrite 256 0 0, .heartbeat 256 0, .heartbeat 0 4294967296, .capSet 256 0, .capSet 0 65536, .imageStatus 256, .cntClear 1 false 0 16,
    .droop 13, .droopRecover 13 0 0, .moduleStart 16 false false 0, .moduleStart 0 false false 64, .hostLinkUp 0 8, .hostLinkUp 1 3] :
      List Instr).any (·.wellFormed)) = false := by decide +kernel

/-! ### The table gives no bits -/

/-- No word spells a command, so the queue is left as it is. -/
theorem test_no_words : decodeTableWord 16 0xFFFF = none ∧ (State.reset.withFetchWord 16 0xFFFF).pending = [] := ⟨rfl, rfl⟩

/-! ### Worked examples of the spec -/

/-- The example under R137: bit-clear by the matrix engine, then bit-set by GC0, in word 0x10 of bank 31. -/
theorem test_bit_windows :
    ((((State.reset.spPut 0 (31 * 524288 + 128) [0xF0, 0, 0, 0]).spWrite 0 (0x4000000 + 31 * 524288 + 128) [0x10, 0, 0, 0]).spWrite 0
      (0x2000000 + 31 * 524288 + 128) [3, 0, 0, 0]).spGet 0 (31 * 524288 + 128) 4) = [0xE3, 0, 0, 0] := by decide +kernel

/-- The E4M3 block of spec/08 (R179): scale 0x79, and 5.1 and 0.01 as FP32 become 0x7A and 0x32, which decode to 5.0 and 0.009765625. -/
theorem test_e4m3_block :
    ((mxBlock 4 false false [.ofW 0x40A33333, .ofW 0x3C23D70A]).1 = 0x79 ∧
      (mxBlock 4 false false [.ofW 0x40A33333, .ofW 0x3C23D70A]).2.map (·.bits) = [0x7A, 0x32]) ∧
    ((elemVal 4 0x7A).mul (scaleVal 0x79)).eqv (.ofInt 5) = true ∧
    ((elemVal 4 0x32).mul (scaleVal 0x79)).eqv (.ofW 0x3C200000) = true := by decide +kernel

/-- The flat-field example of spec/14 (R308): 109, 0 and 255; a set never written returns the pixel. -/
theorem test_flat_field : [100, 8, 250].map (calPixel { width := 1, dark := [0x00C8], gain := [0x5000] } 0) = [109, 0, 255] ∧
    [0, 1, 254, 255].map (calPixel {} 7) = [0, 1, 254, 255] := by decide +kernel

/-- The op of the box example of spec/09 (R204): FORM CENTRE, VX = VY = 0.125, VW = VH = 0.25. -/
def boxOp : OpRec :=
  let p := toLe 4 0 ++ toLe 8 0 ++ toLe 4 0x3E000000 ++ toLe 4 0x3E000000 ++ toLe 4 0x3E800000 ++ toLe 4 0x3E800000 ++ toLe 4 0x40845A1D
  { params := p }

/-- That example's anchor j = 1 at gy = 3, gx = 10: the box (154, 51) to (186, 59). -/
theorem test_box_form :
    let b := boxForm boxOp (fun k => [FVal.fin false 1 (-1), .fin true 1 0, .zero, .zero].getD k .zero) 10 3 (.ofInt 16) (.ofInt 16)
      .zero .zero (.ofInt 32) (.ofInt 8)
    b.1.eqv (.ofInt 154) ∧ b.2.1.eqv (.ofInt 51) ∧ b.2.2.1.eqv (.ofInt 186) ∧ b.2.2.2.eqv (.ofInt 59) := by decide +kernel

/-- A record of the example with its corners. -/
def boxAt (x1 y1 x2 y2 : Int) (score : FVal) : BoxCand :=
  { x1 := .ofInt x1, y1 := .ofInt y1, x2 := .ofInt x2, y2 := .ofInt y2, score := score, anchor := 2281, cls := 1, level := 0 }

/-- Its two boxes overlap by 224 / 288, above 0.45, so the lower-scored one is suppressed (R208, R209). -/
theorem test_box_suppressed :
    ((boxIou (boxAt 154 51 186 59 .one) (boxAt 158 51 190 59 .one)).toW = (fDiv (.ofInt 224) (.ofInt 288)).toW) ∧
    (nmsKeep false (.ofW 0x3EE66666) 4 [] [boxAt 154 51 186 59 .one, boxAt 158 51 190 59 (.fin false 1 (-1))]).1.length = 1 := by
  decide +kernel

/-- MAX_STRETCH 0xFFFF_FFFF in the strip tick of spec/02: 25 % of 800,000 slots (R35). -/
theorem test_max_stretch : PlanBlock.maxStretch { periodMin := 800000, maxStretchRaw := 0xFFFFFFFF } = 200000 := by decide

/-- The serving example of spec/11: 15 rows of W = 544 E4M3 elements to a leaf. -/
theorem test_rows_per_leaf : rowsPerLeaf 2 544 = 15 := by decide

/-- VDL[3:2] take verdict bits 0 and 1 (R316). -/
theorem test_vdl_bits : vdlBits 0x0C 0x01 = 0x04 ∧ vdlBits 0x0C 0x02 = 0x08 ∧ vdlBits 0x0C 0x03 = 0x0C := by decide

/-- The check values of the CRCs over the digits 1 to 9. -/
theorem test_crcs : crc32c (ascii "123456789") = 0xE3069283 ∧ crc32 (ascii "123456789") = 0xCBF43926 := by decide +kernel

/-- COLD_CONFIRM as R110's example writes it: one 8-byte write of 0xFFFF_FFFB_0000_0004 to 0x5010 raises SERIAL_FLOOR (R77). -/
theorem test_cold_confirm :
    (match exec (.registerWrite false true 1 8 0x5010 0xFFFFFFFB00000004) (bnd { col := { serial := 9 } }) with
      | .next t => t.bind.serialFloor
      | _ => 0) = 9 := by decide +kernel

/-- Two NaN outputs of activity 0x25 in CH2 count in channel counter 4 of spec/18's example, once consent is in force (R372, R373). -/
theorem test_nan_counter :
    let b : Binding := {
      cntr := [{ scopeKind := 0, channel := 2, index := 4, event := 0x60, scope := 0x25, mode := 3, owner := 0x25 }]
      dmaq := List.replicate 37 {} ++ [{ used := 1, tenant := 3 }] }
    let s := (bnd b).onKsi fun k => { k with tenants := [(3, { counters := { inForce := true } })] }
    ((s.count 0x60 (some 2) (some 0x25) 2).cnt.get 36).value = 2 ∧
    (((bnd b).count 0x60 (some 2) (some 0x25) 2).cnt.get 36).value = 0 := by decide +kernel

/-- With no command waiting a nanosecond passes (the model's own tick, log 1). -/
theorem test_empty_queue_idles : (match step State.reset with
      | .next t => (t.pending, t.tb.time)
      | _ => ([], 0)) = ([], State.reset.tb.time + 1) := by decide +kernel

/-! ### States and operands that meet the hypotheses of the statements -/

theorem test_meets_StepRunsFront :
    (∃ (s : State), s.pending = [] ∧ s.live = true) ∧
    (∃ (s : State), s.pending = [] ∧ s.start.p48 = false) :=
  ⟨⟨(State.reset), by decide +kernel⟩,
   ⟨(State.reset.onStart fun x => { x with p48 := false }), by decide +kernel⟩⟩

theorem test_meets_VectorsSettledKept :
    ∃ (s t : State), VectorsSettled s ∧ step s = .next t :=
  ⟨(State.reset), ({ State.reset with tb := { State.reset.tb with time := 1 }, cons := { State.reset.cons with poweredNs := 1 } } :
    State), by rw [VectorsSettled]; decide +kernel, by rfl⟩

theorem test_meets_VectorMessages :
    (∃ (s : State) (v : Nat × Nat), v ∈ s.vectors ∧ s.vecCond v.1 v.2 = true ∧ (s.host.msix.get (vecKey v.1 v.2)).cond = false ∧
      (s.host.msix.get (vecKey v.1 v.2)).masked = false ∧ s.host.linkUp = true) ∧
    (∃ (s : State) (v : Nat × Nat), v ∈ s.vectors ∧ s.vecCond v.1 v.2 = true ∧ (s.host.msix.get (vecKey v.1 v.2)).cond = false ∧
      (s.host.msix.get (vecKey v.1 v.2)).masked = true) ∧
    (∃ (s : State), (∀ v ∈ s.vectors, s.vecCond v.1 v.2 = true → (s.host.msix.get (vecKey v.1 v.2)).cond = true ∨ (s.host.msix.get
      (vecKey v.1 v.2)).masked = true)) ∧
    (∃ (s : State), s.host.msix.wf = true) :=
  ⟨⟨(State.reset.onHost fun h => { h with linkUp := true, events := 1 }), ((0, 2)), by decide +kernel⟩,
   ⟨(State.reset.onHost fun h => { h with linkUp := true, events := 1, msix := [(2, { masked := true })] }), ((0, 2)), by
     decide +kernel⟩,
   ⟨(State.reset), by decide +kernel⟩,
   ⟨(State.reset), by decide +kernel⟩⟩

theorem test_meets_ScratchpadWindows :
    (∃ (s : State) (addr : Nat), addr < 0x2000000 ∧ Memory.wf s.spad.mem = true) ∧
    (∃ (s : State) (ch addr x : Nat) (b : List (BitVec 8)), Memory.wf s.spad.mem = true ∧ (x < spKey ch addr ∨ spKey ch addr +
      b.length ≤ x)) ∧
    (∃ (s : State) (bank i : Nat), bank < 48 ∧ i < 524288 ∧ Memory.wf s.spad.mem = true) ∧
    (∃ (s : State) (ch bank x : Nat), Memory.wf s.spad.mem = true ∧ (x < spKey ch (bank * 524288) ∨ spKey ch (bank * 524288) + 524288
      ≤ x)) :=
  ⟨⟨(State.reset), 0x1FFFFFF, by decide +kernel⟩,
   ⟨(State.reset), 0, 16, (spKey 0 17), ([1] : List (BitVec 8)), by decide +kernel⟩,
   ⟨(State.reset), 47, 524287, by decide +kernel⟩,
   ⟨(State.reset), 0, 1, (spKey 0 524287), by decide +kernel⟩⟩

theorem test_meets_ElementPacking :
    (∃ (f : Nat), elemBits f = 4) ∧
    (∃ (f : Nat), elemBits f = 16) ∧
    (∃ (f : Nat), elemBits f = 32) ∧
    (∃ (f : Nat), elemBits f = 8) ∧
    (∃ (f base i n : Nat), elemBytes f (i + 1) ≤ n ∧ base + n ≤ 0x2000000) ∧
    (∃ (f : Nat) (xs : List Nat) (i : Nat), (∀ x ∈ xs, x < 2 ^ elemBits f) ∧ i < xs.length) :=
  ⟨⟨6, by decide +kernel⟩,
   ⟨0, by decide +kernel⟩,
   ⟨9, by decide +kernel⟩,
   ⟨7, by decide +kernel⟩,
   ⟨6, 0, 2, 2, by decide +kernel⟩,
   ⟨6, ([15, 0, 7] : List Nat), 2, by decide +kernel⟩⟩

theorem test_meets_NonTeeAccesses :
    (∃ (s : State) (j : Fin 8) (tee : Bool), s.live = true ∧ (s.tdi (j + 1)).state = .run ∧ (tee = false ∨ (s.host.streams.get (j +
      1)).secure = false)) ∧
    (∃ (s : State) (j : Fin 8) (tee : Bool), s.live = true ∧ ((s.tdi (j + 1)).state ≠ .run ∨ (tee = true ∧ (s.host.streams.get (j +
      1)).secure = true))) :=
  ⟨⟨(State.reset.onHost fun h => { h with tdis := [(8, { state := .run })] }), 7, true, by decide +kernel⟩,
   ⟨(State.reset.onHost fun h => { h with tdis := [(1, { state := .run })], streams := [(1, { secure := true })] }), 0, true, by
     decide +kernel⟩⟩

theorem test_meets_RevokeClearsTags :
    (∃ (s : State), s.live = true ∧ s.isMember = true ∧ s.ring.serve.wf = true) ∧
    (∃ (s : State) (m : Fin 6), s.live = true ∧ s.isMember = true ∧ (s.b.memberRec m).isSome = true ∧ s.tick.role = .follower ∧ m.val
      ≠ s.memberIdx ∧ s.ring.serve.wf = true) ∧
    (∃ (s : State) (p : Fin 2) (a : List (BitVec 8)) (m : NetMember), s.live = true ∧ (s.rport p).state = .train ∧ (s.rport p).locked
      = true ∧ (s.b.netw.members.find? fun y => y.accession == a) = some m ∧ s.ring.serve.wf = true) :=
  ⟨⟨((bnd ringB2).onRing fun r => { r with serve := [(0, { used := true, member := 1, tenant := 8 })] }), by decide +kernel⟩,
   ⟨(((bnd ringB2).onRing fun r => { r with serve := [(0, { used := true, member := 1, tenant := 8 })] }).onTick fun t =>
     { t with role := .follower }), 1, by decide +kernel⟩,
   ⟨((bnd ringB2).onRing fun r =>
     { r with ports := [(0, { state := .train, locked := true })], serve := [(0, { used := true, member := 1, coldCount := 3 })] }),
     0, [], ({ index := 1, succession := 2 } : NetMember), by decide +kernel⟩⟩

theorem test_meets_RoleChangeClearsQueues :
    (∃ (s : State), s.mbx.gens.wf = true) ∧
    (∃ (s : State), (∀ y, s.genOf y ≠ 0) ∧ s.mbx.gens.wf = true) ∧
    (∃ (s : State) (id : Nat) (r : MboxRec) (sideB : Bool), s.mbx.sides.wf = true ∧ r ∈ s.b.mbox ∧ r.enable = 1 ∧ s.b.mbox.Pairwise
      (fun x y => x.mailbox ≠ y.mailbox) ∧ r.owner sideB = id ∧ r.owner (!sideB) ≠ id) :=
  ⟨⟨(State.reset.onMbx fun m => { m with gens := [(1, { gen := 0xFFFF })] }), by decide +kernel⟩,
   ⟨(State.reset), fun _ => (by decide : (1 : BitVec 16) ≠ 0), by decide +kernel⟩,
   ⟨(bnd { mbox := [{ mailbox := 31, enable := 1, masterA := 1, masterB := 0x10 }] }), 0x10,
     ({ mailbox := 31, enable := 1, masterA := 1, masterB := 0x10 } : MboxRec), true, by decide +kernel⟩⟩

theorem test_meets_TimeBaseReferences :
    (∃ (s : State) (d : Int), s.live = true ∧ s.bound = true ∧ s.tb.discSrc = 2 ∧ s.tb.lock = .locked ∧ d = (s.tb.time : Int) -
      (s.tb.seconds.toNat * 1000000000 : Nat) ∧ -100 ≤ d ∧ d ≤ 100) ∧
    (∃ (s : State) (d : Int), s.live = true ∧ s.bound = true ∧ s.tb.discSrc = 2 ∧ s.tb.lock = .acquiring ∧ s.tb.inLimit = 15 ∧ d =
      (s.tb.time : Int) - (s.tb.seconds.toNat * 1000000000 : Nat) ∧ -100 ≤ d ∧ d ≤ 100) ∧
    (∃ (s : State), s.live = true ∧ s.bound = true ∧ s.tb.discSrc = 2 ∧ s.tb.lock = .locked ∧ s.tb.lastRef + 1500000000 ≤ s.tb.time) :=
  ⟨⟨({ bnd {} with tb := { discSrc := 2, lock := .locked, seconds := 1, time := 999999900, inLimit := 3 } } : State), (-100 : Int), by
     decide +kernel⟩,
   ⟨({ bnd {} with tb := { discSrc := 2, lock := .acquiring, seconds := 1, time := 1000000100, inLimit := 15 } } : State), 100, by
     decide +kernel⟩,
   ⟨({ bnd {} with tb := { discSrc := 2, lock := .locked, seconds := 1, time := 1500000000, inLimit := 3 } } : State), by
     decide +kernel⟩⟩

theorem test_meets_TickSourcesAndBoundaries :
    (∃ (s : State) (rising : Bool) (heldNs : Nat), s.live = true ∧ s.bound = true ∧ s.b.plan.common.source = 2 ∧ s.tick.encLevel =
      !rising ∧ 8 * s.b.plan.common.encDeb ≤ heldNs ∧ (s.b.plan.common.encEdge = 2 ∨ (s.b.plan.common.encEdge = 0 ∧ rising = true) ∨
      (s.b.plan.common.encEdge = 1 ∧ rising = false)) ∧ (∀ l, s.tick.encLast = some l → l + 100 ≤ s.tb.time) ∧ s.tick.encDiv + 1 <
      s.b.plan.common.encDiv) ∧
    (∃ (s : State) (rising : Bool) (heldNs : Nat), s.live = true ∧ s.bound = true ∧ s.b.plan.common.source = 2 ∧ s.tick.encLevel =
      !rising ∧ 8 * s.b.plan.common.encDeb ≤ heldNs ∧ s.b.plan.common.encEdge = 2 ∧ s.tick.encLast = none ∧ s.b.plan.common.encDiv ≤
      s.tick.encDiv + 1 ∧ s.tick.running = true ∧ s.tick.role ≠ .follower ∧ s.tick.nominal = none ∧ s.tb.time < s.tick.start + 8 *
      s.block.1.planLength ∧ s.tick.deferred = false) ∧
    (∃ (s : State), s.live = true ∧ s.tick.running = true ∧ s.tick.role = .standalone ∧ s.tick.nominal = none ∧ s.tick.deferred = true
      ∧ s.tick.start + 8 * s.block.1.planLength ≤ s.tb.time) ∧
    (∃ (s : State), s.live = true ∧ s.bound = true ∧ s.b.plan.common.source = 0 ∧ s.tick.running = true ∧ s.tick.role = .standalone ∧
      s.tick.nominal = none ∧ s.block.1.periodMin ≠ 0 ∧ s.tick.start + 8 * s.block.1.planLength ≤ s.tb.time ∧ s.tick.t0 +
      ((s.tick.lastNominal - s.tick.t0) / (8 * s.block.1.periodMin) + 1) * (8 * s.block.1.periodMin) ≤ s.tb.time) ∧
    (∃ (s : State), s.live = true ∧ s.bound = true ∧ s.b.plan.common.source = 2 ∧ s.tick.running = true ∧ s.tick.role = .standalone ∧
      s.tick.nominal = none ∧ s.tick.deferred = false ∧ s.tick.start + 8 * s.b.plan.common.encMaxGap ≤ s.tb.time) ∧
    (∃ (s : State) (n : Nat), s.live = true ∧ s.tick.role = .standalone ∧ s.tick.stretching = true ∧ s.tick.nominal = some n ∧ n +
      s.maxStretchNs ≤ s.tb.time ∧ s.acts.wf = true) ∧
    (∃ (s : State) (n : Nat), s.live = true ∧ s.bound = true ∧ s.pwr.decided.isEmpty = false ∧ s.tick.role = .standalone ∧
      s.tick.running = true ∧ s.tick.nominal = some n ∧ s.stretchOut = false) ∧
    (∃ (s : State), s.live = true ∧ s.zeroDue = true ∧ s.b.plan.common.source ≠ 1 ∧ s.tick.role = .standalone) ∧
    (∃ (s : State) (r : Nat), s.live = true ∧ s.tick.tickOutRise = some r ∧ r ≤ s.tb.time) ∧
    (∃ (s : State) (r : Nat), s.live = true ∧ s.tick.tickOutFall = some r ∧ r ≤ s.tb.time) :=
  ⟨⟨({ bnd
     { dmaq := [{ used := 1 }], plan :=
         { common := { source := 2, encEdge := 0, encDiv := 2, encMaxGap := 100, encDeb := 1 }, blocks :=
             [{ acts := [{ active := true }], periodMin := 100, res := [{ length := 10 }] }] } } with
     tick := { encLast := some 0 }, tb := { time := 100 } } : State), true, 8, by decide +kernel⟩,
   ⟨({ bnd
     { dmaq := [{ used := 1 }], plan :=
         { common := { source := 2, encEdge := 2, encDiv := 1, encMaxGap := 100, encDeb := 1 }, blocks :=
             [{ acts := [{ active := true }], periodMin := 100, res := [{ length := 10 }] }] } } with
     tick := { running := true }, tb := { time := 0 } } : State), true, 8, by decide +kernel⟩,
   ⟨({ bnd
     { dmaq := [{ used := 1 }], plan :=
         { common := { source := 2, encEdge := 2, encDiv := 1, encMaxGap := 100, encDeb := 1 }, blocks :=
             [{ acts := [{ active := true }], periodMin := 100, res := [{ length := 10 }] }] } } with
     tick := { running := true, deferred := true }, tb := { time := 1000 } } : State), by decide +kernel⟩,
   ⟨({ bnd
     { dmaq := [{ used := 1 }], plan :=
         { common := { source := 0, encEdge := 0, encDiv := 1, encMaxGap := 100, encDeb := 1 }, blocks :=
             [{ acts := [{ active := true }], periodMin := 100, res := [{ length := 10 }] }] } } with
     tick := { running := true }, tb := { time := 800 } } : State), by decide +kernel⟩,
   ⟨({ bnd
     { dmaq := [{ used := 1 }], plan :=
         { common := { source := 2, encEdge := 2, encDiv := 1, encMaxGap := 100, encDeb := 1 }, blocks :=
             [{ acts := [{ active := true }], periodMin := 100, res := [{ length := 10 }] }] } } with
     tick := { running := true }, tb := { time := 800 } } : State), by decide +kernel⟩,
   ⟨({ bnd
     { dmaq := [{ used := 1 }], plan :=
         { common := { source := 2, encEdge := 2, encDiv := 1, encMaxGap := 100, encDeb := 1 }, blocks :=
             [{ acts := [{ active := true }], periodMin := 100, res := [{ length := 10 }] }] } } with
     tick := { running := true, stretching := true, nominal := some 5 }, tb := { time := 5 }, dma :=
       { queues := [(0, { state := .active })] } } : State), 5, by decide +kernel⟩,
   ⟨({ bnd
     { dmaq := [{ used := 1 }], plan :=
         { common := { source := 2, encEdge := 2, encDiv := 1, encMaxGap := 100, encDeb := 1 }, blocks :=
             [{ acts := [{ active := true }], periodMin := 100, res := [{ length := 10 }] }] } } with
     tick := { running := true, nominal := some 5 }, tb := { time := 5 }, pwr := { decided := [0] } } : State), 5, by decide +kernel⟩,
   ⟨({ bnd
     { dmaq := [{ used := 1 }], plan :=
         { common := { source := 2, encEdge := 2, encDiv := 1, encMaxGap := 100, encDeb := 1 }, blocks :=
             [{ acts := [{ active := true }], periodMin := 100, res := [{ length := 10 }] }] } } with tb := { time := 1000000 } } :
     State), by decide +kernel⟩,
   ⟨(State.reset.onTick fun t => { t with tickOutRise := some 0 }), 0, by decide +kernel⟩,
   ⟨(State.reset.onTick fun t => { t with tickOutFall := some 0 }), 0, by decide +kernel⟩⟩

theorem test_meets_RingTickProtocol :
    (∃ (s : State), s.live = true ∧ s.readyDue = true ∧ s.tick.role ≠ .leader) ∧
    (∃ (s : State) (m : Fin 6) (planGen : Nat), s.live = true ∧ s.isMember = true ∧ s.tick.running = true ∧ s.tick.role = .leader ∧
      m.val ≠ s.memberIdx ∧ (s.b.memberRec m).isSome = true ∧ planGen ≠ s.planGen) ∧
    (∃ (s : State) (m : Fin 6), s.live = true ∧ s.isMember = true ∧ s.tick.running = true ∧ s.tick.role = .leader ∧ m.val ≠
      s.memberIdx ∧ (s.b.memberRec m).isSome = true ∧ s.pair.admittedSet.getLsbD m = true ∧ s.ring.absent.getLsbD m = false ∧
      s.tick.waiting = false) ∧
    (∃ (s : State) (n : Nat), s.live = true ∧ s.tick.running = true ∧ s.tick.role = .leader ∧ s.tick.waiting = true ∧ s.tick.nominal =
      some n ∧ n + s.maxStretchNs ≤ s.tb.time) ∧
    (∃ (s : State) (src : Fin 6) (tick launch : Nat), s.live = true ∧ s.markerNew src tick = true ∧ s.discSrc ≠ 3 ∧
      s.pair.firstMarker.isSome = true ∧ s.tb.time ≤ launch) ∧
    (∃ (s : State) (src : Fin 6) (tick launch : Nat), s.live = true ∧ s.markerNew src tick = true ∧ s.discSrc ≠ 3 ∧
      s.pair.firstMarker.isSome = true ∧ launch < s.tb.time) ∧
    (∃ (s : State) (m : Fin 6), s.live = true ∧ s.absentDue m = true ∧ s.tick.waiting = false) ∧
    (∃ (s : State) (m : Nat), s.live = true ∧ s.isMember = true ∧ s.tick.role = .follower ∧ s.tick.running = true ∧ s.tick.launch =
      none ∧ s.markerDeadline ≤ s.tb.time ∧ s.nextLeader = some m ∧ m ≠ s.memberIdx) ∧
    (∃ (s : State), s.live = true ∧ s.isMember = true ∧ s.tick.role = .follower ∧ s.tick.running = true ∧ s.tick.launch = none ∧
      s.markerDeadline ≤ s.tb.time ∧ s.nextLeader = some s.memberIdx) :=
  ⟨⟨({ bnd ringB2 with tick := { running := true, role := .follower } } : State), by decide +kernel⟩,
   ⟨({ bnd ringB2 with tick := { running := true, role := .leader } } : State), 1, 1, by decide +kernel⟩,
   ⟨({ bnd ringB2 with tick := { running := true, role := .leader }, pair := { admittedSet := 2 } } : State), 1, by decide +kernel⟩,
   ⟨({ bnd ringB2 with tick := { running := true, role := .leader, waiting := true, nominal := some 0 } } : State), 0, by
     decide +kernel⟩,
   ⟨({ bnd ringB2 with tick := { running := true, role := .follower }, pair := { firstMarker := some 0 } } : State), 1, 1, 0, by
     decide +kernel⟩,
   ⟨({ bnd ringB2 with tick := { running := true, role := .follower }, pair := { firstMarker := some 0 }, tb := { time := 1 } } :
     State), 1, 1, 0, by decide +kernel⟩,
   ⟨({ bnd ringB2 with tick := { running := true, role := .leader, noReady := [(1, 3)] } } : State), 1, by decide +kernel⟩,
   ⟨({ bnd ringB2 with tick := { running := true, role := .follower, leader := 0 }, tb := { time := (mk0 ringB2 0).markerDeadline } }
     : State), 1, by decide +kernel⟩,
   ⟨({ bnd ringB2 with tick := { running := true, role := .follower, leader := 1 }, tb := { time := (mk0 ringB2 1).markerDeadline } }
     : State), by decide +kernel⟩⟩

theorem test_meets_BindControl :
    (∃ (s : State), s.live = true ∧ s.bound = true ∧ s.bind.rebind ≠ .validating ∧ s.bind.rebind ≠ .staged) ∧
    (∃ (s : State), s.live = true ∧ s.bound = true ∧ s.bind.rebind = .staged) ∧
    (∃ (s : State) (x : List Byte) (run : Running), s.live = true ∧ s.bind.inCheck = some x ∧ s.bind.running = some run) ∧
    (∃ (s : State), s.live = true ∧ s.bind.rebind = .staged ∧ s.switchBegun = false) ∧
    (∃ (s : State), s.live = true) ∧
    (∃ (s : State), s.live = true ∧ s.bound = true ∧ s.bind.fallback = false) ∧
    (∃ (s u : State), s.live = true ∧ s.chk.maintenance = true ∧ u = (s.onBind fun x => { x with cold := .validating }).bypassUpdate) :=
  ⟨⟨(bnd {}), by decide +kernel⟩,
   ⟨((bnd {}).onBind fun x => { x with rebind := .staged }), by decide +kernel⟩,
   ⟨((bnd {}).onBind fun x => { x with inCheck := some [], rebind := .validating }), [], ({} : Running), by decide +kernel⟩,
   ⟨((bnd {}).onBind fun x => { x with rebind := .staged }), by decide +kernel⟩,
   ⟨(State.reset), by decide +kernel⟩,
   ⟨(bnd { col := { serial := 7 } }), by decide +kernel⟩,
   ⟨((bnd {}).onChk fun c => { c with maintenance := true }), ((((bnd {}).onChk fun c => { c with maintenance := true }).onBind fun x
     => { x with cold := .validating }).bypassUpdate), by decide +kernel⟩⟩

theorem test_meets_ProtectedWrites :
    (∃ (s : State) (master off key : Nat) (r : Reg), s.live = true ∧ s.regAt master off = some r ∧ r.wp = some key ∧ s.regOff r =
      false ∧ s.regDenied master r = false ∧ (s.bus.wp.get key).used = false) ∧
    (∃ (s : State) (off key : Nat) (r : Reg), s.live = true ∧ s.regAt 1 off = some r ∧ r.wp = some key ∧ s.regOff r = false ∧
      s.regDenied 1 r = false ∧ (s.bus.wp.get key).used = true ∧ (s.bus.wp.get key).master ≠ 1 ∧ s.tb.time ≤ (s.bus.wp.get key).since
      + (if s.pwr.profile = 4 then 128 else 64)) ∧
    (∃ (s : State) (v : BitVec 32) (p : WpPend), s.live = true ∧ s.bus.wp.get 0x4020 = p ∧ p.used = true ∧ p.master = 1 ∧ s.tb.time ≤
      p.since + (if s.pwr.profile = 4 then 128 else 64) ∧ v = ~~~ p.value ∧ s.tb.lock = .free ∨ s.tb.lock = .acquiring) ∧
    (∃ (s : State) (off key : Nat) (r : Reg) (v : BitVec 32) (p : WpPend), s.live = true ∧ s.regAt 1 off = some r ∧ r.wp = some key ∧
      s.regAt 1 (off + 4) = none ∧ off % 8 = 0 ∧ s.regDenied 1 r = false ∧ s.bus.wp.get key = p ∧ p.used = true ∧ p.master = 1 ∧
      s.tb.time ≤ p.since + (if s.pwr.profile = 4 then 128 else 64) ∧ v ≠ ~~~ p.value) ∧
    (∃ (s : State) (off : Nat), s.live = true ∧ (s.bus.wp.get off).used = true ∧ (s.bus.wp.get off).master = 1 ∧ (s.bus.wp.get
      off).since + (if s.pwr.profile = 4 then 128 else 64) ≤ s.tb.time) :=
  ⟨⟨(State.reset), 1, 0x4020, 0x4020, (.tbSeconds : Reg), by decide +kernel⟩,
   ⟨((State.reset.onBus fun u => { u with wp := [(0x4020, { used := true, master := 0x41, value := 5, since := 0 })] }).onTb fun t =>
     { t with time := 64 }), 0x4020, 0x4020, (.tbSeconds : Reg), by decide +kernel⟩,
   ⟨((State.reset.onBus fun u => { u with wp := [(0x4020, { used := true, master := 1, value := 5, since := 0 })] }).onTb fun t =>
     { t with time := 64 }), (~~~5 : BitVec 32), ({ used := true, master := 1, value := 5, since := 0 } : WpPend), by decide +kernel⟩,
   ⟨((State.reset.onBus fun u => { u with wp := [(0x4020, { used := true, master := 1, value := 5, since := 0 })] }).onTb fun t =>
     { t with time := 64 }), 0x4020, 0x4020, (.tbSeconds : Reg), 5, ({ used := true, master := 1, value := 5, since := 0 } : WpPend),
     by decide +kernel⟩,
   ⟨((State.reset.onBus fun u => { u with wp := [(0x4020, { used := true, master := 1, value := 5, since := 0 })] }).onTb fun t =>
     { t with time := 64 }), 0x4020, by decide +kernel⟩⟩

theorem test_meets_RegisterSizes :
    (∃ (off : Nat), off % 4 ≠ 0) ∧
    (∃ (s : State) (tee : Bool) (m size off : Nat), s.live = true ∧ s.nonTee m tee = false ∧ ¬ (size = 4 ∧ off % 4 = 0) ∧ ¬ (size = 8
      ∧ off % 8 = 0)) ∧
    (∃ (s : State) (tee : Bool) (m off : Nat), s.live = true ∧ s.nonTee m tee = false ∧ off % 4 = 0) ∧
    (∃ (s : State) (tee : Bool) (m off : Nat), s.live = true ∧ s.nonTee m tee = false ∧ off % 8 = 0) :=
  ⟨⟨0x4021, by decide +kernel⟩,
   ⟨(State.reset), true, 0x41, 8, 0x4104, by decide +kernel⟩,
   ⟨(State.reset), true, 1, 0x4104, by decide +kernel⟩,
   ⟨(State.reset), true, 1, 0x4008, by decide +kernel⟩⟩

theorem test_meets_RegisterAccesses :
    (∃ (s : State) (off : Nat), s.live = true ∧ off % 4 = 0 ∧ s.regAt 1 off = none ∧ (off % 8 = 0 ∨ s.regAt 1 (off - 4) = none)) ∧
    (∃ (s : State), s.live = true) ∧
    (∃ (s : State), s.live = true ∧ (s.bus.rmb.get 1).busy = false) ∧
    (∃ (s : State), s.live = true ∧ (s.bus.rmb.get 1).busy = true) ∧
    (∃ (s : State), s.live = true ∧ (s.bus.rmb.get 1).busy = true ∧ (s.bus.rmb.get 1).addr = 0x4008) ∧
    (∃ (s : State), s.live = true ∧ (s.bus.rmb.get 1).busy = true ∧ s.regAt 1 (s.bus.rmb.get 1).addr.toNat = none) :=
  ⟨⟨(State.reset), 0xFC, by decide +kernel⟩,
   ⟨(State.reset.onTick fun t => { t with events := 3 }), by decide +kernel⟩,
   ⟨(State.reset), by decide +kernel⟩,
   ⟨(State.reset.onBus fun u => { u with rmb := [(1, { busy := true })] }), by decide +kernel⟩,
   ⟨((State.reset.onBus fun u => { u with rmb := [(1, { busy := true, addr := 0x4008 })] }).onTb fun t => { t with time := 77 }), by
     decide +kernel⟩,
   ⟨(State.reset.onBus fun u => { u with rmb := [(1, { busy := true, addr := 0xFC })] }), by decide +kernel⟩⟩

theorem test_meets_Mailboxes :
    (∃ (s : State) (m : Fin 32) (h : BitVec 32) (r : MboxRec), s.live = true ∧ s.mbRec m = some r ∧ (h.toNat / 2 ^ 26 ≠ 0 ∨ h.toNat /
      2 ^ 16 % 256 = 0xFF)) ∧
    (∃ (s : State) (m : Fin 32) (b : Bool) (h : BitVec 32) (r : MboxRec), s.live = true ∧ s.mbRec m = some r ∧ h.toNat / 2 ^ 26 = 0 ∧
      h.toNat / 2 ^ 16 % 256 ≠ 0xFF ∧ h.toNat % 2 ^ 16 ≠ (s.mbx.gens.get (r.owner (!b))).gen.toNat) ∧
    (∃ (s : State) (m : Fin 32) (b : Bool) (h : BitVec 32) (r : MboxRec), s.live = true ∧ s.mbRec m = some r ∧ h.toNat / 2 ^ 26 = 0 ∧
      h.toNat / 2 ^ 16 % 256 ≠ 0xFF ∧ h.toNat % 2 ^ 16 = (s.mbx.gens.get (r.owner (!b))).gen.toNat ∧ 8 < ((s.mbx.sides.upd (sideKey m
      b) fun x => { x with txSend := h }).get (sideKey m (!b))).words + (1 + h.toNat / 2 ^ 24)) ∧
    (∃ (s : State) (m : Fin 32) (b : Bool) (h : BitVec 32) (r : MboxRec), s.live = true ∧ s.mbRec m = some r ∧ h.toNat / 2 ^ 26 = 0 ∧
      h.toNat / 2 ^ 16 % 256 ≠ 0xFF ∧ h.toNat % 2 ^ 16 = (s.mbx.gens.get (r.owner (!b))).gen.toNat ∧ ((s.mbx.sides.upd (sideKey m b)
      fun x => { x with txSend := h }).get (sideKey m (!b))).words + (1 + h.toNat / 2 ^ 24) ≤ 8) ∧
    (∃ (s : State) (m : Fin 32) (r : MboxRec), s.live = true ∧ s.mbRec m = some r) ∧
    (∃ (s : State), s.live = true ∧ (∀ m < 32, s.bellHeld 1 m = false)) ∧
    (∃ (s : State) (v : BitVec 32) (m : Nat), s.live = true ∧ m < 32 ∧ v.getLsbD m = true ∧ s.bellHeld 1 m = true ∧ s.mbx.bells.wf =
      true) :=
  ⟨⟨(bnd { mbox := [{ mailbox := 31, enable := 1, masterA := 1, masterB := 0x10 }] }), 31, 0x00FF0001,
     ({ mailbox := 31, enable := 1, masterA := 1, masterB := 0x10 } : MboxRec), by decide +kernel⟩,
   ⟨(bnd { mbox := [{ mailbox := 31, enable := 1, masterA := 1, masterB := 0x10 }] }), 31, true, 0x00010002,
     ({ mailbox := 31, enable := 1, masterA := 1, masterB := 0x10 } : MboxRec), by decide +kernel⟩,
   ⟨((bnd { mbox := [{ mailbox := 31, enable := 1, masterA := 1, masterB := 0x10 }] }).onMbx fun m =>
     { m with sides := [(sideKey 31 true, { queue := [{}, {}, {}, {}, {}] })] }), 31, false, 0x03010001,
     ({ mailbox := 31, enable := 1, masterA := 1, masterB := 0x10 } : MboxRec), by decide +kernel⟩,
   ⟨((bnd { mbox := [{ mailbox := 31, enable := 1, masterA := 1, masterB := 0x10 }] }).onMbx fun m =>
     { m with sides := [(sideKey 31 true, { queue := [{}, {}, {}, {}] })] }), 31, false, 0x03010001,
     ({ mailbox := 31, enable := 1, masterA := 1, masterB := 0x10 } : MboxRec), by decide +kernel⟩,
   ⟨(bnd { mbox := [{ mailbox := 31, enable := 1, masterA := 1, masterB := 0x10 }] }), 31,
     ({ mailbox := 31, enable := 1, masterA := 1, masterB := 0x10 } : MboxRec), by decide +kernel⟩,
   ⟨(State.reset.onMbx fun m => { m with bells := [(1, { pending := 6 })] }), by decide +kernel, fun _ _ => rfl⟩,
   ⟨((bnd { mbox := [{ mailbox := 31, enable := 1, masterA := 1, masterB := 0x10 }] }).onMbx fun m =>
     { m with bells := [(1, { pending := 0x80000000 })], sides := [(sideKey 31 false, { queue := [{}] })] }), 0x80000000, 31, by
     decide +kernel⟩⟩

theorem test_meets_HostWindows :
    (∃ (s : State) (ch : Fin 6) (lo : Nat) (b : List (BitVec 8)), s.live = true ∧ lo + b.length ≤ 25165824 ∧ (∀ k ∈ banksOf lo
      b.length, s.bankOff ch k = false ∧ (s.loanOf ch k).owned = true ∧ s.b.tenantOf (16 * ch + (s.loanOf ch k).owner.toNat) = 0)) ∧
    (∃ (s : State) (ch : Fin 6) (lo n : Nat), s.live = true ∧ lo + n ≤ 25165824 ∧ (∀ k ∈ banksOf lo n, s.bankOff ch k = false ∧
      (s.loanOf ch k).owned = true ∧ s.b.tenantOf (16 * ch + (s.loanOf ch k).owner.toNat) = 0)) ∧
    (∃ (s : State) (off n : Nat), s.live = true ∧ (6 * 0x2000000 ≤ off ∨ 25165824 < off % 0x2000000 + n)) ∧
    (∃ (s : State) (ch : Fin 6) (lo n k : Nat), s.live = true ∧ lo + n ≤ 25165824 ∧ k ∈ banksOf lo n ∧ s.bankOff ch k = true) ∧
    (∃ (s : State) (ch : Fin 6) (lo n k : Nat), s.live = true ∧ lo + n ≤ 25165824 ∧ k ∈ banksOf lo n ∧ (∀ j ∈ banksOf lo n, s.bankOff
      ch j = false) ∧ (s.loanOf ch k).owned = true ∧ s.b.tenantOf (16 * ch + (s.loanOf ch k).owner.toNat) ≠ 0) ∧
    (∃ (s : State) (off : Nat), s.live = true ∧ off < 6 * 0x2000000 ∧ off % 0x2000000 < 25165824) ∧
    (∃ (s : State) (off n : Nat), s.live = true ∧ s.bus.bar4Enable = true ∧ s.domainOn s.bus.bar4Channel.toNat 6 = true ∧ 0 < n ∧
      s.bar4Ok s.bus.bar4Channel.toNat (s.bus.bar4Base.toNat * 2097152 + off) n = true) ∧
    (∃ (s : State) (off : Nat) (b : List (BitVec 8)), s.live = true ∧ s.bus.bar4Enable = true ∧ s.domainOn s.bus.bar4Channel.toNat 6 =
      true ∧ b ≠ [] ∧ s.bar4Ok s.bus.bar4Channel.toNat (s.bus.bar4Base.toNat * 2097152 + off) b.length = true ∧ Memory.wf s.gddr.mem =
      true) ∧
    (∃ (s : State), s.live = true ∧ s.bus.bar4Enable = false) ∧
    (∃ (s : State), s.live = true) ∧
    (∃ (s : State) (v : BitVec 32), s.live = true ∧ v.toNat % 8 < 6 ∧ v.toNat / 16 % 16384 % 2048 = 0 ∧ v.toNat / 16 % 16384 ≤ 10240) ∧
    (∃ (s : State) (v : BitVec 32), s.live = true ∧ (6 ≤ v.toNat % 8 ∨ v.toNat / 16 % 16384 % 2048 ≠ 0 ∨ 10240 < v.toNat / 16 %
      16384)) :=
  ⟨⟨((bnd { dmaq := [{ used := 1 }] }).onSpad fun p => { p with loans := [(0, { owned := true }), (1, { owned := true })] }), 0,
     524287, ([1, 2] : List (BitVec 8)), by decide +kernel⟩,
   ⟨((bnd { dmaq := [{ used := 1, tenant := 0 }] }).onSpad fun p =>
     { p with loans := [(47, { owned := true })], chan := [(0, { sphOn := true })] }), 0, 25165823, 1, by decide +kernel⟩,
   ⟨(State.reset), 0xC000000, 1, by decide +kernel⟩,
   ⟨((bnd { dmaq := [{ used := 1 }] }).onSpad fun p => { p with loans := [(0, { owned := true }), (1, { owned := true })] }), 0,
     25165823, 1, 47, by decide +kernel⟩,
   ⟨((bnd { dmaq := [{ used := 1, tenant := 8 }] }).onSpad fun p =>
     { p with loans := [(47, { owned := true })], chan := [(0, { sphOn := true })] }), 0, 25165823, 1, 47, by decide +kernel⟩,
   ⟨(State.reset), (5 * 0x2000000 + 25165823), by decide +kernel⟩,
   ⟨(((bnd { memx := [{ region := 0, kind := 0, flags := 1, base := 0, size := 1 }] }).onBus fun u => { u with bar4Enable := true
                                                                                                                 }).onPwr fun p =>
     { p with domains := [(0, 64)] }), 2097151, 1, by decide +kernel⟩,
   ⟨(((bnd { memx := [{ region := 0, kind := 0, flags := 1, base := 0, size := 1 }] }).onBus fun u => { u with bar4Enable := true
                                                                                                                 }).onPwr fun p =>
     { p with domains := [(0, 64)] }), 2097151, ([7] : List (BitVec 8)), by decide +kernel⟩,
   ⟨(State.reset), by decide +kernel⟩,
   ⟨(State.reset), by decide +kernel⟩,
   ⟨(State.reset), (BitVec.ofNat 32 (5 + 8 + 16 * 10240)), by decide +kernel⟩,
   ⟨(State.reset), 6, by decide +kernel⟩⟩

theorem test_meets_LoanRegisters :
    (∃ (s : State), s.live = true) ∧
    (∃ (s : State) (ch : Fin 6), s.live = true ∧ (s.spad.chan.get ch).mode ≠ .normal) ∧
    (∃ (s : State) (ch : Fin 6), s.live = true ∧ (s.spad.chan.get ch).mode = .normal) :=
  ⟨⟨(State.reset.onSpad fun p => { p with loans := [(287, { busy := true })] }), by decide +kernel⟩,
   ⟨(State.reset), 5, by decide +kernel⟩,
   ⟨(State.reset.onSpad fun p => { p with chan := [(5, { mode := .normal })] }), 5, by decide +kernel⟩⟩

theorem test_meets_DmaQueues :
    (∃ (s : State) (ch : Fin 6) (q : Fin 16) (m : Nat), s.live = true ∧ s.drives m (16 * ch + q) = true ∧ (s.queue (16 * ch + q)).busy
      = false ∧ (s.b.dq (16 * ch + q)).mode = 0 ∧ progOk (s.queue (16 * ch + q)).regs (s.b.dq (16 * ch + q)).paceFifo = true ∧
      s.progInRange (16 * ch + q) (s.queue (16 * ch + q)).regs = true ∧ (s.queue (16 * ch + q)).regs.pace = false) ∧
    (∃ (s : State) (ch : Fin 6) (q : Fin 16) (m : Nat), s.live = true ∧ s.drives m (16 * ch + q) = true ∧ (s.queue (16 * ch + q)).busy
      = false ∧ (s.b.dq (16 * ch + q)).mode = 0 ∧ s.dma.queues.wf = true ∧ progOk (s.queue (16 * ch + q)).regs (s.b.dq (16 * ch +
      q)).paceFifo = true ∧ s.progInRange (16 * ch + q) (s.queue (16 * ch + q)).regs = false) ∧
    (∃ (s : State) (ch : Fin 6) (q : Fin 16) (m : Nat), s.live = true ∧ s.drives m (16 * ch + q) = true ∧ (s.queue (16 * ch + q)).busy
      = true) ∧
    (∃ (s : State) (ch : Fin 6) (q : Fin 16), s.live = true ∧ s.drives 1 (16 * ch + q) = false) ∧
    (∃ (s : State) (ch : Fin 6) (q : Fin 16) (x : Queue) (n sa da : Nat), s.live = true ∧ s.queue (16 * ch + q) = x ∧ x.state =
      .active ∧ x.pendCode = none ∧ (s.acts.get (16 * ch + q)).run = none ∧ x.stop = .none ∧ x.hold = [] ∧ x.pos = 0 ∧ n = 2 ^
      x.prog.dstW ∧ x.prog.srcW = x.prog.dstW ∧ n < x.prog.total ∧ 0 < x.prog.count ∧ x.prog.src = BitVec.ofNat 64 sa ∧ x.prog.dst =
      BitVec.ofNat 64 da ∧ sa < 25165824 ∧ da < 25165824 ∧ x.prog.pace = false ∧ s.spAcc (16 * ch + q) false sa n = .ok ∧ s.spAcc (16
      * ch + q) true da n = .ok ∧ s.dma.queues.wf = true ∧ Memory.wf s.spad.mem = true) ∧
    (∃ (s : State) (ch : Fin 6) (q : Fin 16), s.live = true ∧ (s.queue (16 * ch + q)).busy = true ∧ (s.queue (16 * ch + q)).chained =
      false ∧ (s.queue (16 * ch + q)).stop = .none ∧ (s.b.opsOf (16 * ch + q)) = [] ∧ (s.spad.chan.get ch).mode = .normal) ∧
    (∃ (s : State) (ch : Fin 6) (q : Fin 16), s.live = true ∧ (s.queue (16 * ch + q)).busy = true ∧ (s.queue (16 * ch + q)).pendCode =
      none ∧ (s.acts.get (16 * ch + q)).run = none ∧ (s.queue (16 * ch + q)).stop = .aborted ∧ s.beatLicensed (16 * ch + q) (s.queue
      (16 * ch + q)).prog = false) ∧
    (∃ (s : State) (ch : Fin 6) (q : Fin 16) (x : Queue), s.live = true ∧ s.queue (16 * ch + q) = x ∧ x.pendCode = some 0 ∧ x.descAt =
      none ∧ s.dma.queues.wf = true ∧ (s.act (16 * ch + q)).carry = false) ∧
    (∃ (s : State) (ch : Fin 6) (q : Fin 16) (x : Queue) (c : Nat), s.live = true ∧ s.queue (16 * ch + q) = x ∧ x.pendCode = some c ∧
      c ≠ 0 ∧ x.descAt = none ∧ s.dma.queues.wf = true ∧ (s.act (16 * ch + q)).carry = false) ∧
    (∃ (s : State) (ch : Fin 6) (q : Fin 16) (x : Queue) (c : Nat), s.live = true ∧ s.queue (16 * ch + q) = x ∧ x.pendCode = some c ∧
      x.descAt = none ∧ s.dma.queues.wf = true ∧ s.acts.wf = true ∧ (s.act (16 * ch + q)).carry = true ∧ s.b.opsOf (16 * ch + q) = []) :=
  ⟨⟨(qS { regs := prog64 0 }), 0, 0, 0x10, by decide +kernel⟩,
   ⟨(qS { regs := prog64 (BitVec.ofNat 64 (2 ^ 48)) }), 0, 0, 0x10, by decide +kernel⟩,
   ⟨(qS { state := .active }), 0, 0, 0x10, by decide +kernel⟩,
   ⟨(qS {}), 0, 0, by decide +kernel⟩,
   ⟨(qS { state := .active, prog := prog64 0 }), 0, 0, ({ state := .active, prog := prog64 0 } : Queue), 1, 0, 64, by decide +kernel⟩,
   ⟨((qS { state := .active }).onSpad fun p => { p with chan := [(0, { mode := .normal })] }), 0, 0, by decide +kernel⟩,
   ⟨(qS { state := .active, prog := prog64 (BitVec.ofNat 64 (2 ^ 48)), stop := .aborted }), 0, 0, by decide +kernel⟩,
   ⟨(qS { state := .active, pendCode := some 0 }), 0, 0, ({ state := .active, pendCode := some 0 } : Queue), by decide +kernel⟩,
   ⟨(qS { state := .active, pendCode := some 4 }), 0, 0, ({ state := .active, pendCode := some 4 } : Queue), 4, by decide +kernel⟩,
   ⟨({ qS { state := .active, pendCode := some 0 } with acts := [(0, { carry := true })] } : State), 0, 0,
     ({ state := .active, pendCode := some 0 } : Queue), 0, by decide +kernel⟩⟩

theorem test_meets_OpSequence :
    (∃ (s : State) (a : Fin 96) (ch : Fin 6) (cls inst opseq : Nat), s.live = true ∧ 8 ≤ cls ∧ s.resStarts a ch cls inst opseq = true) ∧
    (∃ (s : State) (a : Fin 96) (ch : Fin 6) (cls inst : Nat), s.live = true ∧ (s.act a).run = none ∧ ((s.act a).held.any fun h =>
      h.channel == ch.val && h.cls == cls && h.inst == inst) = true) ∧
    (∃ (s : State) (a : Fin 96) (ch : Fin 6) (r : OpRun) (at' : Nat), s.live = true ∧ s.acts.wf = true ∧ Memory.wf s.spad.mem = true ∧
      s.engs.wf = true ∧ (s.act a).run = some r ∧ r.opcode = 0x0101 ∧ r.code = none ∧ r.loading = false ∧ r.saved = false ∧ ((s.act
      a).held.any fun h => h.channel == ch.val && h.cls == 1 && h.inst == 0) = true ∧ at' = (matmulJob s (a / 16) (s.opOf a)).saveAddr
      ∧ at' < 25165824 ∧ s.firstRefusal a true [(at', 4 * r.acc.length + 64)] = .ok) ∧
    (∃ (s : State) (a : Fin 96) (o : OpRec), s.live = true ∧ s.acts.wf = true ∧ s.dma.queues.wf = true ∧ s.opReady a 0x0301 3 0 = some
      o ∧ (s.queue a).busy = false ∧ u8 o.params 0 = 0 ∧ (s.opBegin a o).progCode a (descProg (slice o.params 48 64)) = 0 ∧ (descProg
      (slice o.params 48 64)).pace = false) ∧
    (∃ (s : State) (a : Fin 96) (r : OpRun) (o : OpRec), s.live = true ∧ (s.act a).run = some r ∧ r.code = some 0 ∧ s.b.opAt a r.seq =
      some o ∧ o.last = false ∧ (s.b.opAt a (r.seq + 1)).isSome = true) ∧
    (∃ (s : State) (a : Fin 96) (r : OpRun) (c : Nat), s.live = true ∧ s.acts.wf = true ∧ (s.act a).run = some r ∧ r.code = some c ∧ c
      ≠ 0 ∧ (s.act a).carry = false) :=
  ⟨⟨({ bnd { dmaq := [{ used := 1 }], plan := { blocks := [{ acts := [{ active := true }], res := [{ cls := 8, length := 1 }] }] } }
     with tick := { running := true } } : State), 0, 0, 8, 0, 0, by decide +kernel⟩,
   ⟨({ State.reset with acts := [(0, { held := [{ cls := 8 }] })] } : State), 0, 0, 8, 0, by decide +kernel⟩,
   ⟨((opS mmOp 1 0).onActs fun _ => [(0, { held := [{ cls := 1 }], run := some { opcode := 0x0101, acc := [5] } })]), 0, 0,
     ({ opcode := 0x0101, acc := [5] } : OpRun), 512, by decide +kernel⟩,
   ⟨(opS { opcode := 0x0301, params := prm 112 [(64, 64), (72, 64), (76, 1), (78, 1), (80, 1)] } 3 0), 0,
     ({ opcode := 0x0301, params := prm 112 [(64, 64), (72, 64), (76, 1), (78, 1), (80, 1)] } : OpRec), by decide +kernel⟩,
   ⟨({ bnd { dmaq := [{ used := 1 }], ops := [{ seq := 0 }, { seq := 1 }] } with acts := [(0, { run := some { code := some 0 } })] } :
     State), 0, ({ code := some 0 } : OpRun), ({ seq := 0 } : OpRec), by decide +kernel⟩,
   ⟨({ bnd { dmaq := [{ used := 1 }], ops := [{ seq := 0 }, { seq := 1 }] } with acts := [(0, { run := some { code := some 4 } })] } :
     State), 0, ({ code := some 4 } : OpRun), 4, by decide +kernel⟩⟩

theorem test_meets_MatrixEngine :
    (∃ (s : State) (a : Fin 96) (o : OpRec) (line : Nat), s.live = true ∧ s.acts.wf = true ∧ s.engs.wf = true ∧ line ≠ 2 ∧ s.opReady a
      0x0101 1 0 = some o) ∧
    (∃ (s : State) (a : Fin 96) (o : OpRec) (j : MeJob), s.live = true ∧ s.acts.wf = true ∧ s.engs.wf = true ∧ s.opReady a 0x0101 1 0
      = some o ∧ o.opcode = 0x0101 ∧ o.spot = false ∧ Memory.wf s.spad.mem = true ∧ u8 o.params 0 = 7 ∧ u8 o.params 1 = 7 ∧ u8
      o.params 2 = 10 ∧ u8 o.params 3 = 0 ∧ o.p32 8 = 1 ∧ o.p32 12 = 1 ∧ 1 ≤ o.p32 16 ∧ o.p32 16 ≤ 96 ∧ j = matmulJob s (a / 16) o ∧
      s.firstRefusal a false (j.initReads 0 ++ j.reads 0 0) = .ok ∧ s.firstRefusal a false (j.convReads 0) = .ok ∧ s.firstRefusal a
      true (j.writes 0) = .ok) ∧
    (∃ (s s1 : State) (a : Fin 96) (o : OpRec) (line : Nat) (j : MeJob), s.live = true ∧ s.acts.wf = true ∧ s.engs.wf = true ∧ line ≠
      2 ∧ s.opReady a 0x0101 1 0 = some o ∧ o.opcode = 0x0101 ∧ s1 = ((s.opBegin a o).meTake a).spotSample a o ∧ j = matmulJob s1 (a /
      16) o ∧ j.pairs = 1 ∧ j.ktilesAt 0 (j.col0 0) = 1 ∧ s1.firstRefusal a false (j.initReads 0 ++ j.reads 0 0) = .ok ∧ j.bad 0 0 =
      false ∧ ((s1.meConvert a j 0 (j.stepPair 0 0 (j.initPair 0))).opInHand a 0x0101).isSome = true) ∧
    (∃ (s : State) (a : Fin 96) (o : OpRec) (line : Nat), s.live = true ∧ s.acts.wf = true ∧ s.engs.wf = true ∧ line ≠ 2 ∧ s.opReady a
      0x0102 1 0 = some o ∧ (u8 o.params 3).testBit 5 = false) ∧
    (∃ (s s1 : State) (a : Fin 96) (o : OpRec) (line : Nat) (j : MeJob), s.live = true ∧ s.acts.wf = true ∧ s.engs.wf = true ∧ line ≠
      2 ∧ s.opReady a 0x0102 1 0 = some o ∧ o.opcode = 0x0102 ∧ (u8 o.params 3).testBit 5 = false ∧ s1 = ((s.opBegin a o).meTake
      a).spotSample a o ∧ j = convJob s1 (a / 16) o ∧ j.pairs = 1 ∧ j.ktilesAt 0 (j.col0 0) = 1 ∧ s1.firstRefusal a false (j.initReads
      0 ++ j.reads 0 0) = .ok ∧ j.bad 0 0 = false ∧ ((s1.meConvert a j 0 (j.stepPair 0 0 (j.initPair 0))).opInHand a 0x0102).isSome =
      true) ∧
    (∃ (s : State) (a : Fin 96) (o : OpRec), s.live = true ∧ s.acts.wf = true ∧ s.dma.queues.wf = true ∧ s.opReady a 0x0102 1 0 = some
      o ∧ (u8 o.params 3).testBit 5 = true ∧ o.spot = false ∧ (s.queue a).busy = false ∧ (s.opBegin a o).progCode a (convLoadProg o) =
      0) :=
  ⟨⟨(opS mmOp 1 0), 0, mmOp, 0, by decide +kernel⟩,
   ⟨((opS mmOp 1 0).onSpad fun p => { p with mem := [(0, 0x80), (95, 3), (128, 0x80), (223, 0xFE)] }), 0, mmOp, (matmulJob ((opS mmOp
     1 0).onSpad fun p => { p with mem := [(0, 0x80), (95, 3), (128, 0x80), (223, 0xFE)] }) (0 / 16) mmOp), by decide +kernel, by
     decide +kernel, by decide +kernel, by decide +kernel, by decide +kernel, by decide +kernel, by decide +kernel, by decide +kernel,
     by decide +kernel, by decide +kernel, by decide +kernel, by decide +kernel, by decide +kernel, by decide +kernel, by
     decide +kernel, rfl, by decide +kernel, by decide +kernel, by decide +kernel⟩,
   ⟨(opS mmOp 1 0), ((((opS mmOp 1 0).opBegin 0 mmOp).meTake 0).spotSample 0 mmOp), 0, mmOp, 0, (matmulJob ((((opS mmOp 1 0).opBegin 0
     mmOp).meTake 0).spotSample 0 mmOp) (0 / 16) mmOp), by decide +kernel, by decide +kernel, by decide +kernel, by decide +kernel, by
     decide +kernel, by decide +kernel, rfl, rfl, by decide +kernel, by decide +kernel, by decide +kernel, by decide +kernel, by
     decide +kernel⟩,
   ⟨(opS (cvOp 0) 1 0), 0, (cvOp 0), 0, by decide +kernel⟩,
   ⟨(opS (cvOp 0) 1 0), ((((opS (cvOp 0) 1 0).opBegin 0 (cvOp 0)).meTake 0).spotSample 0 (cvOp 0)), 0, (cvOp 0), 0, (convJob ((((opS
     (cvOp 0) 1 0).opBegin 0 (cvOp 0)).meTake 0).spotSample 0 (cvOp 0)) (0 / 16) (cvOp 0)), by decide +kernel, by decide +kernel, by
     decide +kernel, by decide +kernel, by decide +kernel, by decide +kernel, by decide +kernel, rfl, rfl, by decide +kernel, by
     decide +kernel, by decide +kernel, by decide +kernel, by decide +kernel⟩,
   ⟨(opS (cvOp 32) 1 0), 0, (cvOp 32), by decide +kernel⟩⟩

theorem test_meets_AttentionEngine :
    (∃ (s s1 : State) (a : Fin 96) (o : OpRec), s.live = true ∧ s.acts.wf = true ∧ s.engs.wf = true ∧ s.opReady a 0x0201 2 0 = some o
      ∧ s1 = (s.opBegin a o).aeTake a ∧ s1.firstRefusal a false (attnInfoReads (attnShape o)) = .ok ∧ missingLeaves (s1.segSnaps (a /
      16) (attnShape o)) = []) ∧
    (∃ (s s1 : State) (a : Fin 96) (o : OpRec), s.live = true ∧ s.acts.wf = true ∧ s.engs.wf = true ∧ s.opReady a 0x0201 2 0 = some o
      ∧ s1 = (s.opBegin a o).aeTake a ∧ s1.firstRefusal a false (attnInfoReads (attnShape o)) = .ok ∧ missingLeaves (s1.segSnaps (a /
      16) (attnShape o)) ≠ []) ∧
    (∃ (s : State) (a : Fin 96) (r : OpRun) (x : AttnShape), s.live = true ∧ s.acts.wf = true ∧ s.engs.wf = true ∧ s.opInHand a 0x0201
      = some r ∧ r.snap = none ∧ r.saved = false ∧ s.holdsFor a 2 0 r.seq = true ∧ x = attnShape (s.opOf a) ∧ s.firstRefusal a false
      (attnInfoReads x) = .ok ∧ missingLeaves (s.segSnaps (a / 16) x) = [] ∧ s.attnCheck a x (s.segSnaps (a / 16) x) = 0) ∧
    (∃ (s s1 : State) (a : Fin 96) (o : OpRec), s.live = true ∧ s.acts.wf = true ∧ s.engs.wf = true ∧ s.opReady a 0x0202 2 0 = some o
      ∧ s1 = (s.opBegin a o).aeTake a ∧ s1.gemvInRange a o = false) ∧
    (∃ (s s1 s2 : State) (a : Fin 96) (o : OpRec) (line : Nat), s.live = true ∧ s.acts.wf = true ∧ s.engs.wf = true ∧ s.opReady a
      0x0202 2 0 = some o ∧ o.opcode = 0x0202 ∧ s1 = (s.opBegin a o).aeTake a ∧ s1.gemvInRange a o = true ∧ s1.gemvStep a o line
      { seq := o.seq, opcode := o.opcode } = some s2 ∧ ((s2.act a).run.bind (·.code)) = some 0) :=
  ⟨⟨(opS atOp 2 0), (((opS atOp 2 0).opBegin 0 atOp).aeTake 0), 0, atOp, by decide +kernel⟩,
   ⟨({ opS atOp 2 0 with
     spad := { loans := [(0, { owned := true }), (1, { owned := true })], mem := [(1028, 5)] }, leaf :=
       { map := [(5, { state := .live, isList := true }), (6, { state := .spilled, slot := 1 })] }, gddr :=
       { mem := [(gdKey 0 0, 1), (gdKey 0 4, 1), (gdKey 0 8, 1), (gdKey 0 12, 1), (gdKey 0 16, 0xFF), (gdKey 0 17, 0xFF), (gdKey 0 18,
           0xFF), (gdKey 0 19, 0xFF), (gdKey 0 64, 6)] } } : State),
     ((({ opS atOp 2 0 with
     spad := { loans := [(0, { owned := true }), (1, { owned := true })], mem := [(1028, 5)] }, leaf :=
       { map := [(5, { state := .live, isList := true }), (6, { state := .spilled, slot := 1 })] }, gddr :=
       { mem := [(gdKey 0 0, 1), (gdKey 0 4, 1), (gdKey 0 8, 1), (gdKey 0 12, 1), (gdKey 0 16, 0xFF), (gdKey 0 17, 0xFF), (gdKey 0 18,
           0xFF), (gdKey 0 19, 0xFF), (gdKey 0 64, 6)] } } : State).opBegin 0 atOp).aeTake 0), 0, atOp, by decide +kernel⟩,
   ⟨({ opS atOp 2 0 with
     acts := [(0, { held := [{ cls := 2 }], run := some { opcode := 0x0201, waiting := true } })], spad :=
       { loans := [(0, { owned := true })], mem := [(1028, 0xFF), (1029, 0xFF), (1030, 0xFF), (1031, 0xFF)] } } : State), 0,
     ({ opcode := 0x0201, waiting := true } : OpRun), (attnShape
     (({ opS atOp 2 0 with
     acts := [(0, { held := [{ cls := 2 }], run := some { opcode := 0x0201, waiting := true } })], spad :=
       { loans := [(0, { owned := true })], mem := [(1028, 0xFF), (1029, 0xFF), (1030, 0xFF), (1031, 0xFF)] } } : State).opOf 0)), by
     decide +kernel, by decide +kernel, by decide +kernel, by decide +kernel, by decide +kernel, by decide +kernel, by decide +kernel,
     rfl, by decide +kernel, by decide +kernel, by decide +kernel⟩,
   ⟨(opS ({ opcode := 0x0202, params := prm 96 [(0, 7), (1, 7), (2, 10), (5, 1), (8, 1), (12, 16), (24, 64), (22, 1)] }) 2 0), (((opS
     ({ opcode := 0x0202, params := prm 96 [(0, 7), (1, 7), (2, 10), (5, 1), (8, 1), (12, 16), (24, 64), (22, 1)] }) 2 0).opBegin 0
     ({ opcode := 0x0202, params := prm 96 [(0, 7), (1, 7), (2, 10), (5, 1), (8, 1), (12, 16), (24, 64), (22, 1)] } : OpRec)).aeTake
     0), 0, ({ opcode := 0x0202, params := prm 96 [(0, 7), (1, 7), (2, 10), (5, 1), (8, 1), (12, 16), (24, 64), (22, 1)] } : OpRec),
     by decide +kernel⟩,
   ⟨(((opS ({ opcode := 0x0202, params := prm 96 [(0, 7), (1, 7), (2, 10), (5, 1), (8, 1), (12, 16), (24, 64), (22, 1)] }) 2 0).onBind
     fun x =>
     { x with
     running := some
       { b :=
           { opB ({ opcode := 0x0202, params := prm 96 [(0, 7), (1, 7), (2, 10), (5, 1), (8, 1), (12, 16), (24, 64), (22, 1)] }) with
           memx := [{ region := 0, kind := 0, channel := 0, size := 1 }] } } }).onActs fun _ => [(0,
     { held := [{ cls := 2 }, { cls := 7 }, { cls := 8 }] })]), (((((opS
     ({ opcode := 0x0202, params := prm 96 [(0, 7), (1, 7), (2, 10), (5, 1), (8, 1), (12, 16), (24, 64), (22, 1)] }) 2 0).onBind fun x
     =>
     { x with
     running := some
       { b :=
           { opB ({ opcode := 0x0202, params := prm 96 [(0, 7), (1, 7), (2, 10), (5, 1), (8, 1), (12, 16), (24, 64), (22, 1)] }) with
           memx := [{ region := 0, kind := 0, channel := 0, size := 1 }] } } }).onActs fun _ => [(0,
     { held := [{ cls := 2 }, { cls := 7 }, { cls := 8 }] })]).opBegin 0
     ({ opcode := 0x0202, params := prm 96 [(0, 7), (1, 7), (2, 10), (5, 1), (8, 1), (12, 16), (24, 64), (22, 1)] } : OpRec)).aeTake
     0), (((((((opS ({ opcode := 0x0202, params := prm 96 [(0, 7), (1, 7), (2, 10), (5, 1), (8, 1), (12, 16), (24, 64), (22, 1)] }) 2
     0).onBind fun x =>
     { x with
     running := some
       { b :=
           { opB ({ opcode := 0x0202, params := prm 96 [(0, 7), (1, 7), (2, 10), (5, 1), (8, 1), (12, 16), (24, 64), (22, 1)] }) with
           memx := [{ region := 0, kind := 0, channel := 0, size := 1 }] } } }).onActs fun _ => [(0,
     { held := [{ cls := 2 }, { cls := 7 }, { cls := 8 }] })]).opBegin 0
     ({ opcode := 0x0202, params := prm 96 [(0, 7), (1, 7), (2, 10), (5, 1), (8, 1), (12, 16), (24, 64), (22, 1)] } : OpRec)).aeTake
     0).gemvStep 0 ({ opcode := 0x0202, params := prm 96 [(0, 7), (1, 7), (2, 10), (5, 1), (8, 1), (12, 16), (24, 64), (22, 1)] } :
     OpRec) 0
     { seq := ({ opcode := 0x0202, params := prm 96 [(0, 7), (1, 7), (2, 10), (5, 1), (8, 1), (12, 16), (24, 64), (22, 1)] } :
         OpRec).seq, opcode :=
         ({ opcode := 0x0202, params := prm 96 [(0, 7), (1, 7), (2, 10), (5, 1), (8, 1), (12, 16), (24, 64), (22, 1)] } :
         OpRec).opcode }).getD (((((opS
     ({ opcode := 0x0202, params := prm 96 [(0, 7), (1, 7), (2, 10), (5, 1), (8, 1), (12, 16), (24, 64), (22, 1)] }) 2 0).onBind fun x
     =>
     { x with
     running := some
       { b :=
           { opB ({ opcode := 0x0202, params := prm 96 [(0, 7), (1, 7), (2, 10), (5, 1), (8, 1), (12, 16), (24, 64), (22, 1)] }) with
           memx := [{ region := 0, kind := 0, channel := 0, size := 1 }] } } }).onActs fun _ => [(0,
     { held := [{ cls := 2 }, { cls := 7 }, { cls := 8 }] })]).opBegin 0
     ({ opcode := 0x0202, params := prm 96 [(0, 7), (1, 7), (2, 10), (5, 1), (8, 1), (12, 16), (24, 64), (22, 1)] } : OpRec)).aeTake
     0)), 0, ({ opcode := 0x0202, params := prm 96 [(0, 7), (1, 7), (2, 10), (5, 1), (8, 1), (12, 16), (24, 64), (22, 1)] } : OpRec),
     0, by decide +kernel⟩⟩

theorem test_meets_CoreOps :
    (∃ (s : State) (a : Fin 96) (c : Fin 4) (o : OpRec), s.live = true ∧ s.acts.wf = true ∧ s.opReady a 0x0302 3 c = some o) ∧
    (∃ (s : State) (a : Fin 96) (c : Fin 4) (o : OpRec) (mv : List (Nat × Nat)) (w : Nat), s.live = true ∧ s.acts.wf = true ∧
      s.opReady a 0x0302 3 c = some o ∧ (u8 o.params 3).testBit 0 = false ∧ w = elemBits (u8 o.params 0) ∧ mv = s2dMoves false
      o.params w (elemBits (u8 o.params 1)) ∧ s.firstRefusal a false (mv.map fun m => (m.1, w / 8)) = .ok ∧ s.firstRefusal a true
      (mv.map fun m => (m.2, elemBits (u8 o.params 1) / 8)) = .ok) ∧
    (∃ (s : State) (a : Fin 96) (c : Fin 4) (o : OpRec) (mv : List (Nat × Nat)) (w : Nat), s.live = true ∧ s.acts.wf = true ∧
      s.opReady a 0x0303 3 c = some o ∧ w = elemBits (u8 o.params 0) ∧ mv = s2dMoves true o.params w (elemBits (u8 o.params 1)) ∧
      s.firstRefusal a false (mv.map fun m => (m.1, w / 8)) = .ok ∧ s.firstRefusal a true (mv.map fun m => (m.2, elemBits (u8 o.params
      1) / 8)) = .ok) ∧
    (∃ (s : State) (a : Fin 96) (c : Fin 4) (o : OpRec) (bS bD : ConvBlock), s.live = true ∧ s.acts.wf = true ∧ Memory.wf s.spad.mem =
      true ∧ s.opReady a 0x0304 3 c = some o ∧ bS = (tconvShape o.params false).block (u8 o.params 0) false ∧ bD = (tconvShape
      o.params true).block (u8 o.params 0) false ∧ u16 o.params 12 ≠ 0 ∧ o.p32 20 + bD.bias < 25165824 ∧ s.firstRefusal a false
      [(o.p32 16, bS.bias + 4 * u16 o.params 12)] = .ok ∧ s.firstRefusal a true [(o.p32 20, bD.bias + 4 * u16 o.params 12)] = .ok) :=
  ⟨⟨(opS (op 0x0302 40 [(0, 7), (1, 7), (2, 2), (4, 2), (6, 2), (8, 1), (16, 64), (21, 1), (24, 64), (28, 1), (30, 4)]) 3 3), 0, 3,
     (op 0x0302 40 [(0, 7), (1, 7), (2, 2), (4, 2), (6, 2), (8, 1), (16, 64), (21, 1), (24, 64), (28, 1), (30, 4)]), by
     decide +kernel⟩,
   ⟨((opS (op 0x0302 40 [(0, 7), (1, 7), (2, 2), (4, 2), (6, 2), (8, 1), (16, 64), (21, 1), (24, 64), (28, 1), (30, 4)]) 3 3).onSpad
     fun p => { p with mem := [(0, 5), (65, 6)] }), 0, 3, (op 0x0302 40 [(0, 7), (1, 7), (2, 2), (4, 2), (6, 2), (8, 1), (16, 64),
     (21, 1), (24, 64), (28, 1), (30, 4)]), (s2dMoves false (op 0x0302 40 [(0, 7), (1, 7), (2, 2), (4, 2), (6, 2), (8, 1), (16, 64),
     (21, 1), (24, 64), (28, 1), (30, 4)]).params (elemBits (u8 (op 0x0302 40 [(0, 7), (1, 7), (2, 2), (4, 2), (6, 2), (8, 1), (16,
     64), (21, 1), (24, 64), (28, 1), (30, 4)]).params 0)) (elemBits (u8 (op 0x0302 40 [(0, 7), (1, 7), (2, 2), (4, 2), (6, 2), (8,
     1), (16, 64), (21, 1), (24, 64), (28, 1), (30, 4)]).params 1))), (elemBits (u8 (op 0x0302 40 [(0, 7), (1, 7), (2, 2), (4, 2), (6,
     2), (8, 1), (16, 64), (21, 1), (24, 64), (28, 1), (30, 4)]).params 0)), by decide +kernel⟩,
   ⟨((opS (op 0x0303 40 [(0, 7), (1, 7), (2, 2), (4, 1), (6, 1), (8, 4), (16, 64), (21, 1), (24, 64), (28, 4), (30, 1)]) 3 0).onSpad
     fun p => { p with mem := [(0, 5), (3, 6)] }), 0, 0, (op 0x0303 40 [(0, 7), (1, 7), (2, 2), (4, 1), (6, 1), (8, 4), (16, 64), (21,
     1), (24, 64), (28, 4), (30, 1)]), (s2dMoves true (op 0x0303 40 [(0, 7), (1, 7), (2, 2), (4, 1), (6, 1), (8, 4), (16, 64), (21,
     1), (24, 64), (28, 4), (30, 1)]).params (elemBits (u8 (op 0x0303 40 [(0, 7), (1, 7), (2, 2), (4, 1), (6, 1), (8, 4), (16, 64),
     (21, 1), (24, 64), (28, 4), (30, 1)]).params 0)) (elemBits (u8 (op 0x0303 40 [(0, 7), (1, 7), (2, 2), (4, 1), (6, 1), (8, 4),
     (16, 64), (21, 1), (24, 64), (28, 4), (30, 1)]).params 1))), (elemBits (u8 (op 0x0303 40 [(0, 7), (1, 7), (2, 2), (4, 1), (6, 1),
     (8, 4), (16, 64), (21, 1), (24, 64), (28, 4), (30, 1)]).params 0)), by decide +kernel⟩,
   ⟨((opS (op 0x0304 40 [(0, 7), (1, 1), (2, 1), (3, 1), (4, 1), (8, 1), (10, 1), (12, 1), (21, 4)]) 3 0).onSpad fun p =>
     { p with mem := [(0, 5), (64, 6)] }), 0, 0, (op 0x0304 40 [(0, 7), (1, 1), (2, 1), (3, 1), (4, 1), (8, 1), (10, 1), (12, 1), (21,
     4)]), ((tconvShape (op 0x0304 40 [(0, 7), (1, 1), (2, 1), (3, 1), (4, 1), (8, 1), (10, 1), (12, 1), (21, 4)]).params false).block
     (u8 (op 0x0304 40 [(0, 7), (1, 1), (2, 1), (3, 1), (4, 1), (8, 1), (10, 1), (12, 1), (21, 4)]).params 0) false), ((tconvShape (op
     0x0304 40 [(0, 7), (1, 1), (2, 1), (3, 1), (4, 1), (8, 1), (10, 1), (12, 1), (21, 4)]).params true).block (u8 (op 0x0304 40 [(0,
     7), (1, 1), (2, 1), (3, 1), (4, 1), (8, 1), (10, 1), (12, 1), (21, 4)]).params 0) false), by decide +kernel, by decide +kernel,
     by decide +kernel, by decide +kernel, rfl, rfl, by decide +kernel, by decide +kernel, by decide +kernel, by decide +kernel⟩⟩

theorem test_meets_DetectionOps :
    (∃ (s : State) (a : Fin 96) (o : OpRec) (recs : List (List (BitVec 8))) (parts : List (List BoxCand × Nat)) (cands out : List
      BoxCand), s.live = true ∧ s.acts.wf = true ∧ s.opReady a 0x0401 4 0 = some o ∧ s.firstRefusal a false [(o.p32 40, 64 * u8
      o.params 6)] = .ok ∧ recs = (List.range (u8 o.params 6)).map (fun i => s.spGet (a / 16) (o.p32 40 + 64 * i) 64) ∧ s.firstRefusal
      a false (recs.flatMap fun r => (List.range (u16 r 0)).map fun gy => (u32 r 24 + gy * u32 r 28, u16 r 2 * ((elemBytes (u8
      o.params 0) (u8 r 4 * (4 + u16 o.params 4)) + 15) / 16 * 16))) = .ok ∧ parts = (List.range (u8 o.params 6)).map (fun i =>
      s.boxLevel (a / 16) o (recs.getD i []) i (levelBase recs i)) ∧ cands = sortBy BoxCand.before (parts.flatMap (·.1)) ∧ out =
      cands.take (u16 o.params 52) ∧ s.firstRefusal a true [(o.p32 44, 32 * out.length), (o.p32 48, 64)] = .ok) ∧
    (∃ (s : State) (a : Fin 96) (o : OpRec) (n : Nat) (k : List BoxCand × Bool), s.live = true ∧ s.acts.wf = true ∧ s.opReady a 0x0402
      4 0 = some o ∧ s.firstRefusal a false [(o.p32 12, 64)] = .ok ∧ n = u32 (s.spGet (a / 16) (o.p32 12) 4) 0 ∧ n ≤ 4096 ∧
      s.firstRefusal a false [(o.p32 8, 32 * n)] = .ok ∧ k = nmsKeep (u8 o.params 0 == 1) (o.pF 4) (u16 o.params 24) [] (sortBy
      BoxCand.before ((List.range n).map fun i => boxOf (s.spGet (a / 16) (o.p32 8 + 32 * i) 32))) ∧ s.firstRefusal a true [(o.p32 16,
      32 * k.1.length), (o.p32 20, 64)] = .ok) ∧
    (∃ (s : State) (a : Fin 96) (o : OpRec), s.live = true ∧ s.acts.wf = true ∧ s.opReady a 0x0402 4 0 = some o ∧ s.firstRefusal a
      false [(o.p32 12, 64)] = .ok ∧ 4096 < u32 (s.spGet (a / 16) (o.p32 12) 4) 0) :=
  ⟨⟨((opS (op 0x0401 64 [(0, 9), (4, 1), (6, 1), (45, 4), (49, 8), (52, 1)]) 4 0).onSpad fun p =>
     { p with mem := [(0, 1), (2, 1), (4, 1), (25, 2), (28, 64)] }), 0, (op 0x0401 64 [(0, 9), (4, 1), (6, 1), (45, 4), (49, 8), (52,
     1)]), ((List.range (u8 (op 0x0401 64 [(0, 9), (4, 1), (6, 1), (45, 4), (49, 8), (52, 1)]).params 6)).map (fun i => ((opS (op
     0x0401 64 [(0, 9), (4, 1), (6, 1), (45, 4), (49, 8), (52, 1)]) 4 0).onSpad fun p =>
     { p with mem := [(0, 1), (2, 1), (4, 1), (25, 2), (28, 64)] }).spGet (0 / 16) ((op 0x0401 64 [(0, 9), (4, 1), (6, 1), (45, 4),
     (49, 8), (52, 1)]).p32 40 + 64 * i) 64)), ((List.range (u8 (op 0x0401 64 [(0, 9), (4, 1), (6, 1), (45, 4), (49, 8), (52,
     1)]).params 6)).map (fun i => ((opS (op 0x0401 64 [(0, 9), (4, 1), (6, 1), (45, 4), (49, 8), (52, 1)]) 4 0).onSpad fun p =>
     { p with mem := [(0, 1), (2, 1), (4, 1), (25, 2), (28, 64)] }).boxLevel (0 / 16) (op 0x0401 64 [(0, 9), (4, 1), (6, 1), (45, 4),
     (49, 8), (52, 1)]) (((List.range (u8 (op 0x0401 64 [(0, 9), (4, 1), (6, 1), (45, 4), (49, 8), (52, 1)]).params 6)).map (fun i =>
     ((opS (op 0x0401 64 [(0, 9), (4, 1), (6, 1), (45, 4), (49, 8), (52, 1)]) 4 0).onSpad fun p =>
     { p with mem := [(0, 1), (2, 1), (4, 1), (25, 2), (28, 64)] }).spGet (0 / 16) ((op 0x0401 64 [(0, 9), (4, 1), (6, 1), (45, 4),
     (49, 8), (52, 1)]).p32 40 + 64 * i) 64)).getD i []) i (levelBase ((List.range (u8 (op 0x0401 64 [(0, 9), (4, 1), (6, 1), (45, 4),
     (49, 8), (52, 1)]).params 6)).map (fun i => ((opS (op 0x0401 64 [(0, 9), (4, 1), (6, 1), (45, 4), (49, 8), (52, 1)]) 4 0).onSpad
     fun p => { p with mem := [(0, 1), (2, 1), (4, 1), (25, 2), (28, 64)] }).spGet (0 / 16) ((op 0x0401 64 [(0, 9), (4, 1), (6, 1),
     (45, 4), (49, 8), (52, 1)]).p32 40 + 64 * i) 64)) i))), (sortBy BoxCand.before (((List.range (u8 (op 0x0401 64 [(0, 9), (4, 1),
     (6, 1), (45, 4), (49, 8), (52, 1)]).params 6)).map (fun i => ((opS (op 0x0401 64 [(0, 9), (4, 1), (6, 1), (45, 4), (49, 8), (52,
     1)]) 4 0).onSpad fun p => { p with mem := [(0, 1), (2, 1), (4, 1), (25, 2), (28, 64)] }).boxLevel (0 / 16) (op 0x0401 64 [(0, 9),
     (4, 1), (6, 1), (45, 4), (49, 8), (52, 1)]) (((List.range (u8 (op 0x0401 64 [(0, 9), (4, 1), (6, 1), (45, 4), (49, 8), (52,
     1)]).params 6)).map (fun i => ((opS (op 0x0401 64 [(0, 9), (4, 1), (6, 1), (45, 4), (49, 8), (52, 1)]) 4 0).onSpad fun p =>
     { p with mem := [(0, 1), (2, 1), (4, 1), (25, 2), (28, 64)] }).spGet (0 / 16) ((op 0x0401 64 [(0, 9), (4, 1), (6, 1), (45, 4),
     (49, 8), (52, 1)]).p32 40 + 64 * i) 64)).getD i []) i (levelBase ((List.range (u8 (op 0x0401 64 [(0, 9), (4, 1), (6, 1), (45, 4),
     (49, 8), (52, 1)]).params 6)).map (fun i => ((opS (op 0x0401 64 [(0, 9), (4, 1), (6, 1), (45, 4), (49, 8), (52, 1)]) 4 0).onSpad
     fun p => { p with mem := [(0, 1), (2, 1), (4, 1), (25, 2), (28, 64)] }).spGet (0 / 16) ((op 0x0401 64 [(0, 9), (4, 1), (6, 1),
     (45, 4), (49, 8), (52, 1)]).p32 40 + 64 * i) 64)) i))).flatMap (·.1))), ((sortBy BoxCand.before (((List.range (u8 (op 0x0401 64
     [(0, 9), (4, 1), (6, 1), (45, 4), (49, 8), (52, 1)]).params 6)).map (fun i => ((opS (op 0x0401 64 [(0, 9), (4, 1), (6, 1), (45,
     4), (49, 8), (52, 1)]) 4 0).onSpad fun p => { p with mem := [(0, 1), (2, 1), (4, 1), (25, 2), (28, 64)] }).boxLevel (0 / 16) (op
     0x0401 64 [(0, 9), (4, 1), (6, 1), (45, 4), (49, 8), (52, 1)]) (((List.range (u8 (op 0x0401 64 [(0, 9), (4, 1), (6, 1), (45, 4),
     (49, 8), (52, 1)]).params 6)).map (fun i => ((opS (op 0x0401 64 [(0, 9), (4, 1), (6, 1), (45, 4), (49, 8), (52, 1)]) 4 0).onSpad
     fun p => { p with mem := [(0, 1), (2, 1), (4, 1), (25, 2), (28, 64)] }).spGet (0 / 16) ((op 0x0401 64 [(0, 9), (4, 1), (6, 1),
     (45, 4), (49, 8), (52, 1)]).p32 40 + 64 * i) 64)).getD i []) i (levelBase ((List.range (u8 (op 0x0401 64 [(0, 9), (4, 1), (6, 1),
     (45, 4), (49, 8), (52, 1)]).params 6)).map (fun i => ((opS (op 0x0401 64 [(0, 9), (4, 1), (6, 1), (45, 4), (49, 8), (52, 1)]) 4
     0).onSpad fun p => { p with mem := [(0, 1), (2, 1), (4, 1), (25, 2), (28, 64)] }).spGet (0 / 16) ((op 0x0401 64 [(0, 9), (4, 1),
     (6, 1), (45, 4), (49, 8), (52, 1)]).p32 40 + 64 * i) 64)) i))).flatMap (·.1))).take (u16 (op 0x0401 64 [(0, 9), (4, 1), (6, 1),
     (45, 4), (49, 8), (52, 1)]).params 52)), by decide +kernel⟩,
   ⟨((opS (op 0x0402 32 [(9, 4), (17, 2), (21, 3), (24, 1)]) 4 0).onSpad fun p => { p with mem := [(0, 1)] }), 0, (op 0x0402 32 [(9,
     4), (17, 2), (21, 3), (24, 1)]), 1, (nmsKeep (u8 (op 0x0402 32 [(9, 4), (17, 2), (21, 3), (24, 1)]).params 0 == 1) ((op 0x0402 32
     [(9, 4), (17, 2), (21, 3), (24, 1)]).pF 4) (u16 (op 0x0402 32 [(9, 4), (17, 2), (21, 3), (24, 1)]).params 24) [] (sortBy
     BoxCand.before ((List.range 1).map fun i => boxOf (((opS (op 0x0402 32 [(9, 4), (17, 2), (21, 3), (24, 1)]) 4 0).onSpad fun p =>
     { p with mem := [(0, 1)] }).spGet (0 / 16) ((op 0x0402 32 [(9, 4), (17, 2), (21, 3), (24, 1)]).p32 8 + 32 * i) 32)))), by
     decide +kernel⟩,
   ⟨((opS (op 0x0402 32 [(9, 1), (17, 2), (21, 3), (24, 1)]) 4 0).onSpad fun p => { p with mem := [(0, 1), (1, 16)] }), 0, (op 0x0402
     32 [(9, 1), (17, 2), (21, 3), (24, 1)]), by decide +kernel⟩⟩

theorem test_meets_ServingOps :
    (∃ (s s1 : State) (a : Fin 96) (o : OpRec) (chain : List Nat), s.live = true ∧ s.acts.wf = true ∧ s.opReady a 0x0403 4 0 = some o
      ∧ o.opcode = 0x0403 ∧ o.fn = 0 ∧ u16 o.params 2 = 1 ∧ s1 = s.opBegin a o ∧ chain = (if s1.sampleStays (a / 16) o 0 then [0] else
      []) ∧ s1.firstRefusal a false (s1.seqReads (a / 16) o 0 false) = .ok ∧ s1.firstRefusal a true ((s1.sampleSeq (a / 16) o chain
      0).writes.map fun w => (w.1, w.2.length)) = .ok) ∧
    (∃ (s s1 : State) (a : Fin 96) (o : OpRec), s.live = true ∧ s.acts.wf = true ∧ s.opReady a 0x0403 4 0 = some o ∧ o.opcode = 0x0403
      ∧ o.fn = 1 ∧ u16 o.params 2 = 1 ∧ s1 = s.opBegin a o ∧ s1.firstRefusal a false (s1.seqReads (a / 16) o 0 true) = .ok ∧
      s1.firstRefusal a true ((s1.draftSeq (a / 16) o (s1.activeSeqs (a / 16) o) 0).writes.map fun w => (w.1, w.2.length)) = .ok) ∧
    (∃ (s : State) (a : Fin 96) (o : OpRec), s.live = true ∧ s.acts.wf = true ∧ Memory.wf s.spad.mem = true ∧ s.opReady a 0x0403 4 0 =
      some o ∧ o.fn = 2 ∧ o.strict = false ∧ o.p32 4 = 1 ∧ o.p32 20 < 0x2000000 ∧ s.firstRefusal a false [(o.p32 12, elemBytes (u8
      o.params 1) (o.p32 8)), (o.p32 28, 4 * o.p32 8)] = .ok ∧ s.firstRefusal a true [(o.p32 20, elemBytes (u8 o.params 2) (o.p32 8))]
      = .ok) ∧
    (∃ (s : State) (a : Fin 96) (o : OpRec), s.live = true ∧ s.acts.wf = true ∧ Memory.wf s.spad.mem = true ∧ s.opReady a 0x0403 4 0 =
      some o ∧ o.fn = 3 ∧ o.strict = false ∧ o.p32 4 = 1 ∧ o.p32 20 < 0x2000000 ∧ s.firstRefusal a false [(o.p32 12, elemBytes (u8
      o.params 1) (2 * o.p32 8))] = .ok ∧ s.firstRefusal a true [(o.p32 20, elemBytes (u8 o.params 2) (o.p32 8))] = .ok) :=
  ⟨⟨(opS (op 0x0403 64 [(2, 1)]) 4 0), ((opS (op 0x0403 64 [(2, 1)]) 4 0).opBegin 0 (op 0x0403 64 [(2, 1)])), 0, (op 0x0403 64 [(2,
     1)]), (if ((opS (op 0x0403 64 [(2, 1)]) 4 0).opBegin 0 (op 0x0403 64 [(2, 1)])).sampleStays (0 / 16) (op 0x0403 64 [(2, 1)]) 0
     then [0] else []), by decide +kernel⟩,
   ⟨(opS (op 0x0403 64 [(0, 1), (2, 1)]) 4 0), ((opS (op 0x0403 64 [(0, 1), (2, 1)]) 4 0).opBegin 0 (op 0x0403 64 [(0, 1), (2, 1)])),
     0, (op 0x0403 64 [(0, 1), (2, 1)]), by decide +kernel⟩,
   ⟨((opS (op 0x0403 64 [(0, 2), (1, 9), (2, 9), (4, 1), (8, 2), (21, 4), (29, 1)]) 4 0).onSpad fun p =>
     { p with mem := [(2, 0x80), (3, 0x3F), (258, 0x80), (259, 0x3F)] }), 0, (op 0x0403 64 [(0, 2), (1, 9), (2, 9), (4, 1), (8, 2),
     (21, 4), (29, 1)]), by decide +kernel⟩,
   ⟨((opS (op 0x0403 64 [(0, 3), (1, 9), (2, 9), (4, 1), (8, 2), (21, 4)]) 4 0).onSpad fun p =>
     { p with mem := [(2, 0x80), (3, 0x3F), (10, 0x80), (11, 0x3F)] }), 0, (op 0x0403 64 [(0, 3), (1, 9), (2, 9), (4, 1), (8, 2), (21,
     4)]), by decide +kernel⟩⟩

theorem test_meets_LeafService :
    (∃ (s s1 : State) (a : Fin 96) (c : Fin 4) (o : OpRec) (t' : EditSt) (rs : List (Nat × Option Nat)), s.live = true ∧ s.acts.wf =
      true ∧ s.dma.queues.wf = true ∧ s.opReady a 0x0305 3 c = some o ∧ (s.queue a).busy = false ∧ s1 = s.opBegin a o ∧
      s1.firstRefusal a false [(o.p32 4, 32 * u8 o.params 0)] = .ok ∧ editRun s1 { act := a, k := s1.b.tenantOf a, ch := a / 16 }
      ((List.range (u8 o.params 0)).map fun i => s1.spGet (a / 16) (o.p32 4 + 32 * i) 32) { next := s1.leaf.nextLeaf } [] 0 = (t', rs,
      0) ∧ s1.firstRefusal a false t'.reads = .ok ∧ t'.poison = false) ∧
    (∃ (s s1 : State) (a : Fin 96) (c : Fin 4) (o : OpRec) (t' : EditSt) (rs : List (Nat × Option Nat)) (code : Nat), s.live = true ∧
      s.acts.wf = true ∧ s.opReady a 0x0305 3 c = some o ∧ (s.queue a).busy = false ∧ s1 = s.opBegin a o ∧ s1.firstRefusal a false
      [(o.p32 4, 32 * u8 o.params 0)] = .ok ∧ editRun s1 { act := a, k := s1.b.tenantOf a, ch := a / 16 } ((List.range (u8 o.params
      0)).map fun i => s1.spGet (a / 16) (o.p32 4 + 32 * i) 32) { next := s1.leaf.nextLeaf } [] 0 = (t', rs, code) ∧ code ≠ 0 ∧
      s1.firstRefusal a true [(o.p32 8, 8 * rs.length)] = .ok) ∧
    (∃ (s : State) (a : Fin 96) (r : OpRun) (p : EditPlan), s.live = true ∧ s.acts.wf = true ∧ s.opInHand a 0x0305 = some r ∧ r.edit =
      some p ∧ (s.queue a).stop = .none ∧ s.firstRefusal a true [(p.outAddr, 8 * p.results.length)] = .ok ∧ p.uses = [] ∧ p.frees = []
      ∧ p.retire = []) ∧
    (∃ (s : State) (a : Fin 96) (r : OpRun) (p : EditPlan) (ack : Nat), s.live = true ∧ s.acts.wf = true ∧ s.opInHand a 0x0305 = some
      r ∧ r.edit = some p ∧ (s.queue a).stop = .none ∧ ack ≠ 0) ∧
    (∃ (s : State) (l : Nat) (x : Xfer), s.live = true ∧ s.xferOf l = some x ∧ x.isFetch = false ∧ s.snapped l = false ∧ s.leaf.map.wf
      = true) ∧
    (∃ (s : State) (l ack : Nat) (x : Xfer), s.live = true ∧ s.xferOf l = some x ∧ x.isFetch = false ∧ ack ≠ 0 ∧ s.leaf.map.wf = true) ∧
    (∃ (s : State) (l slot : Nat) (x : Xfer), s.live = true ∧ s.xferOf l = some x ∧ x.isFetch = true ∧ x.localSlot = none ∧
      ((s.leaf.xfers.find? fun y => y.isFetch && y.channel == x.channel && y.localSlot.isNone).map (·.leaf)) = some l ∧ s.slotFor
      (s.leafE l).tenant x.channel [] 0 = some slot) ∧
    (∃ (s : State) (l slot : Nat) (x : Xfer), s.live = true ∧ s.xferOf l = some x ∧ x.isFetch = true ∧ x.localSlot = some slot ∧
      s.fetchTurn l = true ∧ s.leaf.map.wf = true) ∧
    (∃ (s : State) (l slot : Nat) (x : Xfer), s.live = true ∧ s.xferOf l = some x ∧ x.isFetch = true ∧ x.localSlot = some slot ∧
      s.fetchTurn l = true ∧ s.leaf.fails.get l = 0 ∧ s.leaf.map.wf = true) ∧
    (∃ (s : State) (l slot : Nat) (x : Xfer), s.live = true ∧ s.xferOf l = some x ∧ x.isFetch = true ∧ x.localSlot = some slot ∧
      s.fetchTurn l = true ∧ 1 ≤ s.leaf.fails.get l ∧ s.leaf.map.wf = true) :=
  ⟨⟨(opS (op 0x0305 32 [(5, 1), (9, 2)]) 3 0), ((opS (op 0x0305 32 [(5, 1), (9, 2)]) 3 0).opBegin 0 (op 0x0305 32 [(5, 1), (9, 2)])),
     0, 0, (op 0x0305 32 [(5, 1), (9, 2)]), ((editRun ((opS (op 0x0305 32 [(5, 1), (9, 2)]) 3 0).opBegin 0 (op 0x0305 32 [(5, 1), (9,
     2)]))
     { act := 0, k := ((opS (op 0x0305 32 [(5, 1), (9, 2)]) 3 0).opBegin 0 (op 0x0305 32 [(5, 1), (9, 2)])).b.tenantOf 0, ch := 0 / 16
         } ((List.range (u8 (op 0x0305 32 [(5, 1), (9, 2)]).params 0)).map fun i => ((opS (op 0x0305 32 [(5, 1), (9, 2)]) 3 0).opBegin
     0 (op 0x0305 32 [(5, 1), (9, 2)])).spGet (0 / 16) ((op 0x0305 32 [(5, 1), (9, 2)]).p32 4 + 32 * i) 32)
     { next := ((opS (op 0x0305 32 [(5, 1), (9, 2)]) 3 0).opBegin 0 (op 0x0305 32 [(5, 1), (9, 2)])).leaf.nextLeaf } [] 0).1),
     ((editRun ((opS (op 0x0305 32 [(5, 1), (9, 2)]) 3 0).opBegin 0 (op 0x0305 32 [(5, 1), (9, 2)]))
     { act := 0, k := ((opS (op 0x0305 32 [(5, 1), (9, 2)]) 3 0).opBegin 0 (op 0x0305 32 [(5, 1), (9, 2)])).b.tenantOf 0, ch := 0 / 16
         } ((List.range (u8 (op 0x0305 32 [(5, 1), (9, 2)]).params 0)).map fun i => ((opS (op 0x0305 32 [(5, 1), (9, 2)]) 3 0).opBegin
     0 (op 0x0305 32 [(5, 1), (9, 2)])).spGet (0 / 16) ((op 0x0305 32 [(5, 1), (9, 2)]).p32 4 + 32 * i) 32)
     { next := ((opS (op 0x0305 32 [(5, 1), (9, 2)]) 3 0).opBegin 0 (op 0x0305 32 [(5, 1), (9, 2)])).leaf.nextLeaf } [] 0).2.1), by
     decide +kernel, by decide +kernel, by decide +kernel, by decide +kernel, by decide +kernel, rfl, by decide +kernel, rfl, by
     decide +kernel, by decide +kernel⟩,
   ⟨((opS (op 0x0305 32 [(0, 1), (5, 1), (9, 2)]) 3 0).onSpad fun p => { p with mem := [(256, 0xFF)] }), (((opS (op 0x0305 32 [(0, 1),
     (5, 1), (9, 2)]) 3 0).onSpad fun p => { p with mem := [(256, 0xFF)] }).opBegin 0 (op 0x0305 32 [(0, 1), (5, 1), (9, 2)])), 0, 0,
     (op 0x0305 32 [(0, 1), (5, 1), (9, 2)]), ((editRun (((opS (op 0x0305 32 [(0, 1), (5, 1), (9, 2)]) 3 0).onSpad fun p =>
     { p with mem := [(256, 0xFF)] }).opBegin 0 (op 0x0305 32 [(0, 1), (5, 1), (9, 2)]))
     { act := 0, k := (((opS (op 0x0305 32 [(0, 1), (5, 1), (9, 2)]) 3 0).onSpad fun p => { p with mem := [(256, 0xFF)] }).opBegin 0
         (op 0x0305 32 [(0, 1), (5, 1), (9, 2)])).b.tenantOf 0, ch := 0 / 16 } ((List.range (u8 (op 0x0305 32 [(0, 1), (5, 1), (9,
     2)]).params 0)).map fun i => (((opS (op 0x0305 32 [(0, 1), (5, 1), (9, 2)]) 3 0).onSpad fun p => { p with mem := [(256, 0xFF)]
                                                                                                                 }).opBegin 0 (op
     0x0305 32 [(0, 1), (5, 1), (9, 2)])).spGet (0 / 16) ((op 0x0305 32 [(0, 1), (5, 1), (9, 2)]).p32 4 + 32 * i) 32)
     { next := (((opS (op 0x0305 32 [(0, 1), (5, 1), (9, 2)]) 3 0).onSpad fun p => { p with mem := [(256, 0xFF)] }).opBegin 0 (op
         0x0305 32 [(0, 1), (5, 1), (9, 2)])).leaf.nextLeaf } [] 0).1), ((editRun (((opS (op 0x0305 32 [(0, 1), (5, 1), (9, 2)]) 3
     0).onSpad fun p => { p with mem := [(256, 0xFF)] }).opBegin 0 (op 0x0305 32 [(0, 1), (5, 1), (9, 2)]))
     { act := 0, k := (((opS (op 0x0305 32 [(0, 1), (5, 1), (9, 2)]) 3 0).onSpad fun p => { p with mem := [(256, 0xFF)] }).opBegin 0
         (op 0x0305 32 [(0, 1), (5, 1), (9, 2)])).b.tenantOf 0, ch := 0 / 16 } ((List.range (u8 (op 0x0305 32 [(0, 1), (5, 1), (9,
     2)]).params 0)).map fun i => (((opS (op 0x0305 32 [(0, 1), (5, 1), (9, 2)]) 3 0).onSpad fun p => { p with mem := [(256, 0xFF)]
                                                                                                                 }).opBegin 0 (op
     0x0305 32 [(0, 1), (5, 1), (9, 2)])).spGet (0 / 16) ((op 0x0305 32 [(0, 1), (5, 1), (9, 2)]).p32 4 + 32 * i) 32)
     { next := (((opS (op 0x0305 32 [(0, 1), (5, 1), (9, 2)]) 3 0).onSpad fun p => { p with mem := [(256, 0xFF)] }).opBegin 0 (op
         0x0305 32 [(0, 1), (5, 1), (9, 2)])).leaf.nextLeaf } [] 0).2.1), ((editRun (((opS (op 0x0305 32 [(0, 1), (5, 1), (9, 2)]) 3
     0).onSpad fun p => { p with mem := [(256, 0xFF)] }).opBegin 0 (op 0x0305 32 [(0, 1), (5, 1), (9, 2)]))
     { act := 0, k := (((opS (op 0x0305 32 [(0, 1), (5, 1), (9, 2)]) 3 0).onSpad fun p => { p with mem := [(256, 0xFF)] }).opBegin 0
         (op 0x0305 32 [(0, 1), (5, 1), (9, 2)])).b.tenantOf 0, ch := 0 / 16 } ((List.range (u8 (op 0x0305 32 [(0, 1), (5, 1), (9,
     2)]).params 0)).map fun i => (((opS (op 0x0305 32 [(0, 1), (5, 1), (9, 2)]) 3 0).onSpad fun p => { p with mem := [(256, 0xFF)]
                                                                                                                 }).opBegin 0 (op
     0x0305 32 [(0, 1), (5, 1), (9, 2)])).spGet (0 / 16) ((op 0x0305 32 [(0, 1), (5, 1), (9, 2)]).p32 4 + 32 * i) 32)
     { next := (((opS (op 0x0305 32 [(0, 1), (5, 1), (9, 2)]) 3 0).onSpad fun p => { p with mem := [(256, 0xFF)] }).opBegin 0 (op
         0x0305 32 [(0, 1), (5, 1), (9, 2)])).leaf.nextLeaf } [] 0).2.2), by decide +kernel, by decide +kernel, by decide +kernel, by
     decide +kernel, rfl, by decide +kernel, rfl, by decide +kernel, by decide +kernel⟩,
   ⟨({ (opS (op 0x0305 32 []) 3 0) with
     acts := [(0,
       { held := [{ cls := 3 }], run := some
           { opcode := 0x0305, edit := some
               { writes := [{ leaf := 5, entry := { state := .live } }], results := [(0, some 5)], outAddr := 512 } } })] } : State),
     0,
     ({ opcode := 0x0305, edit := some
          { writes := [{ leaf := 5, entry := { state := .live } }], results := [(0, some 5)], outAddr := 512 } } : OpRun),
     ({ writes := [{ leaf := 5, entry := { state := .live } }], results := [(0, some 5)], outAddr := 512 } : EditPlan), by
     decide +kernel⟩,
   ⟨({ (opS (op 0x0305 32 []) 3 0) with
     acts := [(0,
       { held := [{ cls := 3 }], run := some
           { opcode := 0x0305, edit := some
               { writes := [{ leaf := 5, entry := { state := .live } }], results := [(0, some 5)], outAddr := 512 } } })] } : State),
     0,
     ({ opcode := 0x0305, edit := some
          { writes := [{ leaf := 5, entry := { state := .live } }], results := [(0, some 5)], outAddr := 512 } } : OpRun),
     ({ writes := [{ leaf := 5, entry := { state := .live } }], results := [(0, some 5)], outAddr := 512 } : EditPlan), 4, by
     decide +kernel⟩,
   ⟨({ State.reset with leaf := { map := [(5, { state := .spilling })], xfers := [{ leaf := 5, tierSlot := 3 }] } } : State), 5,
     ({ leaf := 5, tierSlot := 3 } : Xfer), by decide +kernel⟩,
   ⟨({ State.reset with leaf := { map := [(5, { state := .spilling })], xfers := [{ leaf := 5, tierSlot := 3 }] } } : State), 5, 7,
     ({ leaf := 5, tierSlot := 3 } : Xfer), by decide +kernel⟩,
   ⟨({ bnd { memx := [{ region := 0, kind := 3, size := 1 }] } with
     leaf := { map := [(5, { state := .fetching, tier := .host })], xfers := [{ leaf := 5, isFetch := true }] } } : State), 5, 0,
     ({ leaf := 5, isFetch := true } : Xfer), by decide +kernel⟩,
   ⟨({ State.reset with
     leaf := { map := [(5, { state := .fetching })], xfers := [{ leaf := 5, isFetch := true, localSlot := some 2 }] } } : State), 5,
     2, ({ leaf := 5, isFetch := true, localSlot := some 2 } : Xfer), by decide +kernel⟩,
   ⟨({ State.reset with
     leaf := { map := [(5, { state := .fetching })], xfers := [{ leaf := 5, isFetch := true, localSlot := some 2 }] } } : State), 5,
     2, ({ leaf := 5, isFetch := true, localSlot := some 2 } : Xfer), by decide +kernel⟩,
   ⟨({ State.reset with
     leaf :=
       { map := [(5, { state := .fetching })], xfers := [{ leaf := 5, isFetch := true, localSlot := some 2 }], fails := [(5, 1)] } } :
     State), 5, 2, ({ leaf := 5, isFetch := true, localSlot := some 2 } : Xfer), by decide +kernel⟩⟩

theorem test_meets_CodecControl :
    (∃ (s : State) (a : Fin 96) (c : Fin 4) (o : OpRec), s.live = true ∧ s.acts.wf = true ∧ s.opReady a 0x0306 3 c = some o ∧ u8
      o.params 0 = 0 ∧ u32 o.params 24 < ((s.codcRec (a / 16) (u8 o.params 1)).getD {}).work) ∧
    (∃ (s : State) (a : Fin 96) (c : Fin 4) (o : OpRec) (r : CodcRec) (k : Nat), s.live = true ∧ s.acts.wf = true ∧ s.codec.wf = true
      ∧ s.opReady a 0x0306 3 c = some o ∧ u8 o.params 0 = 0 ∧ k = u8 o.params 1 ∧ s.codcRec (a / 16) k = some r ∧ r.work ≤ u32
      o.params 24 ∧ s.sideInRange a (BitVec.ofNat 64 (u64 o.params 8)) [1] [0] (u32 o.params 24) true = true ∧ s.sideInRange a
      (BitVec.ofNat 64 (u64 o.params 16)) [1] [0] (u16 o.params 28 * r.pBytes) true = true ∧ (s.suspends (a / 16)).contains k = false) ∧
    (∃ (s : State) (a : Fin 96) (c : Fin 4) (o : OpRec) (k n : Nat) (x : CodecSlot), s.live = true ∧ s.acts.wf = true ∧ s.codec.wf =
      true ∧ s.opReady a 0x0306 3 c = some o ∧ u8 o.params 0 = 1 ∧ k = u8 o.params 1 ∧ n = u8 o.params 8 ∧ x = s.slot (a / 16) k ∧
      s.firstRefusal a true [(u32 o.params 4, 64 * n + 64)] = .ok) ∧
    (∃ (s : State) (a : Fin 96) (c : Fin 4) (o : OpRec) (k : Nat) (x : CodecSlot), s.live = true ∧ s.acts.wf = true ∧ s.codec.wf =
      true ∧ s.opReady a 0x0306 3 c = some o ∧ u8 o.params 0 = 2 ∧ k = u8 o.params 1 ∧ x = s.slot (a / 16) k ∧ x.encode = true ∧
      x.isSetup = true ∧ x.state ≠ .suspended ∧ x.waiting.length < x.backlogMax) ∧
    (∃ (s : State) (a : Fin 96) (c : Fin 4) (o : OpRec) (k : Nat) (x : CodecSlot), s.live = true ∧ s.acts.wf = true ∧ s.codec.wf =
      true ∧ s.opReady a 0x0306 3 c = some o ∧ u8 o.params 0 = 2 ∧ k = u8 o.params 1 ∧ x = s.slot (a / 16) k ∧ x.encode = true ∧
      x.isSetup = true ∧ x.state ≠ .suspended ∧ x.backlogMax ≤ x.waiting.length) ∧
    (∃ (s : State) (a : Fin 96) (c : Fin 4) (o : OpRec) (k : Nat) (x : CodecSlot), s.live = true ∧ s.acts.wf = true ∧ s.codec.wf =
      true ∧ s.opReady a 0x0306 3 c = some o ∧ u8 o.params 0 = 3 ∧ k = u8 o.params 1 ∧ x = s.slot (a / 16) k ∧ x.isSetup = true ∧
      x.encode = false ∧ x.state ≠ .suspended) :=
  ⟨⟨(opS (op 0x0306 40 [(26, 2)]) 3 0), 0, 0, (op 0x0306 40 [(26, 2)]), by decide +kernel⟩,
   ⟨((opSB (fun b => { b with codc := [{ slot := 7 }] }) (op 0x0306 40 [(1, 7), (26, 3)]) 3 0).onPwr fun p =>
     { p with domains := [(0, 24)] }), 0, 0, (op 0x0306 40 [(1, 7), (26, 3)]), ({ slot := 7 } : CodcRec), 7, by decide +kernel⟩,
   ⟨({ (opSB (fun b => { b with codc := [{ slot := 7 }] }) (op 0x0306 40 [(0, 1), (1, 7), (8, 2), (9, 1)]) 3 0).onPwr fun p =>
     { p with domains := [(0, 24)] } with codec := [(7, { filled := 3, recs := [{ tick := 1 }, { tick := 2 }, { tick := 3 }] })] } :
     State), 0, 0, (op 0x0306 40 [(0, 1), (1, 7), (8, 2), (9, 1)]), 7, 2,
     (({ (opSB (fun b => { b with codc := [{ slot := 7 }] }) (op 0x0306 40 [(0, 1), (1, 7), (8, 2), (9, 1)]) 3 0).onPwr fun p =>
     { p with domains := [(0, 24)] } with codec := [(7, { filled := 3, recs := [{ tick := 1 }, { tick := 2 }, { tick := 3 }] })] } :
     State).slot (0 / 16) 7), by decide +kernel⟩,
   ⟨({ (opSB (fun b => { b with codc := [{ slot := 7 }] }) (op 0x0306 40 [(0, 2), (1, 7), (16, 9)]) 3 0).onPwr fun p =>
     { p with domains := [(0, 24)] } with codec := [(7, { isSetup := true, encode := true, state := .running, backlogMax := 1 })] } :
     State), 0, 0, (op 0x0306 40 [(0, 2), (1, 7), (16, 9)]), 7,
     (({ (opSB (fun b => { b with codc := [{ slot := 7 }] }) (op 0x0306 40 [(0, 2), (1, 7), (16, 9)]) 3 0).onPwr fun p =>
     { p with domains := [(0, 24)] } with codec := [(7, { isSetup := true, encode := true, state := .running, backlogMax := 1 })] } :
     State).slot (0 / 16) 7), by decide +kernel⟩,
   ⟨({ (opSB (fun b => { b with codc := [{ slot := 7 }] }) (op 0x0306 40 [(0, 2), (1, 7)]) 3 0).onPwr fun p =>
     { p with domains := [(0, 24)] } with
     codec := [(7, { isSetup := true, encode := true, state := .running, backlogMax := 1, waiting := [(1, 0)] })] } : State), 0, 0,
     (op 0x0306 40 [(0, 2), (1, 7)]), 7,
     (({ (opSB (fun b => { b with codc := [{ slot := 7 }] }) (op 0x0306 40 [(0, 2), (1, 7)]) 3 0).onPwr fun p =>
     { p with domains := [(0, 24)] } with
     codec := [(7, { isSetup := true, encode := true, state := .running, backlogMax := 1, waiting := [(1, 0)] })] } : State).slot (0 /
     16) 7), by decide +kernel⟩,
   ⟨({ (opSB (fun b => { b with codc := [{ slot := 7 }] }) (op 0x0306 40 [(0, 3), (1, 7)]) 3 0).onPwr fun p =>
     { p with domains := [(0, 24)] } with codec := [(7, { isSetup := true, state := .running, waiting := [(1, 1)] })] } : State), 0,
     0, (op 0x0306 40 [(0, 3), (1, 7)]), 7,
     (({ (opSB (fun b => { b with codc := [{ slot := 7 }] }) (op 0x0306 40 [(0, 3), (1, 7)]) 3 0).onPwr fun p =>
     { p with domains := [(0, 24)] } with codec := [(7, { isSetup := true, state := .running, waiting := [(1, 1)] })] } : State).slot
     (0 / 16) 7), by decide +kernel⟩⟩

theorem test_meets_CodecPictures :
    (∃ (s : State) (ch : Fin 6) (k : Fin 8) (size : Nat) (x : CodecSlot), s.live = true ∧ s.codec.wf = true ∧ x = s.slot ch k ∧
      x.isSetup = true ∧ x.encode = false ∧ x.state = .waitRap ∧ x.waiting.length < x.backlogMax ∧ size ≤ (s.dma.fifos.get (ch * 256 +
      16 + k)).data.length) ∧
    (∃ (s : State) (ch : Fin 6) (k : Fin 8) (size : Nat) (x : CodecSlot), s.live = true ∧ s.codec.wf = true ∧ x = s.slot ch k ∧
      x.isSetup = true ∧ x.encode = false ∧ x.state = .waitRap ∧ size ≤ (s.dma.fifos.get (ch * 256 + 16 + k)).data.length) ∧
    (∃ (s : State) (ch : Fin 6) (k : Fin 8) (r : CodcRec) (pts size : Nat) (rest : List (Nat × Nat)) (x : CodecSlot), s.live = true ∧
      s.codec.wf = true ∧ s.codcRec ch k = some r ∧ x = s.slot ch k ∧ x.state = .running ∧ x.encode = false ∧ x.tainted = false ∧
      x.cutPending = false ∧ x.waiting = (pts, size) :: rest ∧ (s.holds r.activity 5 k = true ∨ s.holds r.activity 6 k = true)) ∧
    (∃ (s : State) (ch : Fin 6) (k : Fin 8) (r : CodcRec) (pts : Nat) (rest : List (Nat × Nat)) (x : CodecSlot), s.live = true ∧
      s.codec.wf = true ∧ s.dma.fifos.wf = true ∧ s.codcRec ch k = some r ∧ x = s.slot ch k ∧ x.state = .running ∧ x.encode = true ∧
      r.rateCap = 0 ∧ x.waiting = (pts, 0) :: rest ∧ (s.holds r.activity 5 k = true ∨ s.holds r.activity 6 k = true)) ∧
    (∃ (s : State) (ch : Fin 6) (k : Fin 8) (x : CodecSlot), s.live = true ∧ s.codec.wf = true ∧ x = s.slot ch k ∧ x.isSealed = true ∧
      x.state = .running ∧ x.encode = false ∧ x.waiting ≠ [] ∧ x.cutPending = false) :=
  ⟨⟨(codS 5 7 {} { isSetup := true, state := .waitRap, backlogMax := 1 }), 5, 7, 2, ((codS 5 7 {}
     { isSetup := true, state := .waitRap, backlogMax := 1 }).slot 5 7), by decide +kernel⟩,
   ⟨(codS 5 7 {} { isSetup := true, state := .waitRap, backlogMax := 1 }), 5, 7, 2, ((codS 5 7 {}
     { isSetup := true, state := .waitRap, backlogMax := 1 }).slot 5 7), by decide +kernel⟩,
   ⟨(codS 0 7 { slot := 7 } { isSetup := true, state := .running, waiting := [(9, 2)] }), 0, 7, ({ slot := 7 } : CodcRec), 9, 2, [],
     ((codS 0 7 { slot := 7 } { isSetup := true, state := .running, waiting := [(9, 2)] }).slot 0 7), by decide +kernel⟩,
   ⟨(codS 0 7 { slot := 7, direction := 1 } { isSetup := true, encode := true, state := .running, waiting := [(9, 0)] }), 0, 7,
     ({ slot := 7, direction := 1 } : CodcRec), 9, [], ((codS 0 7 { slot := 7, direction := 1 }
     { isSetup := true, encode := true, state := .running, waiting := [(9, 0)] }).slot 0 7), by decide +kernel⟩,
   ⟨(codS 5 7 {} { isSetup := true, isSealed := true, state := .running, waiting := [(9, 2)] }), 5, 7, ((codS 5 7 {}
     { isSetup := true, isSealed := true, state := .running, waiting := [(9, 2)] }).slot 5 7), by decide +kernel⟩⟩

theorem test_meets_ResultsAndVerdicts :
    (∃ (s : State) (a : Fin 96) (o : OpRec) (r : NetResult) (n : PrevTick), s.live = true ∧ s.acts.wf = true ∧ s.ing.tx.wf = true ∧
      s.opReady a 0x0501 8 0x10 = some o ∧ s.b.resultOf a = some r ∧ s.tick.prev = some n ∧ s.reported a r.port n.num = false ∧ absent
      (o.p32 4) = true ∧ s.firstRefusal a false [(o.p32 0, 64)] = .ok ∧ (s.ing.tx.get r.port).length < 128) ∧
    (∃ (s : State) (a : Fin 96) (o : OpRec) (r : NetResult) (n : PrevTick), s.live = true ∧ s.acts.wf = true ∧ s.opReady a 0x0501 8
      0x10 = some o ∧ s.b.resultOf a = some r ∧ s.tick.prev = some n ∧ s.reported a r.port n.num = true) ∧
    (∃ (s : State) (p : Fin 4) (x : TxRec) (rest : List TxRec) (r : NetResult) (m : BitVec 48), s.live = true ∧ s.ing.tx.wf = true ∧
      s.ing.res.wf = true ∧ s.ing.tx.get p = x :: rest ∧ s.b.resultOf x.activity = some r ∧ s.holds x.activity 11 p = true ∧
      s.mayDrive = true ∧ s.portOn p = true ∧ s.macFor p r.dstIp = some m ∧ x.tick.isSome = true) ∧
    (∃ (s : State) (p : Fin 4) (x : TxRec) (rest : List TxRec) (r : NetResult), s.live = true ∧ s.ing.tx.wf = true ∧ s.ing.tx.get p =
      x :: rest ∧ s.b.resultOf x.activity = some r ∧ s.holds x.activity 11 p = true ∧ s.mayDrive = false) ∧
    (∃ (s : State) (a : Fin 96) (x : Nat × BitVec 8 × BitVec 8) (r : NetResult), s.live = true ∧ s.ing.vdl.armed.find? (fun y => y.1
      == a.val) = some x ∧ s.b.resultOf a = some r ∧ s.holds a 11 r.port = true ∧ s.mayDrive = true) ∧
    (∃ (s : State) (x : Nat × BitVec 8 × BitVec 8) (rest : List (Nat × BitVec 8 × BitVec 8)), s.live = true ∧ s.ing.vdl.begun = x ::
      rest ∧ x.1 ≤ s.tb.time) ∧
    (∃ (s : State) (r : Nat), s.live = true ∧ s.ing.vdl.begun = [] ∧ s.ing.vdl.riseAt = some r ∧ r ≤ s.tb.time) :=
  ⟨⟨({ opSB (fun b => { b with netw := { results := [{ activity := 0, port := 3, dstIp := 5 }] } }) (op 0x0501 16 [(4, 255), (5, 255),
     (6, 255), (7, 255)]) 8 0x10 with tick := { running := true, prev := some { num := 5 } } } : State), 0, (op 0x0501 16 [(4, 255),
     (5, 255), (6, 255), (7, 255)]), ({ activity := 0, port := 3, dstIp := 5 } : NetResult), ({ num := 5 } : PrevTick), by
     decide +kernel⟩,
   ⟨({ opSB (fun b => { b with netw := { results := [{ activity := 0, port := 3, dstIp := 5 }] } }) (op 0x0501 16 [(4, 255), (5, 255),
     (6, 255), (7, 255)]) 8 0x10 with
     tick := { running := true, prev := some { num := 5 } }, ing := { res := [(0, { lastTick := some 5 })] } } : State), 0, (op 0x0501
     16 [(4, 255), (5, 255), (6, 255), (7, 255)]), ({ activity := 0, port := 3, dstIp := 5 } : NetResult), ({ num := 5 } : PrevTick),
     by decide +kernel⟩,
   ⟨({ bnd
     { dmaq := [{ used := 1 }], netw := { ports := [{ port := 3, mode := 1 }], results := [{ activity := 0, port := 3, dstIp := 5 }] }
         } with
     pair := { admission := .admitted }, acts := [(0, { held := [{ cls := 11, inst := 3 }] })], pwr := { ing := true }, ing :=
       { ports := [(3, { linkUp := true, arp := [{ ip := 5, mac := some 7 }] })], tx := [(3, [{ activity := 0, tick := some 5 }])] } }
     : State), 3, ({ activity := 0, tick := some 5 } : TxRec), [], ({ activity := 0, port := 3, dstIp := 5 } : NetResult), 7, by
     decide +kernel⟩,
   ⟨({ { bnd
     { dmaq := [{ used := 1 }], netw := { ports := [{ port := 3, mode := 1 }], results := [{ activity := 0, port := 3, dstIp := 5 }] }
         } with
     pair := { admission := .shadow }, acts := [(0, { held := [{ cls := 11, inst := 3 }] })], pwr := { ing := true }, ing :=
       { ports := [(3, { linkUp := true, arp := [{ ip := 5, mac := some 7 }] })], tx := [(3, [{ activity := 0, tick := some 5 }])] } }
     with chk := { maintenance := true } } : State), 3, ({ activity := 0, tick := some 5 } : TxRec), [],
     ({ activity := 0, port := 3, dstIp := 5 } : NetResult), by decide +kernel⟩,
   ⟨({ bnd { dmaq := [{ used := 1 }], netw := { results := [{ activity := 0, port := 3, vdlMask := 1 }] } } with
     acts := [(0, { held := [{ cls := 11, inst := 3 }] })], pair := { admission := .admitted }, ing :=
       { vdl := { armed := [(0, 1, 1)] } } } : State), 0, ((0, 1, 1)), ({ activity := 0, port := 3, vdlMask := 1 } : NetResult), by
     decide +kernel⟩,
   ⟨({ State.reset with ing := { vdl := { begun := [(0, 1, 1)] } } } : State), ((0, 1, 1)), [], by decide +kernel⟩,
   ⟨({ State.reset with ing := { vdl := { riseAt := some 0 } } } : State), 0, by decide +kernel⟩⟩

theorem test_meets_ChecksAndDigests :
    (∃ (s : State) (a : Fin 96) (o : OpRec), s.live = true ∧ s.acts.wf = true ∧ s.opReady a 0x0404 4 0 = some o ∧ s.firstRefusal a
      false ((s.checkPairs a o).flatMap fun x => checkReads x.1 x.2.check) = .ok ∧ (∀ x ∈ s.checkPairs a o, s.rangeFails (a / 16) x.1
      x.2 = false)) ∧
    (∃ (s : State) (a : Fin 96) (o : OpRec) (x : List (BitVec 8) × SafeRange), s.live = true ∧ s.acts.wf = true ∧ s.opReady a 0x0404 4
      0 = some o ∧ s.firstRefusal a false (checkReads x.1 x.2.check) = .ok ∧ s.checkPairs a o = [x] ∧ s.rangeFails (a / 16) x.1 x.2 =
      true ∧ x.2.action = 0 ∧ (s.act a).carry = false) ∧
    (∃ (s : State) (a : Fin 96) (o : OpRec), s.live = true ∧ s.acts.wf = true ∧ s.opReady a 0x0405 4 0 = some o ∧ s.firstRefusal a
      false (digestAreas o) = .ok ∧ s.member = none) ∧
    (∃ (s : State) (src : Fin 6) (c : SafeCopy) (v : List (BitVec 8)), s.live = true ∧ s.isMember = true ∧ src.val ≠ s.memberIdx ∧ c ∈
      s.b.safe.copies ∧ v.length = 64) :=
  ⟨⟨(opSB (fun b => { b with safe := { ranges := [{ activity := 0, seq := 0 }] } }) (op 0x0404 32 [(0, 1), (5, 9), (6, 1), (8, 1)]) 4
     0), 0, (op 0x0404 32 [(0, 1), (5, 9), (6, 1), (8, 1)]), by decide +kernel⟩,
   ⟨(opSB (fun b => { b with safe := { ranges := [{ activity := 0, seq := 0, lo := 0x3F800000, hi := 0x3F800000 }] } }) (op 0x0404 32
     [(0, 1), (5, 9), (6, 1), (8, 1)]) 4 0), 0, (op 0x0404 32 [(0, 1), (5, 9), (6, 1), (8, 1)]), ((checkEntry (op 0x0404 32 [(0, 1),
     (5, 9), (6, 1), (8, 1)]) 0, { activity := 0, seq := 0, lo := 0x3F800000, hi := 0x3F800000 })), by decide +kernel⟩,
   ⟨(opS (op 0x0405 32 []) 4 0), 0, (op 0x0405 32 []), by decide +kernel⟩,
   ⟨(bnd { ringB2 with safe := { copies := [{ group := 3 }] } }), 1, ({ group := 3 } : SafeCopy), (List.replicate 64 1), by
     decide +kernel⟩⟩

theorem test_meets_GvspReception :
    (∃ (s : State) (p : Fin 4) (b : List (BitVec 8)), s.live = true ∧ s.portOn p = true ∧ frameOk (s.portCfg p) b = false) ∧
    (∃ (s : State) (p : Fin 4) (b l : List (BitVec 8)), s.live = true ∧ s.portOn p = true ∧ frameOk (s.portCfg p) b = true ∧ (frameTag
      b).2.2.1 = 0x0806 ∧ l = slice b (frameTag b).2.2.2 (b.length - 4 - (frameTag b).2.2.2) ∧ slice l 0 6 = [0, 1, 8, 0, 6, 4] ∧
      beField l 6 2 = 1 ∧ beField l 24 4 ≠ (s.portCfg p).ipv4) ∧
    (∃ (s : State) (p : Fin 4) (srcIp srcUdp dstUdp : Nat) (r : NetFlow) (a : Nat), s.live = true ∧ s.portOn p = true ∧ s.flowFor p
      srcIp srcUdp dstUdp 0 = some r ∧ r.proto = 0 ∧ s.tick.running = true ∧ r.port = p.val ∧ a = r.act s.oddTick ∧ s.steers a = true
      ∧ s.gvBlock [p.val, srcIp, srcUdp, dstUdp] = none ∧ r.calSet = 0xFF) ∧
    (∃ (s : State) (p : Fin 4) (srcIp srcUdp dstUdp pf : Nat) (r : NetFlow), s.live = true ∧ s.portOn p = true ∧ s.flowFor p srcIp
      srcUdp dstUdp 0 = some r ∧ r.proto = 0 ∧ s.tick.running = true ∧ r.port = p.val ∧ s.steers (r.act s.oddTick) = true ∧ s.gvBlock
      [p.val, srcIp, srcUdp, dstUdp] = none ∧ pf ≠ 0x01080001 ∧ s.ing.ports.wf = true) ∧
    (∃ (s : State) (p : Fin 4) (srcIp srcUdp dstUdp pid : Nat) (b : List (BitVec 8)) (r : NetFlow) (g : GvBlock), s.live = true ∧
      s.portOn p = true ∧ s.flowFor p srcIp srcUdp dstUdp 0 = some r ∧ r.proto = 0 ∧ s.tick.running = true ∧ r.port = p.val ∧
      s.gvBlock [p.val, srcIp, srcUdp, dstUdp] = some g ∧ g.key = [p.val, srcIp, srcUdp, dstUdp] ∧ g.isOpen = true ∧ g.skip = false ∧
      g.rcd = r ∧ g.table = none ∧ b ≠ [] ∧ g.nextPacket = pid ∧ g.payload = b.length ∧ g.pos = (pid - 1) * b.length ∧ g.pos +
      b.length ≤ g.size ∧ s.ing.owed = [] ∧ b.length ≤ s.rxRoom g.activity p ∧ s.ing.rx.wf = true) ∧
    (∃ (s : State) (p : Fin 4) (srcIp srcUdp dstUdp : Nat) (r : NetFlow) (g : GvBlock), s.live = true ∧ s.portOn p = true ∧ s.flowFor
      p srcIp srcUdp dstUdp 0 = some r ∧ r.proto = 0 ∧ s.tick.running = true ∧ r.port = p.val ∧ s.gvBlock [p.val, srcIp, srcUdp,
      dstUdp] = some g ∧ g.key = [p.val, srcIp, srcUdp, dstUdp] ∧ g.isOpen = true ∧ g.skip = false ∧ g.rcd = r ∧ g.pos = g.size ∧
      s.ing.owed = [] ∧ s.ing.rx.wf = true) ∧
    (∃ (s : State) (f : Fin 256) (e : Owed), s.live = true ∧ s.ing.owed = [e] ∧ e.flow = f.val ∧ e.mark = false ∧ 0 < e.bytes ∧
      e.bytes ≤ s.rxRoom e.activity e.port ∧ s.ing.rx.wf = true) ∧
    (∃ (s : State) (p : Fin 4) (srcIp srcUdp dstUdp : Nat), s.live = true ∧ s.portOn p = true ∧ s.flowFor p srcIp srcUdp dstUdp 0 =
      none) :=
  ⟨⟨({ bnd
     { dmaq := [{ used := 1 }], netw :=
         { ports := [{ port := 3, mode := 1, ipv4 := 9, mtu := 1500 }], flows :=
             [{ flow := 0, port := 3, proto := 0, dstUdp := 5, calSet := 0xFF }], results := [{ activity := 0, port := 3, dstIp := 7
                                                                                                  }], glob :=
             { discSrc := 1, ptpPort := 3 } } } with
     tick := { running := true }, pwr := { ing := true }, tb := { discSrc := 1, time := 1000 }, ing :=
       { ports := [(3, { linkUp := true })] } } : State), 3, [], by decide +kernel⟩,
   ⟨({ bnd
     { dmaq := [{ used := 1 }], netw :=
         { ports := [{ port := 3, mode := 1, ipv4 := 9, mtu := 1500 }], flows :=
             [{ flow := 0, port := 3, proto := 0, dstUdp := 5, calSet := 0xFF }], results := [{ activity := 0, port := 3, dstIp := 7
                                                                                                  }], glob :=
             { discSrc := 1, ptpPort := 3 } } } with
     tick := { running := true }, pwr := { ing := true }, tb := { discSrc := 1, time := 1000 }, ing :=
       { ports := [(3, { linkUp := true })] } } : State), 3, arpFrame, (slice arpFrame 14 46), by decide +kernel⟩,
   ⟨({ bnd
     { dmaq := [{ used := 1 }], netw :=
         { ports := [{ port := 3, mode := 1, ipv4 := 9, mtu := 1500 }], flows :=
             [{ flow := 0, port := 3, proto := 0, dstUdp := 5, calSet := 0xFF }], results := [{ activity := 0, port := 3, dstIp := 7
                                                                                                  }], glob :=
             { discSrc := 1, ptpPort := 3 } } } with
     tick := { running := true }, pwr := { ing := true }, tb := { discSrc := 1, time := 1000 }, ing :=
       { ports := [(3, { linkUp := true })] } } : State), 3, 1, 2, 5,
     ({ flow := 0, port := 3, proto := 0, dstUdp := 5, calSet := 0xFF } : NetFlow), 0, by decide +kernel⟩,
   ⟨({ bnd
     { dmaq := [{ used := 1 }], netw :=
         { ports := [{ port := 3, mode := 1, ipv4 := 9, mtu := 1500 }], flows :=
             [{ flow := 0, port := 3, proto := 0, dstUdp := 5, calSet := 0xFF }], results := [{ activity := 0, port := 3, dstIp := 7
                                                                                                  }], glob :=
             { discSrc := 1, ptpPort := 3 } } } with
     tick := { running := true }, pwr := { ing := true }, tb := { discSrc := 1, time := 1000 }, ing :=
       { ports := [(3, { linkUp := true })] } } : State), 3, 1, 2, 5, 0x01080002,
     ({ flow := 0, port := 3, proto := 0, dstUdp := 5, calSet := 0xFF } : NetFlow), by decide +kernel⟩,
   ⟨({ bnd
     { dmaq := [{ used := 1 }], netw :=
         { ports := [{ port := 3, mode := 1, ipv4 := 9, mtu := 1500 }], flows :=
             [{ flow := 0, port := 3, proto := 0, dstUdp := 5, calSet := 0xFF }], results := [{ activity := 0, port := 3, dstIp := 7
                                                                                                  }], glob :=
             { discSrc := 1, ptpPort := 3 } } } with
     tick := { running := true }, pwr := { ing := true }, tb := { discSrc := 1, time := 1000 }, ing :=
       { ports := [(3, { linkUp := true })], blocks :=
           [{ key := [3, 1, 2, 5], rcd := { flow := 0, port := 3, proto := 0, dstUdp := 5, calSet := 0xFF }, activity := 0, blockId :=
                4, size := 2, sizeX := 2, payload := 2 }] } } : State), 3, 1, 2, 5, 1, ([1, 2] : List (BitVec 8)),
     ({ flow := 0, port := 3, proto := 0, dstUdp := 5, calSet := 0xFF } : NetFlow),
     ({ key := [3, 1, 2, 5], rcd := { flow := 0, port := 3, proto := 0, dstUdp := 5, calSet := 0xFF }, activity := 0, blockId := 4,
        size := 2, sizeX := 2, payload := 2 } : GvBlock), by decide +kernel⟩,
   ⟨({ bnd
     { dmaq := [{ used := 1 }], netw :=
         { ports := [{ port := 3, mode := 1, ipv4 := 9, mtu := 1500 }], flows :=
             [{ flow := 0, port := 3, proto := 0, dstUdp := 5, calSet := 0xFF }], results := [{ activity := 0, port := 3, dstIp := 7
                                                                                                  }], glob :=
             { discSrc := 1, ptpPort := 3 } } } with
     tick := { running := true }, pwr := { ing := true }, tb := { discSrc := 1, time := 1000 }, ing :=
       { ports := [(3, { linkUp := true })], blocks :=
           [{ key := [3, 1, 2, 5], rcd := { flow := 0, port := 3, proto := 0, dstUdp := 5, calSet := 0xFF }, activity := 0, blockId :=
                4, size := 2, sizeX := 2, payload := 2, pos := 2 }] } } : State), 3, 1, 2, 5,
     ({ flow := 0, port := 3, proto := 0, dstUdp := 5, calSet := 0xFF } : NetFlow),
     ({ key := [3, 1, 2, 5], rcd := { flow := 0, port := 3, proto := 0, dstUdp := 5, calSet := 0xFF }, activity := 0, blockId := 4,
        size := 2, sizeX := 2, payload := 2, pos := 2 } : GvBlock), by decide +kernel⟩,
   ⟨({ bnd
     { dmaq := [{ used := 1 }], netw :=
         { ports := [{ port := 3, mode := 1, ipv4 := 9, mtu := 1500 }], flows :=
             [{ flow := 0, port := 3, proto := 0, dstUdp := 5, calSet := 0xFF }], results := [{ activity := 0, port := 3, dstIp := 7
                                                                                                  }], glob :=
             { discSrc := 1, ptpPort := 3 } } } with
     tick := { running := true }, pwr := { ing := true }, tb := { discSrc := 1, time := 1000 }, ing :=
       { ports := [(3, { linkUp := true })], owed := [{ flow := 255, port := 3, activity := 0, bytes := 3 }] } } : State), 255,
     ({ flow := 255, port := 3, activity := 0, bytes := 3 } : Owed), by decide +kernel⟩,
   ⟨({ bnd
     { dmaq := [{ used := 1 }], netw :=
         { ports := [{ port := 3, mode := 1, ipv4 := 9, mtu := 1500 }], flows :=
             [{ flow := 0, port := 3, proto := 0, dstUdp := 5, calSet := 0xFF }], results := [{ activity := 0, port := 3, dstIp := 7
                                                                                                  }], glob :=
             { discSrc := 1, ptpPort := 3 } } } with
     tick := { running := true }, pwr := { ing := true }, tb := { discSrc := 1, time := 1000 }, ing :=
       { ports := [(3, { linkUp := true })] } } : State), 3, 1, 2, 6, by decide +kernel⟩⟩

theorem test_meets_RtpAndPorts :
    (∃ (s : State) (p : Fin 4) (srcIp dstUdp a : Nat) (k b : List (BitVec 8)) (r : NetFlow), s.live = true ∧ s.portOn p = true ∧
      s.flowFor p srcIp 0 dstUdp (beField k 8 4) = some r ∧ r.proto = 1 ∧ r.port = p.val ∧ s.tick.running = true ∧ a = r.act s.oddTick
      ∧ s.steers a = true ∧ (s.ing.flows.get r.flow).rtpNext = some (beField k 2 2) ∧ rtpPayload k = some b ∧ 1 ≤ u8 b 0 % 32 ∧ u8 b 0
      % 32 ≤ 23 ∧ b ≠ [] ∧ (u8 k 1).testBit 7 = false ∧ b.length + 4 ≤ s.rxRoom a p ∧ s.ing.rx.wf = true ∧ s.ing.flows.wf = true ∧
      beField k 2 2 < 65536) ∧
    (∃ (s : State) (p : Fin 4), s.live = true ∧ s.portOn p = true) ∧
    (∃ (s : State) (p : Fin 4) (ip : Nat), s.live = true ∧ s.portOn p = true ∧ s.isDest p ip = true ∧ s.ing.ports.wf = true) ∧
    (∃ (s : State) (p : Fin 4) (ip : Nat), s.live = true ∧ s.portOn p = true ∧ s.isDest p ip = true ∧ ((s.ing.ports.get p).arp.find?
      fun e => e.ip == ip) = none) ∧
    (∃ (s : State), s.live = true) ∧
    (∃ (s : State) (p : Fin 4), s.live = true ∧ s.bound = true ∧ s.pwr.ing = true ∧ (s.portCfg p).mode ≠ 0) ∧
    (∃ (s : State) (p : Fin 4), s.live = true ∧ (s.ing.ports.get p).linkUp = true) :=
  ⟨⟨({ bnd
     { dmaq := [{ used := 1 }], netw :=
         { ports := [{ port := 3, mode := 1, ipv4 := 9, mtu := 1500 }], flows :=
             [{ flow := 0, port := 3, proto := 1, dstUdp := 5, calSet := 0xFF }], results := [{ activity := 0, port := 3, dstIp := 7
                                                                                                  }], glob :=
             { discSrc := 1, ptpPort := 3 } } } with
     tick := { running := true }, pwr := { ing := true }, tb := { discSrc := 1, time := 1000 }, ing :=
       { ports := [(3, { linkUp := true })], flows := [(0, { rtpNext := some 65535 })] } } : State), 3, 1, 5, 0, rtpK, ([0x61, 0xAA] :
     List (BitVec 8)), ({ flow := 0, port := 3, proto := 1, dstUdp := 5, calSet := 0xFF } : NetFlow), by decide +kernel⟩,
   ⟨({ bnd
     { dmaq := [{ used := 1 }], netw :=
         { ports := [{ port := 3, mode := 1, ipv4 := 9, mtu := 1500 }], flows :=
             [{ flow := 0, port := 3, proto := 0, dstUdp := 5, calSet := 0xFF }], results := [{ activity := 0, port := 3, dstIp := 7
                                                                                                  }], glob :=
             { discSrc := 1, ptpPort := 3 } } } with
     tick := { running := true }, pwr := { ing := true }, tb := { discSrc := 1, time := 1000 }, ing :=
       { ports := [(3, { linkUp := true })] } } : State), 3, by decide +kernel⟩,
   ⟨({ bnd
     { dmaq := [{ used := 1 }], netw :=
         { ports := [{ port := 3, mode := 1, ipv4 := 9, mtu := 1500 }], flows :=
             [{ flow := 0, port := 3, proto := 0, dstUdp := 5, calSet := 0xFF }], results := [{ activity := 0, port := 3, dstIp := 7
                                                                                                  }], glob :=
             { discSrc := 1, ptpPort := 3 } } } with
     tick := { running := true }, pwr := { ing := true }, tb := { discSrc := 1, time := 1000 }, ing :=
       { ports := [(3, { linkUp := true })] } } : State), 3, 7, by decide +kernel⟩,
   ⟨({ bnd
     { dmaq := [{ used := 1 }], netw :=
         { ports := [{ port := 3, mode := 1, ipv4 := 9, mtu := 1500 }], flows :=
             [{ flow := 0, port := 3, proto := 0, dstUdp := 5, calSet := 0xFF }], results := [{ activity := 0, port := 3, dstIp := 7
                                                                                                  }], glob :=
             { discSrc := 1, ptpPort := 3 } } } with
     tick := { running := true }, pwr := { ing := true }, tb := { discSrc := 1, time := 1000 }, ing :=
       { ports := [(3, { linkUp := true })] } } : State), 3, 7, by decide +kernel⟩,
   ⟨(State.reset), by decide +kernel⟩,
   ⟨({ bnd
     { dmaq := [{ used := 1 }], netw :=
         { ports := [{ port := 3, mode := 1, ipv4 := 9, mtu := 1500 }], flows :=
             [{ flow := 0, port := 3, proto := 0, dstUdp := 5, calSet := 0xFF }], results := [{ activity := 0, port := 3, dstIp := 7
                                                                                                  }], glob :=
             { discSrc := 1, ptpPort := 3 } } } with
     tick := { running := true }, pwr := { ing := true }, tb := { discSrc := 1, time := 1000 }, ing :=
       { ports := [(3, { linkUp := true })] } } : State), 3, by decide +kernel⟩,
   ⟨({ bnd
     { dmaq := [{ used := 1 }], netw :=
         { ports := [{ port := 3, mode := 1, ipv4 := 9, mtu := 1500 }], flows :=
             [{ flow := 0, port := 3, proto := 0, dstUdp := 5, calSet := 0xFF }], results := [{ activity := 0, port := 3, dstIp := 7
                                                                                                  }], glob :=
             { discSrc := 1, ptpPort := 3 } } } with
     tick := { running := true }, pwr := { ing := true }, tb := { discSrc := 1, time := 1000 }, ing :=
       { ports := [(3, { linkUp := true })] } } : State), 3, by decide +kernel⟩⟩

theorem test_meets_PtpExchange :
    (∃ (s : State) (p : Fin 4), s.live = true ∧ s.portOn p = true ∧ (s.discSrc ≠ 1 ∨ p.val ≠ s.b.netw.glob.ptpPort)) ∧
    (∃ (s : State) (p : Fin 4) (m : Nat), s.live = true ∧ s.portOn p = true ∧ s.discSrc = 1 ∧ p.val = s.b.netw.glob.ptpPort ∧
      s.ing.ptp.master = some m) ∧
    (∃ (s : State) (p : Fin 4) (m : Nat), s.live = true ∧ s.portOn p = true ∧ s.discSrc = 1 ∧ p.val = s.b.netw.glob.ptpPort ∧
      s.ing.ptp.master = some m ∧ s.ing.ptp.awaitFollow = true) ∧
    (∃ (s : State) (p : Fin 4) (m : Nat), s.live = true ∧ s.portOn p = true ∧ s.discSrc = 1 ∧ p.val = s.b.netw.glob.ptpPort ∧
      s.ing.ptp.master = some m ∧ s.ing.ptp.delayOpen = true) ∧
    (∃ (s : State) (p : Fin 4), s.live = true ∧ s.portOn p = true ∧ s.discSrc = 1 ∧ p.val = s.b.netw.glob.ptpPort) ∧
    (∃ (s : State), s.live = true ∧ s.discSrc = 1 ∧ s.portOn s.b.netw.glob.ptpPort = true ∧ s.ing.ptp.master.isSome = true) :=
  ⟨⟨({ bnd
     { dmaq := [{ used := 1 }], netw :=
         { ports := [{ port := 0, mode := 1 }, { port := 3, mode := 1, ipv4 := 9 }], flows :=
             [{ flow := 0, port := 3, proto := 0, dstUdp := 5, calSet := 0xFF }], results := [{ activity := 0, port := 3, dstIp := 7
                                                                                                  }], glob :=
             { discSrc := 1, ptpPort := 3 } } } with
     tick := { running := true }, pwr := { ing := true }, tb := { discSrc := 1, time := 1000 }, ing :=
       { ports := [(0, { linkUp := true }), (3, { linkUp := true, rxDrops := 1 })] } } : State), 0, by decide +kernel⟩,
   ⟨({ bnd
     { dmaq := [{ used := 1 }], netw :=
         { ports := [{ port := 3, mode := 1, ipv4 := 9, mtu := 1500 }], flows :=
             [{ flow := 0, port := 3, proto := 0, dstUdp := 5, calSet := 0xFF }], results := [{ activity := 0, port := 3, dstIp := 7
                                                                                                  }], glob :=
             { discSrc := 1, ptpPort := 3 } } } with
     tick := { running := true }, pwr := { ing := true }, tb := { discSrc := 1, time := 1000 }, ing :=
       { ports := [(3, { linkUp := true })], ptp := { master := some 8 } } } : State), 3, 8, by decide +kernel⟩,
   ⟨({ bnd
     { dmaq := [{ used := 1 }], netw :=
         { ports := [{ port := 3, mode := 1, ipv4 := 9, mtu := 1500 }], flows :=
             [{ flow := 0, port := 3, proto := 0, dstUdp := 5, calSet := 0xFF }], results := [{ activity := 0, port := 3, dstIp := 7
                                                                                                  }], glob :=
             { discSrc := 1, ptpPort := 3 } } } with
     tick := { running := true }, pwr := { ing := true }, tb := { discSrc := 1, time := 1000 }, ing :=
       { ports := [(3, { linkUp := true })], ptp := { master := some 8, awaitFollow := true, syncSeq := 4, syncRx := 900 } } } :
     State), 3, 8, by decide +kernel⟩,
   ⟨({ bnd
     { dmaq := [{ used := 1 }], netw :=
         { ports := [{ port := 3, mode := 1, ipv4 := 9, mtu := 1500 }], flows :=
             [{ flow := 0, port := 3, proto := 0, dstUdp := 5, calSet := 0xFF }], results := [{ activity := 0, port := 3, dstIp := 7
                                                                                                  }], glob :=
             { discSrc := 1, ptpPort := 3 } } } with
     tick := { running := true }, pwr := { ing := true }, tb := { discSrc := 1, time := 1000 }, ing :=
       { ports := [(3, { linkUp := true })], ptp := { master := some 8, delayOpen := true, delaySeq := 4, t2 := 10 } } } : State), 3,
     8, by decide +kernel⟩,
   ⟨({ bnd
     { dmaq := [{ used := 1 }], netw :=
         { ports := [{ port := 3, mode := 1, ipv4 := 9, mtu := 1500 }], flows :=
             [{ flow := 0, port := 3, proto := 0, dstUdp := 5, calSet := 0xFF }], results := [{ activity := 0, port := 3, dstIp := 7
                                                                                                  }], glob :=
             { discSrc := 1, ptpPort := 3 } } } with
     tick := { running := true }, pwr := { ing := true }, tb := { discSrc := 1, time := 1000 }, ing :=
       { ports := [(3, { linkUp := true })] } } : State), 3, by decide +kernel⟩,
   ⟨({ bnd
     { dmaq := [{ used := 1 }], netw :=
         { ports := [{ port := 3, mode := 1, ipv4 := 9, mtu := 1500 }], flows :=
             [{ flow := 0, port := 3, proto := 0, dstUdp := 5, calSet := 0xFF }], results := [{ activity := 0, port := 3, dstIp := 7
                                                                                                  }], glob :=
             { discSrc := 1, ptpPort := 3 } } } with
     tick := { running := true }, pwr := { ing := true }, tb := { discSrc := 1, time := 1000 }, ing :=
       { ports := [(3, { linkUp := true })], ptp := { master := some 8 } } } : State), by decide +kernel⟩⟩

theorem test_meets_RingLinks :
    (∃ (s : State) (p : Fin 2), s.live = true ∧ s.ring.bypassOpen = true ∧ (s.rport p).state = .down ∧ s.ring.ports.wf = true) ∧
    (∃ (s : State) (p : Fin 2), s.live = true ∧ (s.rport p).state = .train ∧ s.ring.ports.wf = true) ∧
    (∃ (s : State) (p : Fin 2) (a : List (BitVec 8)) (r f k : Nat), s.live = true ∧ (s.rport p).state = .train ∧ (s.rport p).locked =
      true ∧ s.skipFor p a r f = some k ∧ s.ring.ports.wf = true) ∧
    (∃ (s : State) (p : Fin 2) (a : List (BitVec 8)) (r f : Nat), s.live = true ∧ (s.rport p).state = .train ∧ (s.rport p).locked =
      true ∧ s.skipFor p a r f = none ∧ (s.b.netw.members.find? fun x => x.accession == a) = none ∧ s.ring.ports.wf = true) ∧
    (∃ (s : State) (p : Fin 2), s.live = true ∧ (s.rport p).state = .up ∧ s.ring.ports.wf = true) ∧
    (∃ (s : State) (p : Fin 2), s.live = true ∧ (s.rport p).carries false = true ∧ s.ring.ports.wf = true) ∧
    (∃ (s : State) (p : Fin 2), s.live = true ∧ (s.rport p).carries false = true) ∧
    (∃ (s : State), s.live = true ∧ s.ring.ports.wf = true) ∧
    (∃ (s : State), s.live = true ∧ s.bound = true ∧ s.b.netw.members ≠ []) ∧
    (∃ (s : State) (m : Fin 6), s.live = true ∧ s.isMember = true ∧ m.val ≠ s.memberIdx) ∧
    (∃ (s : State), s.live = true ∧ s.isMember = true ∧ s.tick.running = true ∧ s.tick.num % 256 = 0 ∧ s.ring.ports.wf = true) ∧
    (∃ (s : State), s.live = true ∧ s.tick.num % 256 ≠ 0) :=
  ⟨⟨((bnd ringB2).onRing fun r => { r with bypassOpen := true }), 1, by decide +kernel⟩,
   ⟨(rgS { state := .train }), 1, by decide +kernel⟩,
   ⟨({ bnd { ringB2 with netw := { ringB2.netw with links := [{ port := 1, farRing := 0, farPort := 0 }] } } with
     ring := { ports := [(1, { state := .train, locked := true })] } } : State), 1, [], 0, 0, 0, by decide +kernel⟩,
   ⟨(rgS { state := .train, locked := true }), 1, ([7] : List (BitVec 8)), 0, 0, by decide +kernel⟩,
   ⟨(rgS { state := .up, replay := [{}] }), 1, by decide +kernel⟩,
   ⟨(rgS { state := .mgmt }), 1, by decide +kernel⟩,
   ⟨((rgS { state := .up }).onTb fun t => { t with time := 100 }), 1, by decide +kernel⟩,
   ⟨(rgS { state := .up }), by decide +kernel⟩,
   ⟨((bnd ringB2).onRing fun r => { r with forceBypass := true }), by decide +kernel⟩,
   ⟨((bnd ringB2)), 1, by decide +kernel⟩,
   ⟨({ bnd ringB2 with tick := { running := true, num := 256 } } : State), by decide +kernel⟩,
   ⟨({ bnd ringB2 with tick := { running := true, num := 255 } } : State), by decide +kernel⟩⟩

theorem test_meets_RingFrames :
    (∃ (s : State) (p : Fin 2) (h : BitVec 64), s.live = true ∧ (s.rport p).carries false = true ∧ headerOk h.toNat = false ∧
      s.ring.ports.wf = true) ∧
    (∃ (s : State) (p : Fin 2) (h : BitVec 64) (b : List (BitVec 8)), s.live = true ∧ (s.rport p).carries false = true ∧ headerOk
      h.toNat = true ∧ (frameOf h.toNat b).seq = (s.rport p).rxSeq ∧ b.length = 64 * (h.toNat / 2 ^ 18 % 16) ∧ s.ring.ports.wf = true) ∧
    (∃ (s : State) (p : Fin 2) (h : BitVec 64) (b : List (BitVec 8)), s.live = true ∧ (s.rport p).carries false = true ∧ headerOk
      h.toNat = true ∧ (frameOf h.toNat b).seq ≠ (s.rport p).rxSeq ∧ ((s.rport p).rxSeq + 4096 - (frameOf h.toNat b).seq) % 4096 ≤
      2048) ∧
    (∃ (s : State) (p : Fin 2) (n : Nat) (f : RFrame) (x y : List RFrame), s.live = true ∧ (s.rport p).replay = x ++ f :: y ∧ f.seq =
      n ∧ (∀ g ∈ x, g.seq ≠ n)) ∧
    (∃ (s : State) (p : Fin 2) (n : Nat) (f : RFrame) (x y : List RFrame), s.live = true ∧ (s.rport p).replay = x ++ f :: y ∧ f.seq =
      n ∧ (∀ g ∈ x, g.seq ≠ n) ∧ (s.rport p).retraining = false ∧ (s.rport p).replayRun = 0 ∧ s.ring.ports.wf = true) ∧
    (∃ (s : State) (p : Fin 2) (f : RFrame) (y : List RFrame), s.live = true ∧ (s.rport p).replay = f :: y ∧ (s.rport p).retraining =
      false ∧ (s.rport p).replaySeq = f.seq ∧ (s.rport p).replayRun = 3 ∧ s.ring.ports.wf = true) ∧
    (∃ (s : State) (p : Fin 2), s.live = true ∧ (s.rport p).retraining = true ∧ s.ring.ports.wf = true) ∧
    (∃ (s : State) (p : Fin 2), s.live = true ∧ (s.rport p).retraining = true ∧ (s.rport p).state = .up ∧ s.ring.ports.wf = true) :=
  ⟨⟨(rgS { state := .up, rxSeq := 4095 }), 1, 5, by decide +kernel⟩,
   ⟨(rgS { state := .up, rxSeq := 4095 }), 1, (mkHdr (4095 * 2 ^ 24)), [], by decide +kernel⟩,
   ⟨(rgS { state := .up }), 1, (mkHdr (4095 * 2 ^ 24)), [], by decide +kernel⟩,
   ⟨(rgS { state := .up, replay := [{ seq := 4095 }, { seq := 0 }, { seq := 1 }] }), 1, 0, ({ seq := 0 } : RFrame), ([{ seq := 4095 }]
     : List RFrame), ([{ seq := 1 }] : List RFrame), by decide +kernel⟩,
   ⟨(rgS { state := .up, replay := [{ seq := 4095 }, { seq := 0 }, { seq := 1 }] }), 1, 0, ({ seq := 0 } : RFrame), ([{ seq := 4095 }]
     : List RFrame), ([{ seq := 1 }] : List RFrame), by decide +kernel⟩,
   ⟨(rgS { state := .up, replay := [{ seq := 4095 }, { seq := 0 }], replaySeq := 4095, replayRun := 3 }), 1, ({ seq := 4095 } :
     RFrame), ([{ seq := 0 }] : List RFrame), by decide +kernel⟩,
   ⟨(rgS { state := .up, retraining := true }), 1, by decide +kernel⟩,
   ⟨(rgS { state := .up, retraining := true }), 1, by decide +kernel⟩⟩

theorem test_meets_PeerSpill :
    (∃ (s : State) (l : Fin 32) (slot : Nat), s.live = true ∧ s.isMember = true ∧ (s.b.routeOf l).isSome = true ∧ slot < s.serveSpace
      ∧ (s.ring.serve.get slot).used = false ∧ s.ring.serveFill + 8704 ≤ 524288) ∧
    (∃ (s : State) (l : Fin 32) (slot k : Nat), s.live = true ∧ s.isMember = true ∧ (s.b.routeOf l).isSome = true ∧ (s.serveSpace ≤
      slot ∨ ((s.ring.serve.get slot).used = true ∧ (s.ring.serve.get slot).tenant ≠ k)) ∧ s.ring.laneRx.wf = true) ∧
    (∃ (s : State) (l : Fin 32), s.live = true ∧ s.isMember = true ∧ s.b.routeOf l = none) ∧
    (∃ (s : State) (l : Fin 32), s.live = true ∧ (s.ring.laneRx.get l).active = true ∧ (s.ring.laneRx.get l).discard = false ∧
      (s.ring.laneRx.get l).isRead = false ∧ (s.ring.laneRx.get l).frames < 16) ∧
    (∃ (s : State) (l : Fin 32), s.live = true ∧ (s.ring.laneRx.get l).active = true ∧ (s.ring.laneRx.get l).discard = false ∧
      (s.ring.laneRx.get l).isRead = false ∧ (s.ring.laneRx.get l).frames = 16 ∧ (s.ring.serve.get (s.ring.laneRx.get l).slot).used =
      true ∧ s.ring.serve.wf = true ∧ s.ring.laneRx.wf = true) ∧
    (∃ (s : State) (l : Fin 32) (line : Nat), s.live = true ∧ s.isMember = true ∧ (s.b.routeOf l).isSome = true ∧ line ≤ 1) ∧
    (∃ (s : State) (l : Fin 32) (m : Fin 6) (slot k : Nat), s.live = true ∧ s.isMember = true ∧ (s.b.routeOf l).isSome = true ∧
      (s.ring.serve.get slot).used = true ∧ (s.ring.serve.get slot).member = m.val ∧ (s.ring.serve.get slot).tenant = k) ∧
    (∃ (s : State) (l : Fin 32) (m : Fin 6) (slot k : Nat), s.live = true ∧ s.isMember = true ∧ (s.b.routeOf l).isSome = true ∧
      ((s.ring.serve.get slot).member ≠ m.val ∨ (s.ring.serve.get slot).tenant ≠ k)) ∧
    (∃ (s : State), s.live = true ∧ s.isMember = true ∧ s.ring.serve.wf = true) ∧
    (∃ (s : State) (l : Fin 32) (slot leaf : Nat), s.live = true ∧ s.peerXfer l slot false = some leaf) ∧
    (∃ (s : State) (l : Fin 32) (slot : Nat), s.live = true ∧ s.peerXfer l slot false = none ∧ s.b.routeOf l = none) ∧
    (∃ (s : State), s.live = true ∧ s.isMember = true) ∧
    (∃ (s : State) (l : Fin 32) (slot st leaf n : Nat) (x : Xfer), s.live = true ∧ s.isMember = true ∧ st ≠ 0 ∧ s.peerXfer l slot true
      = some leaf ∧ s.xferOf leaf = some x ∧ x.isFetch = true ∧ x.localSlot = some n ∧ s.leaf.fails.get leaf = 0 ∧ s.leaf.map.wf =
      true) :=
  ⟨⟨({ bnd { ringB2 with memx := [{ region := 0, kind := 7, size := 1 }] } with ring := { serveFill := 515584 } } : State), 0, 239, by
     decide +kernel⟩,
   ⟨({ bnd { ringB2 with memx := [{ region := 0, kind := 7, size := 1 }] } with ring := {  } } : State), 0, 240, 8, by decide +kernel⟩,
   ⟨({ bnd { ringB2 with memx := [{ region := 0, kind := 7, size := 1 }] } with ring := {  } } : State), 31, by decide +kernel⟩,
   ⟨({ bnd { ringB2 with memx := [{ region := 0, kind := 7, size := 1 }] } with
     ring := { laneRx := [(31, { active := true, frames := 15 })] } } : State), 31, by decide +kernel⟩,
   ⟨({ bnd { ringB2 with memx := [{ region := 0, kind := 7, size := 1 }] } with
     ring := { laneRx := [(31, { active := true, frames := 16, slot := 2 })], serve := [(2, { used := true })] } } : State), 31, by
     decide +kernel⟩,
   ⟨({ bnd { ringB2 with memx := [{ region := 0, kind := 7, size := 1 }] } with ring := {  } } : State), 0, 1, by decide +kernel⟩,
   ⟨({ bnd { ringB2 with memx := [{ region := 0, kind := 7, size := 1 }] } with
     ring := { serve := [(2, { used := true, member := 1, tenant := 8 })] } } : State), 0, 1, 2, 8, by decide +kernel⟩,
   ⟨({ bnd { ringB2 with memx := [{ region := 0, kind := 7, size := 1 }] } with
     ring := { serve := [(2, { used := true, member := 1, tenant := 8 })] } } : State), 0, 1, 2, 7, by decide +kernel⟩,
   ⟨({ bnd { ringB2 with memx := [{ region := 0, kind := 7, size := 1 }] } with
     ring := { serve := [(2, { used := true, member := 1, tenant := 8 })] } } : State), by decide +kernel⟩,
   ⟨({ bnd ringB2 with
     leaf := { map := [(5, { state := .spilling })], xfers := [{ leaf := 5, tier := .peer, site := 1, tierSlot := 9 }] } } : State),
     0, 9, 5, by decide +kernel⟩,
   ⟨((bnd ringB2)), 31, 9, by decide +kernel⟩,
   ⟨((bnd ringB2)), by decide +kernel⟩,
   ⟨({ bnd ringB2 with
     leaf :=
       { map := [(5, { state := .fetching })], xfers :=
           [{ leaf := 5, tier := .peer, site := 1, tierSlot := 9, isFetch := true, localSlot := some 2 }] } } : State), 0, 9, 1, 5, 2,
     ({ leaf := 5, tier := .peer, site := 1, tierSlot := 9, isFetch := true, localSlot := some 2 } : Xfer), by decide +kernel⟩⟩

theorem test_meets_RingView :
    (∃ (s : State) (m : Fin 6), s.live = true ∧ s.b.memberRec m = none) ∧
    (∃ (s : State) (m : Fin 6), s.live = true ∧ s.isMember = true ∧ (s.b.memberRec m).isSome = true ∧ s.tick.role = .follower ∧ m.val
      ≠ s.memberIdx ∧ s.leaf.map = [] ∧ s.ring.serve.wf = true ∧ s.paired = false) ∧
    (∃ (s : State) (m : Fin 6), s.live = true ∧ s.isMember = true ∧ (s.b.memberRec m).isSome = true ∧ m.val = s.memberIdx ∧ s.paired =
      false) ∧
    (∃ (s : State) (m : Fin 6), s.live = true ∧ s.isMember = true ∧ (s.b.memberRec m).isSome = true ∧ m.val ≠ s.memberIdx ∧ s.paired =
      false) ∧
    (∃ (s : State) (m : Fin 6), s.live = true ∧ s.isMember = true ∧ (s.b.memberRec m).isSome = true ∧ s.paired = false) :=
  ⟨⟨((bnd ringB2)), 5, by decide +kernel⟩,
   ⟨({ bnd ringB2 with tick := { role := .follower }, ring := { serve := [(2, { used := true, member := 1 })] } } : State), 1, by
     decide +kernel⟩,
   ⟨((bnd ringB2)), 0, by decide +kernel⟩,
   ⟨((bnd ringB2)), 1, by decide +kernel⟩,
   ⟨((bnd ringB2)), 0, by decide +kernel⟩⟩

theorem test_meets_HostSideEvents :
    (∃ (s : State) (j : Fin 8), s.live = true ∧ j + 1 ≤ s.host.numVfs ∧ s.host.tdis.wf = true) ∧
    (∃ (s : State) (j : Fin 8), s.live = true ∧ j + 1 ≤ s.host.numVfs ∧ s.host.tdis.wf = true ∧ s.host.funcs.wf = true ∧ s.mbx.gens.wf
      = true ∧ s.b.tentOfVf (j + 1) = none ∧ s.host.sessions = []) ∧
    (∃ (s : State), s.live = true) ∧
    (∃ (s : State), s.live = true ∧ s.start.perst = false) ∧
    (∃ (s : State) (n : Nat), s.live = true ∧ s.host.numVfs ≤ n ∧ n ≤ 8) ∧
    (∃ (s : State) (n : Nat), s.live = true ∧ n < s.host.numVfs ∧ s.host.numVfs ≤ 8 ∧ s.host.tdis.wf = true) ∧
    (∃ (s : State) (f : Fin 9) (v : Nat), s.live = true ∧ f.val ≤ s.host.numVfs ∧ s.tdiHeld f = false ∧ v ≠ 0 ∧ (s.host.funcs.get
      f).busMaster = false) ∧
    (∃ (s : State) (j : Fin 8) (f : Fin 9), f.val = j.val + 1 ∧ s.live = true ∧ f.val ≤ s.host.numVfs ∧ s.tdiHeld f = true ∧
      (s.host.funcs.get f).busMaster = true ∧ s.b.tentOfVf f = none ∧ s.host.tdis.wf = true ∧ s.host.funcs.wf = true) ∧
    (∃ (s : State) (v : Fin 3), s.live = true ∧ s.host.linkUp = true ∧ (s.host.msix.get v).masked = true ∧ (s.host.msix.get v).pend =
      true) ∧
    (∃ (s : State) (f : Fin 9) (v : Nat), s.live = true ∧ (s.host.msix.get (4 * f + v)).masked = false) :=
  ⟨⟨({ State.reset with host := { numVfs := 8, linkUp := true, tdis := [(8, { state := .run })] } } : State), 7, by decide +kernel⟩,
   ⟨({ State.reset with
     host := { numVfs := 8, linkUp := true, tdis := [(8, { state := .locked })], funcs := [(8, { busMaster := true })] } } : State),
     7, by decide +kernel⟩,
   ⟨({ State.reset with host := { numVfs := 8, linkUp := true, streams := [(1, { secure := true })] } } : State), by decide +kernel⟩,
   ⟨(State.reset), by decide +kernel⟩,
   ⟨(State.reset), 8, by decide +kernel⟩,
   ⟨({ State.reset with host := { numVfs := 8, linkUp := true, tdis := [(8, { state := .locked })] } } : State), 0, by decide +kernel⟩,
   ⟨({ State.reset with host := { numVfs := 8, linkUp := true,  } } : State), 8, 1, by decide +kernel⟩,
   ⟨({ State.reset with
     host := { numVfs := 8, linkUp := true, tdis := [(8, { state := .run })], funcs := [(8, { busMaster := true })] } } : State), 7,
     8, by decide +kernel⟩,
   ⟨({ State.reset with
     host := { numVfs := 8, linkUp := true, msix := [(2, { masked := true, pend := true, cond := true })], events := 1 } } : State),
     2, by decide +kernel⟩,
   ⟨({ State.reset with host := { numVfs := 8, linkUp := true,  } } : State), 8, 1, by decide +kernel⟩⟩

theorem test_meets_HostWindowsAndStreams :
    (∃ (s : State) (w : Fin 16), s.live = true ∧ s.winMaster w ≠ 1) ∧
    (∃ (s : State) (m : Nat) (w : Fin 16) (v : BitVec 32), s.live = true ∧ s.winMaster w = m ∧ v.getLsbD 0 = true ∧ (s.host.wins.get
      w).enabled = false ∧ s.winOk w = true) ∧
    (∃ (s : State) (m : Nat) (w : Fin 16) (v : BitVec 32), s.live = true ∧ s.winMaster w = m ∧ v.getLsbD 0 = true ∧ (s.host.wins.get
      w).enabled = false ∧ s.winOk w = false) ∧
    (∃ (s : State) (w : Fin 16) (v : BitVec 32), s.live = true ∧ s.winMaster w = 1 ∧ v.getLsbD 0 = false ∧ s.host.wins.wf = true) ∧
    (∃ (s : State), s.live = true) ∧
    (∃ (s : State) (a : Fin 96) (n : Nat), s.live = true ∧ n ≠ 0 ∧ (s.queue a).busy = true ∧ (s.queue a).pendCode = none ∧ adSpace
      (s.queue a).prog.src = 2 ∧ s.dma.queues.wf = true ∧ s.host.wins.wf = true) ∧
    (∃ (s : State) (a : Fin 96), s.live = true ∧ (s.queue a).busy = true ∧ (s.queue a).pendCode = none ∧ adSpace (s.queue a).prog.src
      = 2 ∧ s.dma.queues.wf = true ∧ s.host.wins.wf = true) ∧
    (∃ (s : State), s.live = true ∧ s.host.linkUp = true) ∧
    (∃ (s : State) (n : Fin 9), s.live = true ∧ s.host.linkUp = true ∧ (s.host.streams.get n).keySet = false) ∧
    (∃ (s : State) (n : Fin 9), s.live = true ∧ s.host.linkUp = true ∧ (s.host.streams.get n).keys1 = true) ∧
    (∃ (s : State) (n : Fin 9), s.live = true ∧ s.host.linkUp = true ∧ (s.host.streams.get n).keys1 = false) ∧
    (∃ (s : State), s.live = true ∧ (s.host.streams.get 0).secure = true) ∧
    (∃ (s : State) (n : Fin 9), s.live = true ∧ n.val ≠ 0 ∧ (s.host.streams.get n).secure = true ∧ s.tdiHeld n = true ∧ s.host.tdis.wf
      = true ∧ s.host.streams.wf = true) :=
  ⟨⟨(bnd { tent := [{ tenant := 8, vf := 8 }], memx := [{ region := 0, kind := 5, tenant := 8, link := 15 }] }), 15, by
     decide +kernel⟩,
   ⟨(State.reset), 1, 15, 1, by decide +kernel⟩,
   ⟨((bnd { memx := [{ region := 0, kind := 5, base := 1, link := 15 }] })), 1, 15, 1, by decide +kernel⟩,
   ⟨(State.reset.onHost fun h => { h with wins := [(15, { enabled := true })] }), 15, 0, by decide +kernel⟩,
   ⟨(State.reset), by decide +kernel⟩,
   ⟨({ bnd { dmaq := [{ used := 1 }] } with
     host := {  }, dma := { queues := [(0, { state := .active, prog := prog64 (BitVec.ofNat 64 (2 * 2 ^ 48 + 15 * 2 ^ 52)) })] } } :
     State), 0, 1, by decide +kernel⟩,
   ⟨({ bnd { dmaq := [{ used := 1 }] } with
     host := {  }, dma := { queues := [(0, { state := .active, prog := prog64 (BitVec.ofNat 64 (2 * 2 ^ 48 + 15 * 2 ^ 52)) })] } } :
     State), 0, by decide +kernel⟩,
   ⟨({ State.reset with host := { numVfs := 8, linkUp := true,  } } : State), by decide +kernel⟩,
   ⟨({ State.reset with host := { numVfs := 8, linkUp := true, streams := [(8, { keys0 := true, secure := true })] } } : State), 8, by
     decide +kernel⟩,
   ⟨({ State.reset with host := { numVfs := 8, linkUp := true, streams := [(8, { keys1 := true })] } } : State), 8, by decide +kernel⟩,
   ⟨({ State.reset with host := { numVfs := 8, linkUp := true,  } } : State), 8, by decide +kernel⟩,
   ⟨({ State.reset with host := { numVfs := 8, linkUp := true, streams := [(0, { secure := true })] } } : State), by decide +kernel⟩,
   ⟨({ bnd { tent := [{ tenant := 8, vf := 1, slotBase := 4 }, { tenant := 7, vf := 8, slotBase := 8 }] } with
     host := { numVfs := 8, linkUp := true, streams := [(8, { secure := true })], tdis := [(8, { state := .run })] } } : State), 8, by
     decide +kernel⟩⟩

theorem test_meets_TdispRequests :
    (∃ (s : State) (n : Nat) (j : Fin 8), s.live = true ∧ (s.host.sessions.get n).isOpen = true ∧ j + 1 ≤ s.host.numVfs) ∧
    (∃ (s : State) (n : Nat) (j : Fin 8), s.live = true ∧ (s.host.sessions.get n).isOpen = true ∧ j + 1 ≤ s.host.numVfs ∧ (s.tdi (j +
      1)).state = .unlocked ∧ (s.b.tentOfVf (j + 1)).isSome = true ∧ (s.host.streams.get (j + 1)).secure = true ∧ s.host.tdis.wf =
      true) ∧
    (∃ (s : State) (n : Nat) (j : Fin 8), s.live = true ∧ (s.host.sessions.get n).isOpen = true ∧ j + 1 ≤ s.host.numVfs ∧ ((s.tdi (j +
      1)).state ≠ .unlocked ∨ s.b.tentOfVf (j + 1) = none ∨ (s.host.streams.get (j + 1)).secure = false)) ∧
    (∃ (s : State) (n : Nat) (j : Fin 8), s.live = true ∧ (s.host.sessions.get n).isOpen = true ∧ j + 1 ≤ s.host.numVfs ∧ s.tdiHeld (j
      + 1) = true) ∧
    (∃ (s : State) (n : Nat) (j : Fin 8) (r : TentRec), s.live = true ∧ (s.host.sessions.get n).isOpen = true ∧ j + 1 ≤ s.host.numVfs
      ∧ (s.tdi (j + 1)).state = .locked ∧ s.b.tentOfVf (j + 1) = some r ∧ s.admissible r.tenant = true ∧ s.host.tdis.wf = true ∧
      s.ksi.tenants.wf = true) ∧
    (∃ (s : State) (n : Nat) (j : Fin 8), s.live = true ∧ (s.host.sessions.get n).isOpen = true ∧ j + 1 ≤ s.host.numVfs ∧ (s.tdi (j +
      1)).state ≠ .locked) ∧
    (∃ (s : State) (n : Nat) (j : Fin 8), s.live = true ∧ (s.host.sessions.get n).isOpen = true ∧ j + 1 ≤ s.host.numVfs ∧ (s.tdi (j +
      1)).state ≠ .unlocked ∧ s.b.tentOfVf (j + 1) = none ∧ s.host.tdis.wf = true) ∧
    (∃ (s : State) (n : Nat) (j : Fin 8), s.live = true ∧ (s.host.sessions.get n).isOpen = true ∧ j + 1 ≤ s.host.numVfs ∧ (s.tdi (j +
      1)).state = .unlocked) :=
  ⟨⟨({ State.reset with host := { numVfs := 8, linkUp := true, sessions := [(12, { isOpen := true })] } } : State), 12, 7, by
     decide +kernel⟩,
   ⟨({ bnd { tent := [{ tenant := 8, vf := 1, slotBase := 4 }, { tenant := 7, vf := 8, slotBase := 8 }] } with
     host := { numVfs := 8, linkUp := true, sessions := [(12, { isOpen := true })], streams := [(8, { secure := true })] } } : State),
     12, 7, by decide +kernel⟩,
   ⟨({ bnd { tent := [{ tenant := 8, vf := 1, slotBase := 4 }, { tenant := 7, vf := 8, slotBase := 8 }] } with
     host := { numVfs := 8, linkUp := true, sessions := [(12, { isOpen := true })] } } : State), 12, 7, by decide +kernel⟩,
   ⟨({ State.reset with
     host := { numVfs := 8, linkUp := true, sessions := [(12, { isOpen := true })], tdis := [(8, { state := .run })] } } : State), 12,
     7, by decide +kernel⟩,
   ⟨({ bnd { tent := [{ tenant := 8, vf := 1, slotBase := 4 }, { tenant := 7, vf := 8, slotBase := 8 }] } with
     host :=
       { numVfs := 8, linkUp := true, sessions := [(12, { isOpen := true })], tdis := [(8, { state := .locked, nonce := [1] })] } } :
     State), 12, 7, ({ tenant := 7, vf := 8, slotBase := 8 } : TentRec), by decide +kernel⟩,
   ⟨({ bnd { tent := [{ tenant := 8, vf := 1, slotBase := 4 }, { tenant := 7, vf := 8, slotBase := 8 }] } with
     host := { numVfs := 8, linkUp := true, sessions := [(12, { isOpen := true })] } } : State), 12, 7, by decide +kernel⟩,
   ⟨({ State.reset with
     host := { numVfs := 8, linkUp := true, sessions := [(12, { isOpen := true })], tdis := [(8, { state := .error })] } } : State),
     12, 7, by decide +kernel⟩,
   ⟨({ State.reset with host := { numVfs := 8, linkUp := true, sessions := [(12, { isOpen := true })] } } : State), 12, 7, by
     decide +kernel⟩⟩

theorem test_meets_SpdmSessions :
    (∃ (s : State) (m : Bool), s.live = true ∧ s.spdmUp m = true ∧ s.openSessions.length < 12 ∧ s.host.sessions.wf = true) ∧
    (∃ (s : State) (m : Bool), s.live = true ∧ s.spdmUp m = true ∧ 12 ≤ s.openSessions.length) ∧
    (∃ (s : State) (n : Nat), s.live = true ∧ (s.host.sessions.get n).isOpen = true ∧ (∀ i, (s.tdi i).session ≠ n)) ∧
    (∃ (s : State) (n : Nat), s.live = true ∧ (s.host.sessions.get n).isOpen = true) ∧
    (∃ (s : State), s.live = true) ∧
    (∃ (s : State) (i : Nat), s.live = true ∧ 1 ≤ i ∧ i ≤ 6) ∧
    (∃ (s : State) (n : Nat), s.live = true ∧ (∀ k, s.sessionFor n k = false)) :=
  ⟨⟨({ State.reset with host := { numVfs := 8, linkUp := true, sessions := [(1, { isOpen := true })] } } : State), false, by
     decide +kernel⟩,
   ⟨(State.reset.onHost fun h => { h with eid := 8, sessions := (List.range 12).map fun i => (i + 1, { isOpen := true }) }), true, by
     decide +kernel⟩,
   ⟨({ State.reset with host := { numVfs := 8, linkUp := true, sessions := [(12, { isOpen := true })] } } : State), 12, by
     decide +kernel, by decide +kernel, fun _ => (by decide : (0 : Nat) ≠ 12)⟩,
   ⟨({ State.reset with host := { numVfs := 8, linkUp := true, sessions := [(12, { isOpen := true })] } } : State), 12, by
     decide +kernel⟩,
   ⟨(State.reset), by decide +kernel⟩,
   ⟨(State.reset), 6, by decide +kernel⟩,
   ⟨(State.reset), 12, by decide +kernel, fun _ => rfl⟩⟩

theorem test_meets_MctpControl :
    (∃ (s : State) (e : BitVec 8), s.aon = true ∧ e ≠ 0 ∧ e ≠ 255 ∧ s.host.sessions = []) ∧
    (∃ (s : State) (e : BitVec 8) (n : Nat), s.aon = true ∧ e ≠ 0 ∧ e ≠ 255 ∧ s.host.eid ≠ e.toNat ∧ s.host.sessions.wf = true ∧
      (s.host.sessions.get n).isOpen = true ∧ (s.host.sessions.get n).overMctp = true) ∧
    (∃ (s : State), s.aon = true) :=
  ⟨⟨(State.reset), 254, by decide +kernel⟩,
   ⟨(State.reset.onHost fun h => { h with sessions := [(12, { isOpen := true, overMctp := true })] }), 1, 12, by decide +kernel⟩,
   ⟨(State.reset), by decide +kernel⟩⟩

theorem test_meets_TrayProtocol :
    (∃ (s : State), s.aon = true ∧ s.host.eid ≠ 0 ∧ s.live = false) ∧
    (∃ (s : State), s.live = true ∧ s.host.eid ≠ 0) ∧
    (∃ (s : State) (off : Nat), s.live = true ∧ s.host.eid ≠ 0 ∧ 0x4000000 ≤ off) ∧
    (∃ (s : State), s.live = true ∧ s.host.eid ≠ 0 ∧ s.pwr.trayLost = false ∧ s.bound = true) ∧
    (∃ (s : State), s.live = true ∧ s.host.eid ≠ 0 ∧ s.pwr.trayLost = true ∧ s.mbx.gens.wf = true) ∧
    (∃ (s : State) (cap : Nat), s.live = true ∧ s.host.eid ≠ 0 ∧ (cap < 36 ∨ 650 < cap)) ∧
    (∃ (s : State) (cap : Nat), s.live = true ∧ s.host.eid ≠ 0 ∧ 36 ≤ cap ∧ cap ≤ 650 ∧ s.pwr.pcapPin = false ∧ s.bound = true) ∧
    (∃ (s : State) (cap : Nat), s.live = true ∧ s.host.eid ≠ 0 ∧ 36 ≤ cap ∧ cap < profileWatts s.pwr.profile ∧ cap ≤ 650 ∧
      s.pwr.pcapPin = true) ∧
    (∃ (s : State) (cmd n : Nat), s.live = true ∧ s.host.eid ≠ 0 ∧ (cmd = 0 ∨ 6 < cmd ∨ 4096 < n)) ∧
    (∃ (s : State) (b : List (BitVec 8)), s.live = true ∧ s.host.eid ≠ 0 ∧ b.length = 4096 ∧ s.img.state = .idle ∧ s.img.busy = false) :=
  ⟨⟨(((State.reset.onHost fun h => { h with eid := 8 })).onStart fun x => { x with hold := true }), by decide +kernel⟩,
   ⟨(((State.reset.onHost fun h => { h with eid := 8 })).onTick fun t => { t with events := 6 }), by decide +kernel⟩,
   ⟨((State.reset.onHost fun h => { h with eid := 8 })), 0x4000000, by decide +kernel⟩,
   ⟨(((bnd { powr := { safeCap := 120, capTimeout := 100 } }).onHost fun h => { h with eid := 8 })), by decide +kernel⟩,
   ⟨((((bnd { powr := { safeCap := 120, capTimeout := 100 } }).onHost fun h => { h with eid := 8 })).onPwr fun p =>
     { p with trayLost := true }), by decide +kernel⟩,
   ⟨(((bnd { powr := { safeCap := 120, capTimeout := 100 } }).onHost fun h => { h with eid := 8 })), 35, by decide +kernel⟩,
   ⟨(((bnd { powr := { safeCap := 120, capTimeout := 100 } }).onHost fun h => { h with eid := 8 })), 650, by decide +kernel⟩,
   ⟨((((bnd { powr := { safeCap := 120, capTimeout := 100 } }).onHost fun h => { h with eid := 8 })).onPwr fun p =>
     { p with pcapPin := true }), 36, by decide +kernel⟩,
   ⟨(((bnd { powr := { safeCap := 120, capTimeout := 100 } }).onHost fun h => { h with eid := 8 })), 7, 4, by decide +kernel⟩,
   ⟨(((bnd { powr := { safeCap := 120, capTimeout := 100 } }).onHost fun h => { h with eid := 8 })), (List.replicate 4096 1), by
     decide +kernel⟩⟩

theorem test_meets_KsiServices :
    (∃ (s : State) (session : Nat) (k : Fin 9), s.live = true ∧ s.sessionFor session k = false) ∧
    (∃ (s : State) (session : Nat) (k : Fin 9) (m : Nat), s.live = true ∧ s.sessionFor session k = true ∧ s.isAdmitted k = true ∧ 1 ≤
      m ∧ m ≤ 0xFFFFFFFF ∧ (s.ten k).models.length < 16) ∧
    (∃ (s : State) (session : Nat) (k : Fin 9) (x : WLoad) (a : Nat), s.live = true ∧ s.sessionFor session k = true ∧ s.isAdmitted k =
      true ∧ x.tenant = k.val ∧ x.activity = 0 ∧ s.loadArgs k x = true ∧ (s.ten k).load = none ∧ s.b.sealAct k ((s.b.region
      x.dstRegion).elim 0 (·.channel)) = some a ∧ x =
      { tenant := k, modelId := x.modelId, srcRegion := x.srcRegion, srcOffset := x.srcOffset, dstRegion := x.dstRegion, dstOffset :=
          x.dstOffset, firstChunk := x.firstChunk, length := x.length }) ∧
    (∃ (s : State) (k : Fin 9) (x : WLoad), s.live = true ∧ s.ksi.tenants.wf = true ∧ (s.ten k).load = some x) ∧
    (∃ (s : State) (session : Nat) (k : Fin 9), s.live = true ∧ s.sessionFor session k = true ∧ (s.ten k).state = .admitted ∧ (s.ten
      k).rotatePend = false ∧ s.otherEmpty k = true ∧ k.val ≠ 0) ∧
    (∃ (s : State) (session : Nat) (k : Fin 9), s.live = true ∧ s.sessionFor session k = true ∧ (s.ten k).state = .rotating) ∧
    (∃ (s : State) (session : Nat) (k : Fin 9) (r : List (BitVec 8)), s.live = true ∧ s.ksi.tenants.wf = true ∧ s.sessionFor session k
      = true ∧ s.isAdmitted k = true ∧ (u8 r 1).testBit 1 = true) ∧
    (∃ (s : State) (session : Nat) (k : Fin 9), s.live = true ∧ s.ksi.tenants.wf = true ∧ s.sessionFor session k = true ∧ s.isAdmitted
      k = true) ∧
    (∃ (s : State) (session : Nat) (k : Fin 9), s.live = true ∧ s.ksi.tenants.wf = true ∧ s.sessionFor session k = true) :=
  ⟨⟨(State.reset), 12, 8, by decide +kernel⟩,
   ⟨({ bnd
     { dmaq := [{ used := 1, tenant := 8 }], tent := [{ tenant := 8, vf := 8, slotBase := 28 }], memx :=
         [{ region := 0, kind := 0, size := 1 }, { region := 1, kind := 1, tenant := 8, base := 1, size := 1 }], plan :=
         { blocks := [{ res := [{ cls := 7 }] }] } } with
     host := { numVfs := 8, sessions := [(12, { isOpen := true, lockedVf := 8 })], tdis := [(8, { state := .run, session := 12 })] },
     ksi := { tenants := [(8, { state := .admitted })] } } : State), 12, 8, 0xFFFFFFFF, by decide +kernel⟩,
   ⟨({ bnd
     { dmaq := [{ used := 1, tenant := 8 }], tent := [{ tenant := 8, vf := 8, slotBase := 28 }], memx :=
         [{ region := 0, kind := 0, size := 1 }, { region := 1, kind := 1, tenant := 8, base := 1, size := 1 }], plan :=
         { blocks := [{ res := [{ cls := 7 }] }] } } with
     host := { numVfs := 8, sessions := [(12, { isOpen := true, lockedVf := 8 })], tdis := [(8, { state := .run, session := 12 })] },
     ksi := { tenants := [(8, { state := .admitted, models := [(1, [1])] })] } } : State), 12, 8,
     ({ tenant := 8, modelId := 1, srcRegion := 0, dstRegion := 1, length := 128 } : WLoad), 0, by decide +kernel⟩,
   ⟨({ State.reset with ksi := { tenants := [(8, { load := some {} })] } } : State), 8, ({} : WLoad), by decide +kernel⟩,
   ⟨({ bnd
     { dmaq := [{ used := 1, tenant := 8 }], tent := [{ tenant := 8, vf := 8, slotBase := 28 }], memx :=
         [{ region := 0, kind := 0, size := 1 }, { region := 1, kind := 1, tenant := 8, base := 1, size := 1 }], plan :=
         { blocks := [{ res := [{ cls := 7 }] }] } } with
     host := { numVfs := 8, sessions := [(12, { isOpen := true, lockedVf := 8 })], tdis := [(8, { state := .run, session := 12 })] },
     ksi := { tenants := [(8, { state := .admitted })] } } : State), 12, 8, by decide +kernel⟩,
   ⟨({ bnd
     { dmaq := [{ used := 1, tenant := 8 }], tent := [{ tenant := 8, vf := 8, slotBase := 28 }], memx :=
         [{ region := 0, kind := 0, size := 1 }, { region := 1, kind := 1, tenant := 8, base := 1, size := 1 }], plan :=
         { blocks := [{ res := [{ cls := 7 }] }] } } with
     host := { numVfs := 8, sessions := [(12, { isOpen := true, lockedVf := 8 })], tdis := [(8, { state := .run, session := 12 })] },
     ksi := { tenants := [(8, { state := .rotating })] } } : State), 12, 8, by decide +kernel⟩,
   ⟨({ bnd
     { dmaq := [{ used := 1, tenant := 8 }], tent := [{ tenant := 8, vf := 8, slotBase := 28 }], memx :=
         [{ region := 0, kind := 0, size := 1 }, { region := 1, kind := 1, tenant := 8, base := 1, size := 1 }], plan :=
         { blocks := [{ res := [{ cls := 7 }] }] } } with
     host := { numVfs := 8, sessions := [(12, { isOpen := true, lockedVf := 8 })], tdis := [(8, { state := .run, session := 12 })] },
     ksi := { tenants := [(8, { state := .admitted })] } } : State), 12, 8, ([8, 2] : List (BitVec 8)), by decide +kernel⟩,
   ⟨({ bnd
     { dmaq := [{ used := 1, tenant := 8 }], tent := [{ tenant := 8, vf := 8, slotBase := 28 }], memx :=
         [{ region := 0, kind := 0, size := 1 }, { region := 1, kind := 1, tenant := 8, base := 1, size := 1 }], plan :=
         { blocks := [{ res := [{ cls := 7 }] }] } } with
     host := { numVfs := 8, sessions := [(12, { isOpen := true, lockedVf := 8 })], tdis := [(8, { state := .run, session := 12 })] },
     ksi := { tenants := [(8, { state := .admitted, counters := { inForce := true } })] } } : State), 12, 8, by decide +kernel⟩,
   ⟨({ bnd
     { dmaq := [{ used := 1, tenant := 8 }], tent := [{ tenant := 8, vf := 8, slotBase := 28 }], memx :=
         [{ region := 0, kind := 0, size := 1 }, { region := 1, kind := 1, tenant := 8, base := 1, size := 1 }], plan :=
         { blocks := [{ res := [{ cls := 7 }] }] } } with
     host := { numVfs := 8, sessions := [(12, { isOpen := true, lockedVf := 8 })], tdis := [(8, { state := .run, session := 12 })] },
     ksi := { tenants := [(8, { state := .admitted })] } } : State), 12, 8, by decide +kernel⟩⟩

theorem test_meets_TenantRemoval :
    (∃ (s : State) (j : Fin 8) (r : Removal), s.live = true ∧ s.ksi.tenants.wf = true ∧ s.ksi.slots.wf = true ∧ (s.ten (j +
      1)).removal = some r ∧ r.fenced = false ∧ 1 ≤ r.boundaries ∧ s.tenantBusy (j + 1) = false) ∧
    (∃ (s : State) (j : Fin 8) (r : Removal), s.live = true ∧ (s.ten (j + 1)).removal = some r ∧ r.fenced = false ∧ r.boundaries < 3 ∧
      s.tenantBusy (j + 1) = true) ∧
    (∃ (s : State) (j : Fin 8) (r : Removal), s.live = true ∧ s.ksi.tenants.wf = true ∧ (s.ten (j + 1)).removal = some r ∧ r.fenced =
      true) ∧
    (∃ (s : State) (j : Fin 8), s.live = true ∧ s.ksi.tenants.wf = true ∧ (s.ten (j + 1)).state = .reclaiming) ∧
    (∃ (s : State), s.start.p48 = true) :=
  ⟨⟨({ bnd
     { dmaq := [{ used := 1, tenant := 8 }], tent := [{ tenant := 8, vf := 8, slotBase := 28 }], memx :=
         [{ region := 0, kind := 0, size := 1 }, { region := 1, kind := 1, tenant := 8, base := 1, size := 1 }], plan :=
         { blocks := [{ res := [{ cls := 7 }] }] } } with
     host := { numVfs := 8, sessions := [(12, { isOpen := true, lockedVf := 8 })], tdis := [(8, { state := .run, session := 12 })] },
     ksi :=
       { tenants := [(8, { state := .removing, models := [(1, [1])], removal := some { boundaries := 1 } })], slots := [(28,
           { state := .live })] } } : State), 7, ({ boundaries := 1 } : Removal), by decide +kernel⟩,
   ⟨(({ bnd
     { dmaq := [{ used := 1, tenant := 8 }], tent := [{ tenant := 8, vf := 8, slotBase := 28 }], memx :=
         [{ region := 0, kind := 0, size := 1 }, { region := 1, kind := 1, tenant := 8, base := 1, size := 1 }], plan :=
         { blocks := [{ res := [{ cls := 7 }] }] } } with
     host := { numVfs := 8, sessions := [(12, { isOpen := true, lockedVf := 8 })], tdis := [(8, { state := .run, session := 12 })] },
     ksi := { tenants := [(8, { state := .removing, removal := some { boundaries := 2 } })] } }).onActs fun _ => [(0,
     { run := some {} })]), 7, ({ boundaries := 2 } : Removal), by decide +kernel⟩,
   ⟨(({ bnd
     { dmaq := [{ used := 1, tenant := 8 }], tent := [{ tenant := 8, vf := 8, slotBase := 28 }], memx :=
         [{ region := 0, kind := 0, size := 1 }, { region := 1, kind := 1, tenant := 8, base := 1, size := 1 }], plan :=
         { blocks := [{ res := [{ cls := 7 }] }] } } with
     host := { numVfs := 8, sessions := [(12, { isOpen := true, lockedVf := 8 })], tdis := [(8, { state := .run, session := 12 })] },
     ksi := { tenants := [(8, { state := .removing, removal := some { boundaries := 2, fenced := true, start := 4 } })] } }).onTb fun
     t => { t with time := 9 }), 7, ({ boundaries := 2, fenced := true, start := 4 } : Removal), by decide +kernel⟩,
   ⟨({ bnd
     { dmaq := [{ used := 1, tenant := 8 }], tent := [{ tenant := 8, vf := 8, slotBase := 28 }], memx :=
         [{ region := 0, kind := 0, size := 1 }, { region := 1, kind := 1, tenant := 8, base := 1, size := 1 }], plan :=
         { blocks := [{ res := [{ cls := 7 }] }] } } with
     host := { numVfs := 8, sessions := [(12, { isOpen := true, lockedVf := 8 })], tdis := [(8, { state := .run, session := 12 })] },
     ksi := { tenants := [(8, { state := .reclaiming })] } } : State), 7, by decide +kernel⟩,
   ⟨(State.reset), by decide +kernel⟩⟩

theorem test_meets_CountersAndSensors :
    (∃ (s : State) (m : Nat) (md : Bool) (ch : Fin 6) (i : Fin 32), s.live = true ∧ s.cntWriter m (cntKey md ch i) = true) ∧
    (∃ (s : State) (md : Bool) (ch : Fin 6) (i : Fin 32), s.live = true ∧ s.cntWriter 1 (cntKey md ch i) = false) ∧
    (∃ (s : State), s.live = false ∧ s.start.p48 = true) ∧
    (∃ (s : State) (i : Fin 89) (v : Int), s.live = true ∧ 72 ≤ i.val ∧ (s.sensor i).fault = false ∧ (sensorRange i).1 < v ∧ v <
      (sensorRange i).2 ∧ s.cons.sensors.wf = true) ∧
    (∃ (s : State) (i : Fin 89) (v : Int), s.live = true ∧ 72 ≤ i.val ∧ (s.sensor i).fault = false ∧ (v ≤ (sensorRange i).1 ∨
      (sensorRange i).2 ≤ v) ∧ s.cons.sensors.wf = true) ∧
    (∃ (s : State) (i : Fin 89) (n : Nat), s.live = true ∧ (s.sensor i).fault = true ∧ (s.sensor i).plausSince = some n ∧ n +
      10000000000 ≤ s.tb.time ∧ s.cons.sensors.wf = true) ∧
    (∃ (s : State) (i : Fin 89) (n : Nat), s.live = true ∧ (s.sensor i).plausSince = some n ∧ s.tb.time < n + 10000000000) :=
  ⟨⟨(bnd
     { dmaq := [{ used := 1, tenant := 8 }], tent := [{ tenant := 8, vf := 8 }], cntr :=
         [{ scopeKind := 1, channel := 5, index := 15 }, { scopeKind := 0, channel := 5, index := 15 },
         { scopeKind := 0, index := 31 }] }), 1, true, 0, 31, by decide +kernel⟩,
   ⟨(bnd
     { dmaq := [{ used := 1, tenant := 8 }], cntr := [{ scopeKind := 1, index := 0, owner := 0 },
         { scopeKind := 0, index := 0, owner := 0 }] }), true, 0, 0, by decide +kernel⟩,
   ⟨((State.reset.onStart fun x => { x with hold := true })), by decide +kernel⟩,
   ⟨(State.reset), 88, 401, by decide +kernel⟩,
   ⟨(State.reset), 88, 1500, by decide +kernel⟩,
   ⟨(({ State.reset with cons := { sensors := [(88, { fault := true, plausSince := some 0 })] } }).onTb fun t =>
     { t with time := 10000000000 }), 88, 0, by decide +kernel⟩,
   ⟨(({ State.reset with cons := { sensors := [(88, { fault := true, plausSince := some 0 })] } }).onTb fun t =>
     { t with time := 9999999999 }), 88, 0, by decide +kernel⟩⟩

theorem test_meets_ThermalLadder :
    (∃ (s : State) (i : Fin 89) (v : Int), s.live = true ∧ i.val < 24 ∧ (s.sensor i).fault = false ∧ s.plausible i v = true ∧
      s.cons.sensors.wf = true) ∧
    (∃ (s : State), s.live = true ∧ s.pwr.warnOn = true ∧ s.pwr.hotOn = false ∧ s.pwr.warnAt + 60000000000 ≤ s.tb.time) ∧
    (∃ (s : State), s.live = true ∧ s.tb.time < s.pwr.warnAt + 60000000000) ∧
    (∃ (s : State), s.live = true ∧ s.pwr.hotOn = true ∧ s.pwr.hotAt + 60000000000 ≤ s.tb.time ∧ 150 ≤ (s.sensor 68).value) ∧
    (∃ (s : State) (ch : Fin 6), s.live = true ∧ s.pwr.critShed.getLsbD ch = true ∧ s.pwr.critAt.get ch + 60000000000 ≤ s.tb.time) ∧
    (∃ (s : State), s.live = true ∧ s.pwr.modShed ≠ 0 ∧ s.pwr.critAt.get 6 + 60000000000 ≤ s.tb.time) ∧
    (∃ (s : State) (n : Nat), s.live = true ∧ s.pwr.flowSince = some n ∧ n + 5000000000 ≤ s.tb.time ∧ s.pwr.flowLow = false ∧
      s.pwr.hotOn = false) ∧
    (∃ (s : State), s.live = true ∧ s.pwr.flowSince = none) ∧
    (∃ (s : State) (i : Fin 89), s.live = true ∧ i.val < 30 ∧ 65536 * (s.keep.tTrip : Int) ≤ (s.sensor i).factory) ∧
    (∃ (s : State) (i : Fin 89), s.live = true ∧ (s.sensor i).factory < 65536 * (s.keep.tTrip : Int)) :=
  ⟨⟨(State.reset), 23, 1050, by decide +kernel⟩,
   ⟨({ State.reset with pwr := { warnOn := true }, tb := { time := 60000000000 } } : State), by decide +kernel⟩,
   ⟨({ State.reset with pwr := { warnOn := true }, tb := { time := 59999999999 } } : State), by decide +kernel⟩,
   ⟨(({ State.reset with pwr := { hotOn := true }, tb := { time := 60000000000 } }).onCons fun c =>
     { c with sensors := [(68, { value := 150 })] }), by decide +kernel⟩,
   ⟨({ State.reset with pwr := { critShed := 32 }, tb := { time := 60000000000 } } : State), 5, by decide +kernel⟩,
   ⟨({ State.reset with pwr := { modShed := 1 }, tb := { time := 60000000000 } } : State), by decide +kernel⟩,
   ⟨({ State.reset with pwr := { flowSince := some 0 }, tb := { time := 5000000000 } } : State), 0, by decide +kernel⟩,
   ⟨(State.reset), by decide +kernel⟩,
   ⟨({ State.reset with cons := { sensors := [(29, { factory := 75366400 })] } } : State), 29, by decide +kernel⟩,
   ⟨({ State.reset with cons := { sensors := [(29, { factory := 75366399 })] } } : State), 29, by decide +kernel⟩⟩

theorem test_meets_Conservator :
    (∃ (s : State), s.live = true) ∧
    (∃ (s : State), s.live = true ∧ s.bound = true ∧ s.cons.replanFrom + 3600000000000 ≤ s.cons.poweredNs) ∧
    (∃ (s : State), s.live = true ∧ s.cons.poweredNs < s.cons.replanFrom + 3600000000000) ∧
    (∃ (s : State), s.live = true ∧ s.cons.replanBusy = true ∧ s.cons.rails.wf = true) ∧
    (∃ (s : State), s.live = true ∧ s.cons.health.wf = true) :=
  ⟨⟨(State.reset), by decide +kernel⟩,
   ⟨((bnd {}).onCons fun c => { c with poweredNs := 3600000000000 }), by decide +kernel⟩,
   ⟨((bnd {}).onCons fun c => { c with poweredNs := 3599999999999 }), by decide +kernel⟩,
   ⟨((bnd {}).onCons fun c => { c with replanBusy := true, rails := [(0, { vSet := 700, vMax := 720 })] }), by decide +kernel⟩,
   ⟨(State.reset), by decide +kernel⟩⟩

theorem test_meets_FieldTests :
    (∃ (s : State) (src : Fin 6) (x : SpotRun) (l : List SpotRun), s.live = true ∧ takeSpot (fun x => x.source == src.val && decide
      (x.ticks ≤ 64)) s.chk.spots = (some x, l)) ∧
    (∃ (s : State) (src : Fin 6) (x : SpotRun) (l : List SpotRun), s.live = true ∧ s.chk.units.wf = true ∧ takeSpot (fun x => x.source
      == src.val && decide (x.ticks ≤ 64)) s.chk.spots = (some x, l) ∧ x.source ≠ x.checker ∧ (s.chk.units.get (9 * x.source)).state =
      .healthy ∧ (s.chk.units.get (9 * x.source)).eventTick = none ∧ (s.chk.units.get (9 * x.checker)).state = .healthy ∧
      (s.chk.units.get (9 * x.checker)).eventTick = none) ∧
    (∃ (s : State) (src : Fin 6) (x : SpotRun) (l : List SpotRun), s.live = true ∧ takeSpot (fun x => x.source == src.val && decide
      (64 < x.ticks)) s.chk.spots = (some x, l)) ∧
    (∃ (s : State) (u : Fin 54), s.live = true ∧ s.bound = true ∧ s.b.safe.checkLevel ≠ 0 ∧ s.chk.maintenance = false ∧ s.testable u =
      true ∧ s.chk.run = none) ∧
    (∃ (s : State) (r : TestRun), s.live = true ∧ s.chk.run = some r ∧ r.inSegment = true ∧ r.segments + 1 < runSegments (r.unit % 9)) ∧
    (∃ (s : State) (r : TestRun), s.live = true ∧ s.chk.run = some r ∧ r.inSegment = true ∧ runSegments (r.unit % 9) ≤ r.segments + 1) ∧
    (∃ (s : State) (r : TestRun), s.live = true ∧ s.chk.run = some r ∧ r.inSegment = true ∧ s.chk.units.wf = true ∧ (s.chk.units.get
      r.unit).state = .healthy ∧ (s.chk.units.get r.unit).eventTick = none) ∧
    (∃ (s : State) (r : TestRun), s.live = true ∧ s.chk.run = some r ∧ 1024 ≤ r.ticks) ∧
    (∃ (s : State) (u : Nat), s.live = true ∧ u ≤ 53 ∧ s.chk.units.wf = true ∧ (s.chk.units.get u).state = .healthy ∧ (s.chk.units.get
      u).eventTick = none) ∧
    (∃ (s : State), s.live = true ∧ s.bound = true ∧ s.bind.rebind = .idle ∧ (∀ k ∈ List.range 9, k ≠ 0 → (s.ksi.tenants.get k).state
      = .none)) ∧
    (∃ (s : State), s.live = true ∧ s.chk.maintenance = true) ∧
    (∃ (s : State) (l : List Nat), s.live = true ∧ s.chk.stress = true ∧ (∀ x ∈ l, x % 256 = 0)) :=
  ⟨⟨({ State.reset with chk := { spots := [{ source := 5, checker := 0, activity := 80, ticks := 64 }] } } : State), 5,
     ({ source := 5, checker := 0, activity := 80, ticks := 64 } : SpotRun), [], by decide +kernel⟩,
   ⟨({ State.reset with chk := { spots := [{ source := 5, checker := 0, activity := 80, ticks := 64 }] } } : State), 5,
     ({ source := 5, checker := 0, activity := 80, ticks := 64 } : SpotRun), [], by decide +kernel⟩,
   ⟨({ State.reset with chk := { spots := [{ source := 5, checker := 0, activity := 80, ticks := 65 }] } } : State), 5,
     ({ source := 5, checker := 0, activity := 80, ticks := 65 } : SpotRun), [], by decide +kernel⟩,
   ⟨({ bnd { chan := (List.range 6).map fun c => { channel := c, enable := 1 }, safe := { checkLevel := 1 } } with
     pwr := { domains := [(5, 255)] } } : State), 53, by decide +kernel⟩,
   ⟨({ State.reset with chk := { testing := true, run := some { unit := 53, segments := 38, inSegment := true } } } : State),
     ({ unit := 53, segments := 38, inSegment := true } : TestRun), by decide +kernel⟩,
   ⟨({ State.reset with chk := { testing := true, run := some { unit := 53, segments := 39, inSegment := true } } } : State),
     ({ unit := 53, segments := 39, inSegment := true } : TestRun), by decide +kernel⟩,
   ⟨({ State.reset with chk := { testing := true, run := some { unit := 53, segments := 3, inSegment := true } } } : State),
     ({ unit := 53, segments := 3, inSegment := true } : TestRun), by decide +kernel⟩,
   ⟨({ State.reset with chk := { testing := true, run := some { unit := 53, ticks := 1024 } } } : State),
     ({ unit := 53, ticks := 1024 } : TestRun), by decide +kernel⟩,
   ⟨(State.reset), 53, by decide +kernel⟩,
   ⟨(bnd {}), by decide +kernel⟩,
   ⟨(State.reset.onChk fun c => { c with maintenance := true }), by decide +kernel⟩,
   ⟨(State.reset.onChk fun c => { c with stress := true }), ([256, 0] : List Nat), by decide +kernel⟩⟩

theorem test_meets_WeightCopies :
    (∃ (s : State) (i : Fin 96) (c : SafeCopy), s.live = true ∧ s.copyRec i = some c ∧ s.tick.running = true ∧ s.chk.maintenance =
      false ∧ s.copyInterval c ≠ 0 ∧ s.tick.num % s.copyInterval c = 0 ∧ (s.copy i).round = none ∧ (s.copy i).digest = [] ∧
      (s.copySeal i).isSome = true) ∧
    (∃ (s : State) (i : Fin 96) (c : SafeCopy) (r : MemxRec) (n : Nat), s.live = true ∧ s.chk.copies.wf = true ∧ s.copyRec i = some c
      ∧ s.copyRegion i = some r ∧ (s.copy i).round = some n ∧ s.rangeRead r.tenant r.channel (r.base * 2097152) (r.size * 2097152) 0 =
      .ok) ∧
    (∃ (s : State) (i : Fin 96) (c : SafeCopy) (n : Nat), s.live = true ∧ s.chk.copies.wf = true ∧ s.copyRec i = some c ∧ (s.copy
      i).boundaries = some n ∧ 16 ≤ n ∧ (s.roundDigests c.group (s.copy i).digestTick).length ≤ 1) ∧
    (∃ (s : State) (i : Fin 96) (c : SafeCopy) (n : Nat), s.live = true ∧ s.chk.copies.wf = true ∧ s.copyRec i = some c ∧ (s.copy
      i).boundaries = some n ∧ 16 ≤ n ∧ 2 ≤ (s.roundDigests c.group (s.copy i).digestTick).length ∧ majority (s.roundDigests c.group
      (s.copy i).digestTick) (s.copy i).digest = true ∧ (s.copy i).state ≠ .reloading) ∧
    (∃ (s : State) (i : Nat), s.live = true ∧ s.chk.copies.wf = true ∧ (s.copyRec i).isSome = true ∧ (s.copy i).state = .ok ∧
      s.canReplay i = true) ∧
    (∃ (s : State) (i : Nat), s.live = true ∧ s.chk.copies.wf = true ∧ (s.copyRec i).isSome = true ∧ (s.copy i).state = .ok ∧
      s.canReplay i = false) ∧
    (∃ (s : State) (i : Fin 96) (r : MemxRec), s.live = true ∧ s.chk.copies.wf = true ∧ s.copyRegion i = some r ∧ (s.copy i).state =
      .reloading ∧ s.canReplay i = true ∧ s.loadsOf r.region = []) :=
  ⟨⟨({ bnd
     { dmaq := [{ used := 1 }], memx := [{ region := 3, kind := 1 }], safe :=
         { digestInterval := 1000, copies := [{ region := 3, group := 2 }] }, plan := { blocks := [{ res := [{ cls := 7 }] }] } } with
     tick := { running := true, num := 2000 }, chk := {  } } : State), 0, ({ region := 3, group := 2 } : SafeCopy), by decide +kernel⟩,
   ⟨({ bnd
     { dmaq := [{ used := 1 }], memx := [{ region := 3, kind := 1 }], safe :=
         { digestInterval := 1000, copies := [{ region := 3, group := 2 }] }, plan := { blocks := [{ res := [{ cls := 7 }] }] } } with
     tick := { running := true, num := 2000 }, chk := { copies := [(0, { round := some 9 })] } } : State), 0,
     ({ region := 3, group := 2 } : SafeCopy), ({ region := 3, kind := 1 } : MemxRec), 9, by decide +kernel⟩,
   ⟨({ bnd
     { dmaq := [{ used := 1 }], memx := [{ region := 3, kind := 1 }], safe :=
         { digestInterval := 1000, copies := [{ region := 3, group := 2 }] }, plan := { blocks := [{ res := [{ cls := 7 }] }] } } with
     tick := { running := true, num := 2000 }, chk :=
       { digests := [{ group := 2, tick := 9, digest := [1] }], copies := [(0,
           { digest := [1], digestTick := 9, boundaries := some 16 })] } } : State), 0, ({ region := 3, group := 2 } : SafeCopy), 16,
     by decide +kernel⟩,
   ⟨({ bnd
     { dmaq := [{ used := 1 }], memx := [{ region := 3, kind := 1 }], safe :=
         { digestInterval := 1000, copies := [{ region := 3, group := 2 }] }, plan := { blocks := [{ res := [{ cls := 7 }] }] } } with
     tick := { running := true, num := 2000 }, chk :=
       { digests := [{ group := 2, tick := 9, digest := [1] }, { sender := 1, group := 2, tick := 9, digest := [1] }], copies := [(0,
           { digest := [1], digestTick := 9, boundaries := some 16, state := .suspect })] } } : State), 0,
     ({ region := 3, group := 2 } : SafeCopy), 16, by decide +kernel⟩,
   ⟨({ bnd
     { dmaq := [{ used := 1 }], memx := [{ region := 3, kind := 1 }], safe :=
         { digestInterval := 1000, copies := [{ region := 3, group := 2 }] }, plan := { blocks := [{ res := [{ cls := 7 }] }] } } with
     tick := { running := true, num := 2000 }, chk := {  } } : State), 0, by decide +kernel⟩,
   ⟨({ bnd
     { dmaq := [{ used := 1 }], memx := [{ region := 3, kind := 1 }], safe :=
         { digestInterval := 1000, copies := [{ region := 3, group := 2 }] }, plan := { blocks := [{ res := [{ cls := 7 }] }] } } with
     tick := { running := true, num := 2000 }, chk := { loadLost := [(3, true)] } } : State), 0, by decide +kernel⟩,
   ⟨({ bnd
     { dmaq := [{ used := 1 }], memx := [{ region := 3, kind := 1 }], safe :=
         { digestInterval := 1000, copies := [{ region := 3, group := 2 }] }, plan := { blocks := [{ res := [{ cls := 7 }] }] } } with
     tick := { running := true, num := 2000 }, chk := { copies := [(0, { state := .reloading })] } } : State), 0,
     ({ region := 3, kind := 1 } : MemxRec), by decide +kernel⟩⟩

theorem test_meets_PowerControl :
    (∃ (s : State), s.live = true ∧ s.decisionDue = true ∧ 120 ≤ s.capNow) ∧
    (∃ (s : State), s.live = true ∧ s.decisionDue = true ∧ s.capNow < 120) ∧
    (∃ (s : State) (p : Nat), s.live = true ∧ s.b.powr.profileMask.testBit p = true) ∧
    (∃ (s : State) (p : Nat), s.live = true ∧ s.b.powr.profileMask.testBit p = false) ∧
    (∃ (s : State), s.live = true ∧ s.bound = true ∧ s.pwr.beating = true ∧ s.pwr.lastBeat + 1000000 * s.b.powr.capTimeout ≤ s.tb.time
      ∧ s.pwr.pcapPin = false) ∧
    (∃ (s : State), s.live = true ∧ s.pwr.beating = false) ∧
    (∃ (s : State), s.live = true ∧ s.bound = true ∧ s.pwr.pcapPin = false) ∧
    (∃ (s : State), s.pwr.pcapPin = true) ∧
    (∃ (s : State) (v : Nat), s.live = true ∧ s.pwr.throttle = false ∧ v < 4050) ∧
    (∃ (s : State) (v : Nat), s.live = true ∧ s.pwr.throttle = true ∧ 4150 < v) ∧
    (∃ (s : State) (v : Nat), s.live = true ∧ v ≤ 4150) ∧
    (∃ (s : State) (v : Nat), s.start.p48 = true ∧ 0 < v ∧ v < 3700) ∧
    (∃ (s : State), s.start.p48 = true ∧ s.start.aux = false) ∧
    (∃ (s : State) (d : Nat), s.live = true ∧ s.pwr.droops.get d = false) ∧
    (∃ (s : State) (d c : Nat), s.live = true ∧ s.pwr.droops.get d = true ∧ 32 ≤ c ∧ 6 ≤ d) ∧
    (∃ (s : State) (d c : Nat), s.live = true ∧ s.pwr.droops.get d = true ∧ 32 ≤ c ∧ d < 6) ∧
    (∃ (s : State) (c : Nat), s.live = true ∧ c < 32) :=
  ⟨⟨({ bnd { powr := { profileMask := 31, safeCap := 150, capTimeout := 100 }, plan := { blocks := [{ periodMin := 125000 }] } } with
     tick := { running := true, num := 1 }, tb := { time := 1000000000 }, pwr := { cap := 600, capNext := some 120 } } : State), by
     decide +kernel⟩,
   ⟨({ bnd { powr := { profileMask := 31, safeCap := 150, capTimeout := 100 }, plan := { blocks := [{ periodMin := 125000 }] } } with
     tick := { running := true, num := 1 }, tb := { time := 1000000000 }, pwr := { cap := 119 } } : State), by decide +kernel⟩,
   ⟨({ bnd { powr := { profileMask := 31, safeCap := 150, capTimeout := 100 }, plan := { blocks := [{ periodMin := 125000 }] } } with
     tick := { running := true, num := 1 }, tb := { time := 1000000000 }, pwr := {  } } : State), 4, by decide +kernel⟩,
   ⟨({ bnd { powr := { profileMask := 31, safeCap := 150, capTimeout := 100 }, plan := { blocks := [{ periodMin := 125000 }] } } with
     tick := { running := true, num := 1 }, tb := { time := 1000000000 }, pwr := {  } } : State), 5, by decide +kernel⟩,
   ⟨({ bnd { powr := { profileMask := 31, safeCap := 150, capTimeout := 100 }, plan := { blocks := [{ periodMin := 125000 }] } } with
     tick := { running := true, num := 1 }, tb := { time := 1000000000 }, pwr :=
       { beating := true, lastBeat := 900000000, cap := 600 } } : State), by decide +kernel⟩,
   ⟨(State.reset), by decide +kernel⟩,
   ⟨({ bnd { powr := { profileMask := 31, safeCap := 150, capTimeout := 100 }, plan := { blocks := [{ periodMin := 125000 }] } } with
     tick := { running := true, num := 1 }, tb := { time := 1000000000 }, pwr := {  } } : State), by decide +kernel⟩,
   ⟨({ bnd { powr := { profileMask := 31, safeCap := 150, capTimeout := 100 }, plan := { blocks := [{ periodMin := 125000 }] } } with
     tick := { running := true, num := 1 }, tb := { time := 1000000000 }, pwr := { pcapPin := true } } : State), by decide +kernel⟩,
   ⟨(State.reset), 4049, by decide +kernel⟩,
   ⟨({ State.reset with pwr := { throttle := true, dipMin := 4000 }, tb := { time := 5000 } } : State), 4151, by decide +kernel⟩,
   ⟨({ State.reset with pwr := { throttle := true }, tb := { time := 5000 } } : State), 4150, by decide +kernel⟩,
   ⟨(State.reset), 3699, by decide +kernel⟩,
   ⟨(State.reset.onStart fun x => { x with aux := false }), by decide +kernel⟩,
   ⟨(State.reset), 6, by decide +kernel⟩,
   ⟨({ State.reset with pwr := { droops := [(6, true)] }, tb := { time := 0 } } : State), 6, 32, by decide +kernel⟩,
   ⟨({ State.reset with pwr := { droops := [(5, true)] }, tb := { time := 0 } } : State), 5, 32, by decide +kernel⟩,
   ⟨({ State.reset with pwr := { droops := [(6, true)] }, tb := { time := 0 } } : State), 31, by decide +kernel⟩⟩

theorem test_meets_PairInterlock :
    (∃ (s : State), s.live = true ∧ s.paired = true ∧ s.tick.running = true ∧ s.pair.role = .standby ∧ s.unfit = false ∧ s.pair.peer =
      false ∧ max s.pair.peerReleased s.tick.t0 + s.guardNs ≤ s.tb.time) ∧
    (∃ (s : State), s.live = true ∧ (s.pair.peer = true ∨ s.unfit = true ∨ s.tb.time < s.pair.peerReleased + 100000)) ∧
    (∃ (s : State), s.live = true ∧ s.paired = true ∧ s.pair.role = .claiming ∧ s.pair.ownBus = true ∧ s.pair.ownAsserted + 2000 ≤
      s.tb.time ∧ s.pair.peer = false) ∧
    (∃ (s : State), s.live = true ∧ s.paired = true ∧ s.pair.role = .claiming ∧ s.pair.ownBus = true ∧ s.pair.ownAsserted + 2000 ≤
      s.tb.time ∧ s.pair.peer = true ∧ s.ringB = true) ∧
    (∃ (s : State), s.live = true ∧ s.tb.time < s.pair.ownAsserted + 2000) ∧
    (∃ (s : State), s.paired = true ∧ s.pair.peer = false ∧ s.ringB = true ∧ s.pair.role = .active) ∧
    (∃ (s : State), s.pair.peer = true ∧ s.pair.role = .standby) ∧
    (∃ (s : State), s.live = true ∧ s.paired = true ∧ s.pair.ownBus = false ∧ s.pair.role = .standby ∧ s.unfit = false) ∧
    (∃ (s : State), s.pair.pin = true ∧ s.pair.ownBus = true) ∧
    (∃ (s : State) (n : Nat), s.live = true ∧ s.paired = true ∧ s.pair.releaseAt = some n ∧ s.pair.pin = false ∧ s.pair.ownBus = true
      ∧ n + 10000 ≤ s.tb.time) ∧
    (∃ (s : State), s.live = true ∧ s.pair.releaseAt = none) ∧
    (∃ (s : State) (f g : Nat), s.live = true ∧ s.paired = true ∧ s.ringB = false ∧ s.pair.role = .standby ∧ s.pair.peer = true ∧
      s.unfit = false ∧ s.ringFit = true ∧ s.pair.fitSince = some f ∧ s.pair.standbySince = some g ∧ f + s.pair.revertWait *
      1000000000 ≤ s.tick.start ∧ g + s.pair.revertWait * 1000000000 ≤ s.tick.start ∧ s.pairRec.startRole = 0) ∧
    (∃ (s : State), s.live = true ∧ s.ringB = true) :=
  ⟨⟨({ bnd { pair := some { ring := 0, startRole := 0 } } with tick := { running := true }, tb := { time := 100000 }, pair := {  } } :
     State), by decide +kernel⟩,
   ⟨({ bnd { pair := some { ring := 0, startRole := 0 } } with tick := { running := true }, tb := { time := 99999 }, pair := {  } } :
     State), by decide +kernel⟩,
   ⟨({ bnd { pair := some { ring := 0, startRole := 0 } } with
     tick := { running := true }, tb := { time := 2000 }, pair := { role := .claiming, ownBus := true, pin := true } } : State), by
     decide +kernel⟩,
   ⟨({ bnd { pair := some { ring := 1, startRole := 1 } } with
     tick := { running := true }, tb := { time := 2000 }, pair := { role := .claiming, ownBus := true, pin := true, peer := true } } :
     State), by decide +kernel⟩,
   ⟨({ bnd { pair := some { ring := 0, startRole := 0 } } with
     tick := { running := true }, tb := { time := 1999 }, pair := { role := .claiming, ownBus := true, pin := true } } : State), by
     decide +kernel⟩,
   ⟨({ bnd { pair := some { ring := 1, startRole := 1 } } with
     tick := { running := true }, tb := { time := 2000 }, pair := { role := .active, ownBus := true, pin := true } } : State), by
     decide +kernel⟩,
   ⟨({ bnd { pair := some { ring := 0, startRole := 0 } } with
     tick := { running := true }, tb := { time := 2000 }, pair := { peer := true } } : State), by decide +kernel⟩,
   ⟨({ bnd { pair := some { ring := 0, startRole := 0 } } with tick := { running := true }, tb := { time := 2000 }, pair := {  } } :
     State), by decide +kernel⟩,
   ⟨({ bnd { pair := some { ring := 0, startRole := 0 } } with
     tick := { running := true }, tb := { time := 2000 }, pair := { pin := true, ownBus := true } } : State), by decide +kernel⟩,
   ⟨({ bnd { pair := some { ring := 0, startRole := 0 } } with
     tick := { running := true }, tb := { time := 10000 }, pair := { ownBus := true, releaseAt := some 0 } } : State), 0, by
     decide +kernel⟩,
   ⟨(State.reset), by decide +kernel⟩,
   ⟨({ bnd { pair := some { ring := 0, startRole := 0 } } with
     tick := { running := true, start := 60000000000 }, tb := { time := 60000000000 }, pair :=
       { peer := true, fitSince := some 0, standbySince := some 0, revertWait := 60 } } : State), 0, 0, by decide +kernel⟩,
   ⟨({ bnd { pair := some { ring := 1, startRole := 1 } } with tick := { running := true }, tb := { time := 0 }, pair := {  } } :
     State), by decide +kernel⟩⟩

theorem test_meets_AdmissionDecision :
    (∃ (s : State), s.live = true ∧ s.pair.admission ≠ .shadow) ∧
    (∃ (s : State) (n d a : Nat) (m : NetMember) (p q : List (BitVec 8)), s.live = true ∧ s.member = some m ∧ s.pair.admission =
      .shadow ∧ s.pair.decideAt = [(n, d)] ∧ d + 16 ≤ s.tick.num ∧ s.b.safe.digests = [a] ∧ s.digestOf m.index a n = some p ∧
      s.digestOf m.buddy a n = some q ∧ p ≠ q ∧ s.pair.absent.getLsbD m.buddy = false) ∧
    (∃ (s : State) (n d a : Nat) (m : NetMember) (p : List (BitVec 8)), s.live = true ∧ s.member = some m ∧ s.pair.admission = .shadow
      ∧ s.pair.decideAt = [(n, d)] ∧ d + 16 ≤ s.tick.num ∧ s.b.safe.digests = [a] ∧ s.digestOf m.index a n = some p ∧ s.digestOf
      m.buddy a n = some p ∧ s.pair.absent.getLsbD m.buddy = false ∧ s.healthReplace = false) :=
  ⟨⟨(State.reset), by decide +kernel⟩,
   ⟨({ bnd { ringB2 with safe := { digests := [3] }, netw := { ringB2.netw with glob := { admitTicks := 5 } } } with
     tick := { running := true, num := 25 }, pair := { admission := .shadow, decideAt := [(7, 9)], admitCount := 3 }, chk :=
       { digests := [{ sender := 0, group := 3, kind := 1, tick := 7, digest := [1] },
           { sender := 1, group := 3, kind := 1, tick := 7, digest := [2] }] } } : State), 7, 9, 3,
     ({ index := 0, succession := 1, buddy := 1, accession := zeros16 } : NetMember), ([1] : List (BitVec 8)), ([2] : List (BitVec
     8)), by decide +kernel⟩,
   ⟨({ bnd { ringB2 with safe := { digests := [3] }, netw := { ringB2.netw with glob := { admitTicks := 5 } } } with
     tick := { running := true, num := 25 }, pair := { admission := .shadow, decideAt := [(7, 9)], admitCount := 4 }, chk :=
       { digests := [{ sender := 0, group := 3, kind := 1, tick := 7, digest := [1] },
           { sender := 1, group := 3, kind := 1, tick := 7, digest := [1] }] } } : State), 7, 9, 3,
     ({ index := 0, succession := 1, buddy := 1, accession := zeros16 } : NetMember), ([1] : List (BitVec 8)), by decide +kernel⟩⟩

theorem test_meets_ResetsAndStart :
    (∃ (s : State), s.start.p48 = false) ∧
    (∃ (s : State), s.start.p48 = true ∧ s.start.waitInput = true) ∧
    (∃ (s : State), s.start.p48 = true ∧ s.start.rstPin = false) ∧
    (∃ (s : State) (m : Nat), s.live = true ∧ (m = 1 ∨ m = 0x41)) ∧
    (∃ (s : State) (m : Nat), s.live = true ∧ m ≠ 1 ∧ m ≠ 0x41) ∧
    (∃ (s : State), s.live = true ∧ s.start.stage ≠ .rom ∧ s.start.stage ≠ .recovery) ∧
    (∃ (s : State), s.live = true ∧ s.start.stage = .recovery) ∧
    (∃ (s : State), s.start.rstPin = true) ∧
    (∃ (s : State), s.holdOver = true ∧ s.start.recoverNext = true) ∧
    (∃ (s : State), s.holdOver = true ∧ s.start.recoverNext = false ∧ s.keep.trial = false) :=
  ⟨⟨((State.reset.onStart fun x => { x with p48 := false })), by decide +kernel⟩,
   ⟨((State.reset.onStart fun x => { x with waitInput := true, hold := true })), by decide +kernel⟩,
   ⟨(State.reset), by decide +kernel⟩,
   ⟨(State.reset), 0x41, by decide +kernel⟩,
   ⟨(State.reset), 2, by decide +kernel⟩,
   ⟨((State.reset.onStart fun x => { x with stage := .running })), by decide +kernel⟩,
   ⟨((State.reset.onStart fun x => { x with stage := .recovery })), by decide +kernel⟩,
   ⟨((State.reset.onStart fun x => { x with rstPin := true, hold := true })), by decide +kernel⟩,
   ⟨((State.reset.onStart fun x => { x with hold := true, recoverNext := true })), by decide +kernel⟩,
   ⟨(State.reset), by decide +kernel⟩⟩

theorem test_meets_ImageTransfer :
    (∃ (s : State) (m : Nat), s.live = true ∧ m ≠ 1 ∧ m ≠ 0x41) ∧
    (∃ (s : State) (len : Nat), s.live = true ∧ s.img.state = .idle ∧ s.start.stage ≠ .recovery ∧ len ≤ 0x600000) ∧
    (∃ (s : State) (len : Nat), s.live = true ∧ s.img.state = .idle ∧ s.start.stage ≠ .recovery ∧ len ≤ 0x1800000) ∧
    (∃ (s : State) (typ : Nat), s.live = true ∧ s.img.state = .idle ∧ (typ = 0 ∨ 6 < typ)) ∧
    (∃ (s : State), s.live = true ∧ s.img.state = .erasing) ∧
    (∃ (s : State) (b : List (BitVec 8)), s.live = true ∧ s.img.state = .opened ∧ s.img.owner = 1 ∧ s.img.busy = false ∧ b = rdBytes
      s.img.buf 0 s.img.blkLen.toNat ∧ s.img.offset.toNat % 4096 = 0 ∧ s.img.offset.toNat < s.img.openLen ∧ s.img.blkLen.toNat = min
      4096 (s.img.openLen - s.img.offset.toNat) ∧ crc32c b = s.img.crc ∧ s.img.blocks.contains s.img.offset.toNat = false) ∧
    (∃ (s : State), s.live = true ∧ s.img.state = .opened ∧ s.img.owner = 1 ∧ s.img.busy = false ∧ s.img.offset.toNat % 4096 = 0 ∧
      s.img.offset.toNat < s.img.openLen ∧ s.img.blkLen.toNat = min 4096 (s.img.openLen - s.img.offset.toNat) ∧ crc32c (rdBytes
      s.img.buf 0 s.img.blkLen.toNat) ≠ s.img.crc) ∧
    (∃ (s : State), s.live = true) ∧
    (∃ (s : State), s.live = true ∧ s.img.state = .opened ∧ s.img.owner = 1 ∧ s.img.busy = false ∧ s.img.typ ≠ 3 ∧ s.img.blocks.length
      = blockCount s.img.openLen) ∧
    (∃ (s : State), s.live = true ∧ s.img.state = .opened ∧ s.img.owner = 1 ∧ s.img.busy = false ∧ s.img.typ = 3 ∧ s.img.blocks.length
      = blockCount s.img.openLen) ∧
    (∃ (s : State), s.live = true ∧ s.img.state = .opened ∧ s.img.owner = 1 ∧ s.img.busy = false ∧ s.img.blocks.length ≠ blockCount
      s.img.openLen) ∧
    (∃ (s : State), s.live = true ∧ s.img.state = .opened ∧ s.img.owner = 1) ∧
    (∃ (s : State), s.live = true ∧ s.img.state = .verifying ∧ 4 ≤ s.img.typ ∧ s.imageCode s.img.typ s.img.bytes ≠ 0) ∧
    (∃ (s : State), s.live = true ∧ s.img.state ≠ .verifying) :=
  ⟨⟨(State.reset), 2, by decide +kernel⟩,
   ⟨(State.reset), 0x600000, by decide +kernel⟩,
   ⟨(State.reset), 0x1800000, by decide +kernel⟩,
   ⟨(State.reset), 7, by decide +kernel⟩,
   ⟨({ State.reset with img := { state := .erasing } } : State), by decide +kernel⟩,
   ⟨({ State.reset with
     img := { state := .opened, owner := 1, openLen := 4098, offset := 4096, blkLen := 2, crc := crc32c [7, 0], buf := [(0, 7)] } } :
     State), ([7, 0] : List (BitVec 8)), by decide +kernel⟩,
   ⟨({ State.reset with
     img := { state := .opened, owner := 1, openLen := 4098, offset := 4096, blkLen := 2, crc := ~~~(crc32c [7, 0]), buf := [(0, 7)] }
       } : State), by decide +kernel⟩,
   ⟨({ State.reset with img := { busy := true } } : State), by decide +kernel⟩,
   ⟨({ State.reset with img := { state := .opened, owner := 1, typ := 4, openLen := 4097, blocks := [4096, 0] } } : State), by
     decide +kernel⟩,
   ⟨({ State.reset with img := { state := .opened, owner := 1, typ := 3, openLen := 4097, blocks := [4096, 0] } } : State), by
     decide +kernel⟩,
   ⟨({ State.reset with img := { state := .opened, owner := 1, typ := 3, openLen := 4097, blocks := [0] } } : State), by
     decide +kernel⟩,
   ⟨({ State.reset with img := { state := .opened, owner := 1, typ := 3, openLen := 4097, blocks := [0] } } : State), by
     decide +kernel⟩,
   ⟨({ State.reset with img := { state := .verifying, typ := 4 } } : State), by decide +kernel⟩,
   ⟨(State.reset), by decide +kernel⟩⟩

theorem test_meets_ImageEffects :
    (∃ (s : State), s.live = true ∧ s.img.state = .verifying ∧ s.img.typ = 6 ∧ s.bind.keys.wf = true) ∧
    (∃ (s : State), s.live = true ∧ s.img.state = .verifying ∧ s.img.typ = 1 ∧ s.start.stage ≠ .recovery) ∧
    (∃ (s : State), s.live = true ∧ s.img.state = .idle ∧ (s.keep.trial = false ∨ s.keep.bootSel ≠ s.start.fwCopy)) ∧
    (∃ (s : State), s.live = true ∧ s.img.state = .idle ∧ s.keep.trial = true ∧ s.keep.bootSel = s.start.fwCopy) ∧
    (∃ (s : State), s.live = true ∧ s.img.state = .verified ∧ s.img.typ = 4 ∧ s.img.committed = false ∧ u8 (s.img.bytes.drop 0x100) 0
      = 1) ∧
    (∃ (s : State), s.live = true ∧ s.img.state ≠ .verified) :=
  ⟨⟨({ State.reset with img := { state := .verifying, typ := 6 } } : State), by decide +kernel⟩,
   ⟨({ State.reset with img := { state := .verifying, typ := 1 } } : State), by decide +kernel⟩,
   ⟨(State.reset), by decide +kernel⟩,
   ⟨(State.reset.onKeep fun k => { k with trial := true }), by decide +kernel⟩,
   ⟨({ State.reset with img := { state := .verified, typ := 4, openLen := 0x102, data := [(0x100, 1), (0x101, 5)] } } : State), by
     decide +kernel⟩,
   ⟨(State.reset), by decide +kernel⟩⟩

theorem test_meets_ImageActivate :
    (∃ (s : State) (m : Nat), s.live = true ∧ (m = 1 ∨ m = 0x41) ∧ s.img.state = .verified ∧ s.img.typ = 1 ∧ s.keep.trial = false ∧
      (s.host.tdis.any fun e => e.2.noFwUpdate && (e.2.state == .locked || e.2.state == .run)) = false) ∧
    (∃ (s : State) (m : Nat), s.live = true ∧ (m = 1 ∨ m = 0x41) ∧ ¬ (s.img.state = .verified ∧ s.img.typ = 1) ∧ (s.img.state =
      .erasing ∨ s.img.state = .opened ∨ s.img.state = .verifying → s.img.owner = m)) ∧
    (∃ (s : State) (m : Nat), s.live = true ∧ (m = 1 ∨ m = 0x41) ∧ s.img.state = .verified ∧ s.img.typ = 1 ∧ s.keep.trial = true) ∧
    (∃ (s : State) (m : Nat), s.live = true ∧ (m = 1 ∨ m = 0x41) ∧ s.img.state = .verified ∧ s.img.typ = 1 ∧ s.keep.trial = false ∧
      (s.host.tdis.any fun e => e.2.noFwUpdate && (e.2.state == .locked || e.2.state == .run)) = true) ∧
    (∃ (s : State), s.holdOver = true ∧ s.start.recoverNext = false ∧ s.keep.trial = true ∧ s.keep.tries < 3 ∧ (if s.keep.bootSel then
      s.keep.lastBoundA else s.keep.lastBoundB) = false) :=
  ⟨⟨({ State.reset with img := { state := .verified, typ := 1, dest := true } } : State), 0x41, by decide +kernel⟩,
   ⟨({ State.reset with img := { state := .erasing, owner := 0x41 } } : State), 0x41, by decide +kernel⟩,
   ⟨({ State.reset with img := { state := .verified, typ := 1 }, keep := { trial := true } } : State), 1, by decide +kernel⟩,
   ⟨({ State.reset with img := { state := .verified, typ := 1 }, host := { tdis := [(8, { state := .locked, noFwUpdate := true })] } }
     : State), 1, by decide +kernel⟩,
   ⟨(State.reset.onKeep fun k => { k with trial := true, tries := 2 }), by decide +kernel⟩⟩

end Sys2Proof.Tests
end

/-! Register accesses by size and alignment (spec/05, R106 and R107): what an access does for each size, and what it leaves
unchanged. -/

namespace Sys2Proof.Machine

/-! ### REG_ERR -/

/-- REG_ERR is set in the copy of the masters that have one (R117). -/
theorem State.regErr_bus (s : State) (m i : Nat) :
    (s.regErr m i).bus = if m = 1 ∨ m = 0x41 ∨ (vfOf m).isSome = true
      then { s.bus with regErr := s.bus.regErr.upd m fun e => bitSet e i } else s.bus := by
  have hasCopy : ((m = idHostPf || (vfOf m).isSome || m = idTray) = true) ↔ (m = 1 ∨ m = 0x41 ∨ (vfOf m).isSome = true) := by
    rw [Bool.or_eq_true, Bool.or_eq_true, decide_eq_true_iff, decide_eq_true_iff, or_assoc, or_comm (b := m = idTray)]
    rfl
  unfold State.regErr
  simp only [State.count_bus, hasCopy]
  split <;> rfl

/-- The bus is no matter to the counters. -/
@[simp] theorem State.count_onBus_cnt (s : State) (f : Bus → Bus) (code : Nat) (ch act : Option Nat) (n : Nat) :
    ((s.onBus f).count code ch act n).cnt = (s.count code ch act n).cnt :=
  State.count_congr (s := s) (t := s.onBus f) rfl rfl rfl code ch act n

/-- An error of a register access is counted under its own code (R117). -/
theorem State.regErr_cnt (s : State) (m i : Nat) : (s.regErr m i).cnt = (s.count (0x10 + i) none none 1).cnt := by
  unfold State.regErr
  dsimp only
  split
  · exact s.count_onBus_cnt ..
  · rfl

/-! ### Where registers sit -/

theorem State.regAt_eq_none_of_misaligned (s : State) (m : Nat) {off : Nat} (h : off % 4 ≠ 0) : s.regAt m off = none := by
  unfold State.regAt
  split
  · exact if_pos h
  · exact if_pos h

/-! ### Accesses by size -/

/-- An access is performed at this size and offset (R106). -/
def AccessPerformed (size off : Nat) : Prop := (size = 4 ∧ off % 4 = 0) ∨ (size = 8 ∧ off % 8 = 0)

/-- An access of any other size or alignment is dropped, a read being answered with 0, and sets PARTIAL (R106). -/
theorem State.access_of_not_performed (s : State) (isRead : Bool) (m : Nat) {size off : Nat} (v : BitVec 64)
    (h : ¬ AccessPerformed size off) :
    s.access isRead m size off v = (if isRead then s.returns 0 else s).regErr m 1 := by
  unfold State.access
  refine if_pos ?_
  rw [Bool.not_eq_true', Bool.eq_false_iff, ne_eq, Bool.or_eq_true, Bool.and_eq_true, Bool.and_eq_true,
    beq_iff_eq, beq_iff_eq, beq_iff_eq, beq_iff_eq]
  exact h

theorem State.access_write_four (s : State) (m : Nat) {off : Nat} (v : BitVec 64) (h : off % 4 = 0) :
    s.access false m 4 off v = s.write4 m off (v.setWidth 32) := by
  simp [State.access, h]

theorem State.access_read_four (s : State) (m : Nat) {off : Nat} (v : BitVec 64) (h : off % 4 = 0) :
    s.access true m 4 off v = (s.read4 m off).2.returns (s.read4 m off).1 := by
  simp [State.access, h]

/-- An 8-byte write is its lower word and then its upper word (R107). -/
theorem State.access_write_eight (s : State) (m : Nat) {off : Nat} (v : BitVec 64) (h : off % 8 = 0) :
    s.access false m 8 off v =
      (s.write4 m off (v.setWidth 32)).write4 m (off + 4) ((v >>> 32).setWidth 32) := by
  simp [State.access, h]

/-- An 8-byte read is its lower word and then its upper word, the lower being the less significant half (R106, R107). -/
theorem State.access_read_eight (s : State) (m : Nat) {off : Nat} (v : BitVec 64) (h : off % 8 = 0) :
    s.access true m 8 off v = ((s.read4 m off).2.read4 m (off + 4)).2.returns
      ((s.read4 m off).1 + 2 ^ 32 * ((s.read4 m off).2.read4 m (off + 4)).1) := by
  simp [State.access, h]

/-- A live module performs a register access that R353 does not refuse, and settles its interrupts. -/
theorem exec_registerWrite {s : State} {m : Nat} {tee : Bool} (hl : s.live = true) (ht : s.nonTee m tee = false)
    (isRead : Bool) (size off : Nat) (v : BitVec 64) :
    exec (.registerWrite isRead tee m size off v) s = .next (commit (s.access isRead m size off v)) := by
  change execRegisterWrite isRead tee m size off v s = _
  simp [execRegisterWrite, State.regAccess, hl, ht]

/-- The end of an access that is not performed: PARTIAL, bit 1, is set and counted, and nothing but the bus and the counters
changes. -/
theorem commit_partial_frame (s : State) (m : Nat) :
    OnlyIn [.bus, .cnt] s (commit (s.regErr m 1)) ∧ (commit (s.regErr m 1)).cnt = (s.count 0x11 none none 1).cnt ∧
      (commit (s.regErr m 1)).bus = if m = 1 ∨ m = 0x41 ∨ (vfOf m).isSome = true
        then { s.bus with regErr := s.bus.regErr.upd m fun e => e ||| 2#7 } else s.bus := by
  refine ⟨onlyIn_commit (onlyIn_regErr m 1 (by decide) (by decide)), ?_, ?_⟩
  · rw [commit_cnt, State.regErr_cnt]
  · rw [commit_bus, State.regErr_bus]
    rfl

/-- Settles O16: the register maps hold nothing at a misaligned offset; an access that is not performed reduces to setting
PARTIAL, and one that is performed to its 32-bit accesses. -/
theorem registerSizes : Obligations.RegisterSizes := by
  unfold Obligations.RegisterSizes
  refine ⟨fun s m off h => s.regAt_eq_none_of_misaligned m h, ?droppedWrite, ?droppedRead, ?fourBytes, ?eightBytes⟩
  case droppedWrite =>
    intro s tee m size off v hl ht h4 h8
    have hdrop := s.access_of_not_performed false m v (not_or.2 ⟨h4, h8⟩)
    exact ⟨_, (exec_registerWrite hl ht ..).trans (by rw [hdrop]; rfl), commit_partial_frame s m⟩
  case droppedRead =>
    intro s tee m size off v hl ht h4 h8
    have hdrop := s.access_of_not_performed true m v (not_or.2 ⟨h4, h8⟩)
    obtain ⟨honly, hcnt, hbus⟩ := commit_partial_frame (s.returns 0) m
    exact ⟨_, (exec_registerWrite hl ht ..).trans (by rw [hdrop]; rfl), onlyIn_trans (onlyIn_onBus _ (by decide)) honly,
      hcnt.trans (s.count_onBus_cnt ..), hbus⟩
  case fourBytes =>
    intro s tee m off v hl ht h
    rw [exec_registerWrite hl ht, exec_registerWrite hl ht, s.access_write_four m v h, s.access_read_four m v h]
    exact ⟨rfl, rfl⟩
  case eightBytes =>
    intro s tee m off v hl ht h
    rw [exec_registerWrite hl ht, exec_registerWrite hl ht, s.access_write_eight m v h, s.access_read_eight m v h]
    exact ⟨rfl, rfl⟩

end Sys2Proof.Machine

/-! Element packing (spec/08, R171 and R4): the elements of a format whose width is `w` whole bytes are the little-endian fields at
the multiples of `w`; those of a 4-bit format are the halves of the bytes. A plane in the scratchpad is read as its bytes are. -/

namespace Sys2Proof.Machine

/-! ### Little-endian fields -/

theorem u8_append_right (a b : List Byte) (o : Nat) : u8 (a ++ b) (a.length + o) = u8 b o := by
  have hbyte : (a ++ b)[a.length + o]? = b[o]? := by
    rw [List.getElem?_append_right (Nat.le_add_right ..), Nat.add_sub_cancel_left]
  rw [u8, u8, byteAt, byteAt, List.getD_eq_getElem?_getD, List.getD_eq_getElem?_getD, hbyte]

theorem u8_ofNat_cons (v : Nat) (b : List Byte) : u8 (BitVec.ofNat 8 v :: b) 0 = v % 256 := BitVec.toNat_ofNat v 8

/-- A field depends only on its own bytes. -/
theorem leField_congr {b c : List Byte} {o p n : Nat} (h : ∀ k < n, u8 b (o + k) = u8 c (p + k)) :
    leField b o n = leField c p n := by
  induction n generalizing o p with
  | zero => rfl
  | succ n ih =>
    have hfirst : u8 b o = u8 c p := h 0 n.succ_pos
    have hrest : leField b (o + 1) n = leField c (p + 1) n :=
      ih fun k hk => by simpa only [Nat.add_assoc, Nat.add_comm 1 k] using h (k + 1) (by omega)
    rw [leField, leField, hfirst, hrest]

theorem leField_append_right (a b : List Byte) (o n : Nat) : leField (a ++ b) (a.length + o) n = leField b o n :=
  leField_congr fun k _ => by rw [Nat.add_assoc, u8_append_right]

@[simp] theorem length_toLe (n v : Nat) : (toLe n v).length = n := by
  induction n generalizing v with
  | zero => rfl
  | succ n ih => rw [toLe, List.length_cons, ih]

/-- A number written in little-endian bytes is read back (R4). -/
theorem leField_toLe_append {n v : Nat} (h : v < 256 ^ n) (b : List Byte) : leField (toLe n v ++ b) 0 n = v := by
  induction n generalizing v with
  | zero => exact (Nat.lt_one_iff.1 h).symm
  | succ n ih =>
    have hhigh : leField (toLe (n + 1) v ++ b) 1 n = v / 256 :=
      (leField_append_right [BitVec.ofNat 8 v] (toLe n (v / 256) ++ b) 0 n).trans
        (ih (Nat.div_lt_of_lt_mul (by rwa [Nat.pow_succ'] at h)))
    have hlow : u8 (toLe (n + 1) v ++ b) 0 = v % 256 := u8_ofNat_cons ..
    rw [leField, hlow, hhigh, Nat.mod_add_div]

theorem leField_one (b : List Byte) (o : Nat) : leField b o 1 = u8 b o := by simp [leField]

theorem u16_eq (b : List Byte) (o : Nat) : u16 b o = u8 b o + 256 * u8 b (o + 1) := by simp [u16, leField]

theorem u32_eq (b : List Byte) (o : Nat) :
    u32 b o = u8 b o + 256 * u8 b (o + 1) + 65536 * u8 b (o + 2) + 16777216 * u8 b (o + 3) := by
  simp only [u32, leField, Nat.add_assoc, Nat.reduceAdd]
  omega

/-! ### Elements of a plane of bytes -/

theorem elemBits_cases (f : Nat) : elemBits f = 4 ∨ elemBits f = 8 ∨ elemBits f = 16 ∨ elemBits f = 32 := by
  unfold elemBits
  split <;> decide

/-- A format's elements are 4 bits wide or a number of whole bytes (R169). -/
theorem elemBits_eq_four_or_wholeBytes (f : Nat) : elemBits f = 4 ∨ ∃ w, elemBits f = 8 * w := by
  obtain h4 | h8 | h16 | h32 := elemBits_cases f
  · exact .inl h4
  · exact .inr ⟨1, h8⟩
  · exact .inr ⟨2, h16⟩
  · exact .inr ⟨4, h32⟩

section WholeBytes
variable {f w : Nat} (hw : elemBits f = 8 * w)
include hw

theorem elemWidth_cases : w = 1 ∨ w = 2 ∨ w = 4 := by
  have hbits := elemBits_cases f
  omega

theorem elemRaw_of_wholeBytes (b : List Byte) (i : Nat) : elemRaw f b i = leField b (w * i) w := by
  obtain rfl | rfl | rfl := elemWidth_cases hw
  · simp [elemRaw, hw, leField_one]
  · simp [elemRaw, hw, u16]
  · simp [elemRaw, hw, u32]

theorem State.rawAt_of_wholeBytes (s : State) (ch base i : Nat) :
    s.rawAt ch f base i = leField (s.spGet ch (base + w * i) w) 0 w := by
  obtain rfl | rfl | rfl := elemWidth_cases hw
  · simp [State.rawAt, hw, leField_one]
  · simp [State.rawAt, hw, u16]
  · simp [State.rawAt, hw, u32]

theorem packElems_cons_of_wholeBytes (x : Nat) (xs : List Nat) : packElems f (x :: xs) = toLe w x ++ packElems f xs := by
  cases xs with
  | nil =>
    have hone : elemBytes f 1 = w := by unfold elemBytes; omega
    simp [packElems, hone]
  | cons y r =>
    have hwidth : elemBits f / 8 = w := by omega
    rw [packElems, if_neg (by omega), hwidth]

end WholeBytes

section Nibbles
variable {f : Nat} (h4 : elemBits f = 4)
include h4

theorem elemRaw_of_nibbles (b : List Byte) (i : Nat) :
    elemRaw f b i = if i % 2 = 0 then u8 b (i / 2) % 16 else u8 b (i / 2) / 16 := by
  simp only [elemRaw, h4]

theorem State.rawAt_of_nibbles (s : State) (ch base i : Nat) :
    s.rawAt ch f base i = if i % 2 = 0 then u8 (s.spGet ch (base + i / 2) 1) 0 % 16 else u8 (s.spGet ch (base + i / 2) 1) 0 / 16 := by
  simp only [State.rawAt, h4]

theorem elemRaw_even (b : List Byte) (i : Nat) : elemRaw f b (2 * i) = u8 b i % 16 := by
  simp [elemRaw_of_nibbles h4]

theorem elemRaw_odd (b : List Byte) (i : Nat) : elemRaw f b (2 * i + 1) = u8 b i / 16 := by
  have hhalf : (2 * i + 1) / 2 = i := by omega
  simp [elemRaw_of_nibbles h4, hhalf]

/-- The first byte holds the first two elements. -/
theorem elemRaw_cons_add_two (x : Byte) (b : List Byte) (i : Nat) : elemRaw f (x :: b) (i + 2) = elemRaw f b i := by
  simp [elemRaw_of_nibbles h4, u8, byteAt]

end Nibbles

/-! ### Planes in the scratchpad -/

/-- Within a window, keys run with the addresses. -/
theorem spKey_add {addr k : Nat} (ch : Nat) (h : addr + k < 0x2000000) : spKey ch (addr + k) = spKey ch addr + k := by
  unfold spKey
  omega

theorem State.u8_spGet (s : State) (ch addr : Nat) {n k : Nat} (h : k < n) :
    u8 (s.spGet ch addr n) k = (Tab.get s.spad.mem (spKey ch addr + k)).toNat := by
  simp [u8, byteAt, State.spGet, rdBytes, List.getD_eq_getElem?_getD, h]

/-- Bytes read from inside a range are that range's bytes. -/
theorem State.u8_spGet_within (s : State) (ch : Nat) {base o n m k : Nat} (hn : base + n ≤ 0x2000000) (hk : k < m) (ho : o + k < n) :
    u8 (s.spGet ch (base + o) m) k = u8 (s.spGet ch base n) (o + k) := by
  rw [s.u8_spGet ch _ hk, s.u8_spGet ch _ ho, spKey_add ch (by omega), Nat.add_assoc]

/-- An element read where it lies in the scratchpad is that element of the plane's bytes (R171). -/
theorem State.rawAt_eq_elemRaw (s : State) (ch : Nat) {f base i n : Nat} (hi : elemBytes f (i + 1) ≤ n)
    (hn : base + n ≤ 0x2000000) : s.rawAt ch f base i = elemRaw f (s.spGet ch base n) i := by
  unfold elemBytes at hi
  obtain h4 | ⟨w, hw⟩ := elemBits_eq_four_or_wholeBytes f
  · rw [h4] at hi
    have hbyte := s.u8_spGet_within ch (o := i / 2) hn Nat.one_pos (by omega)
    rw [s.rawAt_of_nibbles h4, elemRaw_of_nibbles h4, hbyte, Nat.add_zero]
  · rw [hw, Nat.mul_add_one, Nat.mul_assoc] at hi
    rw [s.rawAt_of_wholeBytes hw, elemRaw_of_wholeBytes hw]
    exact leField_congr fun k hk => by rw [Nat.zero_add, s.u8_spGet_within ch hn hk (by omega)]

/-! ### Packing -/

/-- 4-bit elements packed into bytes are read back. -/
theorem elemRaw_packElems_of_nibbles {f : Nat} (h4 : elemBits f = 4) (xs : List Nat) (hxs : ∀ x ∈ xs, x < 16) (i : Nat)
    (hi : i < xs.length) : elemRaw f (packElems f xs) i = xs.getD i 0 := by
  induction xs using packElems.induct (f := f) generalizing i with
  | case1 => simp at hi
  | case2 x =>
    obtain rfl : i = 0 := by simpa using hi
    have hx : x < 16 := hxs x List.mem_cons_self
    have hbyte : packElems f [x] = [BitVec.ofNat 8 x] := by simp [packElems, elemBytes, h4, toLe]
    rw [hbyte, elemRaw_even h4 _ 0, u8_ofNat_cons, List.getD_cons_zero]
    omega
  | case3 x y r _ ih =>
    have hx : x < 16 := hxs x List.mem_cons_self
    have hy : y < 16 := hxs y (List.mem_cons_of_mem x List.mem_cons_self)
    have hbyte : u8 (packElems f (x :: y :: r)) 0 = x + 16 * y := by
      rw [packElems, if_pos h4, u8_ofNat_cons]
      omega
    match i with
    | 0 => rw [elemRaw_even h4 _ 0, hbyte, List.getD_cons_zero]; omega
    | 1 => rw [elemRaw_odd h4 _ 0, hbyte, List.getD_cons_succ, List.getD_cons_zero]; omega
    | i + 2 =>
      rw [packElems, if_pos h4, elemRaw_cons_add_two h4]
      exact ih (fun z hz => hxs z (List.mem_cons_of_mem x (List.mem_cons_of_mem y hz))) i (by simpa using hi)
  | case4 x y r hne => exact absurd h4 hne

theorem elemRaw_packElems_of_wholeBytes {f w : Nat} (hw : elemBits f = 8 * w) (xs : List Nat) (hxs : ∀ x ∈ xs, x < 256 ^ w) (i : Nat)
    (hi : i < xs.length) : elemRaw f (packElems f xs) i = xs.getD i 0 := by
  rw [elemRaw_of_wholeBytes hw]
  induction xs generalizing i with
  | nil => simp at hi
  | cons x xs ih =>
    rw [packElems_cons_of_wholeBytes hw]
    cases i with
    | zero => exact leField_toLe_append (hxs x List.mem_cons_self) _
    | succ i =>
      have hskip := leField_append_right (toLe w x) (packElems f xs) (w * i) w
      rw [length_toLe] at hskip
      rw [Nat.mul_add_one, Nat.add_comm, hskip]
      exact ih (fun y hy => hxs y (List.mem_cons_of_mem x hy)) i (Nat.lt_of_succ_lt_succ hi)

/-- Settles O7: the halves of the bytes and their little-endian fields (R171), the reads in place, and the packing by width. -/
theorem elementPacking : Obligations.ElementPacking := by
  unfold Obligations.ElementPacking
  refine ⟨fun f i b h4 => ⟨elemRaw_even h4 b i, elemRaw_odd h4 b i⟩, ?sixteenBits, ?thirtyTwoBits, ?eightBits,
    fun s ch f base i n hi hn => s.rawAt_eq_elemRaw ch hi hn, ?readBack⟩
  case sixteenBits =>
    intro f i b h16
    exact (elemRaw_of_wholeBytes (w := 2) h16 b i).trans (u16_eq b (2 * i))
  case thirtyTwoBits =>
    intro f i b h32
    exact (elemRaw_of_wholeBytes (w := 4) h32 b i).trans (u32_eq b (4 * i))
  case eightBits =>
    intro f i b h8
    rw [elemRaw_of_wholeBytes (w := 1) h8, leField_one, Nat.one_mul]
  case readBack =>
    intro f xs i hxs hi
    obtain h4 | ⟨w, hw⟩ := elemBits_eq_four_or_wholeBytes f
    · exact elemRaw_packElems_of_nibbles h4 xs (by rwa [h4] at hxs) i hi
    · exact elemRaw_packElems_of_wholeBytes hw xs (by rwa [hw, Nat.pow_mul] at hxs) i hi

end Sys2Proof.Machine

/-! The serve tags of a lender (spec/15, R335; spec/17, R381): what clearing tags does to each slot, which operations of the ring and of
the tiers leave the tags alone, and the three ways in which a borrower's tags go: REVOKE, RING_EVENT ABSENT, and IDENT with a new
COLD_COUNT. -/

namespace Sys2Proof.Machine

/-! ### Updating every entry of a table -/

section Tables

variable {α : Type} [Inhabited α]

/-- A key that is not listed reads as the default, in a table of any form. -/
theorem Tab.get_of_notMem_keys {k : Nat} : ∀ {t : Tab α}, k ∉ t.map (·.1) → t.get k = default
  | [], _ => rfl
  | (j, v) :: r, h => by
    rw [List.map_cons, List.mem_cons, not_or] at h
    obtain ⟨hne, hr⟩ := h
    rw [Tab.get, if_neg hne, Tab.get_of_notMem_keys hr, ite_self]

variable [DecidableEq α]

theorem Tab.get_updAll {f : Nat → α → α} (hidem : ∀ k x, f k (f k x) = f k x) (j : Nat) :
    ∀ (ks : List Nat) {t : Tab α}, t.wf = true → (t.updAll ks f).get j = if j ∈ ks then f j (t.get j) else t.get j
  | [], _, _ => by simp [Tab.updAll]
  | k :: ks, t, w => by
    have ih := Tab.get_updAll hidem j ks (Tab.wf_upd t w k (f k))
    rw [Tab.get_upd t w] at ih
    refine Eq.trans ih ?_
    by_cases hj : j = k
    · subst hj
      simp [hidem]
    · simp [hj]

/-- Where the update keeps the default, updating the listed entries updates what every key reads. -/
theorem Tab.get_updAll_keys {f : α → α} (hidem : ∀ x, f (f x) = f x) (hdefault : f default = default) {t : Tab α}
    (w : t.wf = true) (j : Nat) : (t.updAll (t.map (·.1)) fun _ => f).get j = f (t.get j) := by
  rw [Tab.get_updAll (fun _ => hidem) j _ w]
  split
  · rfl
  next hj => rw [Tab.get_of_notMem_keys hj, hdefault]

end Tables

/-! ### Clearing tags -/

/-- What becomes of a serve slot when the tags that a test does not keep are cleared: its generation stays (R335). -/
def ServeSlot.clearUnless (keep : ServeSlot → Bool) (g : ServeSlot) : ServeSlot := if keep g then g else { gen := g.gen }

section Clearing

variable {keep : ServeSlot → Bool} {g : ServeSlot}

theorem ServeSlot.clearUnless_of_keep (h : keep g = true) : g.clearUnless keep = g := if_pos h

theorem ServeSlot.clearUnless_of_not_keep (h : keep g = false) : g.clearUnless keep = { gen := g.gen } :=
  if_neg (Bool.eq_false_iff.1 h)

/-- A slot that is still tagged was kept. -/
theorem ServeSlot.keep_of_used_clearUnless (h : (g.clearUnless keep).used = true) : keep g = true := by
  cases hk : keep g with
  | true => rfl
  | false =>
    rw [ServeSlot.clearUnless_of_not_keep hk] at h
    exact absurd h Bool.false_ne_true

theorem ServeSlot.clearUnless_idem (keep : ServeSlot → Bool) (g : ServeSlot) :
    (g.clearUnless keep).clearUnless keep = g.clearUnless keep := by
  cases hk : keep g with
  | true => rw [ServeSlot.clearUnless_of_keep hk, ServeSlot.clearUnless_of_keep hk]
  | false =>
    rw [ServeSlot.clearUnless_of_not_keep hk]
    exact ite_self _

theorem ServeSlot.clearUnless_default (keep : ServeSlot → Bool) : (default : ServeSlot).clearUnless keep = default :=
  ite_self _

variable {s t : State}

/-- Clearing tags does to each slot of the serve space what it does to one. -/
theorem State.clearTags_get (w : s.ring.serve.wf = true) (keep : ServeSlot → Bool) (i : Nat) :
    (s.clearTags keep).ring.serve.get i = (s.ring.serve.get i).clearUnless keep :=
  Tab.get_updAll_keys (ServeSlot.clearUnless_idem keep) (ServeSlot.clearUnless_default keep) w i

/-- A slot that is still tagged after a clearing stands as it was, and passes the test. -/
theorem State.keep_of_used_clearTags (w : s.ring.serve.wf = true) {i : Nat}
    (h : ((s.clearTags keep).ring.serve.get i).used = true) : keep ((s.clearTags keep).ring.serve.get i) = true := by
  rw [State.clearTags_get w] at h ⊢
  have hk := ServeSlot.keep_of_used_clearUnless h
  rwa [ServeSlot.clearUnless_of_keep hk]

theorem State.clearTags_serve_congr (h : t.ring.serve = s.ring.serve) (keep : ServeSlot → Bool) :
    (t.clearTags keep).ring.serve = (s.clearTags keep).ring.serve := by
  simp only [State.clearTags, State.onRing_ring, h]

end Clearing

/-! ### What leaves the tags alone: frames sent, and what a lost tier site does -/

theorem State.serve_foldl {α : Type} {f : State → α → State} (h : ∀ s x, (f s x).ring.serve = s.ring.serve) (l : List α)
    (s : State) : (l.foldl f s).ring.serve = s.ring.serve := by
  induction l generalizing s with
  | nil => rfl
  | cons x l ih => exact (ih (f s x)).trans (h s x)

section Untouched

variable (s : State)

@[simp] theorem State.evRport_serve (p i : Nat) (act : Option Nat) : (s.evRport p i act).ring.serve = s.ring.serve := by
  rw [State.evRport, State.count_ring, State.onRing_ring]

@[simp] theorem State.frameOut_serve (p : Nat) (f : RFrame) : (s.frameOut p f).ring.serve = s.ring.serve := by
  unfold State.frameOut
  dsimp only
  split <;> rfl

@[simp] theorem State.broadcast_serve (typ : Nat) (b : List Byte) : (s.broadcast typ b).ring.serve = s.ring.serve := by
  unfold State.broadcast
  refine State.serve_foldl (fun s p => ?_) _ s
  split
  · exact s.frameOut_serve ..
  · rfl

@[simp] theorem State.sendLinkReport_serve : s.sendLinkReport.ring.serve = s.ring.serve := by
  unfold State.sendLinkReport
  split
  · rfl
  · simp only [State.onRing_ring, State.broadcast_serve]

@[simp] theorem State.sendDelay_serve (p : Nat) : (s.sendDelay p).ring.serve = s.ring.serve := by
  rw [State.sendDelay, State.linkMsg, State.frameOut_serve]

@[simp] theorem State.laneSend_serve (lane dest typ : Nat) (b : List Byte) :
    (s.laneSend lane dest typ b).ring.serve = s.ring.serve := by
  unfold State.laneSend
  split
  · rfl
  · split
    · exact s.frameOut_serve ..
    · rfl

@[simp] theorem State.tierFree_serve (t : Tier) (k site slot : Nat) : (s.tierFree t k site slot).ring.serve = s.ring.serve := by
  unfold State.tierFree
  dsimp only
  split
  · split
    · exact State.laneSend_serve ..
    · rfl
  · rfl

@[simp] theorem State.evLeaf_ring (i : Nat) (act : Option Nat) : (s.evLeaf i act).ring = s.ring := by
  rw [State.evLeaf, State.count_ring, State.onLeaf_ring]

@[simp] theorem State.onLeafE_ring (l : Nat) (f : LeafEntry → LeafEntry) : (s.onLeafE l f).ring = s.ring := rfl

@[simp] theorem State.xferDrop_ring (l : Nat) : (s.xferDrop l).ring = s.ring := rfl

@[simp] theorem State.leafLose_serve (l : Nat) : (s.leafLose l).ring.serve = s.ring.serve := by
  rw [State.leafLose, State.evLeaf_ring, State.onLeafE_ring, State.xferDrop_ring]
  split
  · rfl
  · exact s.tierFree_serve ..

@[simp] theorem State.spillAbandon_serve (l : Nat) : (s.spillAbandon l).ring.serve = s.ring.serve := by
  unfold State.spillAbandon
  split
  · split
    · rfl
    · exact s.tierFree_serve ..
  · rfl

@[simp] theorem State.spillEnd_serve (l ack : Nat) : (s.spillEnd l ack).ring.serve = s.ring.serve := by
  unfold State.spillEnd
  split
  · rfl
  · split
    · rfl
    · split
      · rw [State.evLeaf_ring, State.onLeaf_ring, State.spillAbandon_serve]
      · split
        · exact s.spillAbandon_serve l
        · rfl

@[simp] theorem State.tierLost_serve (t : Tier) (site : Nat) (k : Option Nat) :
    (s.tierLost t site k).ring.serve = s.ring.serve := by
  unfold State.tierLost
  refine State.serve_foldl (fun s e => ?_) _ s
  split
  · rfl
  · split
    · exact s.leafLose_serve e.1
    · split
      · split
        · exact s.spillEnd_serve ..
        · rfl
      · rfl

@[simp] theorem State.pairUpdate_ring : s.pairUpdate.ring = s.ring := onlyIn_pairUpdate.rest .ring (by decide)

end Untouched

/-! ### The commands -/

section Commands

variable {s : State}

/-- A member that takes another for ABSENT clears its tags, and no others (R335). -/
theorem State.takeAbsent_serve {m : Nat} (h : m ≠ s.memberIdx) :
    (s.takeAbsent m).ring.serve = (s.clearTags fun g => !(g.used && g.member == m)).ring.serve := by
  unfold State.takeAbsent
  dsimp only
  rw [if_neg h, State.pairUpdate_ring]
  exact State.clearTags_serve_congr ((s.onPair _).tierLost_serve ..) _

/-- An IDENT of a ring member clears the tags that the member took under another COLD_COUNT, and no others (R335). -/
theorem State.identEff_serve {p r f x c : Nat} {a : List Byte} {m : NetMember} (ht : (s.rport p).state = .train)
    (hl : (s.rport p).locked = true) (hm : (s.b.netw.members.find? fun y => y.accession == a) = some m) :
    (s.identEff p a r f x c).ring.serve =
      (s.clearTags fun g => !(g.used && g.member == m.index && g.coldCount != c)).ring.serve := by
  have hready : ¬ (!((s.rport p).state == .train && (s.rport p).locked)) = true := by simp [ht, hl]
  unfold State.identEff
  extract_lets _ far s1 s2
  have hs1 : s1.ring.serve = s.ring.serve := by
    unfold s1
    split
    · rfl
    · rw [State.evRport_serve]
      rfl
  rw [if_neg hready, State.sendLinkReport_serve, State.sendDelay_serve]
  unfold s2
  rw [hm]
  dsimp only
  split
  · rw [State.tierLost_serve]
    exact State.clearTags_serve_congr hs1 _
  · exact State.clearTags_serve_congr hs1 _

theorem exec_revoke (hl : s.live = true) (hm : s.isMember = true) (m : Fin 6) (k n : Nat) :
    exec (.revoke m k n) s =
      .next (commit (s.clearTags fun g => !(g.used && g.member == m.val && g.tenant == k))) := by
  change execRevoke m.val k n s = _
  simp [execRevoke, hl, hm]

/-- A lane's SPILL_FREE of a slot tagged with its sender and tenant (R335). -/
theorem exec_spillFree {l : Fin 32} {m : Fin 6} {i k : Nat} (hl : s.live = true) (hm : s.isMember = true)
    (hr : (s.b.routeOf l).isSome = true) (hu : (s.ring.serve.get i).used = true)
    (hb : (s.ring.serve.get i).member = m.val) (hk : (s.ring.serve.get i).tenant = k) :
    exec (.spillFree l m i k) s =
      .next (commit (s.onRing fun r => { r with serve := r.serve.set i { gen := (s.ring.serve.get i).gen } })) := by
  have hroute : (s.b.routeOf l).isNone = false := Option.isNone_eq_false_iff.2 hr
  change execSpillFree l.val m.val i k s = _
  simp [execSpillFree, State.spillFreeEff, State.onLane, hl, hm, hroute, hu, hb, hk]

theorem exec_ringEvent_absent {m : Fin 6} (hl : s.live = true) (hm : s.isMember = true)
    (hrec : (s.b.memberRec m).isSome = true) (hrole : s.tick.role = .follower) (n : Nat) :
    exec (.ringEvent 0 m n) s = .next (commit (s.takeAbsent m.val)) := by
  have hmember : (s.b.memberRec m).isNone = false := Option.isNone_eq_false_iff.2 hrec
  change execRingEvent 0 m.val n s = _
  simp [execRingEvent, State.ringEventEff, hl, hm, hmember, hrole]

theorem exec_ident (hl : s.live = true) (p : Fin 2) (a : List Byte) (r f x g c : Nat) :
    exec (.ident p a r f x g c) s = .next (commit (s.identEff p a r f x c)) := by
  change execIdent p.val a r f x g c s = _
  simp [execIdent, hl]

end Commands

/-! ### R381 -/

/-- REVOKE leaves each slot it clears as a SPILL_FREE of that slot would, and every other slot as it was. -/
theorem revoke_serve_get {s t : State} {m : Fin 6} {k n : Nat} (hl : s.live = true) (hm : s.isMember = true)
    (w : s.ring.serve.wf = true) (ht : exec (.revoke m k n) s = .next t) (i : Nat) :
    if (s.ring.serve.get i).used = true ∧ (s.ring.serve.get i).member = m.val ∧ (s.ring.serve.get i).tenant = k
      then ∀ (l : Fin 32) (u : State), (s.b.routeOf l).isSome = true → exec (.spillFree l m i k) s = .next u →
        t.ring.serve.get i = u.ring.serve.get i ∧ (t.ring.serve.get i).used = false
      else t.ring.serve.get i = s.ring.serve.get i := by
  rw [exec_revoke hl hm] at ht
  obtain rfl := Host.Outcome.next.inj ht
  rw [commit_ring, State.clearTags_get w]
  split
  next h =>
    obtain ⟨hu, hb, hk⟩ := h
    intro l u hr hfree
    rw [exec_spillFree hl hm hr hu hb hk] at hfree
    obtain rfl := Host.Outcome.next.inj hfree
    rw [ServeSlot.clearUnless_of_not_keep (by simp [hu, hb, hk]), commit_ring, State.onRing_ring, Tab.get_set _ w, if_pos rfl]
    exact ⟨rfl, rfl⟩
  next h =>
    refine ServeSlot.clearUnless_of_keep ?_
    rw [Bool.not_eq_true', Bool.eq_false_iff, ne_eq, Bool.and_eq_true, Bool.and_eq_true, beq_iff_eq, beq_iff_eq, and_assoc]
    exact h

/-- Settles O9: REVOKE is one clearing of the serve tags, compared slot by slot with SPILL_FREE; what is still tagged after the clearing
at RING_EVENT ABSENT or at IDENT passed its test. -/
theorem revokeClearsTags : Obligations.RevokeClearsTags := by
  unfold Obligations.RevokeClearsTags
  refine ⟨?revoke, ?absent, ?newColdCount⟩
  case revoke =>
    intro s m k n hl hm w
    have ht := exec_revoke hl hm m k n
    exact ⟨_, ht, onlyIn_commit (onlyIn_onRing _ (by decide)), rfl, rfl, revoke_serve_get hl hm w ht⟩
  case absent =>
    intro s m n hl hm hrec hrole hother w
    refine ⟨_, exec_ringEvent_absent hl hm hrec hrole n, fun i hu => ?_⟩
    rw [commit_ring, State.takeAbsent_serve hother] at hu ⊢
    have hkept := State.keep_of_used_clearTags w hu
    generalize (s.clearTags _).ring.serve.get i = g at hkept hu ⊢
    simpa [hu] using hkept
  case newColdCount =>
    intro s p a r f x g c m hl ht hlock hfind w
    refine ⟨_, exec_ident hl p a r f x g c, fun i hu hb => ?_⟩
    rw [commit_ring, State.identEff_serve ht hlock hfind] at hu hb ⊢
    have hkept := State.keep_of_used_clearTags w hu
    generalize (s.clearTags _).ring.serve.get i = g at hkept hu hb ⊢
    simpa [hu, hb] using hkept

end Sys2Proof.Machine

/-! ACTIVATE and the start in trial (spec/23, R475, R481, R482, R488): the one write that ACTIVATE makes, and that the next start runs
the copy it selected. Along a start the few values that decide this are followed (`Boot`); most of what a cold bind does lies outside the
two parts that hold them. -/

namespace Sys2Proof.Machine

/-! ### ACTIVATE -/

/-- A master of the transfer has its command taken unless another master's transfer is in hand (R489). -/
theorem State.imgCmd_of_taken {s : State} {m : Nat} (hm : m = 1 ∨ m = 0x41)
    (howner : s.img.state = .erasing ∨ s.img.state = .opened ∨ s.img.state = .verifying → s.img.owner = m) (f : State → State) :
    s.imgCmd m f = f s := by
  have hmaster : (m == idHostPf || m == idTray) = true := by rcases hm with rfl | rfl <;> rfl
  have hfree : ¬ ((s.img.state == .erasing || s.img.state == .opened || s.img.state == .verifying) && s.img.owner != m) = true := by
    simpa [or_assoc] using howner
  unfold State.imgCmd
  rw [hmaster]
  exact if_neg hfree

theorem exec_imgActivate {s : State} (hl : s.live = true) (m : Nat) :
    exec (.imgActivate m) s = .next (commit (s.imgActivateEff m)) := by
  change execImgActivate m s = _
  simp [execImgActivate, hl]

section Activate

variable {s : State} {m : Nat} (hm : m = 1 ∨ m = 0x41)
include hm

theorem State.imgActivateEff_of_not_verified (h : ¬ (s.img.state = .verified ∧ s.img.typ = 1))
    (howner : s.img.state = .erasing ∨ s.img.state = .opened ∨ s.img.state = .verifying → s.img.owner = m) :
    s.imgActivateEff m = s.imgDone 0x0E id := by
  unfold State.imgActivateEff
  rw [State.imgCmd_of_taken hm howner]
  refine if_pos ?_
  rw [Bool.not_eq_true', Bool.eq_false_iff, ne_eq, Bool.and_eq_true, beq_iff_eq, beq_iff_eq]
  exact h

/-- Of a verified FIRMWARE image, what is left to ask is TRIAL and the TDIs that hold NO_FW_UPDATE (R488). -/
theorem State.imgActivateEff_of_verified (hv : s.img.state = .verified) (ht : s.img.typ = 1) :
    s.imgActivateEff m = if s.keep.trial then s.imgDone 1 id
      else if (s.host.tdis.any fun e => e.2.noFwUpdate && (e.2.state == .locked || e.2.state == .run)) then s.imgDone 0x0D id
      else (s.imgDone 0 id).onKeep fun k => { k with bootSel := s.img.dest, trial := true, tries := 0 } := by
  unfold State.imgActivateEff
  rw [State.imgCmd_of_taken hm (by simp [hv])]
  exact if_neg (by simp [hv, ht])

end Activate

/-! ### What a start keeps -/

/-- The values that decide which copy runs and whether a trial goes on (R473, R481, R482). -/
structure Boot where
  hold : Bool
  fwCopy : Bool
  trial : Bool
  tries : Nat
  lastBoundA : Bool
  lastBoundB : Bool

/-- These values in a state. -/
def State.boot (s : State) : Boot :=
  { hold := s.start.hold, fwCopy := s.start.fwCopy, trial := s.keep.trial, tries := s.keep.tries
    lastBoundA := s.keep.lastBoundA, lastBoundB := s.keep.lastBoundB }

section ColdBind

variable {s t : State}

theorem boot_of_onlyIn {ps : List Part} (h : OnlyIn ps s t) (hstart : Part.start ∉ ps) (hkeep : Part.keep ∉ ps) : t.boot = s.boot := by
  have hs : t.start = s.start := h.rest .start hstart
  have hk : t.keep = s.keep := h.rest .keep hkeep
  rw [State.boot, State.boot, hs, hk]

/-- The parts that the work of a cold bind can touch, beside the entries it makes in the start and the accession record. -/
abbrev bindParts : List Part := [.tb, .tick, .bind, .mbx, .spad, .ing, .ring, .host, .ksi, .gddr, .cnt, .cons, .pwr, .sent, .freeCount]

theorem boot_of_bindParts (h : OnlyIn bindParts s t) : t.boot = s.boot := boot_of_onlyIn h (by decide) (by decide)

theorem onlyIn_sendLinkReport : OnlyIn [.ring, .sent] s s.sendLinkReport := by
  unfold State.sendLinkReport
  split
  · exact onlyIn_refl _ _
  · exact onlyIn_trans (onlyIn_broadcast _ _) (onlyIn_onRing _ (by decide))

theorem onlyIn_ringDown (p : Nat) : OnlyIn [.ring, .sent, .cnt] s (s.ringDown p) := by
  unfold State.ringDown
  dsimp only
  split
  · exact onlyIn_refl _ _
  · exact onlyIn_then (onlyIn_trans (onlyIn_onRport _ _ (by decide)) (onlyIn_evRport _ _ _ (by decide) (by decide)))
      onlyIn_sendLinkReport (by decide)

theorem onlyIn_bypassUpdate : OnlyIn [.ring, .sent, .cnt] s s.bypassUpdate := by
  unfold State.bypassUpdate
  dsimp only
  split
  · exact onlyIn_onRing _ (by decide)
  · exact onlyIn_trans (onlyIn_trans (onlyIn_onRing _ (by decide)) (onlyIn_ringDown 0)) (onlyIn_ringDown 1)

theorem onlyIn_drawSlot (k n : Nat) : OnlyIn [.ksi, .host, .freeCount] s (s.drawSlot k n) := by
  unfold State.drawSlot State.setSlot State.evTen
  refine onlyIn_trans ?_ (onlyIn_onFreeCount _ (by decide))
  split
  · exact onlyIn_trans (onlyIn_onKsi _ (by decide)) (onlyIn_evVf _ _ (by decide))
  · exact onlyIn_onKsi _ (by decide)

theorem onlyIn_bindSeal : OnlyIn [.ksi, .host, .freeCount, .gddr] s s.bindSeal := by
  unfold State.bindSeal
  dsimp only
  exact onlyIn_trans
    (onlyIn_trans (onlyIn_mono (onlyIn_trans (onlyIn_drawSlot 0 32) (onlyIn_drawSlot 0 33)) (by decide)) (onlyIn_onGddr _ (by decide)))
    (onlyIn_foldl _ (fun _ _ => onlyIn_onGddr _ (by decide)) _ _)

theorem onlyIn_powerUp (ch bits : Nat) : OnlyIn [.pwr, .spad] s (s.powerUp ch bits) := by
  unfold State.powerUp
  extract_lets fresh s1 s2
  have h1 : OnlyIn [.pwr, .spad] s s1 := onlyIn_ite (fun _ => onlyIn_onPwr _ (by decide)) (fun _ => onlyIn_refl _ _)
  have h2 : OnlyIn [.pwr, .spad] s1 s2 := onlyIn_ite
    (fun _ => onlyIn_trans (onlyIn_foldl _ (fun _ _ => onlyIn_onSpad _ (by decide)) _ _) (onlyIn_onSpad _ (by decide)))
    (fun _ => onlyIn_refl _ _)
  exact onlyIn_trans (onlyIn_trans h1 h2) (onlyIn_onPwr _ (by decide))

theorem onlyIn_bindPower : OnlyIn [.pwr, .spad, .mbx, .cnt] s s.bindPower := by
  unfold State.bindPower
  dsimp only
  refine onlyIn_trans (onlyIn_onPwr _ (by decide)) (onlyIn_foldl _ (fun s ch => ?_) _ _)
  exact onlyIn_trans (onlyIn_mono (onlyIn_powerUp ch _) (by decide))
    (onlyIn_foldl _ (fun _ _ => onlyIn_roleChange _ (by decide) (by decide) (by decide)) _ _)

theorem onlyIn_arpSend (p ip : Nat) : OnlyIn [.ing, .sent] s (s.arpSend p ip) := by
  unfold State.arpSend State.onPort State.ethOut
  extract_lets e gap
  exact onlyIn_ite (fun _ => onlyIn_trans (onlyIn_onIng _ (by decide)) (onlyIn_out _ (by decide))) fun _ => onlyIn_refl _ _

theorem onlyIn_bindIngest : OnlyIn [.ing, .sent] s s.bindIngest := by
  unfold State.bindIngest
  dsimp only
  exact onlyIn_trans (onlyIn_onIng _ (by decide)) (onlyIn_foldl _ (fun _ _ => onlyIn_arpSend _ _) _ _)

theorem onlyIn_discStart : OnlyIn [.tb, .ing] s s.discStart := by
  unfold State.discStart
  exact onlyIn_trans (onlyIn_onTb _ (by decide)) (onlyIn_onIng _ (by decide))

theorem onlyIn_replanStart : OnlyIn [.cons] s s.replanStart :=
  onlyIn_ite (fun _ => onlyIn_refl _ _) (fun _ => onlyIn_onCons _ (by decide))

theorem onlyIn_measure (idx k : Nat) (d : List Byte) : OnlyIn [.ksi, .freeCount] s (s.measure idx k d) := by
  unfold State.measure
  exact onlyIn_onKsi _ (by decide)

theorem onlyIn_measureFree (idx k : Nat) : OnlyIn [.ksi, .freeCount] s (s.measureFree idx k) := by
  unfold State.measureFree State.tookFree
  exact onlyIn_trans (onlyIn_measure ..) (onlyIn_onFreeCount _ (by decide))

theorem onlyIn_bindRing : OnlyIn [.tick, .ring, .sent, .cnt] s s.bindRing := by
  unfold State.bindRing
  extract_lets lead role
  exact onlyIn_then (onlyIn_trans (onlyIn_onTick _ (by decide)) (onlyIn_onRing _ (by decide))) onlyIn_bypassUpdate (by decide)

theorem onlyIn_fastStep : OnlyIn [.pwr, .cnt] s s.fastStep := by
  unfold State.fastStep
  extract_lets s1
  have h1 : OnlyIn [.pwr, .cnt] s s1 := onlyIn_onPwr _ (by decide)
  refine onlyIn_ite (fun _ => onlyIn_refl _ _) fun _ => onlyIn_ite (fun _ => h1) fun _ => ?_
  exact onlyIn_trans h1 (onlyIn_trans (onlyIn_onPwr _ (by decide)) (onlyIn_evPwr _ (by decide) (by decide)))

/-- The bind work on keys, power and ingest, and the discipline that starts (R67). -/
theorem onlyIn_bindWork : OnlyIn bindParts s s.bindSeal.bindPower.bindIngest.discStart :=
  onlyIn_then (onlyIn_then (onlyIn_then (onlyIn_mono onlyIn_bindSeal (by decide)) onlyIn_bindPower (by decide))
    onlyIn_bindIngest (by decide)) onlyIn_discStart (by decide)

variable (s)

theorem State.bypassUpdate_boot : s.bypassUpdate.boot = s.boot := boot_of_onlyIn onlyIn_bypassUpdate (by decide) (by decide)

theorem State.bindRing_boot : s.bindRing.boot = s.boot := boot_of_onlyIn onlyIn_bindRing (by decide) (by decide)

theorem State.coldTake_boot (r : Running) (fallback : Bool) (e : Option BindErr) : (s.coldTake r fallback e).boot = s.boot := by
  unfold State.coldTake
  extract_lets c s1 s2 s3 s4 s5
  -- Each stage is forgotten once it is compared with the one before: the next comparison then looks at one stage only.
  have hreset : s1.boot = s.boot := rfl
  clear_value s1
  have hwork : s2.boot = s1.boot := boot_of_bindParts onlyIn_bindWork
  clear_value s2
  have hreplan : s3.boot = s2.boot :=
    boot_of_bindParts (onlyIn_then (onlyIn_onCons _ (by decide)) onlyIn_replanStart (by decide))
  clear_value s3
  have hmeasure : s4.boot = s3.boot := rfl
  clear_value s4
  have hring : s5.boot = s4.boot := (State.bindRing_boot _).trans rfl
  clear_value s5
  refine Eq.trans ?_ (hring.trans (hmeasure.trans (hreplan.trans (hwork.trans hreset))))
  exact boot_of_bindParts (onlyIn_ite (fun _ => onlyIn_then (onlyIn_onPwr _ (by decide)) onlyIn_fastStep (by decide))
    fun _ => onlyIn_refl _ _)

theorem State.coldFail_boot (e f : BindErr) : (s.coldFail e f).boot = s.boot := by
  unfold State.coldFail
  extract_lets s1
  have hreset : s1.boot = s.boot := rfl
  clear_value s1
  exact (State.bypassUpdate_boot _).trans hreset

/-- A cold bind changes neither the copy that runs nor its trial. -/
theorem State.coldBind_boot : s.coldBind.boot = s.boot := by
  unfold State.coldBind
  extract_lets s0
  have hstart : s0.boot = s.boot := boot_of_bindParts (onlyIn_then (onlyIn_onBind _ (by decide)) onlyIn_bypassUpdate (by decide))
  split
  · exact (s0.coldTake_boot ..).trans hstart
  · split
    · exact (s0.coldTake_boot ..).trans hstart
    · exact (s0.coldFail_boot ..).trans hstart

theorem State.convertSettings_boot : s.convertSettings.boot = s.boot := by
  unfold State.convertSettings
  dsimp only
  split
  · rfl
  · split <;> rfl

end ColdBind

/-! ### The start of a copy in trial -/

section Start

variable (s : State)

/-- The start of a copy whose components match their digests runs that copy, and keeps a trial of it where the copy that ran before had
not been bound (R475, R482). -/
theorem State.startUp_trial {copy : Bool} (hok : ∀ i < 5, componentOk (s.keep.copy copy).bundle (i + 1) = true)
    (hlast : (if copy then s.keep.lastBoundA else s.keep.lastBoundB) = false) :
    (s.startUp copy false).start.hold = s.start.hold ∧ (s.startUp copy false).start.fwCopy = copy ∧
      (s.startUp copy false).keep.trial = s.keep.trial ∧ (s.startUp copy false).keep.tries = s.keep.tries := by
  unfold State.startUp
  extract_lets s1 x s2 s3 s4 s5 s6 lastOther s7
  have hbundle : x = (s.keep.copy copy).bundle := by cases copy <;> rfl
  have hcopy : s1.boot = { s.boot with fwCopy := copy } := rfl
  clear_value x s1
  have hbuild : s2.boot = s1.boot := Eq.trans (b := ((s1.measureFree 1 0).measureFree 2 0).boot) rfl
    (boot_of_onlyIn (onlyIn_trans (onlyIn_measureFree 1 0) (onlyIn_measureFree 2 0)) (by decide) (by decide))
  clear_value s2
  have hmeasures : s3.boot = s2.boot :=
    boot_of_bindParts (onlyIn_foldl _ (fun _ _ => onlyIn_mono (onlyIn_measure ..) (by decide)) _ _)
  clear_value s3
  have hsettings : s4.boot = s3.boot := s3.convertSettings_boot
  clear_value s4
  have hbind : s5.boot = s4.boot := State.coldBind_boot _
  clear_value s5
  have hboot : s6.boot = { s.boot with fwCopy := copy } := hbind.trans (hsettings.trans (hmeasures.trans (hbuild.trans hcopy)))
  clear_value s6
  have hother : lastOther = false := by
    have hA : s6.keep.lastBoundA = s.keep.lastBoundA := congrArg Boot.lastBoundA hboot
    have hB : s6.keep.lastBoundB = s.keep.lastBoundB := congrArg Boot.lastBoundB hboot
    unfold lastOther
    rw [hA, hB]
    exact hlast
  have hcomps : ¬ (false || !((List.range 5).all fun i => componentOk x (i + 1))) = true := by simpa [hbundle] using hok
  rw [if_neg hcomps, if_neg (by rw [hother, Bool.and_false]; exact Bool.false_ne_true)]
  have htrial : s7.keep.trial = s6.keep.trial := by cases copy <;> rfl
  have htries : s7.keep.tries = s6.keep.tries := by cases copy <;> rfl
  exact ⟨congrArg Boot.hold hboot, congrArg Boot.fwCopy hboot, htrial.trans (congrArg Boot.trial hboot),
    htries.trans (congrArg Boot.tries hboot)⟩

theorem onlyIn_startLog : OnlyIn [.keep, .pwr, .freeCount] s s.startLog := by
  unfold State.startLog State.tookFree
  extract_lets s1 us
  have h1 : OnlyIn [.keep, .pwr, .freeCount] s s1 := onlyIn_ite (fun _ => onlyIn_record _ (by decide)) fun _ => onlyIn_refl _ _
  refine onlyIn_ite (fun _ => h1) fun _ => ?_
  exact onlyIn_trans (onlyIn_trans (onlyIn_trans (onlyIn_trans h1 (onlyIn_record _ (by decide))) (onlyIn_onFreeCount _ (by decide)))
    (onlyIn_onPwr _ (by decide))) (onlyIn_onKeep _ (by decide))

/-- What a start logs first is in the accession record and the dip, nowhere else of what persists (R447, R451). -/
theorem State.startLog_keep : ∃ r d, s.startLog.keep = { s.keep with record := r, dipMin := d } := by
  unfold State.startLog
  extract_lets +onlyGivenNames s1
  obtain ⟨r, hr⟩ : ∃ r, s1.keep = { s.keep with record := r } := by
    unfold s1
    split
    · exact ⟨_, rfl⟩
    · exact ⟨s.keep.record, rfl⟩
  clear_value s1
  split
  · exact ⟨r, s.keep.dipMin, hr⟩
  · simp only [State.record, State.tookFree, State.onKeep_keep, State.onPwr_keep, State.onFreeCount_keep, hr]
    exact ⟨_, 0, rfl⟩

variable {s} {t : State}

/-- Whether the ROM accepts a copy depends on the keys, the fuses, SVN_FLOOR and the module's name alone (R479, R481). -/
theorem State.copyAccepted_congr (hkeys : t.bind.keys = s.bind.keys)
    (hfuses : t.keep.fwKeysRevoked = s.keep.fwKeysRevoked) (hfloor : t.keep.svnFloor = s.keep.svnFloor)
    (hname : t.keep.accession = s.keep.accession) (c : FwCopy) : t.copyAccepted c = s.copyAccepted c := by
  have hkey : t.imageKey = s.imageKey := by
    funext k
    rw [State.imageKey, State.imageKey, hkeys, hfuses]
  simp only [State.copyAccepted, State.imageSigned, State.imageForUs, hkey, hfloor, hname]

/-- A start with TRIAL 1 and TRIES below 3 counts one more (R482). -/
theorem State.trialStep_of_trial (htrial : s.keep.trial = true) (htries : s.keep.tries < 3) :
    s.trialStep = s.onKeep fun k => { k with tries := k.tries + 1 } := by
  have hmore : s.keep.tries + 1 < 4 := by omega
  simp [State.trialStep, htrial, hmore]

/-- The selected copy starts where the ROM accepts it (R481). -/
theorem State.romChoose_of_accepted (h : s.copyAccepted (s.keep.copy s.keep.bootSel) = true) :
    s.romChoose false = some (s.keep.bootSel, s) := by
  simp [State.romChoose, h]

/-- A start of uncorrupted copies, in trial and with the selected copy accepted, runs that copy with its try counted (R475, R482). -/
theorem State.startEff_of_trial (hover : s.holdOver = true) (hrec : s.start.recoverNext = false)
    (htrial : s.keep.trial = true) (htries : s.keep.tries < 3) (hacc : s.copyAccepted (s.keep.copy s.keep.bootSel) = true)
    (n : Nat) (r p : Bool) :
    ∃ u : State, s.startEff n r p 0 = u.startUp s.keep.bootSel false ∧ u.start.hold = false ∧
      ∃ x d, u.keep = { s.keep with record := x, dipMin := d, tries := s.keep.tries + 1 } := by
  unfold State.startEff
  extract_lets s1 s2
  obtain ⟨x, d, hkeep⟩ : ∃ x d, s1.keep = { s.keep with record := x, dipMin := d } := s.startLog_keep
  have hbind : s1.bind = s.bind := (onlyIn_startLog s).rest .bind (by decide)
  have hhold : s1.start.hold = false := rfl
  clear_value s1
  have hstep : s2 = s1.onKeep fun k => { k with tries := k.tries + 1 } :=
    State.trialStep_of_trial (by rw [hkeep]; exact htrial) (by rw [hkeep]; exact htries)
  have hkeep2 : s2.keep = { s.keep with record := x, dipMin := d, tries := s.keep.tries + 1 } := by
    rw [hstep, State.onKeep_keep, hkeep]
  have hkeys : s2.bind.keys = s.bind.keys := by rw [hstep, State.onKeep_bind, hbind]
  have hsel : s2.keep.bootSel = s.keep.bootSel := by rw [hkeep2]
  have hacc2 : s2.copyAccepted (s2.keep.copy s2.keep.bootSel) = true := by
    rw [State.copyAccepted_congr hkeys (by rw [hkeep2]) (by rw [hkeep2]) (by rw [hkeep2]), hkeep2]
    exact hacc
  have hchoose : s2.romChoose false = some (s.keep.bootSel, s2) := hsel ▸ State.romChoose_of_accepted hacc2
  refine ⟨s2, ?_, by rw [hstep]; exact hhold, x, d, hkeep2⟩
  simp [hover, hrec, hchoose]

end Start

/-- Settles O60: once taken, ACTIVATE asks for a verified FIRMWARE image, TRIAL 0 and no locking TDI, in this order; the start after it
chooses the selected copy, and nothing on the way to the end of the cold bind changes that choice. -/
theorem imageActivate : Obligations.ImageActivate := by
  unfold Obligations.ImageActivate
  refine ⟨?selected, ?notVerified, ?busy, ?locked, ?nextStart⟩
  case selected =>
    intro s m hl hm hv ht htrial hlock
    rw [exec_imgActivate hl, State.imgActivateEff_of_verified hm hv ht, htrial, hlock]
    rfl
  case notVerified =>
    intro s m hl hm hnot howner
    rw [exec_imgActivate hl, State.imgActivateEff_of_not_verified hm hnot howner]
    rfl
  case busy =>
    intro s m hl hm hv ht htrial
    rw [exec_imgActivate hl, State.imgActivateEff_of_verified hm hv ht, htrial]
    rfl
  case locked =>
    intro s m hl hm hv ht htrial hlock
    rw [exec_imgActivate hl, State.imgActivateEff_of_verified hm hv ht, htrial, hlock]
    rfl
  case nextStart =>
    intro s n r p hover hrec htrial htries hlast
    refine ⟨commit (s.startEff n r p 0), rfl, fun hacc hok => ?_⟩
    obtain ⟨u, hrun, hhold, x, d, hkeep⟩ := State.startEff_of_trial hover hrec htrial htries hacc n r p
    obtain ⟨thold, tcopy, ttrial, ttries⟩ := u.startUp_trial (copy := s.keep.bootSel)
      (by rw [hkeep]; exact hok) (by rw [hkeep]; exact hlast)
    rw [commit_start, commit_keep, hrun]
    exact ⟨thold.trans hhold, tcopy, ttrial.trans (by rw [hkeep]; exact htrial), ttries.trans (by rw [hkeep])⟩

end Sys2Proof.Machine

/-! The interrupt vectors (spec/16, R343): what settling writes for each vector, that every step leaves the vectors settled, and the block
interface and the reset state (spec/00, spec/23). -/

namespace Sys2Proof.Machine

/-! ### One step -/

/-- A command whose meaning asks only for a live module runs its effect and settles the interrupts. -/
theorem next_of_live {s : State} (h : s.live = true) (u : State) :
    (.next (if !s.live then s else commit u) : Host.Outcome State Fault Refusal) = .next (commit u) := by
  rw [h]
  rfl

/-- Every command answers a next state. -/
theorem exec_answers (c : Instr) (s : State) : ∃ t, exec c s = .next t := by
  obtain h | ⟨u, h⟩ := exec_settles c s
  · exact ⟨s, h⟩
  · exact ⟨commit u, h⟩

theorem step_nil {s : State} (h : s.pending = []) : step s = .next (idle s) := by
  unfold step
  rw [h]

theorem step_cons {s : State} {c : Instr} {rest : List Instr} (h : s.pending = c :: rest) :
    step s = exec c { s with pending := rest } := by
  unfold step
  rw [h]

/-- Settles O1: the step's two cases, and for the totality that every command settles. -/
theorem stepRunsFront : Obligations.StepRunsFront := by
  unfold Obligations.StepRunsFront
  refine ⟨fun s c rest => step_cons rfl, ?running, ?off, exec_answers⟩
  case running =>
    intro s hq hl
    rw [step_nil hq, idle, if_pos hl]
    rfl
  case off =>
    intro s hq hp
    have hdead : s.live = false := by simp [State.live, hp]
    rw [step_nil hq, idle, hdead, hp]
    rfl

/-- Settles O2: the fields' defaults; a table that lists nothing reads as its default at every key. -/
theorem resetState : Obligations.ResetState := by
  unfold Obligations.ResetState
  exact ⟨rfl, rfl, rfl, rfl, rfl, rfl, rfl, rfl, rfl, rfl, rfl, rfl, rfl, rfl, rfl, fun _ => rfl, fun _ => rfl, fun _ => rfl,
    fun _ => rfl, fun _ _ => rfl, rfl, rfl, rfl, rfl, rfl, rfl⟩

/-! ### Settling the vectors -/

/-- A host has no vector beyond the third of the PF and the second of a VF, so keys tell vectors apart. -/
theorem State.vectors_snd_lt {s : State} {v : Nat × Nat} (h : v ∈ s.vectors) : v.2 < 4 := by
  simp only [State.vectors, List.mem_append, List.mem_cons, List.mem_flatMap, List.not_mem_nil, or_false] at h
  obtain (rfl | rfl | rfl) | ⟨k, -, rfl | rfl⟩ := h <;> simp

theorem vecKey_injOn {v w : Nat × Nat} (hv : v.2 < 4) (hw : w.2 < 4) (h : vecKey v.1 v.2 = vecKey w.1 w.2) : v = w := by
  unfold vecKey at h
  exact Prod.ext (by omega) (by omega)

/-- The entry that settling writes for a vector. -/
def State.settledVec (s : State) (v : Nat × Nat) : MsixVec := (s.host.msix.get (vecKey v.1 v.2)).settle (s.vecCond v.1 v.2)

theorem MsixVec.settle_cond (x : MsixVec) (c : Bool) : (x.settle c).cond = c := by
  unfold MsixVec.settle
  split
  next h =>
    simp only [Bool.and_eq_true] at h
    exact h.1.1.symm
  · rfl

/-- One vector's step of the settling, on the table and the messages. -/
def State.settleOne (s : State) (acc : Tab MsixVec × List Out) (v : Nat × Nat) : Tab MsixVec × List Out :=
  (if s.settledVec v = default then acc.1 else acc.1.put (vecKey v.1 v.2) (s.settledVec v),
   if s.vecCond v.1 v.2 && !(s.host.msix.get (vecKey v.1 v.2)).cond && !(s.host.msix.get (vecKey v.1 v.2)).masked && s.host.linkUp
     then msixOut v.1 v.2 :: acc.2 else acc.2)

theorem State.settled_eq_foldl (s : State) : s.settled =
    s.vectors.foldl s.settleOne (s.host.msix.keep fun k _ => !(s.vectors.any fun v => vecKey v.1 v.2 == k), s.sent) := rfl

/-- One step leaves the other vectors' entries alone. -/
theorem State.settleOne_get_ne (s : State) (acc : Tab MsixVec × List Out) (v : Nat × Nat) {j : Nat} (h : j ≠ vecKey v.1 v.2) :
    (s.settleOne acc v).1.get j = acc.1.get j := by
  unfold State.settleOne
  dsimp only
  split
  · rfl
  · rw [Tab.get_put, if_neg h]

/-- One step leaves its own vector's entry settled, where the entry was cleared or settled before. -/
theorem State.settleOne_get_same (s : State) (acc : Tab MsixVec × List Out) (v : Nat × Nat)
    (h : acc.1.get (vecKey v.1 v.2) = default ∨ acc.1.get (vecKey v.1 v.2) = s.settledVec v) :
    (s.settleOne acc v).1.get (vecKey v.1 v.2) = s.settledVec v := by
  unfold State.settleOne
  dsimp only
  split
  next hd => exact h.elim (·.trans hd.symm) id
  · rw [Tab.get_put, if_pos rfl]

/-- After the fold every vector it went through holds its settled entry, and so does each that held it before. -/
theorem State.foldl_settleOne_get (s : State) (v : Nat × Nat) (hv : v.2 < 4) : ∀ (vs : List (Nat × Nat)) (acc : Tab MsixVec × List Out),
    (∀ w ∈ vs, w.2 < 4) → (acc.1.get (vecKey v.1 v.2) = default ∧ v ∈ vs ∨ acc.1.get (vecKey v.1 v.2) = s.settledVec v) →
    (vs.foldl s.settleOne acc).1.get (vecKey v.1 v.2) = s.settledVec v
  | [], acc, _, h => by simpa using h
  | w :: vs, acc, hlt, h => by
    rw [List.foldl_cons]
    refine s.foldl_settleOne_get v hv vs _ (fun x hx => hlt x (List.mem_cons_of_mem w hx)) ?_
    by_cases heq : v = w
    · subst heq
      exact .inr (s.settleOne_get_same acc v (h.imp_left And.left))
    · have hkey : vecKey v.1 v.2 ≠ vecKey w.1 w.2 := fun hk => heq (vecKey_injOn hv (hlt w List.mem_cons_self) hk)
      rw [s.settleOne_get_ne acc w hkey]
      exact h.imp_left fun ⟨hd, hmem⟩ => ⟨hd, (List.mem_cons.1 hmem).resolve_left heq⟩

/-- Before the fold the vectors' own entries are gone. -/
theorem State.keep_vectors_get (s : State) {v : Nat × Nat} (h : v ∈ s.vectors) :
    Tab.get (s.host.msix.keep fun k _ => !(s.vectors.any fun v => vecKey v.1 v.2 == k)) (vecKey v.1 v.2) = default := by
  refine Tab.get_of_notMem_keys fun hmem => ?_
  obtain ⟨e, he, hk⟩ := List.mem_map.1 hmem
  obtain ⟨-, hkeep⟩ := List.mem_filter.1 he
  rw [Bool.not_eq_true', List.any_eq_false] at hkeep
  exact hkeep v h (beq_iff_eq.2 hk.symm)

theorem commit_msix_get {s : State} {v : Nat × Nat} (h : v ∈ s.vectors) :
    (commit s).host.msix.get (vecKey v.1 v.2) = s.settledVec v := by
  change s.settled.1.get _ = _
  rw [s.settled_eq_foldl]
  exact s.foldl_settleOne_get v (State.vectors_snd_lt h) s.vectors _ (fun _ => State.vectors_snd_lt)
    (.inl ⟨s.keep_vectors_get h, h⟩)

/-- The settling of the interrupts settles the vectors (R343). -/
theorem vectorsSettled_commit (s : State) : VectorsSettled (commit s) := by
  intro v hv
  rw [commit_msix_get (s := s) hv]
  exact MsixVec.settle_cond ..

/-- Settles O3: the PF's three vectors, whose conditions are all false. -/
theorem vectorsSettledAtReset : Obligations.VectorsSettledAtReset := by
  unfold Obligations.VectorsSettledAtReset VectorsSettled
  decide

/-- A nanosecond that passes changes nothing a vector's condition reads. -/
theorem vectorsSettled_idle {s : State} (h : VectorsSettled s) : VectorsSettled (idle s) := by
  unfold idle
  split
  · exact h
  · split
    · exact h
    · exact h

/-- Settles O4: a step that idles changes no condition, and a command leaves the state or settles every vector at its end. -/
theorem vectorsSettledKept : Obligations.VectorsSettledKept := by
  unfold Obligations.VectorsSettledKept
  intro s t hs ht
  cases hq : s.pending with
  | nil =>
    rw [step_nil hq] at ht
    obtain rfl := Host.Outcome.next.inj ht
    exact vectorsSettled_idle hs
  | cons c rest =>
    rw [step_cons hq] at ht
    obtain h | ⟨u, h⟩ := exec_settles c { s with pending := rest }
    · obtain rfl := Host.Outcome.next.inj (h.symm.trans ht)
      exact hs
    · obtain rfl := Host.Outcome.next.inj (h.symm.trans ht)
      exact vectorsSettled_commit u

end Sys2Proof.Machine

/-! The scratchpad's memory (spec/06, R137, R139): writes through the three windows, the zeroing of a bank, and what both leave alone. -/

namespace Sys2Proof.Machine

/-! ### Tables and memories filtered by key -/

theorem Tab.get_keep_of_false {α : Type} [Inhabited α] {t : Tab α} {p : Nat → Bool} {j : Nat} (h : p j = false) :
    (t.keep fun k _ => p k).get j = default := by
  refine Tab.get_of_notMem_keys fun hmem => ?_
  obtain ⟨e, he, rfl⟩ := List.mem_map.1 hmem
  have hp : p e.1 = true := (List.mem_filter.1 he).2
  exact absurd (hp.symm.trans h) (by decide)

theorem Tab.get_keep_of_true {α : Type} [Inhabited α] [DecidableEq α] {p : Nat → Bool} {j : Nat} (h : p j = true) :
    ∀ {lo : Nat} {t : Tab α}, t.wfFrom lo = true → (t.keep fun k _ => p k).get j = t.get j
  | _, [], _ => rfl
  | lo, (i, v) :: r, w => by
    have hr : Tab.wfFrom (i + 1) r = true := by
      simp only [Tab.wfFrom, Bool.and_eq_true] at w
      exact w.2
    have ih : Tab.get (Tab.keep r fun k _ => p k) j = Tab.get r j := Tab.get_keep_of_true h hr
    cases hi : p i with
    | true =>
      have hcons : (Tab.keep ((i, v) :: r) fun k _ => p k) = (i, v) :: Tab.keep r fun k _ => p k := by simp [Tab.keep, hi]
      rw [hcons, Tab.get, Tab.get, ih]
    | false =>
      have hcons : (Tab.keep ((i, v) :: r) fun k _ => p k) = Tab.keep r fun k _ => p k := by simp [Tab.keep, hi]
      have hji : j ≠ i := fun e => by rw [e, hi] at h; exact Bool.false_ne_true h
      rw [hcons, ih, Tab.get, if_neg hji]
      split
      next hlt => exact Tab.get_below (by omega) r hr
      · rfl

theorem clearRange_get {m : Tab Byte} (w : m.wf = true) (a n j : Nat) :
    (clearRange m a n).get j = if a ≤ j ∧ j < a + n then 0 else m.get j := by
  unfold clearRange
  split
  next h => exact Tab.get_keep_of_false (p := fun k => !(decide (a ≤ k) && decide (k < a + n))) (by simpa using h)
  next h => exact Tab.get_keep_of_true (p := fun k => !(decide (a ≤ k) && decide (k < a + n))) (by simp; omega) w

/-! ### Writes through a window -/

@[simp] theorem length_rdBytes (m : Tab Byte) (a n : Nat) : (rdBytes m a n).length = n := by simp [rdBytes]

@[simp] theorem State.length_spGet (s : State) (ch addr n : Nat) : (s.spGet ch addr n).length = n := length_rdBytes ..

/-- The window of a local address is no part of the byte's key (R137). -/
theorem spKey_window {addr : Nat} (ch w : Nat) : spKey ch (w * 0x2000000 + addr) = spKey ch addr := by
  unfold spKey
  omega

/-- A write through any window is a write through the normal window of as many bytes. -/
theorem State.spWrite_eq_spPut (s : State) (ch addr : Nat) (b : List Byte) :
    ∃ c : List Byte, c.length = b.length ∧ s.spWrite ch addr b = s.spPut ch addr c := by
  unfold State.spWrite
  split
  · exact ⟨_, by simp, rfl⟩
  · exact ⟨_, by simp, rfl⟩
  · exact ⟨b, rfl, rfl⟩

theorem State.spWrite_normal (s : State) (ch : Nat) {addr : Nat} (b : List Byte) (h : addr < 0x2000000) :
    s.spWrite ch addr b = s.spPut ch addr b := by
  have hw : addr / 0x2000000 % 4 = 0 := by omega
  simp [State.spWrite, hw]

theorem State.spWrite_set (s : State) (ch : Nat) {addr : Nat} (b : List Byte) (h : addr < 0x2000000) :
    s.spWrite ch (0x2000000 + addr) b = s.spPut ch addr (List.zipWith (· ||| ·) (s.spGet ch addr b.length) b) := by
  have hw : (0x2000000 + addr) / 0x2000000 % 4 = 1 := by omega
  have hk : spKey ch (0x2000000 + addr) = spKey ch addr := spKey_window ch 1
  simp only [State.spWrite, hw, State.spPut, State.spGet, hk]

theorem State.spWrite_clear (s : State) (ch : Nat) {addr : Nat} (b : List Byte) (h : addr < 0x2000000) :
    s.spWrite ch (0x4000000 + addr) b =
      s.spPut ch addr (List.zipWith (fun x y => x &&& ~~~ y) (s.spGet ch addr b.length) b) := by
  have hw : (0x4000000 + addr) / 0x2000000 % 4 = 2 := by omega
  have hk : spKey ch (0x4000000 + addr) = spKey ch addr := spKey_window ch 2
  simp only [State.spWrite, hw, State.spPut, State.spGet, hk]

/-- Bytes put are read back. -/
theorem State.spGet_spPut {s : State} (w : Memory.wf s.spad.mem = true) (ch addr : Nat) {b : List Byte} {n : Nat}
    (h : b.length = n) : (s.spPut ch addr b).spGet ch addr n = b := by
  subst h
  exact rdBytes_wrBytes b s.spad.mem (spKey ch addr) w

theorem State.spPut_wf {s : State} (w : Memory.wf s.spad.mem = true) (ch addr : Nat) (b : List Byte) :
    Memory.wf (s.spPut ch addr b).spad.mem = true := wrBytes_wf b _ _ w

theorem State.spPut_get_of_outside {s : State} (w : Memory.wf s.spad.mem = true) {ch addr x : Nat} {b : List Byte}
    (h : x < spKey ch addr ∨ spKey ch addr + b.length ≤ x) :
    Tab.get (s.spPut ch addr b).spad.mem x = Tab.get s.spad.mem x := by
  refine (wrBytes_get b s.spad.mem _ x w).trans (if_neg ?_)
  omega

/-- A bank zeroed reads as zeros, and every other byte as before (R139). -/
theorem State.zeroBank_get {s : State} (w : Memory.wf s.spad.mem = true) (ch bank x : Nat) :
    Tab.get (s.zeroBank ch bank).spad.mem x =
      if spKey ch (bank * 524288) ≤ x ∧ x < spKey ch (bank * 524288) + 524288 then 0 else Tab.get s.spad.mem x :=
  clearRange_get w ..

/-- Settles O6: each window's write as one write of the combined bytes, and the erasing of a bank's range. -/
theorem scratchpadWindows : Obligations.ScratchpadWindows := by
  unfold Obligations.ScratchpadWindows
  refine ⟨?normal, ?bitSet, ?bitClear, ?otherBytes, ?zeroed, ?notZeroed⟩
  case normal =>
    intro s ch addr b h w
    rw [s.spWrite_normal ch b h]
    exact ⟨State.spGet_spPut w ch addr rfl, State.spPut_wf w ..⟩
  case bitSet =>
    intro s ch addr b h w
    rw [s.spWrite_set ch b h]
    exact State.spGet_spPut w ch addr (by simp)
  case bitClear =>
    intro s ch addr b h w
    rw [s.spWrite_clear ch b h]
    exact State.spGet_spPut w ch addr (by simp)
  case otherBytes =>
    intro s ch addr x b w h
    obtain ⟨c, hlen, hput⟩ := s.spWrite_eq_spPut ch addr b
    rw [hput]
    exact State.spPut_get_of_outside w (by rwa [hlen])
  case zeroed =>
    intro s ch bank i _ hi w
    rw [State.zeroBank_get w, if_pos (by omega)]
  case notZeroed =>
    intro s ch bank x w h
    rw [State.zeroBank_get w, if_neg (by omega)]

end Sys2Proof.Machine

/-! Register accesses to a virtual function whose TDI is RUN (spec/16, R353). -/

namespace Sys2Proof.Machine

/-! ### Messages and host events -/

theorem mem_commit_sent {s : State} {o : Out} (h : o ∈ s.sent) : o ∈ (commit s).sent := by
  obtain ⟨l, hl, -⟩ := commit_sent s
  rw [hl]
  exact List.mem_append_right l h

@[simp] theorem State.evHost_host (s : State) (i : Nat) (act : Option Nat) :
    (s.evHost i act).host = { s.host with events := bitSet s.host.events i } := by
  rw [State.evHost, State.count_host, State.onHost_host]

@[simp] theorem State.evHost_sent (s : State) (i : Nat) (act : Option Nat) : (s.evHost i act).sent = s.sent := by
  rw [State.evHost, State.count_sent, State.onHost_sent]

theorem State.evHost_cnt (s : State) (i : Nat) (act : Option Nat) :
    (s.evHost i act).cnt = (s.count (0xC0 + i) none act 1).cnt :=
  State.count_congr (s := s) (t := s.onHost fun h => { h with events := bitSet h.events i }) rfl rfl rfl ..

/-! ### NON_TEE -/

@[simp] theorem vfOf_vf (j : Fin 8) : vfOf (j.val + 2) = some (j.val + 1) := by
  unfold vfOf
  rw [if_pos (by omega)]
  rfl

theorem State.nonTee_vf (s : State) (j : Fin 8) (tee : Bool) :
    s.nonTee (j + 2) tee = ((s.tdi (j + 1)).state == .run && !(tee && (s.host.streams.get (j + 1)).secure)) := by
  simp [State.nonTee]

theorem exec_registerWrite_of_nonTee {s : State} {m : Nat} {tee : Bool} (hl : s.live = true) (ht : s.nonTee m tee = true)
    (isRead : Bool) (size off : Nat) (v : BitVec 64) :
    exec (.registerWrite isRead tee m size off v) s = .next (commit
      ((if isRead then s.out { kind := .completion, port := 0, code := off, status := 1 } else s).evHost 6 none)) := by
  refine (next_of_live hl _).trans ?_
  rw [State.regAccess, if_pos ht]

/-- What NON_TEE changes of the host interface and the counters. -/
theorem commit_nonTee_host (s : State) :
    (commit (s.evHost 6 none)).host = { s.host with msix := (commit (s.evHost 6 none)).host.msix, events := bitSet s.host.events 6 } := by
  simp

/-- Settles O8: the refusal's completion, event and count, and that the access is otherwise performed. -/
theorem nonTeeAccesses : Obligations.NonTeeAccesses := by
  unfold Obligations.NonTeeAccesses
  have refused : ∀ (s : State) (j : Fin 8) (tee : Bool), (s.tdi (j + 1)).state = .run →
      (tee = false ∨ (s.host.streams.get (j + 1)).secure = false) → s.nonTee (j + 2) tee = true := by
    intro s j tee hrun hbad
    obtain h | h := hbad <;> simp [State.nonTee_vf, hrun, h]
  refine ⟨?read, ?write, ?performed⟩
  case read =>
    intro s j tee size off v hl hrun hbad
    refine ⟨_, exec_registerWrite_of_nonTee hl (refused s j tee hrun hbad) .., ?_, mem_commit_sent ?_, ?_, ?_⟩
    · exact onlyIn_commit (onlyIn_trans (onlyIn_out _ (by decide)) (onlyIn_evHost _ _ (by decide) (by decide)))
    · rw [State.evHost_sent]
      exact List.mem_cons_self
    · exact commit_nonTee_host _
    · exact (State.evHost_cnt ..).trans (State.count_congr (s := s) (t := s.out _) rfl rfl rfl ..)
  case write =>
    intro s j tee size off v hl hrun hbad
    exact ⟨_, exec_registerWrite_of_nonTee hl (refused s j tee hrun hbad) ..,
      onlyIn_commit (onlyIn_evHost _ _ (by decide) (by decide)), commit_nonTee_host _, State.evHost_cnt ..⟩
  case performed =>
    intro s j r tee size off v hl hok
    refine exec_registerWrite hl ?_ r size off v
    obtain h | ⟨ht, hsec⟩ := hok
    · simp [State.nonTee_vf, h]
    · simp [State.nonTee_vf, ht, hsec]

end Sys2Proof.Machine

/-! Role changes (spec/05, R127): the generations, and what becomes of each side of the master's mailbox channels. -/

namespace Sys2Proof.Machine

/-! ### Wake events -/

@[simp] theorem State.wake_gens (s : State) (id m : Nat) : (s.wake id m).mbx.gens = s.mbx.gens := by
  unfold State.wake
  split
  · rfl
  · split
    · split
      · rfl
      · split
        · rfl
        · rw [State.count_mbx]
    · rfl

@[simp] theorem State.wake_sides (s : State) (id m : Nat) : (s.wake id m).mbx.sides = s.mbx.sides := by
  unfold State.wake
  split
  · rfl
  · split
    · split
      · rfl
      · split
        · rfl
        · rw [State.count_mbx]
    · rfl

/-! ### Sides -/

theorem sideKey_inj {m n : Nat} {b c : Bool} : sideKey m b = sideKey n c ↔ m = n ∧ b = c := by
  cases b <;> cases c <;> simp [sideKey] <;> omega

theorem State.mbSide_onSide {s : State} (w : s.mbx.sides.wf = true) (m n : Nat) (b c : Bool) (f : MbSide → MbSide) :
    (s.onSide m b f).mbSide n c = if n = m ∧ c = b then f (s.mbSide m b) else s.mbSide n c := by
  change Tab.get (s.mbx.sides.upd (sideKey m b) f) (sideKey n c) = _
  simp only [Tab.get_upd s.mbx.sides w, sideKey_inj]
  rfl

theorem State.onSide_wf {s : State} (w : s.mbx.sides.wf = true) (m : Nat) (b : Bool) (f : MbSide → MbSide) :
    (s.onSide m b f).mbx.sides.wf = true := Tab.wf_upd s.mbx.sides w ..

/-! ### One record of a role change -/

/-- What a role change does at one side of a mailbox channel. -/
def State.roleSide (id : Nat) (r : MboxRec) (s : State) (sideB : Bool) : State :=
  if r.owner sideB ≠ id then s
  else
    ((s.onSide r.mailbox sideB fun x => { x with staleDrops := sat8 (x.staleDrops + x.queue.length), queue := [] }).onSide
      r.mailbox (!sideB) fun x => { x with notice := true }).wake (r.owner (!sideB)) r.mailbox

/-- What a role change does at both sides of a mailbox channel. -/
def State.roleRec (id : Nat) (s : State) (r : MboxRec) : State :=
  if r.enable ≠ 1 then s else State.roleSide id r (State.roleSide id r s false) true

/-- The generation after a role change. -/
def nextGen (g : BitVec 16) : BitVec 16 := if g = 0xFFFF then 1 else g + 1

theorem State.roleChange_eq (s : State) (id : Nat) : s.roleChange id =
    s.b.mbox.foldl (State.roleRec id) (s.onMbx fun x => { x with gens := x.gens.upd id fun g => { gen := nextGen g.gen } }) := rfl

section

variable {id : Nat} {r : MboxRec} {s : State}

theorem State.roleSide_of_owner_ne {b : Bool} (h : r.owner b ≠ id) : State.roleSide id r s b = s := if_pos h

theorem State.roleSide_gens (b : Bool) : (State.roleSide id r s b).mbx.gens = s.mbx.gens := by
  unfold State.roleSide
  split
  · rfl
  · exact State.wake_gens ..

theorem State.roleRec_gens : (State.roleRec id s r).mbx.gens = s.mbx.gens := by
  unfold State.roleRec
  split
  · rfl
  · rw [State.roleSide_gens, State.roleSide_gens]

theorem State.roleSide_wf (w : s.mbx.sides.wf = true) (b : Bool) : (State.roleSide id r s b).mbx.sides.wf = true := by
  unfold State.roleSide
  split
  · exact w
  · rw [State.wake_sides]
    exact State.onSide_wf (State.onSide_wf w ..) ..

theorem State.roleRec_wf (w : s.mbx.sides.wf = true) : (State.roleRec id s r).mbx.sides.wf = true := by
  unfold State.roleRec
  split
  · exact w
  · exact State.roleSide_wf (State.roleSide_wf w false) true

/-- The sides after a role change at one side: the side emptied, the other side with NOTICE, and every other side as it was. -/
theorem State.roleSide_mbSide (w : s.mbx.sides.wf = true) {b : Bool} (h : r.owner b = id) (m : Nat) (c : Bool) :
    (State.roleSide id r s b).mbSide m c =
      if m = r.mailbox then
        if c = b then { s.mbSide m c with staleDrops := sat8 ((s.mbSide m c).staleDrops + (s.mbSide m c).queue.length), queue := [] }
        else { s.mbSide m c with notice := true }
      else s.mbSide m c := by
  rw [State.roleSide, if_neg (not_not_intro h), State.mbSide, State.wake_sides, ← State.mbSide,
    State.mbSide_onSide (State.onSide_wf w ..), State.mbSide_onSide w, State.mbSide_onSide w]
  by_cases hm : m = r.mailbox
  · subst hm
    cases b <;> cases c <;> simp
  · simp [hm]

theorem State.roleSide_mbSide_of_ne (w : s.mbx.sides.wf = true) (b : Bool) {m : Nat} (hm : m ≠ r.mailbox) (c : Bool) :
    (State.roleSide id r s b).mbSide m c = s.mbSide m c := by
  by_cases h : r.owner b = id
  · rw [State.roleSide_mbSide w h, if_neg hm]
  · rw [State.roleSide_of_owner_ne h]

theorem State.roleRec_mbSide_of_ne (w : s.mbx.sides.wf = true) {m : Nat} (hm : m ≠ r.mailbox) (c : Bool) :
    (State.roleRec id s r).mbSide m c = s.mbSide m c := by
  unfold State.roleRec
  split
  · rfl
  · rw [State.roleSide_mbSide_of_ne (State.roleSide_wf w false) true hm, State.roleSide_mbSide_of_ne w false hm]

/-- An enabled channel with the master on one side only changes as that side does. -/
theorem State.roleRec_of_one_side (he : r.enable = 1) {b : Bool} (hother : r.owner (!b) ≠ id) :
    State.roleRec id s r = State.roleSide id r s b := by
  rw [State.roleRec, if_neg (not_not_intro he)]
  cases b with
  | false => exact State.roleSide_of_owner_ne hother
  | true => rw [State.roleSide_of_owner_ne (b := false) hother]

end

/-! ### All records -/

theorem State.foldl_roleRec_gens (id : Nat) : ∀ (l : List MboxRec) (s : State), (l.foldl (State.roleRec id) s).mbx.gens = s.mbx.gens
  | [], _ => rfl
  | _ :: l, _ => (State.foldl_roleRec_gens id l _).trans State.roleRec_gens

theorem State.foldl_roleRec_wf (id : Nat) : ∀ (l : List MboxRec) {s : State}, s.mbx.sides.wf = true →
    (l.foldl (State.roleRec id) s).mbx.sides.wf = true
  | [], _, w => w
  | _ :: l, _, w => State.foldl_roleRec_wf id l (State.roleRec_wf w)

theorem State.foldl_roleRec_mbSide (id : Nat) {m : Nat} (c : Bool) : ∀ (l : List MboxRec) {s : State}, s.mbx.sides.wf = true →
    (∀ x ∈ l, m ≠ x.mailbox) → (l.foldl (State.roleRec id) s).mbSide m c = s.mbSide m c
  | [], _, _, _ => rfl
  | x :: l, _, w, h => (State.foldl_roleRec_mbSide id c l (State.roleRec_wf w) fun y hy => h y (List.mem_cons_of_mem x hy)).trans
      (State.roleRec_mbSide_of_ne w (h x List.mem_cons_self) c)

/-- The sides of a channel that no other record names change as its own record says. -/
theorem State.roleChange_mbSide {s : State} {id : Nat} {r : MboxRec} (w : s.mbx.sides.wf = true) (hr : r ∈ s.b.mbox)
    (hp : s.b.mbox.Pairwise fun x y => x.mailbox ≠ y.mailbox) (he : r.enable = 1) {b : Bool} (hown : r.owner b = id)
    (hother : r.owner (!b) ≠ id) (c : Bool) :
    (s.roleChange id).mbSide r.mailbox c =
      if c = b then { s.mbSide r.mailbox c with
        staleDrops := sat8 ((s.mbSide r.mailbox c).staleDrops + (s.mbSide r.mailbox c).queue.length), queue := [] }
      else { s.mbSide r.mailbox c with notice := true } := by
  obtain ⟨pre, post, hsplit⟩ := List.append_of_mem hr
  rw [hsplit, List.pairwise_append, List.pairwise_cons] at hp
  obtain ⟨-, ⟨hpost, -⟩, hpre⟩ := hp
  rw [State.roleChange_eq, hsplit, List.foldl_append, List.foldl_cons]
  have w1 := State.foldl_roleRec_wf id pre
    (s := s.onMbx fun x => { x with gens := x.gens.upd id fun g => { gen := nextGen g.gen } }) w
  have hbefore := fun c => State.foldl_roleRec_mbSide id c pre (m := r.mailbox)
    (s := s.onMbx fun x => { x with gens := x.gens.upd id fun g => { gen := nextGen g.gen } }) w
    fun x hx => (hpre x hx r List.mem_cons_self).symm
  rw [State.foldl_roleRec_mbSide id c post (State.roleRec_wf w1) hpost, State.roleRec_of_one_side he hother,
    State.roleSide_mbSide w1 hown, if_pos rfl, hbefore c]
  rfl

theorem State.genOf_roleChange {s : State} (w : s.mbx.gens.wf = true) (id x : Nat) :
    (s.roleChange id).genOf x = if x = id then nextGen (s.genOf id) else s.genOf x := by
  rw [State.roleChange_eq, State.genOf, State.foldl_roleRec_gens, State.onMbx_mbx, Tab.get_upd _ w]
  split <;> rfl

theorem nextGen_ne_zero {g : BitVec 16} : nextGen g ≠ 0 := by
  unfold nextGen
  split
  · decide
  · bv_omega

/-- Settles O10: the generation is raised before the channels are gone through, and each channel changes as its own record says. -/
theorem roleChangeClearsQueues : Obligations.RoleChangeClearsQueues := by
  unfold Obligations.RoleChangeClearsQueues
  refine ⟨fun s id x w => State.genOf_roleChange w id x, ?nonzero, ?queues⟩
  case nonzero =>
    intro s id x h w
    rw [State.genOf_roleChange w]
    split
    · exact nextGen_ne_zero
    · exact h x
  case queues =>
    intro s id r sideB w hr he hp hown hother
    have hsides := State.roleChange_mbSide w hr hp he hown hother
    rw [hsides sideB, hsides (!sideB), if_pos rfl, if_neg (by simp)]
    exact ⟨rfl, rfl, rfl, rfl⟩

end Sys2Proof.Machine

/-! References of the time base (spec/02, R22, R23, R52). -/

namespace Sys2Proof.Machine

/-! ### Event registers -/

@[simp] theorem State.evTick_tick (s : State) (i : Nat) :
    (s.evTick i).tick = { s.tick with events := bitSet s.tick.events i } := by
  rw [State.evTick, State.count_tick, State.onTick_tick]

@[simp] theorem State.evTick_tb (s : State) (i : Nat) : (s.evTick i).tb = s.tb := by
  rw [State.evTick, State.count_tb, State.onTick_tb]

@[simp] theorem State.evTick_bind (s : State) (i : Nat) : (s.evTick i).bind = s.bind := by
  rw [State.evTick, State.count_bind, State.onTick_bind]

@[simp] theorem State.evTick_pair (s : State) (i : Nat) : (s.evTick i).pair = s.pair := by
  rw [State.evTick, State.count_pair, State.onTick_pair]

/-! ### References -/

section

variable {s : State} {d : Int}

/-- While a time base is LOCKED a reference is only counted (R23). -/
theorem State.reference_of_locked (h : s.tb.lock = .locked) (d : Int) :
    s.reference d = s.onTb fun t => { t with offset := d, lastRef := t.time }.counted d := by
  simp only [State.reference, h]
  rfl

/-- The sixteenth reference within limit locks an ACQUIRING time base (R22, R23). -/
theorem State.reference_of_acquiring (h : s.tb.lock = .acquiring) (hd : ¬ d < -100) :
    s.reference d = s.onTb fun t => ({ t with offset := d, lastRef := t.time }.counted d).lockIf := by
  simp only [State.reference, h, hd, decide_false, Bool.and_false]
  rfl

theorem TimeBase.counted_of_inLock (t : TimeBase) (hlo : -100 ≤ d) (hhi : d ≤ 100) :
    t.counted d = { t with inLimit := t.inLimit + 1 } := by
  simp [TimeBase.counted, inLock, hlo, hhi]

theorem State.ppsEdge_of_pps (hb : s.bound = true) (hsrc : s.tb.discSrc = 2)
    (hd : d = (s.tb.time : Int) - (s.tb.seconds.toNat * 1000000000 : Nat)) :
    s.ppsEdge = (s.reference d).onTb fun t => { t with seconds := t.seconds + 1 } := by
  rw [State.ppsEdge, if_neg (by simp [State.discSrc, hb, hsrc]), hd]

end

/-- Settles O11: PPS_EDGE is a reference offset, counted in LOCKED and locking at the sixteenth in ACQUIRING; the loss needs only the
1.5 s of the PPS source to have passed. -/
theorem timeBaseReferences : Obligations.TimeBaseReferences := by
  unfold Obligations.TimeBaseReferences
  refine ⟨?locked, ?acquiring, ?holdover, fun s present inRange => rfl⟩
  case locked =>
    intro s d hl hb hsrc hlock hd hlo hhi
    refine (next_of_live hl _).trans ?_
    rw [State.ppsEdge_of_pps hb hsrc hd, State.reference_of_locked hlock]
    simp only [TimeBase.counted_of_inLock _ hlo hhi]
    rfl
  case acquiring =>
    intro s d hl hb hsrc hlock hin hd hlo hhi
    refine (next_of_live hl _).trans ?_
    rw [State.ppsEdge_of_pps hb hsrc hd, State.reference_of_acquiring hlock (by omega)]
    simp only [TimeBase.counted_of_inLock _ hlo hhi, TimeBase.lockIf, State.onTb, hin]
    rfl
  case holdover =>
    intro s hl hb hsrc hlock hlost
    have heff : s.tbHoldover = (s.onTb fun t => { t with lock := .holdover, inLimit := 0 }).evTick 11 := by
      simp [State.tbHoldover, State.discSrc, State.lossNs, hb, hsrc, hlock, hlost]
    refine ⟨commit s.tbHoldover, next_of_live hl _, ?_, ?_, ?_⟩
    · rw [heff, commit_tb, State.evTick_tb]
      rfl
    · rw [heff, commit_tick, State.evTick_tick]
      rfl
    · rw [heff]
      exact onlyIn_commit (onlyIn_trans (onlyIn_onTb _ (by decide)) (onlyIn_evTick _ (by decide) (by decide)))

end Sys2Proof.Machine

/-! What frames sent and the service of leaves in their tiers can change (spec/11, spec/15): frames go through the ring's ports, and
leaves that are lost or whose spill ends change the leaf map, the ports and the messages sent. -/

namespace Sys2Proof.Machine

variable {ps : List Part} {s t u : State}

/-! ### Operations on the leaves -/

theorem onlyIn_onLeafE (l : Nat) (f : LeafEntry → LeafEntry) (h : Part.leaf ∈ ps) : OnlyIn ps s (s.onLeafE l f) :=
  onlyIn_onLeaf (fun x => { x with map := x.map.upd l f }) h

theorem onlyIn_xferDrop (l : Nat) (h : Part.leaf ∈ ps) : OnlyIn ps s (s.xferDrop l) :=
  onlyIn_onLeaf (fun x => { x with xfers := x.xfers.filter fun y => y.leaf != l }) h

theorem onlyIn_retain (ch slot pub : Nat) (h : Part.leaf ∈ ps) : OnlyIn ps s (s.retain ch slot pub) :=
  onlyIn_onLeaf (fun x => { x with retained := x.retained ++ [{ channel := ch, slot := slot, pub := pub }] }) h

theorem onlyIn_tookFree (n : Nat) (h : Part.freeCount ∈ ps) : OnlyIn ps s (s.tookFree n) := onlyIn_onFreeCount _ h

/-! ### Frames on lanes -/

theorem onlyIn_laneSend (lane dest typ : Nat) (b : List Byte) : OnlyIn [.ring, .sent] s (s.laneSend lane dest typ b) := by
  unfold State.laneSend
  split
  · exact onlyIn_refl _ _
  · split
    · exact onlyIn_frameOut _ _
    · exact onlyIn_refl _ _

theorem onlyIn_tierFree (t : Tier) (k site slot : Nat) : OnlyIn [.leaf, .ring, .sent] s (s.tierFree t k site slot) := by
  have herase : OnlyIn [.leaf, .ring, .sent] s (s.onLeaf fun x => { x with tiers := x.tiers.erase (s.tierKey t k site slot) }) :=
    onlyIn_onLeaf _ (by decide)
  unfold State.tierFree
  dsimp only
  split
  · split
    · exact onlyIn_then herase (onlyIn_laneSend ..) (by decide)
    · exact herase
  · exact herase

/-- The parts that a leaf's loss or the end of its spill can change. -/
abbrev tierParts : List Part := [.leaf, .ring, .sent, .cnt]

theorem onlyIn_leafLose (l : Nat) : OnlyIn tierParts s (s.leafLose l) := by
  unfold State.leafLose
  dsimp only
  refine onlyIn_trans (onlyIn_trans (onlyIn_trans ?_ (onlyIn_xferDrop l (by decide))) (onlyIn_onLeafE l _ (by decide)))
    (onlyIn_evLeaf _ _ (by decide) (by decide))
  split
  · exact onlyIn_refl _ _
  · exact onlyIn_mono (onlyIn_tierFree ..) (by decide)

theorem onlyIn_spillAbandon (l : Nat) : OnlyIn tierParts s (s.spillAbandon l) := by
  unfold State.spillAbandon
  split
  · split
    · exact onlyIn_refl _ _
    · exact onlyIn_trans (onlyIn_trans (onlyIn_mono (onlyIn_tierFree ..) (by decide)) (onlyIn_xferDrop l (by decide)))
        (onlyIn_onLeafE l _ (by decide))
  · exact onlyIn_refl _ _

theorem onlyIn_spillEnd (l ack : Nat) : OnlyIn tierParts s (s.spillEnd l ack) := by
  unfold State.spillEnd
  split
  · exact onlyIn_refl _ _
  · split
    · exact onlyIn_refl _ _
    · split
      · exact onlyIn_trans (onlyIn_trans (onlyIn_spillAbandon l) (onlyIn_onLeaf _ (by decide)))
          (onlyIn_evLeaf _ _ (by decide) (by decide))
      · split
        · exact onlyIn_spillAbandon l
        · exact onlyIn_trans (onlyIn_trans (onlyIn_retain _ _ _ (by decide)) (onlyIn_xferDrop l (by decide)))
            (onlyIn_onLeafE l _ (by decide))

theorem onlyIn_tierLost (t : Tier) (site : Nat) (k : Option Nat) : OnlyIn tierParts s (s.tierLost t site k) := by
  unfold State.tierLost
  refine onlyIn_foldl _ (fun s e => ?_) _ _
  split
  · exact onlyIn_refl _ _
  · split
    · exact onlyIn_leafLose e.1
    · split
      · split
        · exact onlyIn_spillEnd ..
        · exact onlyIn_refl _ _
      · exact onlyIn_refl _ _

theorem onlyIn_clearTags (keep : ServeSlot → Bool) (h : Part.ring ∈ ps) : OnlyIn ps s (s.clearTags keep) :=
  onlyIn_onRing (fun r => { r with serve := r.serve.updAll (r.serve.map (·.1)) fun _ g => g.clearUnless keep }) h

/-! ### The ring controller apart from its ports -/

/-- Two states whose ring controllers differ in their ports alone. -/
def PortsOnly (s t : State) : Prop := ∃ p, t.ring = { s.ring with ports := p }

theorem portsOnly_refl (s : State) : PortsOnly s s := ⟨s.ring.ports, rfl⟩

theorem portsOnly_trans (h : PortsOnly s t) (k : PortsOnly t u) : PortsOnly s u := by
  obtain ⟨p, hp⟩ := h
  obtain ⟨q, hq⟩ := k
  exact ⟨q, by rw [hq, hp]⟩

theorem portsOnly_of_ring (h : t.ring = s.ring) : PortsOnly s t := ⟨s.ring.ports, h⟩

theorem portsOnly_onRport (p : Nat) (f : RPort → RPort) : PortsOnly s (s.onRport p f) := ⟨s.ring.ports.upd p f, rfl⟩

theorem PortsOnly.absent (h : PortsOnly s t) : t.ring.absent = s.ring.absent := by
  obtain ⟨p, hp⟩ := h
  rw [hp]

theorem PortsOnly.serve (h : PortsOnly s t) : t.ring.serve = s.ring.serve := by
  obtain ⟨p, hp⟩ := h
  rw [hp]

theorem portsOnly_frameOut (p : Nat) (f : RFrame) : PortsOnly s (s.frameOut p f) := by
  unfold State.frameOut
  dsimp only
  split
  · exact portsOnly_onRport ..
  · exact portsOnly_onRport ..

/-! ### What holds of every frame sent holds of the operations that send frames -/

/-- A relation of states that speaks of the ring controller alone and that sending a frame keeps. -/
structure FrameClosed (R : State → State → Prop) : Prop where
  trans : ∀ {s t u : State}, R s t → R t u → R s u
  ofRing : ∀ {s t : State}, t.ring = s.ring → R s t
  frameOut : ∀ (s : State) (p : Nat) (f : RFrame), R s (s.frameOut p f)

namespace FrameClosed

variable {R : State → State → Prop} (h : FrameClosed R)

include h

theorem refl (s : State) : R s s := h.ofRing rfl

theorem foldl {α : Type} (f : State → α → State) (hf : ∀ s x, R s (f s x)) (l : List α) (s : State) :
    R s (l.foldl f s) := by
  induction l generalizing s with
  | nil => exact h.refl s
  | cons x r ih => exact h.trans (hf s x) (ih (f s x))

theorem broadcast (s : State) (typ : Nat) (b : List Byte) : R s (s.broadcast typ b) := by
  unfold State.broadcast
  refine h.foldl _ (fun s p => ?_) _ _
  split
  · exact h.frameOut ..
  · exact h.refl _

theorem sendRingEvent (s : State) (k m n : Nat) : R s (s.sendRingEvent k m n) := by
  unfold State.sendRingEvent
  split
  · exact h.refl _
  · exact h.broadcast ..

theorem laneSend (s : State) (lane dest typ : Nat) (b : List Byte) : R s (s.laneSend lane dest typ b) := by
  unfold State.laneSend
  split
  · exact h.refl _
  · split
    · exact h.frameOut ..
    · exact h.refl _

theorem tierFree (s : State) (t : Tier) (k site slot : Nat) : R s (s.tierFree t k site slot) := by
  unfold State.tierFree
  dsimp only
  split
  · split
    · refine h.trans ?_ (h.laneSend ..)
      exact h.ofRing rfl
    · exact h.ofRing rfl
  · exact h.ofRing rfl

theorem leafLose (s : State) (l : Nat) : R s (s.leafLose l) := by
  unfold State.leafLose
  dsimp only
  refine h.trans ?_ (h.ofRing (State.evLeaf_ring ..))
  split
  · exact h.ofRing rfl
  · exact h.trans (h.tierFree ..) (h.ofRing rfl)

theorem spillAbandon (s : State) (l : Nat) : R s (s.spillAbandon l) := by
  unfold State.spillAbandon
  split
  · split
    · exact h.refl _
    · exact h.trans (h.tierFree ..) (h.ofRing rfl)
  · exact h.refl _

theorem spillEnd (s : State) (l ack : Nat) : R s (s.spillEnd l ack) := by
  unfold State.spillEnd
  split
  · exact h.refl _
  · split
    · exact h.refl _
    · split
      · exact h.trans (h.trans (h.spillAbandon s l) (h.ofRing rfl)) (h.ofRing (State.evLeaf_ring ..))
      · split
        · exact h.spillAbandon s l
        · exact h.ofRing rfl

theorem tierLost (s : State) (t : Tier) (site : Nat) (k : Option Nat) : R s (s.tierLost t site k) := by
  unfold State.tierLost
  refine h.foldl _ (fun s e => ?_) _ _
  split
  · exact h.refl _
  · split
    · exact h.leafLose s e.1
    · split
      · split
        · exact h.spillEnd ..
        · exact h.refl _
      · exact h.refl _

end FrameClosed

theorem portsOnly_frameClosed : FrameClosed PortsOnly :=
  { trans := portsOnly_trans, ofRing := portsOnly_of_ring, frameOut := fun _ _ _ => portsOnly_frameOut .. }

end Sys2Proof.Machine

/-! The ring's tick protocol (spec/02, R43 to R49, R53): READY, the marker, ABSENT and the loss of the leader. -/

namespace Sys2Proof.Machine

/-! ### What the binding and the plan are read from -/

section

variable {s t : State}

theorem State.b_congr (h : t.bind = s.bind) : t.b = s.b := by
  unfold State.b
  rw [h]

theorem State.member_congr (hb : t.bind = s.bind) (hk : t.keep = s.keep) : t.member = s.member := by
  unfold State.member
  rw [State.b_congr hb, hk]

theorem State.memberIdx_congr (hb : t.bind = s.bind) (hk : t.keep = s.keep) : t.memberIdx = s.memberIdx := by
  unfold State.memberIdx
  rw [State.member_congr hb hk]

theorem State.block_congr (hb : t.bind = s.bind) (hc : t.chk = s.chk) (hp : t.pwr = s.pwr) : t.block = s.block := by
  unfold State.block State.benchedChans State.chanBenched
  rw [State.b_congr hb, hc, hp]

theorem State.actPlan_congr (hb : t.bind = s.bind) (hc : t.chk = s.chk) (hp : t.pwr = s.pwr) (a : Nat) :
    t.actPlan a = s.actPlan a := by
  unfold State.actPlan
  rw [State.block_congr hb hc hp]

theorem State.waited_congr (hp : t.pair = s.pair) (hr : t.ring = s.ring) : t.waited = s.waited := by
  unfold State.waited
  rw [hp, hr]

end

/-! ### Bits -/

theorem getLsbD_bitSet_self {w : Nat} (v : BitVec w) {i : Nat} (h : i < w) : (bitSet v i).getLsbD i = true := by
  rw [bitSet, BitVec.getLsbD_or, BitVec.getLsbD_ofNat, Nat.testBit_two_pow_self]
  simp [h]

/-! ### READY missing -/

section

variable {s : State}

theorem State.missing_of_not_readyDue (h : s.readyDue = false) : s.missing = s.waited &&& ~~~ s.tick.ready := by
  simp [State.missing, h]

/-- READY is not due while STRETCH work is outstanding (R43). -/
theorem State.readyDue_of_stretchOut (h : s.stretchOut = true) : s.readyDue = false := by
  simp [State.readyDue, h]

/-- Nor where STRETCH work of the tick was abandoned (R43). -/
theorem State.readyDue_of_abandoned {a : Nat} (hmem : a ∈ s.b.actList) (hover : (s.actPlan a).overrun = 0)
    (habandoned : (s.act a).abandoned = true) : s.readyDue = false := by
  have hany : (s.b.actList.any fun a => (s.actPlan a).overrun == 0 && (s.act a).abandoned) = true :=
    List.any_eq_true.2 ⟨a, hmem, by simp [hover, habandoned]⟩
  simp [State.readyDue, hany]

/-- An activity's own run after an update, in a table of any form. -/
theorem State.act_onAct_of_ne_default {a : Nat} {f : Act → Act} (h : f (s.act a) ≠ default) : (s.onAct a f).act a = f (s.act a) := by
  have hput : (s.onAct a f).acts = s.acts.put a (f (s.act a)) := if_neg h
  rw [State.act, hput, Tab.get_put, if_pos rfl]

/-- An activity just abandoned shows it. -/
theorem State.abandon_act_abandoned (a : Nat) : ((s.abandon a).act a).abandoned = true := by
  unfold State.abandon
  rw [State.act_onAct_of_ne_default fun h => absurd (congrArg Act.abandoned h) (by simp [default, instInhabitedAct.default])]

/-- With STRETCH work outstanding, the hold's expiry leaves some of it abandoned (R38). -/
theorem State.stretchDrop_abandoned (h : s.stretchOut = true) :
    ∃ a ∈ s.b.actList, (s.actPlan a).overrun = 0 ∧ (s.stretchDrop.act a).abandoned = true := by
  have hne : s.outstandingOf 0 ≠ [] := by simpa [State.stretchOut] using h
  obtain ⟨before, a, hlast⟩ := (List.eq_nil_or_concat (s.outstandingOf 0)).resolve_left hne
  obtain ⟨hmem, hwhy⟩ : a ∈ s.b.actList ∧ ((s.actPlan a).overrun == 0 && s.outstanding a) = true :=
    List.mem_filter.1 (show a ∈ s.outstandingOf 0 by simp [hlast])
  rw [Bool.and_eq_true, beq_iff_eq] at hwhy
  refine ⟨a, hmem, hwhy.1, ?_⟩
  rw [State.stretchDrop, hlast, List.concat_eq_append, List.foldl_append]
  have hevent : ∀ (u : State) (i a : Nat), (u.evTick i).act a = u.act a := fun u i a => by
    simp [State.act, State.evTick]
  simp only [List.foldl_cons, List.foldl_nil, hevent]
  exact State.abandon_act_abandoned _

/-- What is missing when the hold has expired is what was missing before (R43, R45). -/
theorem State.missing_stretchDrop (s : State) : s.stretchDrop.missing = s.missing := by
  have hframe : OnlyIn workParts s s.stretchDrop := onlyIn_stretchDrop
  obtain ⟨e, he⟩ := eventsOnly_stretchDrop (s := s)
  cases hout : s.stretchOut with
  | false =>
    have hnil : s.outstandingOf 0 = [] := by simpa [State.stretchOut] using hout
    rw [State.stretchDrop, hnil, List.foldl_nil]
  | true =>
    obtain ⟨a, hmem, hover, habandoned⟩ := State.stretchDrop_abandoned hout
    have hbind := hframe.rest .bind (by decide)
    rw [← State.b_congr hbind] at hmem
    rw [← State.actPlan_congr hbind (hframe.rest .chk (by decide)) (hframe.rest .pwr (by decide))] at hover
    rw [State.missing_of_not_readyDue (State.readyDue_of_abandoned hmem hover habandoned),
      State.missing_of_not_readyDue (State.readyDue_of_stretchOut hout),
      State.waited_congr (hframe.rest .pair (by decide)) (hframe.rest .ring (by decide)), he]

/-- Where no boundary waits, a READY ends no wait. -/
theorem State.waitDone_of_not_waiting (h : s.tick.waiting = false) : s.waitDone = s := by
  simp [State.waitDone, h]

/-- Outside a wait, the leader only holds the READY of a member it has admitted (R43). -/
theorem State.readyTake_of_held {m : Nat} (hadm : s.pair.admittedSet.getLsbD m = true) (habs : s.ring.absent.getLsbD m = false)
    (hwait : s.tick.waiting = false) : s.readyTake m = s.onTick fun t => { t with ready := bitSet t.ready m } := by
  unfold State.readyTake
  simp only [hadm, habs, Bool.not_false, Bool.and_self, if_true]
  exact State.waitDone_of_not_waiting hwait

end

/-! ### The marker -/

/-- The marker that a leader issues. -/
def State.markerOf (s : State) (late : BitVec 6) : Marker :=
  { src := s.memberIdx, tick := if s.tick.running then s.tick.num + 1 else 0, launch := s.tb.time + s.b.markerLead
    profile := s.planSel.1, planGen := s.planSel.2, filler := s.tick.pendFiller, late := late }

/-- Issuing the marker takes it for the next boundary and ends the wait; the tick's role stays (R44, R45). -/
theorem State.markerIssue_tick (s : State) (late : BitVec 6) :
    (s.markerIssue late).tick.launch = some (s.markerOf late) ∧ (s.markerIssue late).tick.waiting = false ∧
      (s.markerIssue late).tick.role = s.tick.role ∧ (s.markerIssue late).tick.leader = s.tick.leader := by
  unfold State.markerIssue
  extract_lets m w s1
  obtain ⟨e, he⟩ : EventsOnly s1 ((s1.broadcast 3 (m.bytes s.tb.time)).suspects).pairUpdate :=
    eventsOnly_trans (eventsOnly_trans (eventsOnly_of_frame (onlyIn_broadcast ..) (by decide)) eventsOnly_suspects)
      (eventsOnly_of_frame onlyIn_pairUpdate (by decide))
  rw [he]
  exact ⟨rfl, rfl, rfl, rfl⟩

section

variable {s : State} {m : Marker}

/-- A first copy of a marker, not measured against and not the first since the cold bind, is the next boundary (R44). -/
theorem State.markerEff_of_new (hnew : s.markerNew m.src m.tick = true) (hdisc : s.discSrc ≠ 3)
    (hfirst : s.pair.firstMarker.isSome = true) (issue corr : Nat) :
    s.markerEff m issue corr = if m.launch < s.tb.time
      then (s.onTick fun t => { t with launch := some m, waiting := false }).evTick 6
      else s.onTick fun t => { t with launch := some m, waiting := false } := by
  unfold State.markerEff
  rw [if_neg (by simp [hnew])]
  simp only [if_neg hdisc, State.firstMark, hfirst, if_true]
  rfl

end

/-! ### ABSENT -/

theorem onlyIn_takeAbsent {s : State} (m : Nat) : OnlyIn [.pair, .leaf, .ring, .sent, .cnt] s (s.takeAbsent m) := by
  unfold State.takeAbsent
  dsimp only
  refine onlyIn_trans ?_ (onlyIn_mono onlyIn_pairUpdate (by decide))
  split
  · exact onlyIn_trans (onlyIn_onPair _ (by decide)) (onlyIn_onPair _ (by decide))
  · exact onlyIn_trans (onlyIn_then (onlyIn_onPair _ (by decide)) (onlyIn_tierLost ..) (by decide))
      (onlyIn_clearTags _ (by decide))

/-- Taking a member for ABSENT does not change which members the leader holds ABSENT. -/
theorem State.takeAbsent_absent (s : State) (m : Nat) : (s.takeAbsent m).ring.absent = s.ring.absent := by
  unfold State.takeAbsent
  dsimp only
  rw [State.pairUpdate_ring]
  split
  · rfl
  · exact (portsOnly_frameClosed.tierLost (s.onPair _) ..).absent

section

variable {s : State} {m : Nat}

/-- Outside a wait, a leader that holds a member ABSENT marks it and sets event bit 9, and issues no marker (R47). -/
theorem State.leaderAbsent_of_not_waiting (h : s.tick.waiting = false) :
    s.leaderAbsent m = ((s.onRing fun r => { r with absent := bitSet r.absent m }).takeAbsent m).evTick 9 := by
  unfold State.leaderAbsent
  simp only [h, Bool.false_and, Bool.false_eq_true, if_false]
  refine State.waitDone_of_not_waiting ?_
  rw [State.evTick_tick, (onlyIn_takeAbsent m).rest .tick (by decide)]
  exact h

theorem State.leaderAbsent_tick (h : s.tick.waiting = false) :
    (s.leaderAbsent m).tick = { s.tick with events := bitSet s.tick.events 9 } := by
  rw [State.leaderAbsent_of_not_waiting h, State.evTick_tick, (onlyIn_takeAbsent m).rest .tick (by decide)]
  rfl

theorem State.leaderAbsent_absent (h : s.tick.waiting = false) : (s.leaderAbsent m).ring.absent = bitSet s.ring.absent m := by
  rw [State.leaderAbsent_of_not_waiting h, State.evTick, State.count_ring, State.onTick_ring, State.takeAbsent_absent]
  rfl

end

/-! ### The loss of the leader -/

section

variable {s : State}

/-- A follower whose marker is overdue sets event bit 7 and turns to the next leader (R49). -/
theorem State.leaderLostEff_of_overdue (hm : s.isMember = true) (hrole : s.tick.role = .follower) (hrun : s.tick.running = true)
    (hlaunch : s.tick.launch = none) (hdue : s.markerDeadline ≤ s.tb.time) {m : Nat} (hnext : s.nextLeader = some m) :
    s.leaderLostEff =
      if m = s.memberIdx then
        ((((s.evTick 7).onTick fun t => { t with lastLaunch := s.tb.time }).setRole .leader m).onTick fun t => { t with
          nominal := some s.tb.time, lastNominal := s.tb.time, pendFiller := false, ready := 0, noReady := [] }).markerIssue 0x3F
      else ((s.evTick 7).onTick fun t => { t with lastLaunch := s.tb.time }).setRole .follower m := by
  unfold State.leaderLostEff
  rw [if_neg (by simp [hm, hrole, hrun, hlaunch, hdue]), hnext]

theorem State.setRole_of_same {r : TickRole} (h : s.tick.role = r) (leader : Nat) :
    s.setRole r leader = s.onTick fun t => { t with role := r, leader := leader } := if_pos h

theorem State.setRole_tick (r : TickRole) (leader : Nat) :
    (s.setRole r leader).tick = { s.tick with role := r, leader := leader } := by
  unfold State.setRole
  dsimp only
  split
  · rfl
  · exact (onlyIn_roleChange (ps := [.mbx, .pwr, .cnt]) 0x40 (by decide) (by decide) (by decide)).rest .tick (by decide)

end

/-- Settles O13: each event runs its own effect; what a marker's broadcast, the SUSPECT events and the pair's bookkeeping do to the tick is
no more than its event bits. -/
theorem ringTickProtocol : Obligations.RingTickProtocol := by
  unfold Obligations.RingTickProtocol
  refine ⟨?ready, ?mismatch, ?held, ?expire, ?marker, ?markerLate, ?absent, ?nextLeads, ?leads⟩
  case ready =>
    intro s hl hdue hrole
    have heff : s.readyEff = (s.onTick fun t => { t with readySent := true }).sendReady := by
      simp [State.readyEff, hdue, hrole]
    have hsend : OnlyIn [.ring, .sent] (s.onTick fun t => { t with readySent := true })
        (s.onTick fun t => { t with readySent := true }).sendReady := onlyIn_laneZero ..
    refine ⟨commit s.readyEff, next_of_live hl _, ?_, ?_⟩
    · rw [commit_tick, heff, hsend.rest .tick (by decide)]
      rfl
    · rw [heff]
      exact onlyIn_commit (onlyIn_then (onlyIn_onTick _ (by decide)) hsend (by decide))
  case mismatch =>
    intro s m planGen hl hmem hrun hrole hother hrec hgen
    have heff : s.readyReceivedEff m s.tick.num planGen = s.evTick 8 := by
      simp [State.readyReceivedEff, hmem, hrun, hrole, hother, hrec, hgen]
    refine ⟨commit (s.readyReceivedEff m s.tick.num planGen), next_of_live hl _, ?_, ?_⟩
    · rw [commit_tick, heff, State.evTick_tick]
      rfl
    · rw [heff]
      exact onlyIn_commit (onlyIn_evTick _ (by decide) (by decide))
  case held =>
    intro s m hl hmem hrun hrole hother hrec hadm habs hwait
    refine (next_of_live hl _).trans ?_
    have heff : s.readyReceivedEff m s.tick.num s.planGen = s.readyTake m := by
      simp [State.readyReceivedEff, hmem, hrun, hrole, hother, hrec]
    rw [heff, State.readyTake_of_held hadm habs hwait]
    rfl
  case expire =>
    intro s n hl hrun hrole hwait hnom hdue
    have heff : s.waitExpire = s.stretchDrop.markerIssue s.stretchDrop.missing := by
      simp [State.waitExpire, hnom, hwait, hdue]
    have hframe : OnlyIn workParts s s.stretchDrop := onlyIn_stretchDrop
    obtain ⟨e, he⟩ := eventsOnly_stretchDrop (s := s)
    obtain ⟨hlaunch, hwaiting, -, -⟩ := s.stretchDrop.markerIssue_tick s.stretchDrop.missing
    refine ⟨commit s.waitExpire, s.stretchDrop.markerOf s.stretchDrop.missing, next_of_live hl _, ?_, ?_, ?_, ?_, s.missing_stretchDrop⟩
    · rw [commit_tick, heff, hlaunch]
    · rw [commit_tick, heff, hwaiting]
    · simp [State.markerOf, he, hrun]
    · rw [State.markerOf, hframe.rest .tb (by decide), State.b_congr (hframe.rest .bind (by decide))]
  case marker =>
    intro s port src tick launch issue corr profile planGen isFiller late hl hnew hdisc hfirst htime
    refine (next_of_live hl _).trans ?_
    rw [State.markerEff_of_new hnew hdisc hfirst, if_neg (Nat.not_lt.2 htime)]
    rfl
  case markerLate =>
    intro s port src tick launch issue corr profile planGen isFiller late hl hnew hdisc hfirst htime
    refine ⟨_, next_of_live hl _, ?_, ?_⟩
    · rw [commit_tick, State.markerEff_of_new hnew hdisc hfirst, if_pos htime, State.evTick_tick]
      rfl
    · rw [State.markerEff_of_new hnew hdisc hfirst, if_pos htime]
      exact onlyIn_commit (onlyIn_trans (onlyIn_onTick _ (by decide)) (onlyIn_evTick _ (by decide) (by decide)))
  case absent =>
    intro s m hl hdue hwait
    have heff : s.memberAbsentEff m = (s.leaderAbsent m).sendRingEvent 0 m s.tick.num := if_pos hdue
    refine ⟨commit (s.memberAbsentEff m), next_of_live hl _, ?_, ?_⟩
    · rw [commit_ring, heff, (portsOnly_frameClosed.sendRingEvent ..).absent, State.leaderAbsent_absent hwait]
      exact getLsbD_bitSet_self _ m.isLt
    · rw [commit_tick, heff, (onlyIn_sendRingEvent ..).rest .tick (by decide), State.leaderAbsent_tick hwait]
      exact getLsbD_bitSet_self _ (by decide)
  case nextLeads =>
    intro s m hl hmem hrole hrun hlaunch hdue hnext hother
    have heff := State.leaderLostEff_of_overdue hmem hrole hrun hlaunch hdue hnext
    have hsame : ((s.evTick 7).onTick fun t => { t with lastLaunch := s.tb.time }).tick.role = .follower := by
      simp [hrole]
    rw [if_neg hother, State.setRole_of_same hsame] at heff
    refine ⟨commit s.leaderLostEff, next_of_live hl _, ?_, ?_⟩
    · rw [heff]
      exact onlyIn_commit (onlyIn_trans (onlyIn_trans (onlyIn_evTick _ (by decide) (by decide)) (onlyIn_onTick _ (by decide)))
        (onlyIn_onTick _ (by decide)))
    · simp only [heff, commit_tick, State.onTick_tick, State.evTick_tick, ← hrole]
      rfl
  case leads =>
    intro s hl hmem hrole hrun hlaunch hdue hnext
    have heff := State.leaderLostEff_of_overdue hmem hrole hrun hlaunch hdue hnext
    rw [if_pos rfl] at heff
    generalize hu : ((((s.evTick 7).onTick fun t => { t with lastLaunch := s.tb.time }).setRole .leader s.memberIdx).onTick fun t =>
      { t with nominal := some s.tb.time, lastNominal := s.tb.time, pendFiller := false, ready := 0, noReady := [] }) = u at heff
    have htick : u.tick.role = .leader ∧ u.tick.leader = s.memberIdx ∧ u.tick.running = true ∧ u.tick.num = s.tick.num := by
      simp [← hu, State.setRole_tick, hrun]
    obtain ⟨hlead, hidx, hrunning, hnum⟩ := htick
    obtain ⟨hmarker, -, hrole', hleader'⟩ := u.markerIssue_tick 0x3F
    refine ⟨commit s.leaderLostEff, u.markerOf 0x3F, next_of_live hl _, ?_, ?_, ?_, rfl, ?_⟩
    · rw [commit_tick, heff, hrole', hlead]
    · rw [commit_tick, heff, hleader', hidx]
    · rw [commit_tick, heff, hmarker]
    · simp [State.markerOf, hrunning, hnum]

end Sys2Proof.Machine

/-! BIND_CTRL (spec/03, R65 to R77; spec/20, R432): the rebind's validation and cancel, the active slot, SERIAL_FLOOR, and the cold bind
that ends MAINTENANCE. -/

namespace Sys2Proof.Machine

/-! ### What a cold bind leaves -/

section

variable {s : State}

/-- The parts that a cold bind's work touches after the reset of the channels, beside the binding, the tick and the checking services. -/
abbrev coldWorkParts : List Part :=
  [.ksi, .host, .freeCount, .gddr, .pwr, .spad, .mbx, .cnt, .ing, .sent, .tb, .cons, .keep, .start]

theorem onlyIn_coldWork : OnlyIn coldWorkParts s s.bindSeal.bindPower.bindIngest.discStart :=
  onlyIn_then (onlyIn_then (onlyIn_then (onlyIn_mono onlyIn_bindSeal (by decide)) onlyIn_bindPower (by decide))
    onlyIn_bindIngest (by decide)) onlyIn_discStart (by decide)

theorem State.bindRing_running (s : State) : s.bindRing.tick.running = s.tick.running := by
  unfold State.bindRing
  extract_lets lead role
  rw [onlyIn_bypassUpdate.rest .tick (by decide)]
  rfl

/-- A cold binding taken: MAINTENANCE is over, no tick runs, and the module is BOUND by it (R67, R432). -/
theorem State.coldTake_taken (s : State) (r : Running) (fallback : Bool) (e : Option BindErr) :
    (s.coldTake r fallback e).chk.maintenance = false ∧ (s.coldTake r fallback e).tick.running = false ∧
      (s.coldTake r fallback e).bind.cold = .bound ∧ (s.coldTake r fallback e).bind.running = some r ∧
      (s.coldTake r fallback e).bind.fallback = fallback := by
  unfold State.coldTake
  extract_lets c s1 s2 s3 s4 s5
  have hreset : s1.chk.maintenance = false ∧ s1.tick.running = false ∧ s1.bind.cold = .bound ∧ s1.bind.running = some r ∧
      s1.bind.fallback = fallback := by
    cases e <;> exact ⟨rfl, rfl, rfl, rfl, rfl⟩
  clear_value s1
  have h2 : OnlyIn coldWorkParts s1 s2 := onlyIn_coldWork
  clear_value s2
  have h3 : OnlyIn coldWorkParts s1 s3 :=
    onlyIn_then (onlyIn_trans h2 (onlyIn_onCons _ (by decide))) onlyIn_replanStart (by decide)
  clear_value s3
  have h4 : OnlyIn coldWorkParts s1 s4 :=
    onlyIn_trans (onlyIn_then h3 (onlyIn_measure ..) (by decide)) (onlyIn_record _ (by decide))
  clear_value s4
  have h5 : s5.chk = s1.chk ∧ s5.bind = s1.bind ∧ s5.tick.running = s1.tick.running := by
    unfold s5
    rw [onlyIn_bindRing.rest .chk (by decide), onlyIn_bindRing.rest .bind (by decide), State.bindRing_running]
    exact ⟨h4.rest .chk (by decide), h4.rest .bind (by decide), congrArg Tick.running (h4.rest .tick (by decide))⟩
  clear_value s5
  have h6 : OnlyIn [.pwr, .cnt] s5 (if s5.pwr.pcapPin then (s5.onPwr fun p => { p with pcapPin := false }).fastStep else s5) :=
    onlyIn_ite (fun _ => onlyIn_then (onlyIn_onPwr _ (by decide)) onlyIn_fastStep (by decide)) fun _ => onlyIn_refl _ _
  rw [h6.rest .chk (by decide), h6.rest .tick (by decide), h6.rest .bind (by decide), h5.1, h5.2.1, h5.2.2]
  exact hreset

/-- Both slots failed: MAINTENANCE is over, no tick runs, and the module is UNBOUND with the first slot's error (R67, R432). -/
theorem State.coldFail_failed (s : State) (e f : BindErr) :
    (s.coldFail e f).chk.maintenance = false ∧ (s.coldFail e f).tick.running = false ∧ (s.coldFail e f).bind.cold = .unbound ∧
      (s.coldFail e f).bind.running = none ∧ (s.coldFail e f).bind.slotErr = e.code := by
  unfold State.coldFail
  extract_lets s1
  rw [onlyIn_bypassUpdate.rest .chk (by decide), onlyIn_bypassUpdate.rest .tick (by decide), onlyIn_bypassUpdate.rest .bind (by decide)]
  exact ⟨rfl, rfl, rfl, rfl, rfl⟩

/-- The cold bind tries the active slot and then the other (R67). -/
theorem State.coldBind_eq {u : State} (hu : u = (s.onBind fun x => { x with cold := .validating }).bypassUpdate) :
    s.coldBind = match validateCold u (u.slotBytes s.bind.activeSlot) with
      | .ok r => u.coldTake r false none
      | .error e => match validateCold u (u.slotBytes (!s.bind.activeSlot)) with
        | .ok r => u.coldTake r true (some e)
        | .error f => u.coldFail e f := by
  have hslot : u.bind.activeSlot = s.bind.activeSlot := by
    rw [hu, onlyIn_bypassUpdate.rest .bind (by decide)]
    rfl
  subst hu
  rw [← hslot]
  rfl

/-- A validation that fails rejects the rebind (R69, R72, R344). -/
theorem State.rebindDone_of_error {x : List Byte} {run : Running} (hx : s.bind.inCheck = some x) (hr : s.bind.running = some run)
    {e : BindErr} (hv : validateRebind s run x = .error e) :
    s.rebindDone = (s.onHost fun h => { h with bindIrq := true }).onBind fun y =>
      ({ y with rebind := .rejected, inCheck := none, staged := none } : Bind).errs true (some e) := by
  simp only [State.rebindDone, hx, hr, hv]

/-- A validation that passes stages the rebind (R69, R72, R344). -/
theorem State.rebindDone_of_ok {x : List Byte} {run m : Running} (hx : s.bind.inCheck = some x) (hr : s.bind.running = some run)
    (hv : validateRebind s run x = .ok m) :
    s.rebindDone = (s.onHost fun h => { h with bindIrq := true }).onBind fun y =>
      ({ y with rebind := .staged, inCheck := none, staged := some m, stagedSerial := (colophonOf x).serial
                activate := (colophonOf x).activateTick } : Bind).errs true none := by
  simp only [State.rebindDone, hx, hr, hv]

end

/-- Settles O14: each command's own guard and effect; MAINT_EXIT is a cold bind from the state whose bypass has closed. -/
theorem bindControl : Obligations.BindControl := by
  unfold Obligations.BindControl
  refine ⟨?validate, ?validateBusy, ?validated, ?cancel, ?select, ?confirm, ?maintExit⟩
  case validate =>
    intro s hl hb hv hs
    refine (next_of_live hl _).trans ?_
    rw [State.rebindValidate, hb]
    simp only [beq_false_of_ne hv, beq_false_of_ne hs]
    rfl
  case validateBusy =>
    intro s hl hb hs
    have heff : s.rebindValidate = (s.onBind fun x => x.errs true (some { code := 0x806, entry := 0x3D })).bindRefused := by
      simp [State.rebindValidate, hb, hs]
    refine ⟨commit s.rebindValidate, next_of_live hl _, ?_, ?_⟩
    · rw [heff]
      exact onlyIn_commit (onlyIn_trans (onlyIn_onBind _ (by decide)) (onlyIn_count _ _ _ _ (by decide)))
    · rw [commit_bind, heff, State.bindRefused, State.count_bind]
      rfl
  case validated =>
    intro s x run hl hx hr
    refine ⟨commit s.rebindDone, next_of_live hl _, ?_⟩
    cases hv : validateRebind s run x with
    | error e =>
      rw [State.rebindDone_of_error hx hr hv]
      exact ⟨onlyIn_commit (onlyIn_trans (onlyIn_onHost _ (by decide)) (onlyIn_onBind _ (by decide))), rfl, rfl⟩
    | ok m =>
      rw [State.rebindDone_of_ok hx hr hv]
      exact ⟨onlyIn_commit (onlyIn_trans (onlyIn_onHost _ (by decide)) (onlyIn_onBind _ (by decide))), rfl, rfl, rfl, rfl, hr⟩
  case cancel =>
    intro s hl hs hbegun
    refine (next_of_live hl _).trans ?_
    rw [State.rebindCancel, hs, hbegun]
    rfl
  case select =>
    intro s hl
    refine ⟨commit s.coldSelect, next_of_live hl _, ?_⟩
    cases hcheck : stages1to6 s false (s.slotBytes (!s.bind.activeSlot)) with
    | none =>
      have heff : s.coldSelect = s.onBind fun x => { x with activeSlot := !x.activeSlot } := by simp [State.coldSelect, hcheck]
      rw [heff]
      exact ⟨onlyIn_commit (onlyIn_onBind _ (by decide)), rfl, rfl⟩
    | some e =>
      have heff : s.coldSelect = s.bindRefused := by simp [State.coldSelect, hcheck]
      rw [heff]
      exact ⟨onlyIn_commit (onlyIn_count _ _ _ _ (by decide)), s.count_bind 0x24 none none 1, rfl⟩
  case confirm =>
    intro s hl hb hf
    refine ⟨commit s.coldConfirm, next_of_live hl _, ?_⟩
    have heff : s.coldConfirm = (((s.onBind fun x => { x with
        serialFloor := max x.serialFloor s.b.col.serial
        confirmed := max x.serialFloor s.b.col.serial == s.b.col.serial }).record
      { kind := .serialFloor, vals := [s.b.col.serial] }).measureFree 5 0) := by
      simp [State.coldConfirm, hb, hf]
    rw [heff]
    refine ⟨?_, onlyIn_commit (onlyIn_then (onlyIn_trans (onlyIn_onBind _ (by decide)) (onlyIn_record _ (by decide)))
      (onlyIn_measureFree ..) (by decide))⟩
    rw [commit_bind, (onlyIn_measureFree ..).rest .bind (by decide)]
    rfl
  case maintExit =>
    intro s u hl hm hu
    refine ⟨commit s.maintExit, next_of_live hl _, ?_⟩
    have heff : s.maintExit = s.coldBind := if_pos hm
    rw [heff, State.coldBind_eq hu, commit_chk, commit_tick, commit_bind]
    cases validateCold u (u.slotBytes s.bind.activeSlot) with
    | ok r => exact u.coldTake_taken r false none
    | error e =>
      cases validateCold u (u.slotBytes (!s.bind.activeSlot)) with
      | ok r => exact u.coldTake_taken r true (some e)
      | error f => exact u.coldFail_failed e f

end Sys2Proof.Machine

/-! Protected writes (spec/05, R110, R111; R22): the first write that pends, its complement, and the end of the window. -/

namespace Sys2Proof.Machine

section

variable {s : State}

/-! ### REG_ERR of HOST_PF -/

theorem State.regErr_bus_host (s : State) (i : Nat) :
    (s.regErr 1 i).bus = { s.bus with regErr := s.bus.regErr.upd 1 fun e => bitSet e i } :=
  (s.regErr_bus 1 i).trans (if_pos (.inl rfl))

/-- The end of a command that only sets a bit in HOST_PF's REG_ERR, on a state whose bus alone was changed before (R117). -/
theorem commit_regErr_host_frame (s : State) (f : Bus → Bus) (i : Nat) :
    OnlyIn [.bus, .cnt] s (commit ((s.onBus f).regErr 1 i)) ∧
      (commit ((s.onBus f).regErr 1 i)).bus = { f s.bus with regErr := (f s.bus).regErr.upd 1 fun e => bitSet e i } ∧
      (commit ((s.onBus f).regErr 1 i)).cnt = (s.count (0x10 + i) none none 1).cnt := by
  refine ⟨onlyIn_commit (onlyIn_trans (onlyIn_onBus _ (by decide)) (onlyIn_regErr _ _ (by decide) (by decide))), ?_, ?_⟩
  · rw [commit_bus, State.regErr_bus_host, State.onBus_bus]
  · rw [commit_cnt, State.regErr_cnt, State.count_onBus_cnt]

/-! ### The window -/

/-- Until the window's end a pending write stands, and so does an entry that holds none (R110). -/
theorem State.wpLate_of_in_time {key : Nat} (h : (s.wpAt key).used = false ∨ s.tb.time ≤ (s.wpAt key).since + s.wpWindow) :
    s.wpLate key = s := by
  unfold State.wpLate
  split
  next hlate =>
    rw [decide_eq_true_iff] at hlate
    have hunused : (s.wpAt key).used = false := h.resolve_right (by omega)
    simp [State.wpExpire, hunused]
  · rfl

theorem State.wpExpire_of_ended {key : Nat} (hu : (s.wpAt key).used = true) (h : (s.wpAt key).since + s.wpWindow ≤ s.tb.time) :
    s.wpExpire key = (s.wpGone key).regErr (s.wpAt key).master 2 := by
  simp [State.wpExpire, hu, h]

/-! ### Both writes -/

variable {master off key : Nat} {r : Reg} {v : Word}

/-- The first write reaches the protected register at its offset. -/
theorem State.wpWriteEff_of_protected (hr : s.regAt master off = some r) (hk : r.wp = some key) (hoff : s.regOff r = false)
    (hd : s.regDenied master r = false) : s.wpWriteEff master off v = s.wpFirst master key v := by
  simp [State.wpWriteEff, State.write4, hr, hk, hoff, hd]

/-- The second write reaches it at the address after, where no other register sits. -/
theorem State.wpComplementEff_of_protected (hr : s.regAt master off = some r) (hk : r.wp = some key)
    (hnext : s.regAt master (off + 4) = none) (hal : off % 8 = 0) (hd : s.regDenied master r = false) :
    s.wpComplementEff master off v = s.wpSecond master key r v := by
  have hodd : (off + 4) % 8 = 4 := by omega
  simp [State.wpComplementEff, State.write4, hr, hk, hnext, hodd, hd]

theorem State.wpFirst_of_in_time (h : (s.wpAt key).used = false ∨ s.tb.time ≤ (s.wpAt key).since + s.wpWindow) :
    s.wpFirst master key v =
      if (s.wpAt key).used && (s.wpAt key).master != master then s.regErr master 3
      else s.onBus fun u => { u with wp := u.wp.set key { used := true, master := master, value := v, since := s.tb.time } } := by
  unfold State.wpFirst
  rw [State.wpLate_of_in_time h]

/-- In the window its master's second write takes effect where it is the complement, and drops the write otherwise. -/
theorem State.wpSecond_of_in_time (hu : (s.wpAt key).used = true) (hm : (s.wpAt key).master = master)
    (h : s.tb.time ≤ (s.wpAt key).since + s.wpWindow) :
    s.wpSecond master key r v = if v ≠ ~~~ (s.wpAt key).value then (s.wpGone key).regErr master 2
      else (s.wpGone key).wpTake master (s.wpAt key).value r := by
  unfold State.wpSecond
  rw [State.wpLate_of_in_time (.inr h)]
  simp [hu, hm]

end

/-- TB_SECONDS sits at 0x4020 for HOST_PF, with no register after it. -/
theorem State.regAt_tbSeconds (s : State) : s.regAt 1 0x4020 = some .tbSeconds ∧ s.regAt 1 0x4024 = none := ⟨rfl, rfl⟩

/-- Settles O15: both writes reach the pending entry of the register's key, and until the window's end no earlier entry is dropped on the
way. -/
theorem protectedWrites : Obligations.ProtectedWrites := by
  unfold Obligations.ProtectedWrites
  refine ⟨?first, ?otherMaster, ?seconds, ?wrong, ?expired⟩
  case first =>
    intro s master off key r v hl hr hk hoff hd hfree
    refine (next_of_live hl _).trans ?_
    rw [State.wpWriteEff_of_protected hr hk hoff hd, State.wpFirst_of_in_time (.inl hfree), State.wpAt, hfree]
    rfl
  case otherMaster =>
    intro s off key r v hl hr hk hoff hd hused hm htime
    have heff : s.wpWriteEff 1 off v = (s.onBus id).regErr 1 3 := by
      rw [State.wpWriteEff_of_protected hr hk hoff hd, State.wpFirst_of_in_time (.inr htime), if_pos (by simp [State.wpAt, hused, hm])]
      rfl
    refine ⟨commit (s.wpWriteEff 1 off v), next_of_live hl _, ?_⟩
    rw [heff]
    exact commit_regErr_host_frame s id 3
  case seconds =>
    intro s v p hl hp hused hm htime hv hlock
    subst hp
    obtain ⟨hat, hnext⟩ := s.regAt_tbSeconds
    refine (next_of_live hl _).trans ?_
    rw [State.wpComplementEff_of_protected hat rfl hnext rfl rfl, State.wpSecond_of_in_time hused hm htime,
      if_neg (show ¬ v ≠ ~~~ (s.wpAt 0x4020).value from not_not_intro hv)]
    have hput : (s.wpGone 0x4020).secondsPut (s.bus.wp.get 0x4020).value =
        (s.wpGone 0x4020).onTb fun t => { t with seconds := (s.bus.wp.get 0x4020).value } := by
      refine if_pos ?_
      obtain h | h := hlock <;> simp [State.wpGone, h]
    exact congrArg (fun u => Host.Outcome.next (commit u)) hput
  case wrong =>
    intro s off key r v p hl hr hk hnext hal hd hp hused hm htime hv
    subst hp
    have heff : s.wpComplementEff 1 off v = (s.wpGone key).regErr 1 2 := by
      rw [State.wpComplementEff_of_protected hr hk hnext hal hd, State.wpSecond_of_in_time hused hm htime,
        if_pos (show v ≠ ~~~ (s.wpAt key).value from hv)]
    refine ⟨commit (s.wpComplementEff 1 off v), next_of_live hl _, ?_⟩
    rw [heff]
    exact commit_regErr_host_frame s _ 2
  case expired =>
    intro s off hl hused hm htime
    have heff : s.wpExpire off = (s.wpGone off).regErr 1 2 :=
      (State.wpExpire_of_ended hused htime).trans (congrArg (fun m => (s.wpGone off).regErr m 2) hm)
    refine ⟨commit (s.wpExpire off), next_of_live hl _, ?_⟩
    rw [heff]
    exact commit_regErr_host_frame s _ 2

end Sys2Proof.Machine

/-! Register accesses of HOST_PF (spec/05, R107, R108, R114 to R117; spec/16, R344): unmapped offsets, event bits, the read mailbox and
BIND_STATUS. -/

namespace Sys2Proof.Machine

section

variable {s : State}

/-- No access of HOST_PF is refused for a TDI's sake: it reaches no virtual function's BAR (R353). -/
theorem State.nonTee_host (s : State) (tee : Bool) : s.nonTee 1 tee = false := rfl

/-- A write where no register sits, nor a protected one before it, sets UNMAPPED alone (R108). -/
theorem State.write4_of_unmapped {m off : Nat} (h : s.regAt m off = none) (hbefore : off % 8 = 0 ∨ s.regAt m (off - 4) = none)
    (v : Word) : s.write4 m off v = s.regErr m 0 := by
  have hnone : (if off % 8 = 4 then s.regAt m (off - 4) else none) = none := by
    split
    · exact hbefore.resolve_left (by omega)
    · rfl
  simp [State.write4, h, hnone]

/-- TICK_EVENTS sits at 0x4104 for HOST_PF (R54). -/
theorem State.regAt_tickEvents (s : State) : s.regAt 1 0x4104 = some .tickEvents := rfl

/-- A write of ones clears event bits (R54). -/
theorem State.write4_tickEvents (v : Word) :
    s.write4 1 0x4104 v = (s.onTick fun t => { t with events := t.events &&& ~~~ v.setWidth 32 }).reArm 0 1 := by
  simp only [State.write4, s.regAt_tickEvents]
  rfl

theorem State.read4_tickEvents : s.read4 1 0x4104 = (s.tick.events.toNat, s) := by
  simp only [State.read4, s.regAt_tickEvents]
  rfl

/-! ### The read mailbox -/

theorem State.rmbAsk_of_idle (h : (s.bus.rmb.get 1).busy = false) (a : Word) :
    s.rmbAsk 1 a = s.onBus fun u => { u with rmb := u.rmb.upd 1 fun x => { x with
      addr := a.setWidth 26, valid := false, busy := true, latch := s.rmbLatch 1 (a.setWidth 26).toNat } } := by
  unfold State.rmbAsk
  rw [if_neg (by simp [idHostPf]), if_neg (by simp [h])]

theorem State.rmbAsk_of_busy (h : (s.bus.rmb.get 1).busy = true) (a : Word) : s.rmbAsk 1 a = s.regErr 1 5 := by
  unfold State.rmbAsk
  rw [if_neg (by simp [idHostPf]), if_pos h]

theorem State.rmbTake_of_busy (h : (s.bus.rmb.get 1).busy = true) {d : DWord} {e : BitVec 2}
    (hv : s.rmbValue 1 (s.bus.rmb.get 1).addr.toNat (s.bus.rmb.get 1).latch = (d, e)) :
    s.rmbTake 1 = s.onBus fun u => { u with
      rmb := u.rmb.set 1 { addr := (s.bus.rmb.get 1).addr, valid := true, busy := false, err := e, data := d } } := by
  unfold State.rmbTake
  simp only [h, hv]
  rfl

/-- TB_TIME is captured as the request latched it (R55, R115). -/
theorem State.rmbValue_tbTime (latch : DWord) : s.rmbValue 1 0x4008 latch = (latch, 0) := rfl

theorem State.rmbValue_of_unmapped {off : Nat} (h : s.regAt 1 off = none) (latch : DWord) : s.rmbValue 1 off latch = (0, 1) := by
  simp [State.rmbValue, h]

end

/-- Settles O17: each access as the write or read of its register, and the read mailbox's request and capture. -/
theorem registerAccesses : Obligations.RegisterAccesses := by
  unfold Obligations.RegisterAccesses
  refine ⟨?unmapped, ?clearEvents, ?readEvents, ?request, fun s => rfl, ?busy, ?capture, ?captureNone, ?bindStatus⟩
  case unmapped =>
    intro s tee off v hl hal hnone hbefore
    have heff : s.access false 1 4 off v = (s.onBus id).regErr 1 0 := by
      rw [s.access_write_four 1 v hal, State.write4_of_unmapped hnone hbefore]
      rfl
    refine ⟨_, exec_registerWrite hl (s.nonTee_host tee) .., ?_⟩
    rw [heff]
    exact commit_regErr_host_frame s id 0
  case clearEvents =>
    intro s tee v hl
    have heff := (s.access_write_four 1 v (off := 0x4104) rfl).trans (State.write4_tickEvents _)
    refine ⟨_, exec_registerWrite hl (s.nonTee_host tee) .., ?_, ?_⟩
    · rw [heff]
      exact onlyIn_commit (onlyIn_trans (onlyIn_onTick _ (by decide)) (onlyIn_onHost _ (by decide)))
    · rw [heff]
      simp [State.reArm]
  case readEvents =>
    intro s tee v hl
    have heff := s.access_read_four 1 v (off := 0x4104) rfl
    rw [State.read4_tickEvents] at heff
    refine ⟨_, exec_registerWrite hl (s.nonTee_host tee) .., ?_, ?_⟩
    · rw [heff]
      exact onlyIn_commit (onlyIn_onBus _ (by decide))
    · rw [heff, commit_bus, State.returns, State.onBus_bus, BitVec.ofNat_toNat]
  case request =>
    intro s a hl hidle
    refine (next_of_live hl _).trans ?_
    rw [State.rmbAsk_of_idle hidle]
    rfl
  case busy =>
    intro s a hl hbusy
    have heff : s.rmbAsk 1 a = (s.onBus id).regErr 1 5 := State.rmbAsk_of_busy hbusy a
    refine ⟨commit (s.rmbAsk 1 a), next_of_live hl _, ?_⟩
    rw [heff]
    exact commit_regErr_host_frame s id 5
  case capture =>
    intro s hl hbusy haddr
    refine (next_of_live hl _).trans ?_
    have hv : s.rmbValue 1 (s.bus.rmb.get 1).addr.toNat (s.bus.rmb.get 1).latch = ((s.bus.rmb.get 1).latch, 0) := by
      rw [haddr]
      exact State.rmbValue_tbTime _
    rw [State.rmbTake_of_busy hbusy hv, haddr]
    rfl
  case captureNone =>
    intro s hl hbusy hnone
    refine (next_of_live hl _).trans ?_
    rw [State.rmbTake_of_busy hbusy (State.rmbValue_of_unmapped hnone _)]
    rfl
  case bindStatus =>
    intro s hl
    have heff : s.bindStatusTake 1 = (s.onHost fun h => { h with bindIrq := false }).returns s.bindStatus := rfl
    refine ⟨commit (s.bindStatusTake 1), next_of_live hl _, ?_, rfl, rfl⟩
    rw [heff]
    exact onlyIn_commit (onlyIn_trans (onlyIn_onHost _ (by decide)) (onlyIn_onBus _ (by decide)))

end Sys2Proof.Machine

/-! Mailbox sides as their owners use them (spec/05, R123 to R128): a send in its four outcomes, RX_POP, MB_STAT and the doorbells. -/

namespace Sys2Proof.Machine

section

variable {s : State} {m : Nat} {b : Bool} {h : Word} {r : MboxRec}

theorem State.mbMay_owner (hr : s.mbRec m = some r) : s.mbMay (r.owner b) m b = true := by
  simp [State.mbMay, hr]

/-! ### A send (R125) -/

theorem exec_txSend {m : Fin 32} (hl : s.live = true) (hr : s.mbRec m = some r) :
    exec (.txSend (r.owner b) m b h) s = .next (commit (s.txSend m b h)) := by
  refine (next_of_live hl _).trans ?_
  rw [State.mbMay_owner hr]
  rfl

/-- A well-formed header's length field is its two bits above bit 23 (R124). -/
theorem header_len (hh : h.toNat / 2 ^ 26 = 0) : ((h >>> 24) &&& 3).toNat = h.toNat / 2 ^ 24 := by
  have hand : h.toNat / 2 ^ 24 &&& 3 = h.toNat / 2 ^ 24 % 4 := Nat.and_two_pow_sub_one_eq_mod _ 2
  rw [BitVec.toNat_and, BitVec.toNat_ushiftRight, Nat.shiftRight_eq_div_pow, show (3 : Word).toNat = 3 from rfl, hand]
  omega

theorem MbSide.message_words (x : MbSide) (hh : h.toNat / 2 ^ 26 = 0) : (x.message h).words = 1 + h.toNat / 2 ^ 24 := by
  simp only [MbSide.message, Msg.words, header_len hh, List.length_take, List.length_cons, List.length_nil]
  omega

theorem header_passes (hhead : h.toNat / 2 ^ 26 = 0) (htag : h.toNat / 2 ^ 16 % 256 ≠ 0xFF) :
    ¬ (decide (h.toNat / 2 ^ 26 ≠ 0) || decide (h.toNat / 2 ^ 16 % 256 = 0xFF)) = true := by
  rw [Bool.or_eq_true, decide_eq_true_iff, decide_eq_true_iff]
  exact not_or.2 ⟨not_not_intro hhead, htag⟩

/-- What a send stages before its checks. -/
def State.txStaged (s : State) (m : Nat) (b : Bool) (h : Word) : State := s.onSide m b fun x => { x with txSend := h }

theorem State.txStaged_count_cnt (f : MbSide → MbSide) (c : Bool) (code : Nat) :
    (((s.txStaged m b h).onSide m c f).count code none none 1).cnt = (s.count code none none 1).cnt :=
  State.count_congr (s := s) (t := (s.txStaged m b h).onSide m c f) rfl rfl rfl ..

theorem State.txSend_of_bad (hbad : h.toNat / 2 ^ 26 ≠ 0 ∨ h.toNat / 2 ^ 16 % 256 = 0xFF) :
    s.txSend m b h = (s.txStaged m b h).count 0x20 none none 1 := if_pos (by simpa using hbad)

variable (hhead : h.toNat / 2 ^ 26 = 0) (htag : h.toNat / 2 ^ 16 % 256 ≠ 0xFF) (hr : s.mbRec m = some r)
include hhead htag hr

theorem State.txSend_of_stale (hgen : h.toNat % 2 ^ 16 ≠ (s.genOf (r.owner (!b))).toNat) :
    s.txSend m b h = ((s.txStaged m b h).onSide m (!b) fun x => { x with staleDrops := sat8 (x.staleDrops + 1) }).count
      0x21 none none 1 := by
  unfold State.txSend
  simp only [hr]
  rw [if_neg (header_passes hhead htag), if_pos hgen]
  rfl

variable (hgen : h.toNat % 2 ^ 16 = (s.genOf (r.owner (!b))).toNat)
include hgen

theorem State.txSend_of_full (hfull : 8 < ((s.txStaged m b h).mbSide m (!b)).words + (1 + h.toNat / 2 ^ 24)) :
    s.txSend m b h = ((s.txStaged m b h).onSide m (!b) fun x => { x with fullDrops := sat8 (x.fullDrops + 1) }).count
      0x22 none none 1 := by
  unfold State.txSend
  simp only [hr, MbSide.message_words _ hhead]
  rw [if_neg (header_passes hhead htag), if_neg (not_not_intro hgen)]
  exact if_pos hfull

theorem State.txSend_of_room (hroom : ((s.txStaged m b h).mbSide m (!b)).words + (1 + h.toNat / 2 ^ 24) ≤ 8) :
    s.txSend m b h = ((s.txStaged m b h).onSide m (!b) fun x => { x with queue := x.queue ++ [(s.mbSide m b).message h] }).wake
      (r.owner (!b)) m := by
  unfold State.txSend
  simp only [hr, MbSide.message_words _ hhead]
  rw [if_neg (header_passes hhead htag), if_neg (not_not_intro hgen)]
  exact if_neg (Nat.not_lt.2 hroom)

end

/-! ### Doorbells (R128) -/

/-- The bits of a list that a test selects. -/
def bitsWhere (p : Nat → Bool) (l : List Nat) (w : Word) : Word := l.foldl (fun (w : Word) m => if p m then bitSet w m else w) w

theorem bitsWhere_of_none {p : Nat → Bool} : ∀ {l : List Nat}, (∀ m ∈ l, p m = false) → ∀ w, bitsWhere p l w = w
  | [], _, _ => rfl
  | m :: l, h, w => by
    have ih := bitsWhere_of_none (fun k hk => h k (List.mem_cons_of_mem m hk)) w
    rw [bitsWhere, List.foldl_cons, h m List.mem_cons_self]
    exact ih

theorem getLsbD_bitSet_of {w : Word} {i j : Nat} (h : w.getLsbD j = true) : (bitSet w i).getLsbD j = true := by
  rw [bitSet, BitVec.getLsbD_or, h, Bool.true_or]

/-- A bit that is set stays set. -/
theorem getLsbD_bitsWhere_of {p : Nat → Bool} {j : Nat} : ∀ (l : List Nat) {w : Word}, w.getLsbD j = true →
    (bitsWhere p l w).getLsbD j = true
  | [], _, h => h
  | m :: l, w, h => by
    rw [bitsWhere, List.foldl_cons]
    refine getLsbD_bitsWhere_of l ?_
    split
    · exact getLsbD_bitSet_of h
    · exact h

theorem getLsbD_bitsWhere {p : Nat → Bool} {j : Nat} (hj : j < 32) (hp : p j = true) : ∀ {l : List Nat}, j ∈ l → ∀ w : Word,
    (bitsWhere p l w).getLsbD j = true
  | m :: l, h, w => by
    rw [bitsWhere, List.foldl_cons]
    obtain rfl | hl := List.mem_cons.1 h
    · rw [if_pos hp]
      exact getLsbD_bitsWhere_of l (getLsbD_bitSet_self w hj)
    · exact getLsbD_bitsWhere hj hp hl _

/-- The doorbell bits that a clear finds held. -/
def State.heldBells (s : State) (master : Nat) (v : Word) : Word :=
  bitsWhere (fun m => v.getLsbD m && s.bellHeld master m) (List.range 32) 0

theorem State.dbClear_eq (s : State) (master : Nat) (v : Word) : s.dbClear master v =
    (s.onMbx fun x => { x with bells := x.bells.upd master fun d =>
      { d with pending := (d.pending &&& ~~~ v) ||| s.heldBells master v } }).reArm (master - idHostPf) 0 := rfl

theorem exec_dbPendingClear_host {s : State} (hl : s.live = true) (v : Word) :
    exec (.dbPendingClear 1 v) s = .next (commit (s.dbClear 1 v)) := (next_of_live hl _).trans rfl

/-- Settles O18: a send by the outcome of its checks, and the other accesses of the side's owner. -/
theorem mailboxes : Obligations.Mailboxes := by
  unfold Obligations.Mailboxes
  refine ⟨?bad, ?stale, ?full, ?queued, ?pop, ?stat, ?clear, ?held⟩
  case bad =>
    intro s m b h r hl hr hbad
    refine ⟨_, exec_txSend hl hr, ?_, ?_, ?_⟩
    · rw [State.txSend_of_bad hbad]
      exact onlyIn_commit (onlyIn_trans (onlyIn_onSide _ _ _ (by decide)) (onlyIn_count _ _ _ _ (by decide)))
    · rw [commit_cnt, State.txSend_of_bad hbad]
      exact State.count_congr (s := s) (t := s.txStaged m b h) rfl rfl rfl ..
    · rw [commit_mbx, State.txSend_of_bad hbad, State.count_mbx]
      rfl
  case stale =>
    intro s m b h r hl hr hhead htag hgen
    have heff := State.txSend_of_stale hhead htag hr hgen
    refine ⟨_, exec_txSend hl hr, ?_, ?_, ?_⟩
    · rw [heff]
      exact onlyIn_commit (onlyIn_trans (onlyIn_trans (onlyIn_onSide _ _ _ (by decide)) (onlyIn_onSide _ _ _ (by decide)))
        (onlyIn_count _ _ _ _ (by decide)))
    · rw [commit_cnt, heff, State.txStaged_count_cnt]
    · rw [commit_mbx, heff, State.count_mbx]
      rfl
  case full =>
    intro s m b h r hl hr hhead htag hgen hfull
    have heff := State.txSend_of_full hhead htag hr hgen hfull
    refine ⟨_, exec_txSend hl hr, ?_, ?_, ?_⟩
    · rw [heff]
      exact onlyIn_commit (onlyIn_trans (onlyIn_trans (onlyIn_onSide _ _ _ (by decide)) (onlyIn_onSide _ _ _ (by decide)))
        (onlyIn_count _ _ _ _ (by decide)))
    · rw [commit_cnt, heff, State.txStaged_count_cnt]
    · rw [commit_mbx, heff, State.count_mbx]
      rfl
  case queued =>
    intro s m b h r hl hr hhead htag hgen hroom
    have heff := State.txSend_of_room hhead htag hr hgen hroom
    refine ⟨_, exec_txSend hl hr, ?_, ?_⟩
    · rw [heff]
      exact onlyIn_commit (onlyIn_trans (onlyIn_trans (onlyIn_onSide _ _ _ (by decide)) (onlyIn_onSide _ _ _ (by decide)))
        (onlyIn_wake _ _ (by decide) (by decide) (by decide)))
    · rw [commit_mbx, heff, State.wake_sides, MbSide.message, header_len hhead]
      rfl
  case pop =>
    intro s m b v r hl hr
    refine (next_of_live hl _).trans ?_
    rw [State.mbMay_owner hr]
    rfl
  case stat =>
    intro s m b r hl hr
    refine (next_of_live hl _).trans ?_
    rw [State.mbMay_owner hr]
    rfl
  case clear =>
    intro s v hl hfree
    have hheld : s.heldBells 1 v = 0 := bitsWhere_of_none (fun m hm => by simp [hfree m (List.mem_range.1 hm)]) 0
    refine ⟨_, exec_dbPendingClear_host hl v, ?_, ?_⟩
    · rw [State.dbClear_eq]
      exact onlyIn_commit (onlyIn_trans (onlyIn_onMbx _ (by decide)) (onlyIn_onHost _ (by decide)))
    · rw [commit_mbx, State.dbClear_eq, hheld]
      simp [State.reArm]
  case held =>
    intro s v m hl hm hv hheld w
    refine ⟨_, exec_dbPendingClear_host hl v, ?_⟩
    have hbit : (s.heldBells 1 v).getLsbD m = true := getLsbD_bitsWhere hm (by simp [hv, hheld]) (List.mem_range.2 hm) 0
    rw [commit_mbx, State.dbClear_eq, State.reArm, State.onHost_mbx, State.onMbx_mbx, Tab.get_upd _ w, if_pos rfl,
      BitVec.getLsbD_or, hbit, Bool.or_true]

end Sys2Proof.Machine

/-! The host's windows onto scratchpad and GDDR6 (spec/05, R119, R120, R507; spec/06, R135) and the LOAN registers (R139, R142). -/

namespace Sys2Proof.Machine

section

variable {s : State}

/-! ### Refused accesses -/

/-- A refused write sets its REG_ERR bit and nothing else (R119). -/
theorem State.hostRefused_write (s : State) (bar off size bit : Nat) : s.hostRefused false bar off size bit = s.regErr 1 bit := rfl

theorem onlyIn_hostRefused (isRead : Bool) (bar off size bit : Nat) :
    OnlyIn [.bus, .cnt, .sent] s (s.hostRefused isRead bar off size bit) := by
  unfold State.hostRefused
  refine onlyIn_trans ?_ (onlyIn_regErr _ _ (by decide) (by decide))
  split
  · exact onlyIn_out _ (by decide)
  · exact onlyIn_refl _ _

theorem State.hostRefused_bus (isRead : Bool) (bar off size bit : Nat) :
    (s.hostRefused isRead bar off size bit).bus = { s.bus with regErr := s.bus.regErr.upd 1 fun e => bitSet e bit } := by
  unfold State.hostRefused
  refine (State.regErr_bus_host ..).trans ?_
  split <;> rfl

theorem State.hostRefused_cnt (isRead : Bool) (bar off size bit : Nat) :
    (s.hostRefused isRead bar off size bit).cnt = (s.count (0x10 + bit) none none 1).cnt := by
  unfold State.hostRefused
  refine (State.regErr_cnt ..).trans ?_
  split
  · exact State.count_congr (s := s) (t := s.completed ..) rfl rfl rfl ..
  · rfl

/-- The end of a command that sets a bit of HOST_PF's REG_ERR alone. -/
theorem commit_regErr_host (s : State) (i : Nat) :
    OnlyIn [.bus, .cnt] s (commit (s.regErr 1 i)) ∧
      (commit (s.regErr 1 i)).bus = { s.bus with regErr := s.bus.regErr.upd 1 fun e => bitSet e i } ∧
      (commit (s.regErr 1 i)).cnt = (s.count (0x10 + i) none none 1).cnt := commit_regErr_host_frame s id i

/-! ### BAR2 -/

/-- Channel and local address of an offset in BAR2 (R119). -/
theorem bar2_offset (ch : Nat) {lo : Nat} (h : lo < 0x2000000) :
    (ch * 0x2000000 + lo) / 0x2000000 = ch ∧ (ch * 0x2000000 + lo) % 0x2000000 = lo := by omega

/-- A mapped access goes by what its banks answer: one unpowered bank, else one that is another tenant's, refuses it (R131, R144). -/
theorem State.bar2_of_mapped {ch : Fin 6} {lo n : Nat} (hn : lo + n ≤ 25165824) (isRead : Bool) (b : List Byte) :
    s.bar2 isRead (ch * 0x2000000 + lo) n b =
      if ((banksOf lo n).map (s.bar2Bank ch)).contains .off then
        (s.hostRefused isRead 2 (ch * 0x2000000 + lo) n 4).evSpc ch 2 none
      else if ((banksOf lo n).map (s.bar2Bank ch)).contains .loan then s.hostRefused isRead 2 (ch * 0x2000000 + lo) n 6
      else if isRead then s.completed 2 (ch * 0x2000000 + lo) (s.spGet ch lo n)
      else s.spPut ch lo b := by
  obtain ⟨hch, hlo⟩ := bar2_offset ch (lo := lo) (by omega)
  have hmapped : ¬ (decide (6 ≤ ch.val) || decide (spChanBytes < lo + n)) = true := by
    rw [Bool.or_eq_true, decide_eq_true_iff, decide_eq_true_iff, spChanBytes]
    omega
  unfold State.bar2
  simp only [hch, hlo]
  rw [if_neg hmapped]

/-- Banks of tenant-0 owners refuse nothing. -/
theorem State.bar2Bank_of_system {ch k : Nat} (hoff : s.bankOff ch k = false) (howned : (s.loanOf ch k).owned = true)
    (hten : s.b.tenantOf (16 * ch + (s.loanOf ch k).owner.toNat) = 0) : s.bar2Bank ch k = .ok := by
  simp [State.bar2Bank, hoff, howned, hten]

theorem State.bar2_of_system {ch : Fin 6} {lo n : Nat} (hn : lo + n ≤ 25165824)
    (hbanks : ∀ k ∈ banksOf lo n, s.bankOff ch k = false ∧ (s.loanOf ch k).owned = true ∧
      s.b.tenantOf (16 * ch + (s.loanOf ch k).owner.toNat) = 0) (isRead : Bool) (b : List Byte) :
    s.bar2 isRead (ch * 0x2000000 + lo) n b =
      if isRead then s.completed 2 (ch * 0x2000000 + lo) (s.spGet ch lo n) else s.spPut ch lo b := by
  have hok : ∀ x ∈ (banksOf lo n).map (s.bar2Bank ch), x = Acc.ok := by
    intro x hx
    obtain ⟨k, hk, rfl⟩ := List.mem_map.1 hx
    obtain ⟨hoff, howned, hten⟩ := hbanks k hk
    exact State.bar2Bank_of_system hoff howned hten
  have hnone : ∀ x : Acc, x ≠ .ok → ¬ ((banksOf lo n).map (s.bar2Bank ch)).contains x = true := by
    intro x hx hmem
    exact hx (hok x (by simpa using hmem))
  rw [State.bar2_of_mapped hn, if_neg (hnone .off (by decide)), if_neg (hnone .loan (by decide))]

/-- An offset outside the mapped scratchpad is UNMAPPED (R119). -/
theorem State.bar2_of_unmapped {off n : Nat} (h : 6 * 0x2000000 ≤ off ∨ 25165824 < off % 0x2000000 + n) (b : List Byte) :
    s.bar2 false off n b = s.regErr 1 0 := by
  unfold State.bar2
  dsimp only
  refine if_pos ?_
  rw [Bool.or_eq_true, decide_eq_true_iff, decide_eq_true_iff, spChanBytes]
  omega

/-! ### BAR4 -/

variable {off n : Nat}

/-- An access inside the window is performed there (R120). -/
theorem State.bar4_of_ok (hen : s.bus.bar4Enable = true) (hon : s.domainOn s.bus.bar4Channel.toNat 6 = true)
    (hok : s.bar4Ok s.bus.bar4Channel.toNat (s.bus.bar4Base.toNat * 2097152 + off) n = true) (isRead : Bool) (b : List Byte) :
    s.bar4 isRead off n b =
      if isRead then s.completed 4 off (s.gdGet s.bus.bar4Channel.toNat (s.bus.bar4Base.toNat * 2097152 + off) n)
      else s.gdPut s.bus.bar4Channel.toNat (s.bus.bar4Base.toNat * 2097152 + off) b := by
  have hok' : s.bar4Ok s.bus.bar4Channel.toNat (s.bus.bar4Base.toNat * granBytes + off) n = true := hok
  unfold State.bar4
  simp only [hen, hon, hok', Bool.not_true, Bool.and_false, Bool.false_eq_true, if_false]
  rfl

theorem State.bar4_of_disabled (h : s.bus.bar4Enable = false) (isRead : Bool) (b : List Byte) :
    s.bar4 isRead off n b = s.hostRefused isRead 4 off n 6 := by
  simp [State.bar4, h]

theorem foldl_eq_self {α β : Type} {f : α → β → α} {a : α} : ∀ {l : List β}, (∀ x ∈ l, f a x = a) → l.foldl f a = a
  | [], _ => rfl
  | x :: l, h => by
    rw [List.foldl_cons, h x List.mem_cons_self]
    exact foldl_eq_self fun y hy => h y (List.mem_cons_of_mem x hy)

/-- A granule of a SYSTEM region is never VIRGIN (R363). -/
theorem State.virgin_of_system {r : MemxRec} (h : r.kind = 0) (g : Nat) : s.virgin r g = false := by
  simp [State.virgin, h]

/-- A write to SYSTEM regions is a write of its bytes: no granule there is filled first (R363). -/
theorem State.gdPut_of_bar4Ok {ch addr : Nat} {b : List Byte} (hb : b ≠ []) (hok : s.bar4Ok ch addr b.length = true) :
    s.gdPut ch addr b = s.onGddr fun x => { x with mem := wrBytes x.mem (gdKey ch addr) b } := by
  have hempty : b.isEmpty = false := by simpa using hb
  have hnot : ∀ g ∈ (List.range ((addr + b.length - 1) / granBytes - addr / granBytes + 1)).map (addr / granBytes + ·),
      ∀ r, s.b.regionAt ch g = some r → s.virgin r g = false := by
    intro g hg r hr
    have hg' := List.all_eq_true.1 hok g hg
    simp only [hr, Bool.and_eq_true, beq_iff_eq] at hg'
    exact State.virgin_of_system hg'.1 g
  unfold State.gdPut
  simp only [hempty, Bool.false_eq_true, if_false]
  rw [foldl_eq_self]
  intro g hg
  split
  next r hr => rw [hnot g hg r hr]; rfl
  · rfl

end

/-! ### BAR4_WIN -/

theorem State.bar4Win_host (s : State) (v : Word) : s.bar4Win 1 v =
    if 6 ≤ v.toNat % 8 ∨ v.toNat / 16 % 16384 % 2048 ≠ 0 ∨ 10240 < v.toNat / 16 % 16384 then s.regErr 1 6
    else s.onBus fun u => { u with
      bar4Channel := BitVec.ofNat 3 (v.toNat % 8), bar4Enable := v.getLsbD 3
      bar4Base := BitVec.ofNat 14 (v.toNat / 16 % 16384) } := by
  refine ite_congr (propext ?_) (fun _ => rfl) fun _ => rfl
  change (decide (6 ≤ v.toNat % 8) || decide (v.toNat / 16 % 16384 % 2048 ≠ 0) || decide (10240 < v.toNat / 16 % 16384)) = true ↔ _
  rw [Bool.or_eq_true, Bool.or_eq_true, decide_eq_true_iff, decide_eq_true_iff, decide_eq_true_iff, or_assoc]

/-- Settles O19: BAR2 by what its banks answer, BAR4 by its window's state, and BAR4_WIN's two outcomes. -/
theorem hostWindows : Obligations.HostWindows := by
  unfold Obligations.HostWindows
  refine ⟨?bar2Write, ?bar2Read, ?bar2Unmapped, ?bar2Off, ?bar2Foreign, ?bar2Abandoned, ?bar4Read, ?bar4Write, ?bar4Disabled,
    ?bar4Abandoned, ?window, ?windowBad⟩
  case bar2Write =>
    intro s ch lo b hl hn hbanks
    refine (next_of_live hl _).trans ?_
    rw [State.bar2_of_system hn hbanks]
    rfl
  case bar2Read =>
    intro s ch lo n hl hn hbanks
    refine (next_of_live hl _).trans ?_
    rw [State.bar2_of_system hn hbanks]
    rfl
  case bar2Unmapped =>
    intro s off n b hl h
    refine ⟨commit (s.bar2 false off n b), next_of_live hl _, ?_⟩
    rw [State.bar2_of_unmapped h]
    exact commit_regErr_host s 0
  case bar2Off =>
    intro s ch lo n k b hl hn hk hoff
    have hcontains : ((banksOf lo n).map (s.bar2Bank ch)).contains .off = true := by
      rw [List.contains_iff_mem]
      exact List.mem_map.2 ⟨k, hk, by simp [State.bar2Bank, hoff]⟩
    have heff : s.bar2 false (ch * 0x2000000 + lo) n b = (s.regErr 1 4).evSpc ch 2 none := by
      rw [State.bar2_of_mapped hn, if_pos hcontains, State.hostRefused_write]
    have hspad : (s.regErr 1 4).spad = s.spad := (onlyIn_regErr (ps := [.bus, .cnt]) 1 4 (by decide) (by decide)).rest .spad (by decide)
    refine ⟨commit (s.bar2 false (ch * 0x2000000 + lo) n b), next_of_live hl _, ?_, ?_, ?_, ?_⟩
    · rw [heff]
      exact onlyIn_commit (onlyIn_trans (onlyIn_regErr _ _ (by decide) (by decide)) (onlyIn_evSpc _ _ _ (by decide) (by decide)))
    · rw [commit_bus, heff, State.evSpc, State.count_bus, State.onSpad_bus, State.regErr_bus_host]
      rfl
    · rw [commit_spad, heff, State.evSpc, State.count_spad, State.onSpad_spad, hspad]
    · rw [commit_spad, heff, State.evSpc, State.count_spad, State.onSpad_spad, hspad]
      rfl
  case bar2Foreign =>
    intro s ch lo n k b hl hn hk hon howned hten
    have hoff : ¬ ((banksOf lo n).map (s.bar2Bank ch)).contains .off = true := by
      rw [List.contains_iff_mem, List.mem_map]
      rintro ⟨j, hj, hbank⟩
      simp only [State.bar2Bank, hon j hj, Bool.false_eq_true, if_false] at hbank
      split at hbank
      · split at hbank <;> cases hbank
      · split at hbank <;> cases hbank
    have hloan : ((banksOf lo n).map (s.bar2Bank ch)).contains .loan = true := by
      rw [List.contains_iff_mem]
      exact List.mem_map.2 ⟨k, hk, by simp [State.bar2Bank, hon k hk, howned, hten]⟩
    refine ⟨commit (s.bar2 false (ch * 0x2000000 + lo) n b), next_of_live hl _, ?_⟩
    rw [State.bar2_of_mapped hn, if_neg hoff, if_pos hloan, State.hostRefused_write]
    exact commit_regErr_host s 6
  case bar2Abandoned =>
    intro s off hl hch hlo
    have heff : s.bar2Timeout off = s.evSpc (off / 0x2000000) 1 none := by
      refine if_pos ?_
      rw [Bool.and_eq_true, decide_eq_true_iff, decide_eq_true_iff, spChanBytes]
      omega
    refine ⟨commit (s.bar2Timeout off), next_of_live hl _, ?_, ?_⟩
    · rw [heff]
      exact onlyIn_commit (onlyIn_evSpc _ _ _ (by decide) (by decide))
    · rw [commit_spad, heff, State.evSpc, State.count_spad]
      rfl
  case bar4Read =>
    intro s off n hl hen hon hn hok
    refine (next_of_live hl _).trans ?_
    rw [State.bar4_of_ok hen hon hok]
    rfl
  case bar4Write =>
    intro s off b hl hen hon hb hok w
    have heff : s.bar4 false off b.length b = s.onGddr fun x => { x with
        mem := wrBytes x.mem (gdKey s.bus.bar4Channel.toNat (s.bus.bar4Base.toNat * 2097152 + off)) b } := by
      rw [State.bar4_of_ok hen hon hok]
      exact State.gdPut_of_bar4Ok hb hok
    refine ⟨commit (s.bar4 false off b.length b), next_of_live hl _, ?_, ?_, ?_⟩
    · rw [heff]
      exact onlyIn_commit (onlyIn_onGddr _ (by decide))
    · rw [commit_gddr, heff]
      exact rdBytes_wrBytes b s.gddr.mem _ w
    · intro x hx
      rw [commit_gddr, heff]
      exact (wrBytes_get b s.gddr.mem _ x w).trans (if_neg (by omega))
  case bar4Disabled =>
    intro s isRead off n b hl hen
    refine ⟨commit (s.bar4 isRead off n b), next_of_live hl _, ?_⟩
    rw [State.bar4_of_disabled hen]
    exact ⟨onlyIn_commit (onlyIn_hostRefused ..), State.hostRefused_bus .., State.hostRefused_cnt ..⟩
  case bar4Abandoned =>
    intro s off hl
    exact ⟨commit (s.regErr 1 6), next_of_live hl _, commit_regErr_host s 6⟩
  case window =>
    intro s v hl hch hal hbase
    refine (next_of_live hl (s.bar4Win 1 v)).trans ?_
    rw [State.bar4Win_host, if_neg (by omega)]
    rfl
  case windowBad =>
    intro s v hl hbad
    refine ⟨commit (s.bar4Win 1 v), next_of_live hl _, ?_⟩
    rw [State.bar4Win_host, if_pos hbad]
    obtain ⟨honly, hbus, -⟩ := commit_regErr_host s 6
    exact ⟨honly, hbus⟩

/-- Settles O20: the bank's BUSY bit, and a LOAN write by its master and the channel's mode. -/
theorem loanRegisters : Obligations.LoanRegisters := by
  unfold Obligations.LoanRegisters
  refine ⟨fun s ch bank hl => next_of_live hl _, ?curator, ?host⟩
  case curator =>
    intro s ch bank v hl hmode
    refine (next_of_live hl _).trans ?_
    rw [State.loanPut, if_pos (by simp [idCur, State.spcMode, hmode])]
    rfl
  case host =>
    intro s ch bank v hl hmode
    have heff : s.loanPut 1 ch bank v = s.regErr 1 6 := if_neg (by simp [idCur])
    refine ⟨commit (s.loanPut 1 ch bank v), next_of_live hl _, ?_⟩
    rw [heff]
    exact commit_regErr_host s 6

end Sys2Proof.Machine

/-! The end of a register transfer (spec/07, R158 to R161; spec/02, R41): in a state whose table of activities is not in canonical form,
the acknowledgement can uncover a second entry of the queue's activity, which carries work. -/

namespace Sys2Proof.Machine

/-- A module whose queue 0 has a transfer to acknowledge, and whose table of activities lists activity 0 twice: the first entry, which a
read finds, is the default, and the second carries work. -/
def shadowedCarry : State :=
  { State.reset with
    dma := { queues := [(0, { state := .active, pendCode := some 0 })] }
    acts := [(0, {}), (0, { carry := true })] }

/-- The acknowledgement flags the uncovered work LATE (R42). -/
theorem shadowedCarry_late : ((shadowedCarry.transferDone 0 0).carrySettle 0).tick.events = 1 := by decide +kernel

/-- Refutes O21: the frame of the acknowledgement's success is claimed without the canonical form of the table of activities. In
`shadowedCarry` the transfer's outcome writes the default at activity 0, which removes the first entry; the second then carries work of
an activity without ops, and its tick is flagged LATE, so the tick changes. -/
theorem not_dmaQueues : ¬ Obligations.DmaQueues := by
  unfold Obligations.DmaQueues
  rintro ⟨-, -, -, -, -, -, -, hdone, -⟩
  obtain ⟨t, ht, honly, -⟩ := hdone shadowedCarry 0 0 { state := .active, pendCode := some 0 } (by decide) (by decide) rfl rfl
    (by decide) (by decide)
  have hrun : exec (.dmaTransferDone 0 0 0) shadowedCarry = .next (commit ((shadowedCarry.transferDone 0 0).carrySettle 0)) :=
    next_of_live rfl _
  obtain rfl := Host.Outcome.next.inj (hrun.symm.trans ht)
  have hframe : ((shadowedCarry.transferDone 0 0).carrySettle 0).tick = shadowedCarry.tick := honly.rest .tick (by decide)
  have hevents := shadowedCarry_late
  rw [hframe] at hevents
  exact absurd hevents (by decide)

end Sys2Proof.Machine

/-! The greedy pass of NMS_TIDY (spec/09, R208): what it keeps. -/

namespace Sys2Proof.Machine

/-- The pass keeps what it had and appends a selection of the records it still has to see, in their order. -/
theorem nmsKeep_appends (agn : Bool) (thr : FVal) (maxOut : Nat) :
    ∀ kept l, ∃ sel, (nmsKeep agn thr maxOut kept l).1 = kept ++ sel ∧ sel.Sublist l
  | kept, [] => ⟨[], by simp [nmsKeep]⟩
  | kept, c :: r => by
    rw [nmsKeep]
    split
    · exact ⟨[], by simp⟩
    · split
      · obtain ⟨sel, heq, hsub⟩ := nmsKeep_appends agn thr maxOut kept r
        exact ⟨sel, heq, hsub.cons c⟩
      · obtain ⟨sel, heq, hsub⟩ := nmsKeep_appends agn thr maxOut (kept ++ [c]) r
        exact ⟨c :: sel, by simpa using heq, hsub.cons_cons c⟩

/-- The pass stops at MAX_OUT. -/
theorem nmsKeep_length_le (agn : Bool) (thr : FVal) (maxOut : Nat) :
    ∀ kept l, kept.length ≤ maxOut → (nmsKeep agn thr maxOut kept l).1.length ≤ maxOut
  | _, [], h => h
  | kept, c :: r, h => by
    rw [nmsKeep]
    split
    · exact h
    next hfull =>
      split
      · exact nmsKeep_length_le agn thr maxOut kept r h
      · exact nmsKeep_length_le agn thr maxOut (kept ++ [c]) r (by rw [List.length_append, List.length_singleton]; omega)

/-- Two records that the pass may keep together: of different classes, unless classes do not matter, or with no more overlap than the
threshold. -/
def MayKeepBoth (agn : Bool) (thr : FVal) (x y : BoxCand) : Prop :=
  (agn || x.cls == y.cls) = true → thr.lt (boxIou x y) = false

/-- A record that no kept one suppresses may be kept with each of them. -/
theorem mayKeepBoth_of_not_any {agn : Bool} {thr : FVal} {kept : List BoxCand} {c : BoxCand}
    (h : ¬ (kept.any fun k => (agn || k.cls == c.cls) && thr.lt (boxIou k c)) = true) :
    ∀ k ∈ kept, MayKeepBoth agn thr k c := by
  intro k hk hcls
  refine Bool.eq_false_iff.2 fun hlt => h (List.any_eq_true.2 ⟨k, hk, ?_⟩)
  rw [hcls, hlt, Bool.true_and]

/-- The pass keeps only records that may be kept together. -/
theorem nmsKeep_pairwise (agn : Bool) (thr : FVal) (maxOut : Nat) :
    ∀ kept l, kept.Pairwise (MayKeepBoth agn thr) → (nmsKeep agn thr maxOut kept l).1.Pairwise (MayKeepBoth agn thr)
  | _, [], h => h
  | kept, c :: r, h => by
    rw [nmsKeep]
    split
    · exact h
    · split
      · exact nmsKeep_pairwise agn thr maxOut kept r h
      next hfree =>
        refine nmsKeep_pairwise agn thr maxOut (kept ++ [c]) r (List.pairwise_append.2 ⟨h, List.pairwise_singleton .., ?_⟩)
        intro k hk x hx
        obtain rfl := List.mem_singleton.1 hx
        exact mayKeepBoth_of_not_any hfree k hk

/-- Settles O27, from what the greedy pass does to the records it has kept so far. -/
theorem nmsKeepsSeparated : Obligations.NmsKeepsSeparated := by
  unfold Obligations.NmsKeepsSeparated
  intro agn thr maxOut l
  obtain ⟨sel, heq, hsub⟩ := nmsKeep_appends agn thr maxOut [] l
  refine ⟨?_, nmsKeep_length_le agn thr maxOut [] l (Nat.zero_le _), nmsKeep_pairwise agn thr maxOut [] l List.Pairwise.nil⟩
  rw [heq]
  exact hsub

end Sys2Proof.Machine

/-! Rules about ops that every op's proof uses: what an update of an activity's run, of the op in progress and of a channel's engines
leaves to read, and on what a scratchpad check depends. -/

namespace Sys2Proof.Machine

variable {ps : List Part} {s t : State} {a : Nat}

/-! ### The run of an activity -/

theorem State.act_congr (h : t.acts = s.acts) (a : Nat) : t.act a = s.act a := by
  unfold State.act
  rw [h]

@[simp] theorem commit_act (s : State) (a : Nat) : (commit s).act a = s.act a := rfl
@[simp] theorem commit_queue (s : State) (a : Nat) : (commit s).queue a = s.queue a := rfl
@[simp] theorem commit_spGet (s : State) (ch addr n : Nat) : (commit s).spGet ch addr n = s.spGet ch addr n := rfl
@[simp] theorem State.onAct_engs (s : State) (a : Nat) (f : Act → Act) : (s.onAct a f).engs = s.engs := rfl
@[simp] theorem State.onAct_spad (s : State) (a : Nat) (f : Act → Act) : (s.onAct a f).spad = s.spad := rfl

theorem State.act_onAct (w : s.acts.wf = true) (a : Nat) (f : Act → Act) : (s.onAct a f).act a = f (s.act a) :=
  (Tab.get_upd s.acts w a a f).trans (if_pos rfl)

theorem State.onAct_wf (w : s.acts.wf = true) (a : Nat) (f : Act → Act) : (s.onAct a f).acts.wf = true := Tab.wf_upd _ w a f

theorem Act.ne_default_of_run {x : Act} {r : OpRun} (h : x.run = some r) : x ≠ default := by
  rintro rfl
  exact absurd h (by simp [default, instInhabitedAct.default])

/-- The op in progress after an update that leaves one in progress. -/
theorem State.run_onAct_of_some {f : Act → Act} {r : OpRun} (h : (f (s.act a)).run = some r) : ((s.onAct a f).act a).run = some r := by
  rw [State.act_onAct_of_ne_default (Act.ne_default_of_run h), h]

theorem State.opBegin_run (s : State) (a : Nat) (o : OpRec) :
    ((s.opBegin a o).act a).run = some { seq := o.seq, opcode := o.opcode } := State.run_onAct_of_some rfl

theorem State.onRun_run {r : OpRun} (h : (s.act a).run = some r) (f : OpRun → OpRun) :
    ((s.onRun a f).act a).run = some (f r) := State.run_onAct_of_some (by simp [h])

theorem State.opOutcome_run {r : OpRun} (h : (s.act a).run = some r) (code : Nat) :
    ((s.opOutcome a code).act a).run = some { r with code := some code } := State.onRun_run h _

theorem State.opOutcome_code {r : OpRun} (h : (s.act a).run = some r) (code : Nat) :
    (((s.opOutcome a code).act a).run.bind (·.code)) = some code := by
  rw [State.opOutcome_run h]
  rfl

theorem State.opInHand_of_run {r : OpRun} (h : (s.act a).run = some r) (hcode : r.code = none) :
    s.opInHand a r.opcode = some r := by
  simp [State.opInHand, h, hcode]

/-- An op in hand is the op in progress, without an outcome. -/
theorem State.opInHand_eq_some {opcode : Nat} {r : OpRun} (h : s.opInHand a opcode = some r) :
    (s.act a).run = some r ∧ r.opcode = opcode ∧ r.code = none := by
  unfold State.opInHand at h
  split at h
  next x hx =>
    split at h
    next hc =>
      obtain rfl := Option.some.inj h
      simp only [Bool.and_eq_true, beq_iff_eq, Option.isNone_iff_eq_none] at hc
      exact ⟨hx, hc.1, hc.2⟩
    · cases h
  · cases h

/-- An op that may start is the next one of its activity's sequence and has the opcode asked for. -/
theorem State.opReady_opcode {opcode cls inst : Nat} {o : OpRec} (h : s.opReady a opcode cls inst = some o) : o.opcode = opcode := by
  unfold State.opReady at h
  dsimp only at h
  split at h
  · cases h
  next x hx =>
    split at h
    next hc =>
      obtain rfl := Option.some.inj h
      simp only [Bool.and_eq_true, beq_iff_eq] at hc
      exact hc.1.1.1.1.1
    · cases h

/-! ### A channel's engines -/

theorem State.engs_onEng (w : s.engs.wf = true) (ch : Nat) (f : Engines → Engines) :
    (s.onEng ch f).engs.get ch = f (s.engs.get ch) := (Tab.get_upd s.engs w ch ch f).trans (if_pos rfl)

theorem State.onEng_wf (w : s.engs.wf = true) (ch : Nat) (f : Engines → Engines) : (s.onEng ch f).engs.wf = true :=
  Tab.wf_upd _ w ch f

@[simp] theorem State.opBegin_engs (s : State) (a : Nat) (o : OpRec) : (s.opBegin a o).engs = s.engs := rfl
@[simp] theorem State.opBegin_spad (s : State) (a : Nat) (o : OpRec) : (s.opBegin a o).spad = s.spad := rfl
@[simp] theorem State.onRun_engs (s : State) (a : Nat) (f : OpRun → OpRun) : (s.onRun a f).engs = s.engs := rfl
@[simp] theorem State.onRun_spad (s : State) (a : Nat) (f : OpRun → OpRun) : (s.onRun a f).spad = s.spad := rfl
@[simp] theorem State.opOutcome_engs (s : State) (a code : Nat) : (s.opOutcome a code).engs = s.engs := rfl
@[simp] theorem State.opOutcome_spad (s : State) (a code : Nat) : (s.opOutcome a code).spad = s.spad := rfl

/-! ### Scratchpad checks -/

/-- A check of accesses reads only the scratchpad. -/
theorem State.spAcc_congr (h : t.spad = s.spad) (a : Nat) (isWrite : Bool) (addr n : Nat) :
    t.spAcc a isWrite addr n = s.spAcc a isWrite addr n := by
  unfold State.spAcc State.bankAcc State.bankOff State.loanOf
  rw [h]

theorem State.firstRefusal_congr (h : t.spad = s.spad) (a : Nat) (isWrite : Bool) (rs : List (Nat × Nat)) :
    t.firstRefusal a isWrite rs = s.firstRefusal a isWrite rs := by
  unfold State.firstRefusal
  simp only [State.spAcc_congr h]

theorem State.spGet_congr (h : t.spad = s.spad) (ch addr n : Nat) : t.spGet ch addr n = s.spGet ch addr n := by
  unfold State.spGet
  rw [h]

theorem onlyIn_spRefused (a : Nat) (r : Acc) (h : Part.spad ∈ ps) (k : Part.cnt ∈ ps) : OnlyIn ps s (s.spRefused a r) := by
  cases r with
  | ok => exact onlyIn_refl _ _
  | loan => exact onlyIn_evSpc _ _ _ h k
  | off => exact onlyIn_evSpc _ _ _ h k
  | bad => exact onlyIn_trans (onlyIn_evSpc _ _ _ h k) (onlyIn_evSpc _ _ _ h k)

theorem onlyIn_loanFault (a : Nat) (r : Acc) (h : Part.spad ∈ ps) (k : Part.cnt ∈ ps) (k' : Part.acts ∈ ps) :
    OnlyIn ps s (s.loanFault a r) := onlyIn_trans (onlyIn_spRefused a r h k) (onlyIn_opOutcome _ _ k')

theorem State.firstRefusal_single {isWrite : Bool} {addr n : Nat} (hn : n ≠ 0)
    (h : s.firstRefusal a isWrite [(addr, n)] = .ok) : s.spAcc a isWrite addr n = .ok := by
  simpa [State.firstRefusal, hn] using h

/-- A fold that keeps the first refusal gives none only where there is none. -/
theorem foldl_acc_eq_ok {l : List Acc} : ∀ {r : Acc}, l.foldl (fun r x => if r == .ok then x else r) r = .ok → r = .ok ∧ ∀ x ∈ l, x = .ok := by
  induction l with
  | nil => intro r h; exact ⟨h, by simp⟩
  | cons y l ih =>
    intro r h
    rw [List.foldl_cons] at h
    obtain ⟨hy, hl⟩ := ih h
    cases r with
    | ok => exact ⟨rfl, List.forall_mem_cons.2 ⟨hy, hl⟩⟩
    | loan => cases hy
    | off => cases hy
    | bad => cases hy

/-- A range that passes the check ends inside the channel's scratchpad. -/
theorem State.spAcc_end {isWrite : Bool} {addr n : Nat} (h : s.spAcc a isWrite addr n = .ok) :
    addr % 0x2000000 + (n - 1) < 25165824 := by
  unfold State.spAcc at h
  split at h
  · cases h
  · obtain ⟨-, hall⟩ := foldl_acc_eq_ok h
    have hlast := hall _ (List.mem_map.2 ⟨(addr % 0x2000000 + (n - 1)) / bankBytes - addr % 0x2000000 / bankBytes,
      List.mem_range.2 (Nat.lt_succ_self _), rfl⟩)
    have hle : addr % 0x2000000 / bankBytes ≤ (addr % 0x2000000 + (n - 1)) / bankBytes := Nat.div_le_div_right (by omega)
    rw [Nat.add_sub_cancel' hle] at hlast
    unfold State.bankAcc at hlast
    split at hlast
    · cases hlast
    next hbank =>
      have hb : (addr % 0x2000000 + (n - 1)) / 524288 < 48 := Nat.lt_of_not_le hbank
      omega

end Sys2Proof.Machine

/-! Reservations and the op sequence (spec/02, R30 to R33; spec/04, R97 to R99; spec/07, R163; spec/08, R187). -/

namespace Sys2Proof.Machine

section

variable {s t : State} {a : Nat}

/-! ### Reservations -/

/-- A reservation of a class that no saved or pending work waits for: a lane, the host link or an ingest port. -/
theorem State.resStart_of_link {ch cls inst opseq : Nat} (hcls : 8 ≤ cls) (h : s.resStarts a ch cls inst opseq = true)
    (budget cycles line : Nat) : s.resStart a ch cls inst opseq budget cycles line =
      s.onAct a fun x => { x with held := x.held ++ [{ channel := ch, cls := cls, inst := inst, opseq := opseq }] } := by
  have hlarge : decide (cls ≤ 4) = false := by simp; omega
  obtain ⟨n, rfl⟩ := Nat.exists_eq_add_of_le' hcls
  unfold State.resStart
  simp only [h, hlarge, Bool.not_true, Bool.false_and, Bool.false_eq_true, if_false]

/-- The reservations an activity keeps when one ends. -/
def keptHeld (ch cls inst : Nat) (l : List Held) : List Held :=
  l.filter fun h => !(h.channel == ch && h.cls == cls && h.inst == inst)

theorem State.resEnd_of_held {ch cls inst : Nat}
    (h : ((s.act a).held.any fun h => h.channel == ch && h.cls == cls && h.inst == inst) = true) :
    s.resEnd a ch cls inst = (s.resRelease a cls).onAct a fun x => { x with held := keptHeld ch cls inst x.held } := by
  unfold State.resEnd
  dsimp only
  rw [h]
  rfl

theorem State.resRelease_of_no_run (h : (s.act a).run = none) (cls : Nat) : s.resRelease a cls = s := by
  simp only [State.resRelease, h]

theorem State.resRelease_of_matmul {r : OpRun} (h : (s.act a).run = some r) (hop : r.opcode = 0x0101) (hcode : r.code = none)
    (hload : r.loading = false) (hsaved : r.saved = false) :
    s.resRelease a 1 = s.meSave a (matmulJob s (a / 16) (s.opOf a)).saveAddr r := by
  simp only [State.resRelease, h, hcode, hload, hsaved, hop, Option.isSome_none, Bool.or_false, Bool.false_eq_true, if_false,
    and_self, if_true]

/-! ### A save of accumulators -/

/-- The bytes of accumulators in the save area (R187). -/
def accBytes (acc : List Word) : List Byte := acc.flatMap fun w => toLe 4 w.toNat

theorem length_accBytes (acc : List Word) : (accBytes acc).length = 4 * acc.length := by
  induction acc with
  | nil => rfl
  | cons w acc ih =>
    have hcons : accBytes (w :: acc) = toLe 4 w.toNat ++ accBytes acc := List.flatMap_cons
    rw [hcons, List.length_append, length_toLe, ih, List.length_cons]
    omega

/-- The memory after a save: the accumulators, then the word that records where the op stopped. -/
def State.saved (s : State) (ch addr : Nat) (acc : List Word) : State :=
  (s.spPut ch addr (accBytes acc)).spPut ch (addr + 4 * acc.length) ((s.spPut ch addr (accBytes acc)).freeBytes 64)

theorem State.meSave_of_ok {addr : Nat} {r : OpRun} (h : s.firstRefusal a true [(addr, 4 * r.acc.length + 64)] = .ok) :
    s.meSave a addr r = ((((s.saved (a / 16) addr r.acc).tookFree 64).onRun a fun r => { r with saved := true, acc := [] }).meSet (a / 16)
      fun e => { e with saved := true, busy := false }) := by
  unfold State.meSave
  rw [h]
  rfl

theorem onlyIn_saved (ch addr : Nat) (acc : List Word) : OnlyIn [.spad] s (s.saved ch addr acc) :=
  onlyIn_trans (onlyIn_spPut _ _ _ (by decide)) (onlyIn_spPut _ _ _ (by decide))

theorem onlyIn_meSave_of_ok {addr : Nat} {r : OpRun} (h : s.firstRefusal a true [(addr, 4 * r.acc.length + 64)] = .ok) :
    OnlyIn [.acts, .engs, .spad, .freeCount] s (s.meSave a addr r) := by
  rw [State.meSave_of_ok h]
  have hmem := onlyIn_mono (qs := [.acts, .engs, .spad, .freeCount]) (onlyIn_saved (s := s) (a / 16) addr r.acc) (by decide)
  exact onlyIn_trans (onlyIn_trans (onlyIn_trans hmem (onlyIn_tookFree 64 (by decide))) (onlyIn_onRun _ _ (by decide)))
    (onlyIn_meSet _ _ (by decide))

/-- What a save leaves to read: the op in progress, the memory and the engine. -/
theorem State.meSave_run {addr : Nat} {r : OpRun} (h : s.firstRefusal a true [(addr, 4 * r.acc.length + 64)] = .ok)
    (hrun : (s.act a).run = some r) : ((s.meSave a addr r).act a).run = some { r with saved := true, acc := [] } := by
  rw [State.meSave_of_ok h]
  exact State.onRun_run (s := (s.saved (a / 16) addr r.acc).tookFree 64) hrun _

theorem State.meSave_spad {addr : Nat} {r : OpRun} (h : s.firstRefusal a true [(addr, 4 * r.acc.length + 64)] = .ok) :
    (s.meSave a addr r).spad = (s.saved (a / 16) addr r.acc).spad := by
  rw [State.meSave_of_ok h]
  rfl

theorem State.meSave_me {addr : Nat} {r : OpRun} (h : s.firstRefusal a true [(addr, 4 * r.acc.length + 64)] = .ok)
    (w : s.engs.wf = true) :
    ((s.meSave a addr r).engs.get (a / 16)).me = { (s.engs.get (a / 16)).me with saved := true, busy := false } := by
  rw [State.meSave_of_ok h]
  exact congrArg Engines.me (State.engs_onEng (s := ((s.saved (a / 16) addr r.acc).tookFree 64).onRun a _) w (a / 16) _)

section

variable {ch addr : Nat} {acc : List Word}

theorem State.saved_get (w : Memory.wf s.spad.mem = true) (hfit : addr + (4 * acc.length + 64) ≤ 0x2000000) :
    (s.saved ch addr acc).spGet ch addr (4 * acc.length) = accBytes acc := by
  have hkey : spKey ch (addr + 4 * acc.length) = spKey ch addr + 4 * acc.length :=
    spKey_add ch (by omega)
  rw [← State.spGet_spPut w ch addr (length_accBytes acc)]
  refine List.map_congr_left fun i hi => State.spPut_get_of_outside (State.spPut_wf w ..) (Or.inl ?_)
  rw [hkey]
  exact Nat.add_lt_add_left (List.mem_range.1 hi) _

theorem State.saved_get_of_outside (w : Memory.wf s.spad.mem = true) (hfit : addr + (4 * acc.length + 64) ≤ 0x2000000)
    {x : Nat} (hx : x < spKey ch addr ∨ spKey ch addr + (4 * acc.length + 64) ≤ x) :
    Tab.get (s.saved ch addr acc).spad.mem x = Tab.get s.spad.mem x := by
  have hkey : spKey ch (addr + 4 * acc.length) = spKey ch addr + 4 * acc.length :=
    spKey_add ch (by omega)
  refine (State.spPut_get_of_outside (State.spPut_wf w ..) ?_).trans (State.spPut_get_of_outside w ?_)
  · rw [hkey, State.freeBytes, List.length_map, List.length_range]
    omega
  · rw [length_accBytes]
    omega

end

/-! ### COPY -/

theorem State.opReady_core0 {o : OpRec} (h : s.opReady a 0x0301 3 0 = some o) :
    ((List.range 4).findSome? fun c => s.opReady a 0x0301 3 c) = some o := by
  simp [List.range_succ_eq_map, h]

theorem State.progCode_congr (hb : t.bind = s.bind) (hh : t.host = s.host) (a : Nat) (p : Prog) : t.progCode a p = s.progCode a p := by
  unfold State.progCode State.progInRange State.sideInRange
  rw [State.b_congr hb, hh]

/-- A queue whose registers an op has loaded with a program (R148). -/
def Queue.loaded (p : Prog) (q : Queue) : Queue :=
  { q with
    regs := p, state := .active, bytes := 0, stop := .none, descAt := none, chained := false, empty := false
    pendCode := none }

/-- A queue with a program in hand, before its first beat. -/
def Queue.armed (p : Prog) (q : Queue) : Queue :=
  { q with state := .active, prog := p, pos := 0, started := false, isOpen := false, pendCode := none, hold := [] }

theorem State.queue_onQueue (w : s.dma.queues.wf = true) (a : Nat) (f : Queue → Queue) : (s.onQueue a f).queue a = f (s.queue a) :=
  (Tab.get_upd s.dma.queues w a a f).trans (if_pos rfl)

theorem onlyIn_paceUpdate {ps : List Part} (a : Nat) (h : Part.dma ∈ ps) : OnlyIn ps s (s.paceUpdate a) := by
  unfold State.paceUpdate
  exact onlyIn_ite (fun _ => onlyIn_refl _ _) (fun _ => onlyIn_onQueue a _ h)

theorem State.paceUpdate_of_not_paced (h : (s.queue a).prog.pace = false) : s.paceUpdate a = s := by
  simp [State.paceUpdate, h]

theorem State.queueLoad_of_valid {p : Prog} (hidle : (s.queue a).busy = false) (hcode : s.progCode a p = 0) :
    s.queueLoad a p = ((s.onQueue a (·.loaded p)).onQueue a (·.armed p)).paceUpdate a := by
  have hcode' : ∀ f, (s.onQueue a f).progCode a p = 0 := fun f => (State.progCode_congr rfl rfl a p).trans hcode
  simp only [State.queueLoad, hidle, hcode', Bool.false_eq_true, if_false, if_true]
  rfl

theorem onlyIn_queueLoad {p : Prog} (hidle : (s.queue a).busy = false) (hcode : s.progCode a p = 0) :
    OnlyIn [.dma] s (s.queueLoad a p) := by
  rw [State.queueLoad_of_valid hidle hcode]
  exact onlyIn_trans (onlyIn_onQueue a _ (by decide))
    (onlyIn_trans (onlyIn_onQueue a _ (by decide)) (onlyIn_paceUpdate a (by decide)))

theorem State.queueLoad_queue {p : Prog} (w : s.dma.queues.wf = true) (hidle : (s.queue a).busy = false) (hcode : s.progCode a p = 0)
    (hpace : p.pace = false) : (s.queueLoad a p).queue a = ((s.queue a).loaded p).armed p := by
  have hq : ((s.onQueue a (·.loaded p)).onQueue a (·.armed p)).queue a = ((s.queue a).loaded p).armed p := by
    rw [State.queue_onQueue (s := s.onQueue a (·.loaded p)) (Tab.wf_upd _ w a _), State.queue_onQueue w]
  rw [State.queueLoad_of_valid hidle hcode, State.paceUpdate_of_not_paced, hq]
  rw [hq]
  exact hpace

theorem State.copyOp_of_inline {o : OpRec} (h : s.opReady a 0x0301 3 0 = some o) (hidle : (s.queue a).busy = false)
    (hinline : u8 o.params 0 = 0) : s.copyOp a = (s.opBegin a o).queueLoad a (descProg (slice o.params 48 64)) := by
  simp only [State.copyOp, State.opReady_core0 h, hidle, hinline, Bool.false_eq_true, if_false, if_true]

/-! ### OP_END -/

theorem State.opEnd_of_next {r : OpRun} {o : OpRec} (h : (s.act a).run = some r) (hcode : r.code = some 0)
    (ho : s.b.opAt a r.seq = some o) (hlast : o.last = false) (hmore : (s.b.opAt a (r.seq + 1)).isSome = true) :
    s.opEnd a = s.onAct a fun x => { x with run := none, seqNext := r.seq + 1, ended := x.ended ++ [r.seq] } := by
  simp only [State.opEnd, h, hcode, ho, Option.getD_some, hlast, hmore, beq_self_eq_true, Bool.not_false, Bool.and_self, if_true]

theorem State.opEnd_of_failed {r : OpRun} {c : Nat} (h : (s.act a).run = some r) (hcode : r.code = some c) (hc : c ≠ 0) :
    s.opEnd a = (s.onAct a fun x => { x with
      run := none, seqNext := r.seq + 1, ended := x.ended ++ ((s.b.opsOf a).map (·.seq)).filter (r.seq ≤ ·) }).actDone a := by
  have hne : (c == 0) = false := by simpa using hc
  simp only [State.opEnd, h, hcode, hc, hne, Bool.false_and, Bool.false_eq_true, if_false]

theorem State.actDone_of_not_carry (h : (s.act a).carry = false) : s.actDone a = s.onAct a fun x => { x with finished := true } := by
  simp [State.actDone, h]

end

/-- Settles O22, clause by clause. -/
theorem opSequence : Obligations.OpSequence := by
  unfold Obligations.OpSequence
  refine ⟨?lane, ?released, ?saved, ?copy, ?next, ?failed⟩
  case lane =>
    intro s a ch cls inst opseq budget cycles line hl hcls hstart
    refine (next_of_live hl _).trans ?_
    rw [State.resStart_of_link hcls hstart]
    rfl
  case released =>
    intro s a ch cls inst hl hrun hheld
    refine (next_of_live hl _).trans ?_
    rw [State.resEnd_of_held hheld, State.resRelease_of_no_run hrun]
    rfl
  case saved =>
    intro s a ch r addr hl w wmem weng hrun hop hcode hload hsaved hheld haddr hlt hok
    have hfit : addr + (4 * r.acc.length + 64) ≤ 0x2000000 := by
      have hend := State.spAcc_end (State.firstRefusal_single (Nat.succ_ne_zero _) hok)
      omega
    have heff := State.resEnd_of_held hheld
    rw [State.resRelease_of_matmul hrun hop hcode hload hsaved, ← haddr] at heff
    have hframe := onlyIn_trans (onlyIn_meSave_of_ok hok)
      (onlyIn_onAct a (fun x => { x with held := keptHeld ch 1 0 x.held }) (by decide))
    rw [← heff] at hframe
    refine ⟨commit (s.resEnd a ch 1 0), next_of_live hl _, onlyIn_commit hframe, ?_⟩
    rw [heff]
    have hspad := State.meSave_spad hok
    have hme := State.meSave_me hok weng
    refine ⟨?_, ?_, ?_, ?_, ?_⟩
    · rw [commit_act]
      exact State.run_onAct_of_some (f := fun x => { x with held := keptHeld ch 1 0 x.held }) (State.meSave_run hok hrun)
    · rw [commit_spGet, State.spGet_congr ((State.onAct_spad ..).trans hspad)]
      exact State.saved_get wmem hfit
    · intro x hx
      rw [commit_spad, State.onAct_spad, hspad]
      exact State.saved_get_of_outside wmem hfit hx
    · rw [commit_engs, State.onAct_engs, hme]
    · rw [commit_engs, State.onAct_engs, hme]
  case copy =>
    intro s a o hl w wq hready hidle hinline hcode hpace
    have hframe := onlyIn_queueLoad (s := s.opBegin a o) hidle hcode
    have hqueue := State.queueLoad_queue (s := s.opBegin a o) wq hidle hcode hpace
    refine ⟨commit (s.copyOp a), next_of_live hl _, ?_⟩
    rw [State.copyOp_of_inline hready hidle hinline]
    refine ⟨onlyIn_commit (onlyIn_trans (onlyIn_opBegin _ _ (by decide)) (onlyIn_mono hframe (by decide))), ?_, ?_, ?_, ?_⟩
    · rw [commit_queue, hqueue]
      rfl
    · rw [commit_queue, hqueue]
      rfl
    · rw [commit_queue, hqueue]
      rfl
    · rw [commit_act, State.act_congr (hframe.rest .acts (by decide)) a, State.opBegin_run]
  case next =>
    intro s a r o hl hrun hcode ho hlast hmore
    refine (next_of_live hl _).trans ?_
    rw [State.opEnd_of_next hrun hcode ho hlast hmore]
    rfl
  case failed =>
    intro s a r c hl w hrun hcode hc hcarry
    have hact := State.act_onAct w a fun x => { x with
      run := none, seqNext := r.seq + 1, ended := x.ended ++ ((s.b.opsOf a).map (·.seq)).filter (r.seq ≤ ·) }
    have heff := State.opEnd_of_failed hrun hcode hc
    rw [State.actDone_of_not_carry (by rw [hact]; exact hcarry)] at heff
    have hact2 := State.act_onAct (State.onAct_wf w a fun x => { x with
      run := none, seqNext := r.seq + 1, ended := x.ended ++ ((s.b.opsOf a).map (·.seq)).filter (r.seq ≤ ·) }) a
      fun x => { x with finished := true }
    rw [hact, ← heff] at hact2
    refine ⟨commit (s.opEnd a), next_of_live hl _, ?_, ?_, ?_, ?_⟩
    · rw [heff]
      exact onlyIn_commit (onlyIn_trans (onlyIn_onAct _ _ (by decide)) (onlyIn_onAct _ _ (by decide)))
    · exact congrArg Act.run hact2
    · exact congrArg Act.finished hact2
    · exact congrArg Act.ended hact2

end Sys2Proof.Machine

/-! The matrix engine (spec/08; spec/09, R199): what one k-tile and one pair do, and the registers around a run. -/

namespace Sys2Proof.Machine

section

variable {s t : State} {a : Nat} {j : MeJob}

/-! ### The engine's registers -/

theorem State.evMe_wf (w : s.engs.wf = true) (a i n : Nat) : (s.evMe a i n).engs.wf = true := by
  unfold State.evMe
  split
  · exact w
  · rw [State.count_engs]
    exact State.onEng_wf w (a / 16) _

theorem State.meCycles_wf (w : s.engs.wf = true) (a n : Nat) : (s.meCycles a n).engs.wf = true := by
  unfold State.meCycles
  rw [State.count_engs]
  exact State.onEng_wf w _ _

theorem State.spRefused_engs (s : State) (a : Nat) (r : Acc) : (s.spRefused a r).engs = s.engs :=
  (onlyIn_spRefused (ps := [.spad, .cnt]) a r (by decide) (by decide)).rest .engs (by decide)

theorem onlyIn_meTake (a : Nat) : OnlyIn [.engs] s (s.meTake a) := onlyIn_meSet _ _ (by decide)

/-- What the ME's registers show once an op has taken it (R189). -/
theorem State.meTake_me (w : s.engs.wf = true) (a : Nat) :
    ((s.meTake a).engs.get (a / 16)).me = { (s.engs.get (a / 16)).me with busy := true, saved := false, activity := a } :=
  congrArg Engines.me (State.engs_onEng w (a / 16) _)

theorem onlyIn_spotSample (a : Nat) (o : OpRec) : OnlyIn [.chk, .cnt] s (s.spotSample a o) := by
  unfold State.spotSample
  dsimp only
  split
  · exact onlyIn_refl _ _
  · split
    · exact onlyIn_onChk _ (by decide)
    · split
      · exact onlyIn_trans (onlyIn_onChk _ (by decide)) (onlyIn_evSafe _ _ (by decide) (by decide))
      · refine onlyIn_ite (fun _ => ?_) (fun _ => ?_)
        · exact onlyIn_trans (onlyIn_onChk _ (by decide)) (onlyIn_onChk _ (by decide))
        · exact onlyIn_trans (onlyIn_onChk _ (by decide)) (onlyIn_evSafe _ _ (by decide) (by decide))

theorem State.spotSample_of_unmarked {o : OpRec} (h : o.spot = false) (s : State) (a : Nat) : s.spotSample a o = s := by
  simp [State.spotSample, h]

theorem onlyIn_meSettle (a : Nat) : OnlyIn [.engs] s (s.meSettle a) := by
  unfold State.meSettle
  split
  · split
    · exact onlyIn_meSet _ _ (by decide)
    · exact onlyIn_refl _ _
  · exact onlyIn_refl _ _

theorem State.meSettle_of_unfinished {r : OpRun} (h : (s.act a).run = some r) (hcode : r.code = none) : s.meSettle a = s := by
  simp only [State.meSettle, h, hcode]

theorem State.meSettle_me (w : s.engs.wf = true) {c : Nat} (h : ((s.act a).run.bind (·.code)) = some c) :
    ((s.meSettle a).engs.get (a / 16)).me = { (s.engs.get (a / 16)).me with busy := false, saved := false, code := c } := by
  obtain ⟨r, hrun, hcode⟩ := Option.bind_eq_some_iff.1 h
  have heff : s.meSettle a = s.meSet (a / 16) fun e => { e with busy := false, saved := false, code := c } := by
    simp only [State.meSettle, hrun, hcode]
  rw [heff]
  exact congrArg Engines.me (State.engs_onEng w (a / 16) _)

theorem State.opEcc_of_no_error {line : Nat} (h : line ≠ 2) (s : State) (a : Nat) : s.opEcc a line = s := if_neg h

/-- What follows a run of the ME in its reservation: its cycles, a stall, the op's outcome in the registers, and the scratchpad's ECC. -/
def State.meAfter (s : State) (a cycles line : Nat) (stall : Bool) : State :=
  ((((s.meCycles a cycles).evMe a 5 (if stall then 1 else 0)).meSettle a).opEcc a line)

section

variable {line : Nat}

theorem onlyIn_meAfter (hline : line ≠ 2) (cycles : Nat) (stall : Bool) : OnlyIn [.engs, .cnt] s (s.meAfter a cycles line stall) := by
  rw [State.meAfter, State.opEcc_of_no_error hline]
  exact onlyIn_trans (onlyIn_trans (onlyIn_meCycles _ _ (by decide) (by decide)) (onlyIn_evMe _ _ _ (by decide) (by decide)))
    (onlyIn_mono (onlyIn_meSettle a) (by decide))

/-- The registers after a run that ended the op. -/
theorem State.meAfter_me (w : s.engs.wf = true) (hline : line ≠ 2) {c : Nat} (h : ((s.act a).run.bind (·.code)) = some c) (cycles : Nat)
    (stall : Bool) :
    ((s.meAfter a cycles line stall).engs.get (a / 16)).me.busy = false ∧ ((s.meAfter a cycles line stall).engs.get (a / 16)).me.code = c := by
  have hframe : OnlyIn [.engs, .cnt] s ((s.meCycles a cycles).evMe a 5 (if stall then 1 else 0)) :=
    onlyIn_trans (onlyIn_meCycles _ _ (by decide) (by decide)) (onlyIn_evMe _ _ _ (by decide) (by decide))
  have hme := State.meSettle_me (State.evMe_wf (State.meCycles_wf w a cycles) a 5 (if stall then 1 else 0))
    (a := a) (c := c) (by rw [State.act_congr (hframe.rest .acts (by decide))]; exact h)
  rw [State.meAfter, State.opEcc_of_no_error hline, hme]
  exact ⟨rfl, rfl⟩

/-- A stall sets an event bit of the ME and changes no other register. -/
theorem State.evMe_me (w : s.engs.wf = true) (a i n : Nat) :
    ∃ e, ((s.evMe a i n).engs.get (a / 16)).me = { (s.engs.get (a / 16)).me with events := e } := by
  unfold State.evMe
  split
  · exact ⟨_, rfl⟩
  · refine ⟨bitSet (s.engs.get (a / 16)).me.events i, ?_⟩
    rw [State.count_engs]
    exact congrArg Engines.me (State.engs_onEng w (a / 16) fun g => { g with me := { g.me with events := bitSet g.me.events i } })

theorem State.meCycles_me (w : s.engs.wf = true) (a n : Nat) : ((s.meCycles a n).engs.get (a / 16)).me =
    { (s.engs.get (a / 16)).me with busyCyc := (s.engs.get (a / 16)).me.busyCyc + BitVec.ofNat 48 n } := by
  unfold State.meCycles
  rw [State.count_engs]
  exact congrArg Engines.me (State.engs_onEng w (a / 16) _)

/-- The registers after a run that left the op in hand: the busy cycles counted, the engine as the op took it. -/
theorem State.meAfter_me_of_unfinished (w : s.engs.wf = true) (hline : line ≠ 2) {r : OpRun} (h : (s.act a).run = some r)
    (hcode : r.code = none) (cycles : Nat) (stall : Bool) :
    ∃ e, ((s.meAfter a cycles line stall).engs.get (a / 16)).me = { (s.engs.get (a / 16)).me with
      busyCyc := (s.engs.get (a / 16)).me.busyCyc + BitVec.ofNat 48 cycles, events := e } := by
  have hframe : OnlyIn [.engs, .cnt] s ((s.meCycles a cycles).evMe a 5 (if stall then 1 else 0)) :=
    onlyIn_trans (onlyIn_meCycles _ _ (by decide) (by decide)) (onlyIn_evMe _ _ _ (by decide) (by decide))
  have hrun : (((s.meCycles a cycles).evMe a 5 (if stall then 1 else 0)).act a).run = some r := by
    rw [State.act_congr (hframe.rest .acts (by decide)), h]
  obtain ⟨e, he⟩ := State.evMe_me (State.meCycles_wf w a cycles) a 5 (if stall then 1 else 0)
  refine ⟨e, ?_⟩
  rw [State.meAfter, State.opEcc_of_no_error hline, State.meSettle_of_unfinished hrun hcode, he, State.meCycles_me w]

end

/-! ### One pair of one k-tile -/

/-- The rows of a pair, converted. -/
def MeJob.rows (j : MeJob) (pair : Nat) (accs : List Word) : List (Nat × List Conv × List Nat) :=
  (List.range (j.rowsOf pair)).map fun r => (r, j.outRow pair r accs)

/-- One converted row written, with its scales for an MX output. -/
def State.writeRow (s : State) (a : Nat) (j : MeJob) (pair : Nat) (x : Nat × List Conv × List Nat) : State :=
  let s2 := s.spPut (a / 16) (j.rowAddr pair x.1 + elemBytes j.cFmt (j.outCols pair).1) (packElems j.cFmt (x.2.1.map (·.bits)))
  if isMx j.cFmt then s2.spPut (a / 16) (j.scaleAddr pair x.1 + (j.outCols pair).1 / 32) (x.2.2.map (BitVec.ofNat 8 ·)) else s2

/-- The rows of a pair written. -/
def State.writeRows (s : State) (a : Nat) (j : MeJob) (pair : Nat) (accs : List Word) : State :=
  (j.rows pair accs).foldl (fun s x => s.writeRow a j pair x) s

theorem onlyIn_writeRows (a : Nat) (j : MeJob) (pair : Nat) (accs : List Word) : OnlyIn [.spad] s (s.writeRows a j pair accs) := by
  refine onlyIn_foldl _ (fun u x => ?_) _ _
  unfold State.writeRow
  exact onlyIn_ite (fun _ => onlyIn_trans (onlyIn_spPut _ _ _ (by decide)) (onlyIn_spPut _ _ _ (by decide)))
    (fun _ => onlyIn_spPut _ _ _ (by decide))

/-- The events of a pair's conversion. -/
def State.convEvents (s : State) (a sat nan intNan : Nat) : State := ((s.evMe a 1 sat).evMe a 0 nan).evMe a 2 intNan

theorem onlyIn_convEvents (a sat nan intNan : Nat) : OnlyIn [.engs, .cnt] s (s.convEvents a sat nan intNan) :=
  onlyIn_trans (onlyIn_trans (onlyIn_evMe _ _ _ (by decide) (by decide)) (onlyIn_evMe _ _ _ (by decide) (by decide)))
    (onlyIn_evMe _ _ _ (by decide) (by decide))

theorem State.meConvert_of_ok {pair : Nat} {accs : List Word} (hread : s.firstRefusal a false (j.convReads pair) = .ok)
    (hwrite : s.firstRefusal a true (j.writes pair) = .ok)
    (hstrict : (j.strict && decide (0 < (((j.rows pair accs).flatMap fun x => x.2.1).filter (·.sat)).length)) = false)
    (hcols : (j.outCols pair).1 < (j.outCols pair).2) :
    s.meConvert a j pair accs = (s.writeRows a j pair accs).convEvents a
      (((j.rows pair accs).flatMap fun x => x.2.1).filter (·.sat)).length
      (((j.rows pair accs).flatMap fun x => x.2.1).filter (·.nan)).length
      (((j.rows pair accs).flatMap fun x => x.2.1).filter (·.intNan)).length := by
  have hstrict' : (j.strict && decide (0 < ((((List.range (j.rowsOf pair)).map fun r => (r, j.outRow pair r accs)).flatMap
      fun x => x.2.1).filter (·.sat)).length)) = false := hstrict
  simp only [State.meConvert, hread, hwrite, hstrict', Nat.not_le.2 hcols, Bool.false_eq_true, if_false]
  rfl

/-- What the conversion of a pair can do (R177 to R180, R185). -/
theorem State.meConvert_cases (s : State) (a : Nat) (j : MeJob) (pair : Nat) (accs : List Word) :
    (∃ r, s.meConvert a j pair accs = s.loanFault a r) ∨ s.meConvert a j pair accs = (s.evMe a 4 1).opOutcome a 0x21 ∨
      s.meConvert a j pair accs = s ∨
      ∃ sat nan intNan, s.meConvert a j pair accs = (s.writeRows a j pair accs).convEvents a sat nan intNan := by
  unfold State.meConvert
  dsimp only
  split
  · split
    · split
      · exact Or.inr (Or.inl rfl)
      · split
        · exact Or.inr (Or.inr (Or.inl rfl))
        · exact Or.inr (Or.inr (Or.inr ⟨_, _, _, rfl⟩))
    · exact Or.inl ⟨_, rfl⟩
  · exact Or.inl ⟨_, rfl⟩

theorem onlyIn_meConvert (a : Nat) (j : MeJob) (pair : Nat) (accs : List Word) :
    OnlyIn [.acts, .engs, .spad, .cnt] s (s.meConvert a j pair accs) := by
  obtain ⟨r, h⟩ | h | h | ⟨sat, nan, intNan, h⟩ := s.meConvert_cases a j pair accs <;> rw [h]
  · exact onlyIn_loanFault _ _ (by decide) (by decide) (by decide)
  · exact onlyIn_trans (onlyIn_evMe _ _ _ (by decide) (by decide)) (onlyIn_opOutcome _ _ (by decide))
  · exact onlyIn_refl _ _
  · exact onlyIn_trans (onlyIn_mono (onlyIn_writeRows a j pair accs) (by decide))
      (onlyIn_mono (onlyIn_convEvents a sat nan intNan) (by decide))

theorem State.meConvert_wf (w : s.engs.wf = true) (a : Nat) (j : MeJob) (pair : Nat) (accs : List Word) :
    (s.meConvert a j pair accs).engs.wf = true := by
  obtain ⟨r, h⟩ | h | h | ⟨sat, nan, intNan, h⟩ := s.meConvert_cases a j pair accs <;> rw [h]
  · exact (congrArg _ (State.spRefused_engs s a r)).trans w
  · exact State.evMe_wf w _ _ _
  · exact w
  · refine State.evMe_wf (State.evMe_wf (State.evMe_wf ?_ _ _ _) _ _ _) _ _ _
    rw [(onlyIn_writeRows a j pair accs).rest .engs (by decide)]
    exact w

/-- A job of one pair and one k-tile whose operands may be read and are well formed. -/
structure MeJob.Single (s : State) (a : Nat) (j : MeJob) : Prop where
  pairs : j.pairs = 1
  ktiles : j.ktilesAt 0 (j.col0 0) = 1
  readable : s.firstRefusal a false (j.initReads 0 ++ j.reads 0 0) = .ok
  good : j.bad 0 0 = false

/-- The pair of such a job converted and written. -/
def State.meSingle (s : State) (a : Nat) (j : MeJob) : State := s.meConvert a j 0 (j.stepPair 0 0 (j.initPair 0))

theorem State.meStep_of_single {r q : OpRun} (hj : j.Single s a) (hunit : r.unit = 0) (hkt : r.kt = 0)
    (hhand : (s.meSingle a j).opInHand a r.opcode = some q) :
    s.meStep a j r = ((s.meSingle a j).onRun a fun r => { r with unit := 1, kt := 0, acc := [] }).opOutcome a 0 := by
  obtain ⟨hpairs, hktiles, hread, hgood⟩ := hj
  have hhand' : (s.meConvert a j 0 (j.stepPair 0 0 (j.initPair 0))).opInHand a r.opcode = some q := hhand
  simp only [State.meStep, hunit, hkt, hktiles, if_true, if_false, Nat.lt_one_iff, hread, hgood, decide_true, Bool.and_false,
    Bool.false_eq_true, Nat.zero_add, Nat.lt_irrefl, hhand', hpairs]
  rfl

/-- One call of the ME on a single-pair job ends the op with OK. -/
theorem State.meRun_of_single {jobOf : State → MeJob} {opcode : Nat} {r : OpRun} (hrun : s.opInHand a opcode = some r) (hunit : r.unit = 0)
    (hkt : r.kt = 0) (hj : (jobOf s).Single s a) (hhand : ((s.meSingle a (jobOf s)).opInHand a opcode).isSome = true) :
    meRun jobOf a opcode 1 s = ((s.meSingle a (jobOf s)).onRun a fun r => { r with unit := 1, kt := 0, acc := [] }).opOutcome a 0 := by
  obtain ⟨q, hq⟩ := Option.isSome_iff_exists.1 hhand
  obtain ⟨-, rfl, -⟩ := State.opInHand_eq_some hrun
  simp only [meRun, hrun]
  exact State.meStep_of_single hj hunit hkt hq

/-- The state in which an ME op of a record begins: taken, and sampled where it has SPOT. -/
def State.meBegin (s : State) (a : Nat) (o : OpRec) : State := ((s.opBegin a o).meTake a).spotSample a o

theorem onlyIn_meBegin (a : Nat) (o : OpRec) : OnlyIn [.acts, .engs, .chk, .cnt] s (s.meBegin a o) :=
  onlyIn_trans (onlyIn_trans (onlyIn_opBegin _ _ (by decide)) (onlyIn_mono (onlyIn_meTake a) (by decide)))
    (onlyIn_mono (onlyIn_spotSample a o) (by decide))

theorem State.meBegin_run (s : State) (a : Nat) (o : OpRec) :
    ((s.meBegin a o).act a).run = some { seq := o.seq, opcode := o.opcode } := by
  have hacts : (s.meBegin a o).acts = (s.opBegin a o).acts :=
    ((onlyIn_spotSample a o).rest .acts (by decide)).trans ((onlyIn_meTake a).rest .acts (by decide))
  rw [State.act_congr hacts, State.opBegin_run]

theorem State.meBegin_engs (s : State) (a : Nat) (o : OpRec) : (s.meBegin a o).engs = (s.meTake a).engs :=
  (onlyIn_spotSample a o).rest .engs (by decide)

theorem State.meBegin_wf (w : s.engs.wf = true) (a : Nat) (o : OpRec) : (s.meBegin a o).engs.wf = true := by
  rw [State.meBegin_engs]
  exact State.onEng_wf w _ _

theorem State.meBegin_me (w : s.engs.wf = true) (a : Nat) (o : OpRec) : ((s.meBegin a o).engs.get (a / 16)).me =
    { (s.engs.get (a / 16)).me with busy := true, saved := false, activity := a } := by
  rw [State.meBegin_engs]
  exact State.meTake_me w a

theorem State.matmulEff_of_ready {o : OpRec} (h : s.opReady a 0x0101 1 0 = some o) (budget cycles line : Nat) (stall : Bool) :
    s.matmulEff a budget cycles line stall =
      (meRun (fun s => matmulJob s (a / 16) o) a 0x0101 budget (s.meBegin a o)).meAfter a cycles line stall := by
  simp only [State.matmulEff, h]
  rfl

theorem State.convEff_of_local {o : OpRec} (h : s.opReady a 0x0102 1 0 = some o) (hlocal : (u8 o.params 3).testBit 5 = false)
    (budget cycles line : Nat) (stall : Bool) :
    s.convEff a budget cycles line stall =
      (meRun (fun s => convJob s (a / 16) o) a 0x0102 budget (s.meBegin a o)).meAfter a cycles line stall := by
  simp only [State.convEff, h, hlocal, Bool.false_eq_true, if_false]
  rfl

/-- An op that takes the engine and has no k-tile to run yet: it is in progress and the registers show it. -/
theorem State.meAfter_of_begun (w : s.engs.wf = true) (a : Nat) (o : OpRec) {line : Nat} (hline : line ≠ 2) (cycles : Nat) (stall : Bool) :
    OnlyIn [.acts, .engs, .chk, .cnt] s ((s.meBegin a o).meAfter a cycles line stall) ∧
      (((s.meBegin a o).meAfter a cycles line stall).act a).run = some { seq := o.seq, opcode := o.opcode } ∧
      ∃ e, (((s.meBegin a o).meAfter a cycles line stall).engs.get (a / 16)).me = { (s.engs.get (a / 16)).me with
        busy := true, saved := false, activity := a
        busyCyc := (s.engs.get (a / 16)).me.busyCyc + BitVec.ofNat 48 cycles, events := e } := by
  have hafter := onlyIn_meAfter (s := s.meBegin a o) (a := a) hline cycles stall
  refine ⟨onlyIn_trans (onlyIn_meBegin a o) (onlyIn_mono hafter (by decide)), ?_, ?_⟩
  · rw [State.act_congr (hafter.rest .acts (by decide)), State.meBegin_run]
  · obtain ⟨e, he⟩ := State.meAfter_me_of_unfinished (State.meBegin_wf w a o) hline (State.meBegin_run s a o) rfl cycles stall
    rw [State.meBegin_me w] at he
    exact ⟨e, he⟩

/-- A single-pair op, from its start to its outcome. -/
theorem State.meAfter_of_single (w : s.engs.wf = true) {jobOf : State → MeJob} {o : OpRec} {opcode line : Nat} (hop : o.opcode = opcode)
    (hline : line ≠ 2) (hj : (jobOf (s.meBegin a o)).Single (s.meBegin a o) a)
    (hhand : (((s.meBegin a o).meSingle a (jobOf (s.meBegin a o))).opInHand a opcode).isSome = true) (cycles : Nat) (stall : Bool)
    (ht : t = (meRun jobOf a opcode 1 (s.meBegin a o)).meAfter a cycles line stall) :
    OnlyIn [.acts, .engs, .spad, .cnt] (s.meBegin a o) t ∧ ((t.act a).run.bind (·.code)) = some 0 ∧
      (t.engs.get (a / 16)).me.busy = false ∧ (t.engs.get (a / 16)).me.code = 0 ∧
      t.spad = ((s.meBegin a o).meSingle a (jobOf (s.meBegin a o))).spad := by
  subst hop
  have hstart : (s.meBegin a o).opInHand a o.opcode = some { seq := o.seq, opcode := o.opcode } :=
    State.opInHand_of_run (State.meBegin_run s a o) rfl
  rw [State.meRun_of_single hstart rfl rfl hj hhand] at ht
  obtain ⟨q, hq⟩ := Option.isSome_iff_exists.1 hhand
  obtain ⟨hqrun, -, -⟩ := State.opInHand_eq_some hq
  have hcode := State.opOutcome_code (State.onRun_run hqrun fun r => { r with unit := 1, kt := 0, acc := [] }) 0
  have hafter := onlyIn_meAfter (a := a) (s := (((s.meBegin a o).meSingle a (jobOf (s.meBegin a o))).onRun a
    fun r => { r with unit := 1, kt := 0, acc := [] }).opOutcome a 0) hline cycles stall
  have hme := State.meAfter_me (s := (((s.meBegin a o).meSingle a (jobOf (s.meBegin a o))).onRun a
    fun r => { r with unit := 1, kt := 0, acc := [] }).opOutcome a 0) (State.meConvert_wf (State.meBegin_wf w a o) a _ 0 _) hline hcode
    cycles stall
  rw [← ht] at hafter hme
  refine ⟨?_, ?_, hme.1, hme.2, hafter.rest .spad (by decide)⟩
  · exact onlyIn_trans (onlyIn_trans (onlyIn_trans (onlyIn_meConvert a _ 0 _) (onlyIn_onRun _ _ (by decide)))
      (onlyIn_opOutcome _ _ (by decide))) (onlyIn_mono hafter (by decide))
  · rw [State.act_congr (hafter.rest .acts (by decide))]
    exact hcode

end

end Sys2Proof.Machine

/-! The matrix engine, continued: a MATMUL of INT8 operands with one output element, and the load of a remote weight block. -/

namespace Sys2Proof.Machine

section

variable {s t : State} {a : Nat}

/-! ### Exact integer accumulation (R173 to R175) -/

/-- The exact product of two integers as values is their product. -/
theorem FVal.intOf_mul_ofInt (x y : Int) : ((FVal.ofInt x).mul (FVal.ofInt y)).intOf = x * y := by
  have hscaled : ((FVal.ofInt x).mul (FVal.ofInt y)).intOf =
      if (decide (x < 0) != decide (y < 0)) = true then -((x.natAbs * y.natAbs : Nat) : Int) else ((x.natAbs * y.natAbs : Nat) : Int) := by
    simp [FVal.ofInt, FVal.mul, FVal.intOf, FVal.scaled]
  rw [hscaled, Int.natCast_mul]
  rcases Int.lt_or_le x 0 with hx | hx <;> rcases Int.lt_or_le y 0 with hy | hy
  · rw [decide_eq_true hx, decide_eq_true hy, Int.ofNat_natAbs_of_nonpos (Int.le_of_lt hx), Int.ofNat_natAbs_of_nonpos (Int.le_of_lt hy),
      if_neg (by decide), Int.neg_mul_neg]
  · rw [decide_eq_true hx, decide_eq_false (Int.not_lt.2 hy), Int.ofNat_natAbs_of_nonpos (Int.le_of_lt hx), Int.natAbs_of_nonneg hy,
      if_pos (by decide), Int.neg_mul, Int.neg_neg]
  · rw [decide_eq_false (Int.not_lt.2 hx), decide_eq_true hy, Int.natAbs_of_nonneg hx, Int.ofNat_natAbs_of_nonpos (Int.le_of_lt hy),
      if_pos (by decide), Int.mul_neg, Int.neg_neg]
  · rw [decide_eq_false (Int.not_lt.2 hx), decide_eq_false (Int.not_lt.2 hy), Int.natAbs_of_nonneg hx, Int.natAbs_of_nonneg hy,
      if_neg (by decide)]

theorem foldl_intOf (l : List FVal) : ∀ x : Int, l.foldl (fun t p => t + p.intOf) x = x + (l.map (·.intOf)).sum := by
  induction l with
  | nil => intro x; simp
  | cons p l ih => intro x; simp [ih, Int.add_assoc]

/-- The product of a pair of operands as an integer. -/
def prodInt (p : FVal × FVal) : Int := (p.1.mul p.2).intOf

/-- Accumulating group by group adds the sum of all products: modulo 2^32 the grouping does not matter. -/
theorem foldl_chunks {n : Nat} (hn : 0 < n) : ∀ (f : Nat) (l : List (FVal × FVal)) (acc : Word), l.length ≤ f →
    ((chunksOf n f (l.map some)).map fun g => (g.filterMap id).map fun p => p.1.mul p.2).foldl
      (fun a g => a + BitVec.ofInt 32 (g.foldl (fun t p => t + p.intOf) 0)) acc = acc + BitVec.ofInt 32 (l.map prodInt).sum
  | 0, l, acc, h => by
    obtain rfl := List.length_eq_zero_iff.1 (Nat.le_zero.1 h)
    simp [chunksOf]
  | f + 1, [], acc, _ => by simp [chunksOf]
  | f + 1, p :: l, acc, h => by
    have hrest : ((p :: l).drop n).length ≤ f := by
      rw [List.length_drop]
      omega
    have hsome : (((p :: l).take n).map some).filterMap id = (p :: l).take n :=
      List.filterMap_map.trans List.filterMap_some
    have hsum : (((p :: l).take n).map prodInt).sum + (((p :: l).drop n).map prodInt).sum = ((p :: l).map prodInt).sum := by
      rw [← List.sum_append, ← List.map_append, List.take_append_drop]
    have hcut : chunksOf n (f + 1) ((p :: l).map some) =
        ((p :: l).take n).map some :: chunksOf n f (((p :: l).drop n).map some) := by
      simp [chunksOf, List.map_take, List.map_drop]
    rw [hcut, List.map_cons, List.foldl_cons, foldl_chunks hn f _ _ hrest, hsome, foldl_intOf, List.map_map, BitVec.add_assoc,
      ← BitVec.ofInt_add, Int.zero_add]
    exact congrArg (fun i => acc + BitVec.ofInt 32 i) hsum

/-- An integer job's step of one accumulator, where no position is left out. -/
theorem MeJob.stepAcc_of_int {j : MeJob} (hint : j.isInt = true) (hgs : 0 < j.gs) (acc : Word) (l : List (FVal × FVal)) :
    j.stepAcc acc (l.map some) = acc + BitVec.ofInt 32 (l.map prodInt).sum := by
  have h := foldl_chunks hgs l.length l acc (Nat.le_refl _)
  simp only [MeJob.stepAcc, hint, if_true, List.length_map]
  exact h

/-! ### A MATMUL of one output element -/

theorem State.valAt_congr (h : t.spad = s.spad) (ch f base sc i : Nat) : t.valAt ch f base sc i = s.valAt ch f base sc i := by
  unfold State.valAt State.rawAt
  simp only [State.spGet_congr h]

theorem State.rawAt_congr (h : t.spad = s.spad) (ch f base i : Nat) : t.rawAt ch f base i = s.rawAt ch f base i := by
  unfold State.rawAt
  simp only [State.spGet_congr h]

theorem State.f32At_congr (h : t.spad = s.spad) (ch base i : Nat) : t.f32At ch base i = s.f32At ch base i := by
  unfold State.f32At
  simp only [State.spGet_congr h]

/-- The job of a MATMUL depends on the state only through the scratchpad. -/
theorem matmulJob_congr (h : t.spad = s.spad) (ch : Nat) (o : OpRec) : matmulJob t ch o = matmulJob s ch o := by
  unfold matmulJob
  simp only [State.valAt_congr h, State.rawAt_congr h, State.f32At_congr h, State.spGet_congr h]

/-- A MATMUL of INT8 operands into one INT32 element, with no flag and one k-tile. -/
structure OpRec.Int8Dot (o : OpRec) : Prop where
  fmtA : u8 o.params 0 = 7
  fmtB : u8 o.params 1 = 7
  fmtC : u8 o.params 2 = 10
  flags : u8 o.params 3 = 0
  rows : o.p32 8 = 1
  cols : o.p32 12 = 1
  depth_pos : 1 ≤ o.p32 16
  depth_le : o.p32 16 ≤ 96

/-- The operand pairs of the element's products. -/
def State.dotPairs (s : State) (ch : Nat) (o : OpRec) : List (FVal × FVal) :=
  (List.range (o.p32 16)).map fun k => (s.valAt ch 7 (o.p32 20) (o.p32 48) k, s.valAt ch 7 (o.p32 28) (o.p32 56) k)

/-- An INT8 element is a signed byte. -/
theorem State.valAt_int8 (s : State) (ch base sc i : Nat) :
    s.valAt ch 7 base sc i = .ofInt (signedOf 8 (u8 (s.spGet ch (base + i) 1) 0)) := rfl

theorem State.dotPairs_sum (s : State) (ch : Nat) (o : OpRec) : ((s.dotPairs ch o).map prodInt).sum =
    ((List.range (o.p32 16)).map fun k =>
      signedOf 8 (u8 (s.spGet ch (o.p32 20 + k) 1) 0) * signedOf 8 (u8 (s.spGet ch (o.p32 28 + k) 1) 0)).sum := by
  refine congrArg List.sum ?_
  rw [State.dotPairs, List.map_map]
  refine List.map_congr_left fun k _ => ?_
  simp only [Function.comp_apply, prodInt, State.valAt_int8, FVal.intOf_mul_ofInt]

section

variable {o : OpRec} {ch : Nat}

theorem OpRec.Int8Dot.pairs (d : o.Int8Dot) : (matmulJob s ch o).pairs = 1 := by
  simp [matmulJob, d.rows, d.cols, cdiv]

theorem OpRec.Int8Dot.ktiles (d : o.Int8Dot) : (matmulJob s ch o).ktilesAt 0 ((matmulJob s ch o).col0 0) = 1 := by
  have hpos := d.depth_pos
  have hle := d.depth_le
  simp only [matmulJob, d.fmtA, d.fmtB, d.flags, cdiv, rateG, tileK, elemBits]
  simp only [Nat.zero_testBit, Nat.max_self, Nat.reduceEqDiff, if_false, if_true, Bool.false_eq_true]
  omega

theorem OpRec.Int8Dot.good (d : o.Int8Dot) : (matmulJob s ch o).bad 0 0 = false := by
  simp [matmulJob, d.flags]

theorem OpRec.Int8Dot.outCols (d : o.Int8Dot) : (matmulJob s ch o).outCols 0 = (0, 1) := by
  simp [MeJob.outCols, matmulJob, d.fmtC, d.cols, isMx]

theorem OpRec.Int8Dot.pos (d : o.Int8Dot) : (matmulJob s ch o).pos 0 0 0 0 = (s.dotPairs ch o).map some := by
  have hle := d.depth_le
  have hmin : min (o.p32 16) 96 = o.p32 16 := Nat.min_eq_left hle
  simp [matmulJob, d.fmtA, d.fmtB, d.flags, d.rows, rateG, tileK, elemBits, State.dotPairs, cdiv, hmin, Function.comp_def]

theorem OpRec.Int8Dot.init (d : o.Int8Dot) : (matmulJob s ch o).init 0 0 0 = 0 := by
  simp [matmulJob, d.flags]

theorem OpRec.Int8Dot.element (d : o.Int8Dot) :
    ((matmulJob s ch o).stepPair 0 0 ((matmulJob s ch o).initPair 0)).getD 0 0 = BitVec.ofInt 32 ((s.dotPairs ch o).map prodInt).sum := by
  have hrows : (matmulJob s ch o).rowsOf 0 = 1 := by simp [matmulJob, d.rows, cdiv]
  have hcols : (matmulJob s ch o).colsOf 0 = 1 := by simp [matmulJob, d.rows, d.cols, cdiv]
  have hcol0 : (matmulJob s ch o).col0 0 = 0 := by simp [matmulJob]
  have hint : (matmulJob s ch o).isInt = true := by simp [matmulJob, d.fmtA, isIntFmt]
  have hgs : 0 < (matmulJob s ch o).gs := by simp [matmulJob, d.fmtA, d.fmtB, d.flags, groupLen, rateG, elemBits]
  have hstep := MeJob.stepAcc_of_int hint hgs 0 (s.dotPairs ch o)
  rw [show (0 : Word) + BitVec.ofInt 32 ((s.dotPairs ch o).map prodInt).sum = _ from BitVec.zero_add _] at hstep
  simpa [MeJob.stepPair, MeJob.initPair, hrows, hcols, hcol0, d.pos, d.init] using hstep

theorem OpRec.Int8Dot.rows_eq (d : o.Int8Dot) (accs : List Word) :
    (matmulJob s ch o).rows 0 accs = [(0, [{ bits := (accs.getD 0 0).toNat }], [])] := by
  have hrows : (matmulJob s ch o).rowsOf 0 = 1 := by simp [matmulJob, d.rows, cdiv]
  have hfmt : (matmulJob s ch o).cFmt = 10 := by simp [matmulJob, d.fmtC]
  have hcol0 : (matmulJob s ch o).col0 0 = 0 := by simp [matmulJob]
  simp [MeJob.rows, hrows, MeJob.outRow, d.outCols, hfmt, hcol0]

theorem OpRec.Int8Dot.writeRows (d : o.Int8Dot) (accs : List Word) :
    t.writeRows a (matmulJob s ch o) 0 accs = t.spPut (a / 16) (o.p32 36) (toLe 4 (accs.getD 0 0).toNat) := by
  have hfmt : (matmulJob s ch o).cFmt = 10 := by simp [matmulJob, d.fmtC]
  have haddr : (matmulJob s ch o).rowAddr 0 0 = o.p32 36 := by simp [matmulJob, d.rows, cdiv]
  simp [State.writeRows, d.rows_eq, State.writeRow, d.outCols, hfmt, haddr, isMx, packElems, elemBytes, elemBits]

/-- The pair of an INT8 dot product, where its accesses are allowed: the element written, and the op still in hand. -/
theorem OpRec.Int8Dot.meSingle (d : o.Int8Dot) (hread : t.firstRefusal a false ((matmulJob s ch o).convReads 0) = .ok)
    (hwrite : t.firstRefusal a true ((matmulJob s ch o).writes 0) = .ok) {accs : List Word} :
    ∃ sat nan intNan, t.meConvert a (matmulJob s ch o) 0 accs =
      (t.spPut (a / 16) (o.p32 36) (toLe 4 (accs.getD 0 0).toNat)).convEvents a sat nan intNan := by
  have hsat : ((((matmulJob s ch o).rows 0 accs).flatMap fun x => x.2.1).filter (·.sat)).length = 0 := by
    rw [d.rows_eq]
    rfl
  have heff := State.meConvert_of_ok (accs := accs) hread hwrite (by rw [hsat]; simp) (by rw [d.outCols]; decide)
  rw [d.writeRows] at heff
  exact ⟨_, _, _, heff⟩

end

/-! ### The load of a remote weight block (R199) -/

theorem State.convEff_of_remote {o : OpRec} (h : s.opReady a 0x0102 1 0 = some o) (hremote : (u8 o.params 3).testBit 5 = true)
    (hspot : o.spot = false) (budget cycles line : Nat) (stall : Bool) :
    s.convEff a budget cycles line stall =
      ((((((s.opBegin a o).meTake a).onRun a fun r => { r with loading := true }).queueLoad a (convLoadProg o)).meCycles a cycles).meSettle
        a) := by
  simp only [State.convEff, h, hremote, State.spotSample_of_unmarked hspot, if_true]

end

/-- Settles O23, clause by clause: the three clauses of one pair from `State.meAfter_of_single`, the two that only take the engine from
`State.meAfter_of_begun`. -/
theorem matrixEngine : Obligations.MatrixEngine := by
  unfold Obligations.MatrixEngine
  refine ⟨?matmulTakes, ?dot, ?matmulPair, ?convTakes, ?convPair, ?convLoads⟩
  case matmulTakes =>
    intro s a o cycles line stall hl w weng hline hready
    obtain ⟨hframe, hrun, e, hme⟩ := State.meAfter_of_begun weng a o hline cycles stall
    refine ⟨commit (s.matmulEff a 0 cycles line stall), next_of_live hl _, ?_⟩
    rw [State.matmulEff_of_ready hready, meRun, commit_act, commit_engs]
    refine ⟨onlyIn_commit hframe, hrun, ?_⟩
    rw [hme]
    exact ⟨rfl, rfl, rfl⟩
  case dot =>
    intro s a o cycles j hl w weng hready hop hspot wmem fA fB fC fl hm hn hk1 hk2 hj hread hconv hwrite
    have d : o.Int8Dot := ⟨fA, fB, fC, fl, hm, hn, hk1, hk2⟩
    have hbegin : s.meBegin a o = (s.opBegin a o).meTake a := State.spotSample_of_unmarked hspot _ _
    have hspad : (s.meBegin a o).spad = s.spad := by rw [hbegin]; rfl
    have hjob : matmulJob (s.meBegin a o) (a / 16) o = j := (matmulJob_congr hspad _ _).trans hj.symm
    have hsingle : j.Single (s.meBegin a o) a := by
      refine ⟨?_, ?_, (State.firstRefusal_congr hspad ..).trans hread, ?_⟩ <;> rw [hj]
      · exact d.pairs
      · exact d.ktiles
      · exact d.good
    obtain ⟨sat, nan, intNan, hpair⟩ := d.meSingle (s := s) (t := s.meBegin a o) (a := a) (ch := a / 16)
      (accs := j.stepPair 0 0 (j.initPair 0)) ((State.firstRefusal_congr hspad ..).trans (hj ▸ hconv))
      ((State.firstRefusal_congr hspad ..).trans (hj ▸ hwrite))
    rw [← hj] at hpair
    have hevents := onlyIn_convEvents (a := a) (s := (s.meBegin a o).spPut (a / 16) (o.p32 36)
      (toLe 4 ((j.stepPair 0 0 (j.initPair 0)).getD 0 0).toNat)) sat nan intNan
    have hhand : (((s.meBegin a o).meSingle a j).opInHand a 0x0101).isSome = true := by
      have hrun : (((s.meBegin a o).meSingle a j).act a).run = some { seq := o.seq, opcode := o.opcode } := by
        rw [State.meSingle, hpair, State.act_congr (hevents.rest .acts (by decide))]
        exact State.meBegin_run s a o
      rw [← hop, State.opInHand_of_run hrun rfl]
      rfl
    obtain ⟨hframe, hcode, hbusy, -, hmem⟩ := State.meAfter_of_single (jobOf := fun s => matmulJob s (a / 16) o) weng hop (line := 0)
      (by decide)      (hjob.symm ▸ hsingle) (hjob.symm ▸ hhand) cycles false rfl
    have hmem' : ((meRun (fun s => matmulJob s (a / 16) o) a 0x0101 1 (s.meBegin a o)).meAfter a cycles 0 false).spad =
        (s.spPut (a / 16) (o.p32 36) (toLe 4 ((j.stepPair 0 0 (j.initPair 0)).getD 0 0).toNat)).spad := by
      rw [hmem, hjob, State.meSingle, hpair, hevents.rest .spad (by decide), hbegin]
      rfl
    refine ⟨commit (s.matmulEff a 1 cycles 0 false), next_of_live hl _, ?_⟩
    rw [State.matmulEff_of_ready hready, commit_act, commit_engs, commit_spGet, commit_spad]
    refine ⟨onlyIn_commit (onlyIn_trans ?_ hframe), hcode, hbusy, ?_, ?_⟩
    · rw [hbegin]
      exact onlyIn_trans (onlyIn_opBegin _ _ (by decide)) (onlyIn_mono (onlyIn_meTake _) (by decide))
    · rw [State.spGet_congr hmem', State.spGet_spPut wmem _ _ (length_toLe ..), hj, d.element, State.dotPairs_sum]
    · intro x hx
      rw [hmem']
      exact State.spPut_get_of_outside wmem (by rw [length_toLe]; exact hx)
  case matmulPair =>
    intro s s1 a o cycles line stall j hl w weng hline hready hop hs1 hj hpairs hktiles hread hgood hhand
    obtain rfl : s1 = s.meBegin a o := hs1
    subst hj
    obtain ⟨hframe, hcode, hbusy, hzero, hmem⟩ := State.meAfter_of_single (jobOf := fun s => matmulJob s (a / 16) o) weng hop hline
      ⟨hpairs, hktiles, hread, hgood⟩ hhand cycles stall rfl
    refine ⟨commit (s.matmulEff a 1 cycles line stall), next_of_live hl _, ?_⟩
    rw [State.matmulEff_of_ready hready, commit_act, commit_engs, commit_spad]
    exact ⟨onlyIn_commit (onlyIn_trans (onlyIn_mono (onlyIn_meBegin _ _) (by decide)) (onlyIn_mono hframe (by decide))), hcode, hbusy,
      hzero, hmem⟩
  case convTakes =>
    intro s a o cycles line stall hl w weng hline hready hlocal
    obtain ⟨hframe, hrun, e, hme⟩ := State.meAfter_of_begun weng a o hline cycles stall
    refine ⟨commit (s.convEff a 0 cycles line stall), next_of_live hl _, ?_⟩
    rw [State.convEff_of_local hready hlocal, meRun, commit_act, commit_engs]
    refine ⟨onlyIn_commit hframe, hrun, ?_⟩
    rw [hme]
    exact ⟨rfl, rfl⟩
  case convPair =>
    intro s s1 a o cycles line stall j hl w weng hline hready hop hlocal hs1 hj hpairs hktiles hread hgood hhand
    obtain rfl : s1 = s.meBegin a o := hs1
    subst hj
    obtain ⟨hframe, hcode, -, hzero, hmem⟩ := State.meAfter_of_single (jobOf := fun s => convJob s (a / 16) o) weng hop hline
      ⟨hpairs, hktiles, hread, hgood⟩ hhand cycles stall rfl
    refine ⟨commit (s.convEff a 1 cycles line stall), next_of_live hl _, ?_⟩
    rw [State.convEff_of_local hready hlocal, commit_act, commit_engs, commit_spad]
    exact ⟨onlyIn_commit (onlyIn_trans (onlyIn_mono (onlyIn_meBegin _ _) (by decide)) (onlyIn_mono hframe (by decide))), hcode, hzero, hmem⟩
  case convLoads =>
    intro s a o budget cycles line stall hl w wq hready hremote hspot hidle hcode
    have hload := onlyIn_queueLoad (s := ((s.opBegin a o).meTake a).onRun a fun r => { r with loading := true }) (a := a) hidle
      ((State.progCode_congr rfl rfl a _).trans hcode)
    have hqueue := State.queueLoad_queue (s := ((s.opBegin a o).meTake a).onRun a fun r => { r with loading := true }) (a := a) wq hidle
      ((State.progCode_congr rfl rfl a _).trans hcode) rfl
    have hcycles := onlyIn_meCycles (ps := [.engs, .cnt]) (s := (((s.opBegin a o).meTake a).onRun a fun r => { r with loading := true }).queueLoad
      a (convLoadProg o)) a cycles (by decide) (by decide)
    have hrun : ((((((s.opBegin a o).meTake a).onRun a fun r => { r with loading := true }).queueLoad a (convLoadProg o)).meCycles a
        cycles).act a).run = some { seq := o.seq, opcode := o.opcode, loading := true } := by
      rw [State.act_congr (hcycles.rest .acts (by decide)), State.act_congr (hload.rest .acts (by decide))]
      exact State.onRun_run (s := (s.opBegin a o).meTake a) (State.opBegin_run s a o) _
    have heff := State.convEff_of_remote hready hremote hspot budget cycles line stall
    rw [State.meSettle_of_unfinished hrun rfl] at heff
    refine ⟨commit (s.convEff a budget cycles line stall), next_of_live hl _, ?_⟩
    rw [heff, commit_act, commit_queue]
    refine ⟨?_, hrun, ?_⟩
    · exact onlyIn_commit (onlyIn_trans (onlyIn_trans (onlyIn_trans (onlyIn_trans (onlyIn_opBegin _ _ (by decide))
        (onlyIn_mono (onlyIn_meTake _) (by decide))) (onlyIn_onRun _ _ (by decide))) (onlyIn_mono hload (by decide)))
        (onlyIn_mono hcycles (by decide)))
    · have hsame := hcycles.rest .dma (by decide)
      rw [State.queue, hsame]
      exact ⟨congrArg Queue.state hqueue, congrArg Queue.prog hqueue⟩

end Sys2Proof.Machine

/-! The attention engine (spec/10): the registers around an op, the wait for leaves, the snapshot, and GEMV_STREAM. -/

namespace Sys2Proof.Machine

section

variable {s t : State} {a : Nat}

/-! ### The engine's registers -/

theorem State.aeSet_ae (w : s.engs.wf = true) (ch : Nat) (f : EngineRegs → EngineRegs) :
    ((s.aeSet ch f).engs.get ch).ae = f (s.engs.get ch).ae := congrArg Engines.ae (State.engs_onEng w ch _)

theorem State.evAe_wf (w : s.engs.wf = true) (a i n : Nat) : (s.evAe a i n).engs.wf = true := by
  unfold State.evAe
  split
  · exact w
  · rw [State.count_engs]
    exact State.onEng_wf w (a / 16) _

/-- An event of the AE sets its bit and changes no other register. -/
theorem State.evAe_ae (w : s.engs.wf = true) (a i n : Nat) :
    ∃ e, ((s.evAe a i n).engs.get (a / 16)).ae = { (s.engs.get (a / 16)).ae with events := e } := by
  unfold State.evAe
  split
  · exact ⟨_, rfl⟩
  · refine ⟨bitSet (s.engs.get (a / 16)).ae.events i, ?_⟩
    rw [State.count_engs]
    exact congrArg Engines.ae (State.engs_onEng w (a / 16) fun g => { g with ae := { g.ae with events := bitSet g.ae.events i } })

theorem State.aeCycles_wf (w : s.engs.wf = true) (a n : Nat) : (s.aeCycles a n).engs.wf = true := by
  unfold State.aeCycles
  rw [State.count_engs]
  exact State.onEng_wf w _ _

theorem State.aeCycles_ae (w : s.engs.wf = true) (a n : Nat) : ((s.aeCycles a n).engs.get (a / 16)).ae =
    { (s.engs.get (a / 16)).ae with busyCyc := (s.engs.get (a / 16)).ae.busyCyc + BitVec.ofNat 48 n } := by
  unfold State.aeCycles
  rw [State.count_engs]
  exact State.aeSet_ae w _ _

theorem State.aeTake_ae (w : s.engs.wf = true) (a : Nat) : ((s.aeTake a).engs.get (a / 16)).ae =
    { (s.engs.get (a / 16)).ae with busy := true, saved := false, waiting := false, activity := a } := State.aeSet_ae w _ _

theorem onlyIn_aeTake (a : Nat) : OnlyIn [.engs] s (s.aeTake a) := onlyIn_aeSet _ _ (by decide)

theorem onlyIn_aeSettle (a : Nat) : OnlyIn [.engs] s (s.aeSettle a) := by
  unfold State.aeSettle
  split
  · split
    · exact onlyIn_aeSet _ _ (by decide)
    · exact onlyIn_refl _ _
  · exact onlyIn_refl _ _

theorem State.aeSettle_of_unfinished {r : OpRun} (h : (s.act a).run = some r) (hcode : r.code = none) : s.aeSettle a = s := by
  simp only [State.aeSettle, h, hcode]

theorem State.aeSettle_ae (w : s.engs.wf = true) {c : Nat} (h : ((s.act a).run.bind (·.code)) = some c) :
    ((s.aeSettle a).engs.get (a / 16)).ae =
      { (s.engs.get (a / 16)).ae with busy := false, saved := false, waiting := false, code := c } := by
  obtain ⟨r, hrun, hcode⟩ := Option.bind_eq_some_iff.1 h
  have heff : s.aeSettle a = s.aeSet (a / 16) fun e => { e with busy := false, saved := false, waiting := false, code := c } := by
    simp only [State.aeSettle, hrun, hcode]
  rw [heff]
  exact State.aeSet_ae w _ _

/-- What follows the blocks of an AE op: its cycles, a stall, and the op's outcome in the registers. -/
def State.aeAfter (s : State) (a cycles stalled : Nat) : State := ((s.aeCycles a cycles).evAe a 10 stalled).aeSettle a

theorem onlyIn_aeCounted (cycles stalled : Nat) : OnlyIn [.engs, .cnt] s ((s.aeCycles a cycles).evAe a 10 stalled) :=
  onlyIn_trans (onlyIn_aeCycles _ _ (by decide) (by decide)) (onlyIn_evAe _ _ _ (by decide) (by decide))

theorem onlyIn_aeAfter (cycles stalled : Nat) : OnlyIn [.engs, .cnt] s (s.aeAfter a cycles stalled) :=
  onlyIn_trans (onlyIn_aeCounted cycles stalled) (onlyIn_mono (onlyIn_aeSettle a) (by decide))

theorem State.aeAfter_ae (w : s.engs.wf = true) {c : Nat} (h : ((s.act a).run.bind (·.code)) = some c) (cycles stalled : Nat) :
    ((s.aeAfter a cycles stalled).engs.get (a / 16)).ae.busy = false := by
  have hact := State.act_congr ((onlyIn_aeCounted (s := s) (a := a) cycles stalled).rest .acts (by decide)) a
  have hae := State.aeSettle_ae (State.evAe_wf (State.aeCycles_wf w a cycles) a 10 stalled) (a := a) (c := c) (by rw [hact]; exact h)
  rw [State.aeAfter, hae]

/-- The registers after a run that left the op in hand: busy and waiting as before. -/
theorem State.aeAfter_ae_of_unfinished (w : s.engs.wf = true) {r : OpRun} (h : (s.act a).run = some r) (hcode : r.code = none)
    (cycles stalled : Nat) : ((s.aeAfter a cycles stalled).engs.get (a / 16)).ae.busy = (s.engs.get (a / 16)).ae.busy ∧
      ((s.aeAfter a cycles stalled).engs.get (a / 16)).ae.waiting = (s.engs.get (a / 16)).ae.waiting := by
  have hact := State.act_congr ((onlyIn_aeCounted (s := s) (a := a) cycles stalled).rest .acts (by decide)) a
  obtain ⟨e, he⟩ := State.evAe_ae (State.aeCycles_wf w a cycles) a 10 stalled
  rw [State.aeAfter, State.aeSettle_of_unfinished (hact ▸ h) hcode, he, State.aeCycles_ae w]
  exact ⟨rfl, rfl⟩

/-! ### ATTN (R225, R264) -/

theorem onlyIn_tierRead (tier : Tier) (k ch site slot : Nat) : OnlyIn [.ring, .sent] s (s.tierRead tier k ch site slot) := by
  unfold State.tierRead
  dsimp only
  split
  · exact onlyIn_out _ (by decide)
  · split
    · exact onlyIn_laneSend ..
    · exact onlyIn_refl _ _
  · exact onlyIn_refl _ _

theorem onlyIn_fetchStart (l ch useTick : Nat) : OnlyIn tierParts s (s.fetchStart l ch useTick) := by
  unfold State.fetchStart
  dsimp only
  split
  · unfold State.fetchHaste
    split
    · exact onlyIn_ite (fun _ => onlyIn_onLeaf _ (by decide)) (fun _ => onlyIn_refl _ _)
    · exact onlyIn_refl _ _
  · split
    · exact onlyIn_evLeaf _ _ (by decide) (by decide)
    · refine onlyIn_trans (onlyIn_trans (onlyIn_ite (fun _ => ?_) (fun _ => onlyIn_refl _ _)) (onlyIn_onLeafE l _ (by decide)))
        (onlyIn_onLeaf _ (by decide))
      exact onlyIn_mono (onlyIn_tierRead ..) (by decide)

/-- The state in which an AE op of a record begins. -/
def State.aeBegin (s : State) (a : Nat) (o : OpRec) : State := (s.opBegin a o).aeTake a

theorem onlyIn_aeBegin (a : Nat) (o : OpRec) : OnlyIn [.acts, .engs] s (s.aeBegin a o) :=
  onlyIn_trans (onlyIn_opBegin _ _ (by decide)) (onlyIn_mono (onlyIn_aeTake a) (by decide))

theorem State.aeBegin_run (s : State) (a : Nat) (o : OpRec) :
    ((s.aeBegin a o).act a).run = some { seq := o.seq, opcode := o.opcode } := State.opBegin_run s a o

theorem State.aeBegin_ae (w : s.engs.wf = true) (a : Nat) (o : OpRec) : ((s.aeBegin a o).engs.get (a / 16)).ae =
    { (s.engs.get (a / 16)).ae with busy := true, saved := false, waiting := false, activity := a } :=
  State.aeTake_ae (s := s.opBegin a o) w a

theorem State.aeBegin_wf (w : s.engs.wf = true) (a : Nat) (o : OpRec) : (s.aeBegin a o).engs.wf = true := State.onEng_wf w _ _

/-- An ATTN that waits for leaves. -/
def State.aeWait (s : State) (a : Nat) : State :=
  ((s.onRun a fun r => { r with waiting := true }).aeSet (a / 16) fun e => { e with waiting := true, busy := false }).evAe a 6 1

theorem State.attnEff_of_resident {o : OpRec} (h : s.opReady a 0x0201 2 0 = some o)
    (hread : (s.aeBegin a o).firstRefusal a false (attnInfoReads (attnShape o)) = .ok)
    (hmiss : missingLeaves ((s.aeBegin a o).segSnaps (a / 16) (attnShape o)) = []) : s.attnEff a = s.aeBegin a o := by
  have hread' : ((s.opBegin a o).aeTake a).firstRefusal a false (attnInfoReads (attnShape o)) = .ok := hread
  have hmiss' : missingLeaves (((s.opBegin a o).aeTake a).segSnaps (a / 16) (attnShape o)) = [] := hmiss
  simp only [State.attnEff, h, hread', hmiss', List.isEmpty_nil, if_true]
  rfl

theorem State.attnEff_of_missing {o : OpRec} (h : s.opReady a 0x0201 2 0 = some o)
    (hread : (s.aeBegin a o).firstRefusal a false (attnInfoReads (attnShape o)) = .ok)
    (hmiss : missingLeaves ((s.aeBegin a o).segSnaps (a / 16) (attnShape o)) ≠ []) :
    s.attnEff a = (missingLeaves ((s.aeBegin a o).segSnaps (a / 16) (attnShape o))).foldl
      (fun (s : State) l => s.fetchStart l (a / 16) 0) ((s.aeBegin a o).aeWait a) := by
  have hread' : ((s.opBegin a o).aeTake a).firstRefusal a false (attnInfoReads (attnShape o)) = .ok := hread
  have hmiss' : (missingLeaves (((s.opBegin a o).aeTake a).segSnaps (a / 16) (attnShape o))).isEmpty = false :=
    List.isEmpty_eq_false_iff.2 hmiss
  simp only [State.attnEff, h, hread', hmiss', Bool.false_eq_true, if_false]
  rfl

/-! ### ATTN_SNAPSHOT (R223) -/

/-- The op in hand once it has taken a snapshot. -/
def OpRun.withSnap (r : OpRun) (x : Snapshot) : OpRun := { r with waiting := false, snap := some x }

/-- A state in which the op in hand has taken a snapshot. -/
def State.snapTaken (s : State) (a : Nat) (snap : Snapshot) : State :=
  (s.onRun a (·.withSnap snap)).aeSet (a / 16) fun e => { e with waiting := false, busy := true }

theorem State.snapTaken_wf (w : s.engs.wf = true) (a : Nat) (snap : Snapshot) : (s.snapTaken a snap).engs.wf = true :=
  State.onEng_wf (s := s.onRun a (·.withSnap snap)) w _ _

theorem State.snapTaken_ae (w : s.engs.wf = true) (a : Nat) (snap : Snapshot) : ((s.snapTaken a snap).engs.get (a / 16)).ae =
    { (s.engs.get (a / 16)).ae with waiting := false, busy := true } := State.aeSet_ae (s := s.onRun a (·.withSnap snap)) w _ _

theorem State.snapTaken_run {r : OpRun} (h : (s.act a).run = some r) (snap : Snapshot) :
    ((s.snapTaken a snap).act a).run = some (r.withSnap snap) := State.onRun_run h _

theorem State.takeSnapshot_of_checked {x : AttnShape} {segs : List SegSnap} (h : s.attnCheck a x segs = 0) :
    ∃ (u : State) (snap : Snapshot) (n : Nat), OnlyIn tierParts s u ∧ s.takeSnapshot a x segs = (u.snapTaken a snap).evAe a 2 n := by
  have hfold : OnlyIn tierParts s ((segs.flatMap (·.leaves)).foldl (fun (s : State) (e : Nat × LeafEntry) => s.spillAbandon e.1) s) :=
    onlyIn_foldl _ (fun s (e : Nat × LeafEntry) => onlyIn_spillAbandon e.1) _ _
  cases hcache : x.cache <;> simp only [State.takeSnapshot, h, hcache, ne_eq, not_true_eq_false, if_false, if_true, Bool.false_eq_true]
  · exact ⟨_, _, _, hfold, rfl⟩
  · exact ⟨_, _, _, onlyIn_trans hfold (onlyIn_onLeaf _ (by decide)), rfl⟩

/-- The state after a snapshot: the op holds it, the engine is busy, and the scratchpad is as it was. -/
theorem State.takeSnapshot_spec {x : AttnShape} {segs : List SegSnap} (h : s.attnCheck a x segs = 0) (w : s.engs.wf = true)
    {r : OpRun} (hrun : (s.act a).run = some r) :
    ∃ snap, ((s.takeSnapshot a x segs).act a).run = some (r.withSnap snap) ∧ (s.takeSnapshot a x segs).engs.wf = true ∧
      ((s.takeSnapshot a x segs).engs.get (a / 16)).ae.busy = true ∧ ((s.takeSnapshot a x segs).engs.get (a / 16)).ae.waiting = false ∧
      (s.takeSnapshot a x segs).spad = s.spad := by
  obtain ⟨u, snap, n, hu, heff⟩ := State.takeSnapshot_of_checked h
  have wu : (u.snapTaken a snap).engs.wf = true := State.snapTaken_wf (by rw [hu.rest .engs (by decide)]; exact w) a snap
  have hev := onlyIn_evAe (ps := [.engs, .cnt]) (s := u.snapTaken a snap) a 2 n (by decide) (by decide)
  obtain ⟨e, he⟩ := State.evAe_ae wu a 2 n
  rw [State.snapTaken_ae (by rw [hu.rest .engs (by decide)]; exact w)] at he
  rw [heff, State.act_congr (hev.rest .acts (by decide)), he, hev.rest .spad (by decide)]
  refine ⟨snap, State.snapTaken_run ?_ snap, State.evAe_wf wu _ _ _, rfl, rfl, hu.rest .spad (by decide)⟩
  rw [State.act_congr (hu.rest .acts (by decide)), hrun]

theorem State.attnSnapEff_of_resident {r q : OpRun} {x : AttnShape} (hhand : s.opInHand a 0x0201 = some r) (hsnap : r.snap = none)
    (hsaved : r.saved = false) (hheld : s.holdsFor a 2 0 r.seq = true) (hx : x = attnShape (s.opOf a))
    (hread : s.firstRefusal a false (attnInfoReads x) = .ok) (hmiss : missingLeaves (s.segSnaps (a / 16) x) = [])
    (hnext : (s.takeSnapshot a x (s.segSnaps (a / 16) x)).opInHand a 0x0201 = some q) (hq : q.snap.isSome = true) (cycles line : Nat) :
    s.attnSnapEff a 0 cycles line = (s.takeSnapshot a x (s.segSnaps (a / 16) x)).aeAfter a cycles 0 := by
  subst hx
  simp only [State.attnSnapEff, hhand, hsnap, hsaved, hheld, hread, hmiss, hnext, hq, Option.isSome_none, Bool.not_true, Bool.or_self,
    Bool.false_eq_true, List.isEmpty_nil, if_true, if_false]
  rfl

/-! ### GEMV_STREAM (R235) -/

theorem State.resetModule_wf (s : State) (cause : Nat) : (s.resetModule cause).engs.wf = true := rfl

theorem State.readFailed_wf (w : s.engs.wf = true) (a ch addr : Nat) (m : MemRes) : (s.readFailed a ch addr m).engs.wf = true := by
  have hksi : ∀ i act, (s.evKsi i act).engs.wf = true := fun i act => by
    rw [(onlyIn_evKsi (ps := [.ksi, .cnt]) i act (by decide) (by decide)).rest .engs (by decide)]
    exact w
  cases m with
  | ok => exact w
  | denied => exact hksi _ _
  | dead => exact hksi _ _
  | uncorr => exact State.resetModule_wf _ _
  | mac => exact State.resetModule_wf _ _

theorem State.aeFail_wf (w : s.engs.wf = true) (a code : Nat) : (s.aeFail a code).engs.wf = true := by
  unfold State.aeFail
  rw [State.opOutcome_engs]
  split
  · exact State.evAe_wf w _ _ _
  · exact w

theorem State.loanFault_wf (w : s.engs.wf = true) (a : Nat) (r : Acc) : (s.loanFault a r).engs.wf = true :=
  (congrArg _ (State.spRefused_engs s a r)).trans w

theorem onlyIn_copyTouch (a ch addr n : Nat) : OnlyIn [.acts] s (s.copyTouch a ch addr n) := by
  unfold State.copyTouch
  exact onlyIn_ite (fun _ => onlyIn_flagAct _ _ (by decide)) (fun _ => onlyIn_refl _ _)

theorem State.wf_ite {c : Prop} [Decidable c] {u : State} (h : c → t.engs.wf = true) (k : ¬ c → u.engs.wf = true) :
    (if c then t else u).engs.wf = true := by
  split
  · exact h (by assumption)
  · exact k (by assumption)

/-- A block of GEMV_STREAM keeps the engines' table in canonical form. -/
theorem State.gemvStep_wf {o : OpRec} {line : Nat} {r : OpRun} (w : s.engs.wf = true) (h : s.gemvStep a o line r = some t) :
    t.engs.wf = true := by
  unfold State.gemvStep at h
  dsimp only at h
  split at h
  · cases h
  · obtain rfl := Option.some.inj h
    split
    · split
      · split
        · exact State.readFailed_wf w _ _ _ _
        · exact State.readFailed_wf w _ _ _ _
        · exact State.aeFail_wf (State.readFailed_wf w _ _ _ _) _ _
        · refine State.wf_ite (fun _ => State.aeFail_wf w _ _) (fun _ => ?_)
          · have hkept : ∀ {u : State}, OnlyIn [.acts, .spad] s u → u.engs.wf = true := fun hu => by
              rw [hu.rest .engs (by decide)]
              exact w
            refine State.wf_ite (fun _ => ?_) (fun _ => ?_)
            · rw [State.opOutcome_engs, State.onRun_engs]
              refine State.evAe_wf (State.evAe_wf (hkept ?_) _ _ _) _ _ _
              refine onlyIn_trans ?_ (onlyIn_foldl _ (fun s b => onlyIn_spWrite _ _ _ (by decide)) _ _)
              exact onlyIn_foldl _ (fun s r => onlyIn_mono (onlyIn_copyTouch ..) (by decide)) _ _
            · rw [State.onRun_engs]
              refine State.evAe_wf (State.evAe_wf (hkept ?_) _ _ _) _ _ _
              refine onlyIn_trans ?_ (onlyIn_foldl _ (fun s b => onlyIn_spWrite _ _ _ (by decide)) _ _)
              exact onlyIn_foldl _ (fun s r => onlyIn_mono (onlyIn_copyTouch ..) (by decide)) _ _
      · exact State.loanFault_wf w _ _
    · exact State.loanFault_wf w _ _

theorem State.gemvEff_of_outside {o : OpRec} (h : s.opReady a 0x0202 2 0 = some o) (hr : (s.aeBegin a o).gemvInRange a o = false)
    (budget cycles line : Nat) : s.gemvEff a budget cycles line = ((s.aeBegin a o).opOutcome a 4).aeSettle a := by
  have hr' : ((s.opBegin a o).aeTake a).gemvInRange a o = false := hr
  simp only [State.gemvEff, h, hr', Bool.false_eq_true, if_false]
  rfl

theorem State.gemvEff_of_step {o : OpRec} {cycles line : Nat} (h : s.opReady a 0x0202 2 0 = some o) (hop : o.opcode = 0x0202)
    (hr : (s.aeBegin a o).gemvInRange a o = true)
    (hstep : (s.aeBegin a o).gemvStep a o line { seq := o.seq, opcode := o.opcode } = some t) :
    s.gemvEff a 1 cycles line = t.aeAfter a cycles 0 := by
  have hr' : ((s.opBegin a o).aeTake a).gemvInRange a o = true := hr
  have hhand : ((s.opBegin a o).aeTake a).opInHand a 0x0202 = some { seq := o.seq, opcode := o.opcode } := by
    have hrun := State.opInHand_of_run (State.aeBegin_run s a o) rfl
    rw [hop] at hrun
    rw [hop]
    exact hrun
  have hstep' : ((s.opBegin a o).aeTake a).gemvStep a o line { seq := o.seq, opcode := o.opcode } = some t := hstep
  simp only [State.gemvEff, h, hr', if_true, State.aeWork, aeRun, hhand, hstep', Bool.false_eq_true, if_false]
  rfl

end

/-- Settles O24, clause by clause. -/
theorem attentionEngine : Obligations.AttentionEngine := by
  unfold Obligations.AttentionEngine
  refine ⟨?resident, ?missing, ?snapshot, ?outside, ?block⟩
  case resident =>
    intro s s1 a o hl w weng hready hs1 hread hmiss
    obtain rfl : s1 = s.aeBegin a o := hs1
    have hae := State.aeBegin_ae weng a o
    refine ⟨commit (s.attnEff a), next_of_live hl _, ?_⟩
    rw [State.attnEff_of_resident hready hread hmiss, commit_act, commit_engs]
    exact ⟨onlyIn_commit (onlyIn_aeBegin a o), State.aeBegin_run s a o, congrArg EngineRegs.busy hae, congrArg EngineRegs.waiting hae,
      congrArg EngineRegs.activity hae⟩
  case missing =>
    intro s s1 a o hl w weng hready hs1 hread hmiss
    obtain rfl : s1 = s.aeBegin a o := hs1
    have hfetch := onlyIn_foldl (ps := tierParts) (fun (s : State) l => s.fetchStart l (a / 16) 0) (fun s l => onlyIn_fetchStart ..)
      (missingLeaves ((s.aeBegin a o).segSnaps (a / 16) (attnShape o))) ((s.aeBegin a o).aeWait a)
    have hev := onlyIn_evAe (ps := [.engs, .cnt]) (s := ((s.aeBegin a o).onRun a fun r => { r with waiting := true }).aeSet (a / 16)
      fun e => { e with waiting := true, busy := false }) a 6 1 (by decide) (by decide)
    obtain ⟨e, he⟩ := State.evAe_ae (s := ((s.aeBegin a o).onRun a fun r => { r with waiting := true }).aeSet (a / 16)
      fun e => { e with waiting := true, busy := false }) (State.onEng_wf (State.aeBegin_wf weng a o) _ _) a 6 1
    rw [State.aeSet_ae (s := (s.aeBegin a o).onRun a fun r => { r with waiting := true }) (State.aeBegin_wf weng a o)] at he
    refine ⟨commit (s.attnEff a), next_of_live hl _, ?_⟩
    rw [State.attnEff_of_missing hready hread hmiss, commit_act, commit_engs, commit_spad, State.act_congr (hfetch.rest .acts (by decide)),
      hfetch.rest .engs (by decide), hfetch.rest .spad (by decide), State.aeWait, State.act_congr (hev.rest .acts (by decide)),
      hev.rest .spad (by decide), he]
    exact ⟨State.onRun_run (State.aeBegin_run s a o) _, rfl, rfl, rfl⟩
  case snapshot =>
    intro s a r x cycles line hl w weng hhand hsnap hsaved hheld hx hread hmiss hcheck
    obtain ⟨hrun, hop, hcode⟩ := State.opInHand_eq_some hhand
    obtain ⟨snap, hrun', weng', hbusy, hwaiting, hspad⟩ := State.takeSnapshot_spec (segs := s.segSnaps (a / 16) x) hcheck weng hrun
    have hnext := State.opInHand_of_run hrun' hcode
    have heff := State.attnSnapEff_of_resident hhand hsnap hsaved hheld hx hread hmiss
      (by rw [← hop]; exact hnext) rfl cycles line
    have hafter := onlyIn_aeAfter (s := s.takeSnapshot a x (s.segSnaps (a / 16) x)) (a := a) cycles 0
    obtain ⟨hb, hw⟩ := State.aeAfter_ae_of_unfinished weng' hrun' hcode cycles 0
    refine ⟨commit (s.attnSnapEff a 0 cycles line), next_of_live hl _, ?_⟩
    rw [heff, commit_act, commit_engs, commit_spad, State.act_congr (hafter.rest .acts (by decide)), hrun', hb, hw, hafter.rest .spad (by decide)]
    exact ⟨rfl, rfl, hbusy, hwaiting, hspad⟩
  case outside =>
    intro s s1 a o budget cycles line hl w weng hready hs1 hr
    obtain rfl : s1 = s.aeBegin a o := hs1
    have hrun := State.opOutcome_run (State.aeBegin_run s a o) 4
    have hsettle := onlyIn_aeSettle (s := (s.aeBegin a o).opOutcome a 4) a
    have hae := State.aeSettle_ae (s := (s.aeBegin a o).opOutcome a 4) (State.aeBegin_wf weng a o)
      (State.opOutcome_code (State.aeBegin_run s a o) 4)
    refine ⟨commit (s.gemvEff a budget cycles line), next_of_live hl _, ?_⟩
    rw [State.gemvEff_of_outside hready hr, commit_act, commit_engs, State.act_congr (hsettle.rest .acts (by decide)), hae]
    exact ⟨onlyIn_commit (onlyIn_trans (onlyIn_trans (onlyIn_aeBegin a o) (onlyIn_opOutcome _ _ (by decide)))
      (onlyIn_mono hsettle (by decide))), hrun, rfl, rfl⟩
  case block =>
    intro s s1 s2 a o cycles line hl w weng hready hop hs1 hr hstep hcode
    obtain rfl : s1 = s.aeBegin a o := hs1
    have hafter := onlyIn_aeAfter (s := s2) (a := a) cycles 0
    have hbusy := State.aeAfter_ae (State.gemvStep_wf (State.aeBegin_wf weng a o) hstep) hcode cycles 0
    refine ⟨commit (s.gemvEff a 1 cycles line), next_of_live hl _, ?_⟩
    rw [State.gemvEff_of_step hready hop hr hstep, commit_act, commit_engs, commit_spad, State.act_congr (hafter.rest .acts (by decide)),
      hafter.rest .spad (by decide)]
    exact ⟨rfl, rfl, hbusy⟩

end Sys2Proof.Machine

/-! Detection (spec/09, R203 to R210): what BOXDEC and NMS_TIDY write. -/

namespace Sys2Proof.Machine

section

variable {s t : State} {a : Nat} {o : OpRec}

/-- An op that restarts from its beginning, in a reservation it fits. -/
theorem State.restartOp_of_ready {opcode cls inst : Nat} (h : s.opReady a opcode cls inst = some o) (f : State → OpRec → State) :
    s.restartOp a opcode cls inst true f = f (s.opBegin a o) o := by
  simp only [State.restartOp, h, if_true]

/-- An op that restarts from its beginning, in a reservation too short for it. -/
theorem State.restartOp_of_short {opcode cls inst : Nat} (h : s.opReady a opcode cls inst = some o) (f : State → OpRec → State) :
    s.restartOp a opcode cls inst false f = s.opBegin a o := by
  simp only [State.restartOp, h, Bool.false_eq_true, if_false]

theorem State.opBegin_workTick (s : State) (a : Nat) (o : OpRec) : ((s.opBegin a o).act a).workTick = (s.act a).workTick := by
  have hne : ({ s.act a with run := some { seq := o.seq, opcode := o.opcode } } : Act) ≠ default := Act.ne_default_of_run rfl
  rw [State.opBegin, State.act_onAct_of_ne_default (f := fun x => { x with run := some { seq := o.seq, opcode := o.opcode } }) hne]

theorem State.spPut_mem (s : State) (ch addr : Nat) (b : List Byte) :
    (s.spPut ch addr b).spad.mem = wrBytes s.spad.mem (spKey ch addr) b := rfl

/-- The outcome of an op whose work wrote scratchpad and set events. -/
theorem State.opOutcome_after {ps : List Part} {u : State} {r : OpRun} (h : OnlyIn ps s u) (hacts : Part.acts ∉ ps)
    (hrun : (s.act a).run = some r) (code : Nat) : (((u.opOutcome a code).act a).run.bind (·.code)) = some code :=
  State.opOutcome_code (r := r) (by rw [State.act_congr (h.rest .acts hacts), hrun]) code

theorem State.boxLevel_congr (h : t.spad = s.spad) (ch : Nat) (o : OpRec) (rec : List Byte) (level base : Nat) :
    t.boxLevel ch o rec level base = s.boxLevel ch o rec level base := by
  unfold State.boxLevel
  simp only [State.rawAt_congr h]

/-! ### BOXDEC -/

/-- What a BOXDEC with these candidates and dropped anchors leaves: the records, the summary, the events and the outcome. -/
def State.boxWrite (s : State) (a : Nat) (o : OpRec) (out cands : List BoxCand) (dropped : Nat) : State :=
  ((((s.spPut (a / 16) (o.p32 44) (out.flatMap (·.bytes))).spPut (a / 16) (o.p32 48)
    (summaryBytes out.length cands.length dropped (decide (u16 o.params 52 < cands.length)) (classMask out) (s.act a).workTick)).evDet a 0
      dropped).evDet a 1 (if decide (u16 o.params 52 < cands.length) then 1 else 0))

theorem onlyIn_boxWrite (out cands : List BoxCand) (dropped : Nat) :
    OnlyIn [.engs, .spad, .cnt] s (s.boxWrite a o out cands dropped) :=
  onlyIn_trans (onlyIn_trans (onlyIn_trans (onlyIn_spPut _ _ _ (by decide)) (onlyIn_spPut _ _ _ (by decide)))
    (onlyIn_evDet _ _ _ (by decide) (by decide))) (onlyIn_evDet _ _ _ (by decide) (by decide))

theorem State.boxWrite_mem (out cands : List BoxCand) (dropped : Nat) : (s.boxWrite a o out cands dropped).spad.mem =
    wrBytes (wrBytes s.spad.mem (spKey (a / 16) (o.p32 44)) (out.flatMap (·.bytes))) (spKey (a / 16) (o.p32 48))
      (summaryBytes out.length cands.length dropped (decide (u16 o.params 52 < cands.length)) (classMask out) (s.act a).workTick) := by
  have hev : ∀ (u : State) (i n j m : Nat), ((u.evDet a i n).evDet a j m).spad = u.spad := fun u i n j m =>
    (onlyIn_trans (onlyIn_evDet (ps := [.engs, .cnt]) a i n (by decide) (by decide)) (onlyIn_evDet a j m (by decide) (by decide))).rest .spad
      (by decide)
  rw [State.boxWrite, hev, State.spPut_mem, State.spPut_mem]

/-- The level records a BOXDEC reads. -/
def State.boxRecs (s : State) (ch : Nat) (o : OpRec) : List (List Byte) :=
  (List.range (u8 o.params 6)).map fun i => s.spGet ch (o.p32 40 + 64 * i) 64

/-- What its levels yield: candidates and dropped anchors, level by level. -/
def State.boxParts (s : State) (ch : Nat) (o : OpRec) : List (List BoxCand × Nat) :=
  (List.range (u8 o.params 6)).map fun i => s.boxLevel ch o ((s.boxRecs ch o).getD i []) i (levelBase (s.boxRecs ch o) i)

/-- Its candidates in order. -/
def State.boxCands (s : State) (ch : Nat) (o : OpRec) : List BoxCand := sortBy BoxCand.before ((s.boxParts ch o).flatMap (·.1))

theorem State.boxRecs_congr (h : t.spad = s.spad) (ch : Nat) (o : OpRec) : t.boxRecs ch o = s.boxRecs ch o := by
  simp only [State.boxRecs, State.spGet_congr h]

theorem State.boxParts_congr (h : t.spad = s.spad) (ch : Nat) (o : OpRec) : t.boxParts ch o = s.boxParts ch o := by
  simp only [State.boxParts, State.boxRecs_congr h, State.boxLevel_congr h]

theorem State.boxCands_congr (h : t.spad = s.spad) (ch : Nat) (o : OpRec) : t.boxCands ch o = s.boxCands ch o := by
  simp only [State.boxCands, State.boxParts_congr h]

/-- The scratchpad ranges of the head planes a BOXDEC reads. -/
def boxHeads (o : OpRec) (recs : List (List Byte)) : List (Nat × Nat) :=
  recs.flatMap fun r => (List.range (u16 r 0)).map fun gy =>
    (u32 r 24 + gy * u32 r 28, u16 r 2 * ((elemBytes (u8 o.params 0) (u8 r 4 * (4 + u16 o.params 4)) + 15) / 16 * 16))

theorem State.boxdec_of_ok (hlevels : s.firstRefusal a false [(o.p32 40, 64 * u8 o.params 6)] = .ok)
    (hheads : s.firstRefusal a false (boxHeads o (s.boxRecs (a / 16) o)) = .ok)
    (hout : s.firstRefusal a true [(o.p32 44, 32 * ((s.boxCands (a / 16) o).take (u16 o.params 52)).length), (o.p32 48, 64)] = .ok) :
    s.boxdec a o = (s.boxWrite a o ((s.boxCands (a / 16) o).take (u16 o.params 52)) (s.boxCands (a / 16) o)
      ((s.boxParts (a / 16) o).map (·.2)).sum).opOutcome a 0 := by
  simp only [boxHeads, State.boxRecs] at hheads
  simp only [State.boxCands, State.boxParts, State.boxRecs] at hout
  simp only [State.boxdec, hlevels, hheads, hout]
  rfl

/-! ### NMS_TIDY -/

/-- The records an NMS_TIDY reads, sorted. -/
def State.nmsSorted (s : State) (ch : Nat) (o : OpRec) (n : Nat) : List BoxCand :=
  sortBy BoxCand.before ((List.range n).map fun i => boxOf (s.spGet ch (o.p32 8 + 32 * i) 32))

/-- What it keeps of them, and whether it stopped at MAX_OUT. -/
def State.nmsKept (s : State) (ch : Nat) (o : OpRec) (n : Nat) : List BoxCand × Bool :=
  nmsKeep (u8 o.params 0 == 1) (o.pF 4) (u16 o.params 24) [] (s.nmsSorted ch o n)

theorem State.nmsKept_congr (h : t.spad = s.spad) (ch : Nat) (o : OpRec) (n : Nat) : t.nmsKept ch o n = s.nmsKept ch o n := by
  simp only [State.nmsKept, State.nmsSorted, State.spGet_congr h]

/-- What an NMS_TIDY of `n` records leaves that keeps some: the records, the summary and the event. -/
def State.nmsWrite (s : State) (a : Nat) (o : OpRec) (n : Nat) (k : List BoxCand × Bool) : State :=
  ((s.spPut (a / 16) (o.p32 16) (k.1.flatMap (·.raw))).spPut (a / 16) (o.p32 20)
    (summaryBytes k.1.length n 0 k.2 (classMask k.1) (s.act a).workTick)).evDet a 2 (if k.2 then 1 else 0)

theorem onlyIn_nmsWrite (n : Nat) (k : List BoxCand × Bool) : OnlyIn [.engs, .spad, .cnt] s (s.nmsWrite a o n k) :=
  onlyIn_trans (onlyIn_trans (onlyIn_spPut _ _ _ (by decide)) (onlyIn_spPut _ _ _ (by decide)))
    (onlyIn_evDet _ _ _ (by decide) (by decide))

theorem State.nmsWrite_mem (n : Nat) (k : List BoxCand × Bool) : (s.nmsWrite a o n k).spad.mem =
    wrBytes (wrBytes s.spad.mem (spKey (a / 16) (o.p32 16)) (k.1.flatMap (·.raw))) (spKey (a / 16) (o.p32 20))
      (summaryBytes k.1.length n 0 k.2 (classMask k.1) (s.act a).workTick) := by
  rw [State.nmsWrite, (onlyIn_evDet (ps := [.engs, .cnt]) a 2 _ (by decide) (by decide)).rest .spad (by decide), State.spPut_mem,
    State.spPut_mem]

theorem State.nms_of_ok (hsum : s.firstRefusal a false [(o.p32 12, 64)] = .ok) {n : Nat}
    (hn : n = u32 (s.spGet (a / 16) (o.p32 12) 4) 0) (hle : n ≤ 4096) (hrecs : s.firstRefusal a false [(o.p32 8, 32 * n)] = .ok)
    (hout : s.firstRefusal a true [(o.p32 16, 32 * (s.nmsKept (a / 16) o n).1.length), (o.p32 20, 64)] = .ok) :
    s.nms a o = (s.nmsWrite a o n (s.nmsKept (a / 16) o n)).opOutcome a 0 := by
  subst hn
  have hkept : nmsKeep (u8 o.params 0 == 1) (o.pF 4) (u16 o.params 24) [] (sortBy BoxCand.before
      (((List.range (u32 (s.spGet (a / 16) (o.p32 12) 4) 0)).map fun i => s.spGet (a / 16) (o.p32 8 + 32 * i) 32).map boxOf)) =
      s.nmsKept (a / 16) o (u32 (s.spGet (a / 16) (o.p32 12) 4) 0) := by
    rw [List.map_map]
    rfl
  simp only [State.nms, hsum, Nat.not_lt.2 hle, if_false, hrecs, hkept, hout]
  rfl

theorem State.nms_of_many (hsum : s.firstRefusal a false [(o.p32 12, 64)] = .ok)
    (hmany : 4096 < u32 (s.spGet (a / 16) (o.p32 12) 4) 0) : s.nms a o = s.opOutcome a 4 := by
  simp only [State.nms, hsum, hmany, if_true]

end

/-- Settles O26, clause by clause. -/
theorem detectionOps : Obligations.DetectionOps := by
  unfold Obligations.DetectionOps
  refine ⟨?boxdec, ?nms, ?tooMany⟩
  case boxdec =>
    intro s a o recs parts cands out hl w hready hlevels hrecs hheads hparts hcands hout hok
    subst hrecs
    obtain rfl : parts = s.boxParts (a / 16) o := hparts
    obtain rfl : cands = s.boxCands (a / 16) o := hcands
    subst hout
    have hspad : (s.opBegin a o).spad = s.spad := rfl
    have heff : s.restartOp a 0x0401 4 0 true (fun s o => s.boxdec a o) =
        ((s.opBegin a o).boxWrite a o ((s.boxCands (a / 16) o).take (u16 o.params 52)) (s.boxCands (a / 16) o)
          ((s.boxParts (a / 16) o).map (·.2)).sum).opOutcome a 0 := by
      rw [State.restartOp_of_ready hready, State.boxdec_of_ok ((State.firstRefusal_congr hspad ..).trans hlevels)
        ((State.firstRefusal_congr hspad ..).trans hheads) ((State.firstRefusal_congr hspad ..).trans hok)]
      rfl
    have hwrite := onlyIn_boxWrite (s := s.opBegin a o) (a := a) (o := o) ((s.boxCands (a / 16) o).take (u16 o.params 52))
      (s.boxCands (a / 16) o) ((s.boxParts (a / 16) o).map (·.2)).sum
    refine ⟨commit (s.restartOp a 0x0401 4 0 true fun s o => s.boxdec a o), next_of_live hl _, ?_⟩
    rw [heff, commit_act, commit_spad, State.opOutcome_spad, State.boxWrite_mem, State.opBegin_workTick]
    exact ⟨onlyIn_commit (onlyIn_trans (onlyIn_trans (onlyIn_opBegin _ _ (by decide)) (onlyIn_mono hwrite (by decide)))
      (onlyIn_opOutcome _ _ (by decide))), State.opOutcome_after hwrite (by decide) (State.opBegin_run s a o) 0, rfl⟩
  case nms =>
    intro s a o n k hl w hready hsum hn hle hrecs hk hok
    obtain rfl : k = s.nmsKept (a / 16) o n := hk
    have hspad : (s.opBegin a o).spad = s.spad := rfl
    have heff : s.restartOp a 0x0402 4 0 true (fun s o => s.nms a o) =
        ((s.opBegin a o).nmsWrite a o n (s.nmsKept (a / 16) o n)).opOutcome a 0 := by
      rw [State.restartOp_of_ready hready, State.nms_of_ok ((State.firstRefusal_congr hspad ..).trans hsum) hn hle
        ((State.firstRefusal_congr hspad ..).trans hrecs) ((State.firstRefusal_congr hspad ..).trans hok)]
      rfl
    have hwrite := onlyIn_nmsWrite (s := s.opBegin a o) (a := a) (o := o) n (s.nmsKept (a / 16) o n)
    refine ⟨commit (s.restartOp a 0x0402 4 0 true fun s o => s.nms a o), next_of_live hl _, ?_⟩
    rw [heff, commit_act, commit_spad, State.opOutcome_spad, State.nmsWrite_mem, State.opBegin_workTick]
    exact ⟨onlyIn_commit (onlyIn_trans (onlyIn_trans (onlyIn_opBegin _ _ (by decide)) (onlyIn_mono hwrite (by decide)))
      (onlyIn_opOutcome _ _ (by decide))), State.opOutcome_after hwrite (by decide) (State.opBegin_run s a o) 0, rfl⟩
  case tooMany =>
    intro s a o hl w hready hsum hmany
    have heff : s.restartOp a 0x0402 4 0 true (fun s o => s.nms a o) = (s.opBegin a o).opOutcome a 4 := by
      rw [State.restartOp_of_ready hready, State.nms_of_many (s := s.opBegin a o) ((State.firstRefusal_congr rfl ..).trans hsum) hmany]
    refine ⟨commit (s.restartOp a 0x0402 4 0 true fun s o => s.nms a o), next_of_live hl _, ?_⟩
    rw [heff, commit_act]
    exact ⟨onlyIn_commit (onlyIn_trans (onlyIn_opBegin _ _ (by decide)) (onlyIn_opOutcome _ _ (by decide))),
      State.opOutcome_code (State.opBegin_run s a o) 4⟩

end Sys2Proof.Machine

/-! The serving ops (spec/12, R270, R271, R274, R275, R278). -/

namespace Sys2Proof.Machine

section

variable {s t : State} {a : Nat} {o : OpRec}

/-! ### The op in hand is the op that was ready -/

theorem Binding.opAt_seq {b : Binding} {seq : Nat} (h : b.opAt a seq = some o) : o.seq = seq := by
  have hseq := List.find?_some h
  simp only [Bool.and_eq_true, beq_iff_eq] at hseq
  exact hseq.2

/-- An op that may start is the next one of its activity, and none is in progress. -/
theorem State.opReady_next {opcode cls inst : Nat} (h : s.opReady a opcode cls inst = some o) :
    s.b.opAt a (s.act a).seqNext = some o ∧ (s.act a).run = none := by
  unfold State.opReady at h
  dsimp only at h
  split at h
  · cases h
  next x hx =>
    split at h
    next hc =>
      obtain rfl := Option.some.inj h
      simp only [Bool.and_eq_true, Option.isNone_iff_eq_none] at hc
      exact ⟨hx, hc.1.1.1.1.2⟩
    · cases h

theorem State.opOf_of_ready {opcode cls inst : Nat} (h : s.opReady a opcode cls inst = some o) : s.opOf a = o := by
  obtain ⟨hnext, hrun⟩ := State.opReady_next h
  simp only [State.opOf, hrun, hnext, Option.getD_some]

theorem State.opOf_opBegin {opcode cls inst : Nat} (h : s.opReady a opcode cls inst = some o) : (s.opBegin a o).opOf a = o := by
  obtain ⟨hnext, -⟩ := State.opReady_next h
  have hat : (s.opBegin a o).b.opAt a o.seq = some o := by
    rw [Binding.opAt_seq hnext]
    exact hnext
  simp only [State.opOf, State.opBegin_run, hat, Option.getD_some]

/-! ### SAMPLE and DRAFT -/

/-- What a sequence's step leaves of the memory and the events: its writes, the free bytes it took, and its events. -/
def State.seqWrite (s : State) (a : Nat) (x : SeqOut) : State :=
  x.events.foldl (fun (s : State) e => s.evSrv a e)
    ((x.writes.foldl (fun (s : State) w => s.spWrite (a / 16) w.1 w.2) s).tookFree x.free)

theorem onlyIn_seqEvents (l : List Nat) : OnlyIn [.engs, .cnt] s (l.foldl (fun (s : State) e => s.evSrv a e) s) :=
  onlyIn_foldl _ (fun _ _ => onlyIn_evSrv _ _ (by decide) (by decide)) _ _

theorem onlyIn_seqWrite (x : SeqOut) : OnlyIn [.engs, .spad, .cnt, .freeCount] s (s.seqWrite a x) := by
  refine onlyIn_trans (onlyIn_trans ?_ (onlyIn_tookFree x.free (by decide))) (onlyIn_mono (onlyIn_seqEvents x.events) (by decide))
  exact onlyIn_foldl _ (fun _ _ => onlyIn_spWrite _ _ _ (by decide)) _ _

theorem State.seqWrite_spad (s : State) (a : Nat) (x : SeqOut) :
    (s.seqWrite a x).spad = (x.writes.foldl (fun (s : State) w => s.spWrite (a / 16) w.1 w.2) s).spad :=
  (onlyIn_seqEvents x.events).rest .spad (by decide)

/-- The step of sequence 0 of an op of one sequence. -/
def State.seqOut (s : State) (ch : Nat) (o : OpRec) (draft : Bool) : SeqOut :=
  if draft then s.draftSeq ch o (s.activeSeqs ch o) 0 else s.sampleSeq ch o (if s.sampleStays ch o 0 then [0] else []) 0

theorem State.seqStep_of_one {draft : Bool} {r : OpRun} (hunit : r.unit = 0) (hone : u16 o.params 2 = 1)
    (hread : s.firstRefusal a false (s.seqReads (a / 16) o 0 draft) = .ok)
    (hwrite : s.firstRefusal a true ((s.seqOut (a / 16) o draft).writes.map fun w => (w.1, w.2.length)) = .ok) :
    s.seqStep a o draft r = ((s.seqWrite a (s.seqOut (a / 16) o draft)).onRun a fun r => { r with unit := 1 }).opOutcome a 0 := by
  have hchain : ((List.range 1).filter fun i => if i < 0 then (s.seqRec (a / 16) o i).active else s.sampleStays (a / 16) o i) =
      if s.sampleStays (a / 16) o 0 then [0] else [] := by
    cases hstays : s.sampleStays (a / 16) o 0 <;> simp [hstays]
  cases draft with
  | false =>
    have hwrite' : s.firstRefusal a true ((s.sampleSeq (a / 16) o (if s.sampleStays (a / 16) o 0 then [0] else []) 0).writes.map
        fun w => (w.1, w.2.length)) = .ok := hwrite
    simp only [State.seqStep, hunit, hone, hread, hchain, hwrite', Bool.false_eq_true, if_false, Nat.zero_add, if_true]
    rfl
  | true =>
    have hwrite' : s.firstRefusal a true ((s.draftSeq (a / 16) o (s.activeSeqs (a / 16) o) 0).writes.map fun w => (w.1, w.2.length)) = .ok :=
      hwrite
    simp only [State.seqStep, hunit, hone, hread, hwrite', Nat.zero_add, if_true]
    rfl

/-- An op of one sequence, from its start to its outcome. -/
theorem State.seqEff_of_one {draft : Bool} (h : s.opReady a 0x0403 4 0 = some o) (hop : o.opcode = 0x0403)
    (hfn : o.fn = if draft then 1 else 0) (hone : u16 o.params 2 = 1)
    (hread : (s.opBegin a o).firstRefusal a false ((s.opBegin a o).seqReads (a / 16) o 0 draft) = .ok)
    (hwrite : (s.opBegin a o).firstRefusal a true
      (((s.opBegin a o).seqOut (a / 16) o draft).writes.map fun w => (w.1, w.2.length)) = .ok) :
    s.seqEff a 1 draft =
      (((s.opBegin a o).seqWrite a ((s.opBegin a o).seqOut (a / 16) o draft)).onRun a fun r => { r with unit := 1 }).opOutcome a 0 := by
  have hhand : (s.opBegin a o).opInHand a 0x0403 = some { seq := o.seq, opcode := o.opcode } := by
    rw [← hop]
    exact State.opInHand_of_run (State.opBegin_run s a o) rfl
  simp only [State.seqEff, h, hfn, if_true, seqRun, hhand, State.opOf_opBegin h]
  exact State.seqStep_of_one rfl hone hread hwrite

/-- What such an op leaves: its frame, its outcome and the memory. -/
theorem State.seqOutcome_spec (s : State) (a : Nat) (o : OpRec) (x : SeqOut) :
    OnlyIn [.acts, .engs, .spad, .cnt, .freeCount] s
      ((((s.opBegin a o).seqWrite a x).onRun a fun r => { r with unit := 1 }).opOutcome a 0) ∧
    ((((((s.opBegin a o).seqWrite a x).onRun a fun r => { r with unit := 1 }).opOutcome a 0).act a).run.bind (·.code)) = some 0 ∧
    ((((s.opBegin a o).seqWrite a x).onRun a fun r => { r with unit := 1 }).opOutcome a 0).spad =
      (x.writes.foldl (fun (s : State) w => s.spWrite (a / 16) w.1 w.2) (s.opBegin a o)).spad := by
  have hwrite := onlyIn_seqWrite (s := s.opBegin a o) (a := a) x
  refine ⟨?_, ?_, ?_⟩
  · exact onlyIn_trans (onlyIn_trans (onlyIn_trans (onlyIn_opBegin _ _ (by decide)) (onlyIn_mono hwrite (by decide)))
      (onlyIn_onRun _ _ (by decide))) (onlyIn_opOutcome _ _ (by decide))
  · refine State.opOutcome_code (State.onRun_run (r := { seq := o.seq, opcode := o.opcode }) ?_ _) 0
    rw [State.act_congr (hwrite.rest .acts (by decide)), State.opBegin_run]
  · rw [State.opOutcome_spad, State.onRun_spad, State.seqWrite_spad]

/-! ### RMSNORM and SWIGLU -/

/-- The input row of an op of one row. -/
def State.vecInput (s : State) (ch : Nat) (o : OpRec) (n : Nat) : List FVal :=
  (List.range n).map fun j => (s.valAt ch (u8 o.params 1) (o.p32 12) 0 j).r32

/-- The scale vector of RMSNORM. -/
def State.vecGamma (s : State) (ch : Nat) (o : OpRec) : List FVal := (List.range (o.p32 8)).map fun j => s.f32At ch (o.p32 28) j

/-- The row before conversion. -/
def State.vecRow (s : State) (ch : Nat) (o : OpRec) (gated : Bool) : List FVal :=
  if gated then swigluRow (s.vecInput ch o (2 * o.p32 8)) (o.p32 8)
  else rmsRow (s.vecInput ch o (o.p32 8)) (s.vecGamma ch o) (o.p32 8) (o.pF 32)

/-- The bytes an op of one row writes. -/
def State.vecBytes (s : State) (ch : Nat) (o : OpRec) (gated : Bool) : List Byte :=
  packElems (u8 o.params 2) ((s.vecRow ch o gated).map fun v =>
    (convPlain (u8 o.params 2) ((u8 o.params 3).testBit 0) ((u8 o.params 3).testBit 1) v).bits)

theorem State.vecBytes_congr (h : t.spad = s.spad) (ch : Nat) (o : OpRec) (gated : Bool) : t.vecBytes ch o gated = s.vecBytes ch o gated := by
  simp only [State.vecBytes, State.vecRow, State.vecInput, State.vecGamma, State.valAt_congr h, State.f32At_congr h]

theorem State.vecOp_of_one {gated : Bool} (hstrict : o.strict = false) (hone : o.p32 4 = 1) (haddr : o.p32 20 < 0x2000000)
    (hread : s.firstRefusal a false ((o.p32 12, elemBytes (u8 o.params 1) (if gated then 2 * o.p32 8 else o.p32 8)) ::
      if gated then [] else [(o.p32 28, 4 * o.p32 8)]) = .ok)
    (hwrite : s.firstRefusal a true [(o.p32 20, elemBytes (u8 o.params 2) (o.p32 8))] = .ok) :
    s.vecOp a o gated = (s.spPut (a / 16) (o.p32 20) (s.vecBytes (a / 16) o gated)).opOutcome a 0 := by
  have hrange : List.range 1 = [0] := rfl
  unfold State.vecOp
  simp only [hone, hrange, List.map_cons, List.map_nil, Nat.zero_mul, Nat.add_zero, List.cons_append, List.nil_append, hread, hwrite, hstrict,
    Bool.false_and, Bool.false_eq_true, if_false, List.zip_cons_cons, List.zip_nil_right, List.foldl_cons, List.foldl_nil,
    State.spWrite_normal _ _ _ haddr, List.map_map]
  cases gated <;> rfl

/-- What an op of one row leaves: its frame, its outcome and the memory. -/
theorem State.vecOutcome_spec (s : State) (a : Nat) (o : OpRec) (addr : Nat) (b : List Byte) :
    OnlyIn [.acts, .spad] s (((s.opBegin a o).spPut (a / 16) addr b).opOutcome a 0) ∧
    (((((s.opBegin a o).spPut (a / 16) addr b).opOutcome a 0).act a).run.bind (·.code)) = some 0 ∧
    (((s.opBegin a o).spPut (a / 16) addr b).opOutcome a 0).spad.mem = wrBytes s.spad.mem (spKey (a / 16) addr) b :=
  ⟨onlyIn_trans (onlyIn_trans (onlyIn_opBegin _ _ (by decide)) (onlyIn_spPut _ _ _ (by decide))) (onlyIn_opOutcome _ _ (by decide)),
    State.opOutcome_after (onlyIn_spPut (ps := [.spad]) _ _ _ (by decide)) (by decide) (State.opBegin_run s a o) 0, rfl⟩

end

/-- Settles O28, clause by clause. -/
theorem servingOps : Obligations.ServingOps := by
  unfold Obligations.ServingOps
  refine ⟨?sample, ?draft, ?rmsnorm, ?swiglu⟩
  case sample =>
    intro s s1 a o chain hl w hready hop hfn hone hs1 hchain hread hwrite
    subst hs1
    subst hchain
    obtain ⟨hframe, hcode, hspad⟩ := State.seqOutcome_spec s a o ((s.opBegin a o).seqOut (a / 16) o false)
    refine ⟨commit (s.seqEff a 1 false), next_of_live hl _, ?_⟩
    rw [State.seqEff_of_one (draft := false) hready hop hfn hone hread hwrite, commit_act, commit_spad]
    exact ⟨onlyIn_commit hframe, hcode, hspad⟩
  case draft =>
    intro s s1 a o hl w hready hop hfn hone hs1 hread hwrite
    subst hs1
    obtain ⟨hframe, hcode, hspad⟩ := State.seqOutcome_spec s a o ((s.opBegin a o).seqOut (a / 16) o true)
    refine ⟨commit (s.seqEff a 1 true), next_of_live hl _, ?_⟩
    rw [State.seqEff_of_one (draft := true) hready hop hfn hone hread hwrite, commit_act, commit_spad]
    exact ⟨onlyIn_commit hframe, hcode, hspad⟩
  case rmsnorm =>
    intro s a o hl w wmem hready hfn hstrict hone haddr hread hwrite
    have hspad : (s.opBegin a o).spad = s.spad := rfl
    have heff : s.vecEff a false true =
        ((s.opBegin a o).spPut (a / 16) (o.p32 20) (s.vecBytes (a / 16) o false)).opOutcome a 0 := by
      simp only [State.vecEff, State.opOf_of_ready hready, hfn, Bool.false_eq_true, if_false, if_true]
      rw [State.restartOp_of_ready hready, State.vecOp_of_one (s := s.opBegin a o) (gated := false) hstrict hone haddr
        ((State.firstRefusal_congr hspad ..).trans hread) ((State.firstRefusal_congr hspad ..).trans hwrite), State.vecBytes_congr hspad]
    obtain ⟨hframe, hcode, hmem⟩ := State.vecOutcome_spec s a o (o.p32 20) (s.vecBytes (a / 16) o false)
    refine ⟨commit (s.vecEff a false true), next_of_live hl _, ?_⟩
    rw [heff, commit_act, commit_spad]
    exact ⟨onlyIn_commit hframe, hcode, hmem⟩
  case swiglu =>
    intro s a o hl w wmem hready hfn hstrict hone haddr hread hwrite
    have hspad : (s.opBegin a o).spad = s.spad := rfl
    have heff : s.vecEff a true true =
        ((s.opBegin a o).spPut (a / 16) (o.p32 20) (s.vecBytes (a / 16) o true)).opOutcome a 0 := by
      simp only [State.vecEff, State.opOf_of_ready hready, hfn, if_true]
      rw [State.restartOp_of_ready hready, State.vecOp_of_one (s := s.opBegin a o) (gated := true) hstrict hone haddr
        ((State.firstRefusal_congr hspad ..).trans hread) ((State.firstRefusal_congr hspad ..).trans hwrite), State.vecBytes_congr hspad]
    obtain ⟨hframe, hcode, hmem⟩ := State.vecOutcome_spec s a o (o.p32 20) (s.vecBytes (a / 16) o true)
    refine ⟨commit (s.vecEff a true true), next_of_live hl _, ?_⟩
    rw [heff, commit_act, commit_spad]
    exact ⟨onlyIn_commit hframe, hcode, hmem⟩

end Sys2Proof.Machine

/-! Leaves (spec/11, R248 to R253, R261, R262, R264): LEAF_EDIT, its record phase, spills and fetches. -/

namespace Sys2Proof.Machine

section

variable {s t : State} {a l : Nat}

/-! ### LEAF_EDIT -/

theorem onlyIn_editResults {out : Nat} {rs : List (Nat × Option Nat)} (h : s.editResults a out rs = .ok t) :
    OnlyIn [.spad, .freeCount] s t := by
  unfold State.editResults at h
  split at h
  · obtain rfl := Except.ok.inj h
    refine onlyIn_foldl _ (fun u r => ?_) _ _
    dsimp only
    split
    · exact onlyIn_spWrite _ _ _ (by decide)
    · exact onlyIn_trans (onlyIn_spWrite _ _ _ (by decide)) (onlyIn_tookFree _ (by decide))
  · cases h

theorem State.editResults_of_ok {out : Nat} {rs : List (Nat × Option Nat)} (h : s.firstRefusal a true [(out, 8 * rs.length)] = .ok) :
    ∃ u, s.editResults a out rs = .ok u := by
  unfold State.editResults
  rw [h]
  exact ⟨_, rfl⟩

theorem onlyIn_editEvent (code : Nat) : OnlyIn [.leaf, .cnt] s (s.editEvent a code) := by
  unfold State.editEvent
  exact onlyIn_ite (fun _ => onlyIn_evLeaf _ _ (by decide) (by decide)) (fun _ => onlyIn_refl _ _)

/-- An event of the leaves changes of them the event bits alone. -/
theorem State.evLeaf_leaf (s : State) (i : Nat) (act : Option Nat) :
    (s.evLeaf i act).leaf = { s.leaf with events := bitSet s.leaf.events i } := State.count_leaf ..

theorem State.evLeaf_map (s : State) (i : Nat) (act : Option Nat) : (s.evLeaf i act).leaf.map = s.leaf.map := by
  rw [State.evLeaf_leaf]

theorem State.evLeaf_xfers (s : State) (i : Nat) (act : Option Nat) : (s.evLeaf i act).leaf.xfers = s.leaf.xfers := by
  rw [State.evLeaf_leaf]

theorem State.evLeaf_tierBad (s : State) (i : Nat) (act : Option Nat) : (s.evLeaf i act).leaf.tierBad = s.leaf.tierBad := by
  rw [State.evLeaf_leaf]

theorem State.evLeaf_events (s : State) {i : Nat} (hi : i < 8) (act : Option Nat) : (s.evLeaf i act).leaf.events.getLsbD i = true := by
  rw [State.evLeaf_leaf]
  exact getLsbD_bitSet_self _ hi

theorem State.editEvent_leaf (s : State) (a code : Nat) : ∃ e, (s.editEvent a code).leaf = { s.leaf with events := e } := by
  unfold State.editEvent
  split
  · exact ⟨_, State.evLeaf_leaf ..⟩
  · exact ⟨_, rfl⟩

/-- Who edits, for an activity's op. -/
def State.editBy (s : State) (a : Nat) : EditBy := { act := a, k := s.b.tenantOf a, ch := a / 16 }

/-- The action records of a LEAF_EDIT. -/
def State.editActions (s : State) (a : Nat) (o : OpRec) : List (List Byte) :=
  (List.range (u8 o.params 0)).map fun i => s.spGet (a / 16) (o.p32 4 + 32 * i) 32

/-- The plan of an edit whose checks pass. -/
def EditSt.plan (t : EditSt) (rs : List (Nat × Option Nat)) (out : Nat) : EditPlan :=
  { writes := t.leaves, retire := t.retire, frees := t.frees, locks := t.named.eraseDups, uses := t.uses, results := rs, outAddr := out }

/-- The writes of an edit's leaves to their fresh slots. -/
def State.editWrites (s : State) (a : Nat) (t : EditSt) : State :=
  t.leaves.foldl (fun (s : State) w => s.gdPut (a / 16) (8192 * w.entry.slot) w.content) s

theorem onlyIn_editWrites (t : EditSt) : OnlyIn [.gddr] s (s.editWrites a t) :=
  onlyIn_foldl _ (fun _ _ => onlyIn_gdPut _ _ _ (by decide)) _ _

/-- The state of an edit whose checks pass: the plan held, the lists locked, the queue started. -/
def State.editPlanned (s : State) (a : Nat) (t : EditSt) (p : EditPlan) : State :=
  ((((s.editWrites a t).onRun a fun r => { r with edit := some p }).onLeaf fun x => { x with
    nextLeaf := t.next, locks := x.locks ++ p.locks.map fun l => (l, 0) }).onQueue a fun q =>
      { q with state := .active, stop := .none, pendCode := none, descAt := none, chained := false })

theorem State.editCheck_of_passed {o : OpRec} {t : EditSt} {rs : List (Nat × Option Nat)}
    (hacts : s.firstRefusal a false [(o.p32 4, 32 * u8 o.params 0)] = .ok)
    (hrun : editRun s (s.editBy a) (s.editActions a o) { next := s.leaf.nextLeaf } [] 0 = (t, rs, 0))
    (hreads : s.firstRefusal a false t.reads = .ok) (hpoison : t.poison = false) :
    s.editCheck a o = s.editPlanned a t (t.plan rs (o.p32 8)) := by
  unfold State.editActions State.editBy at hrun
  simp only [State.editCheck, hacts, hrun, hreads, hpoison, ne_eq, not_true_eq_false, if_false, Bool.false_eq_true]
  rfl

theorem State.editCheck_of_failed {o : OpRec} {t : EditSt} {rs : List (Nat × Option Nat)} {code : Nat} {u : State}
    (hacts : s.firstRefusal a false [(o.p32 4, 32 * u8 o.params 0)] = .ok)
    (hrun : editRun s (s.editBy a) (s.editActions a o) { next := s.leaf.nextLeaf } [] 0 = (t, rs, code)) (hcode : code ≠ 0)
    (hres : s.editResults a (o.p32 8) rs = .ok u) : s.editCheck a o = (u.editEvent a code).opOutcome a code := by
  unfold State.editActions State.editBy at hrun
  simp only [State.editCheck, hacts, hrun, ne_eq, hcode, not_false_eq_true, if_true, hres]

theorem State.leafEditEff_of_ready {o : OpRec} {c : Nat} (h : s.opReady a 0x0305 3 c = some o) (hidle : (s.queue a).busy = false) :
    s.leafEditEff a c true = (s.opBegin a o).editCheck a o := by
  have hrun := State.opBegin_run s a o
  have hidle' : ((s.opBegin a o).queue a).busy = false := hidle
  rw [State.leafEditEff, State.restartOp_of_ready h]
  simp only [hrun, hidle', Option.elim_some, Option.isSome_none, Bool.or_self, Bool.false_eq_true, if_false]

/-! ### LEAF_EDIT_RECORD -/

/-- The op in progress after its queue has ended: still in progress with the same edit; only a load, or a failed one, shows. -/
theorem State.copyOutcome_run {r : OpRun} (h : (s.act a).run = some r) (hop : r.opcode ≠ 0x0301) (code : Nat) :
    ∃ q, ((s.copyOutcome a code).act a).run = some q ∧ q.edit = r.edit := by
  have hrun : ∀ f : Act → Act, (∃ q, (f (s.act a)).run = some q ∧ q.edit = r.edit) →
      ∃ q, ((s.onAct a f).act a).run = some q ∧ q.edit = r.edit :=
    fun f ⟨q, hq, he⟩ => ⟨q, State.run_onAct_of_some hq, he⟩
  refine hrun _ ?_
  rw [h]
  dsimp only
  split
  · exact ⟨r, h, rfl⟩
  · split
    · exact ⟨_, rfl, by split <;> rfl⟩
    · exact ⟨r, h, rfl⟩

theorem State.queueEnd_run {r : OpRun} (h : (s.act a).run = some r) (hop : r.opcode ≠ 0x0301) (code : Nat) :
    ∃ q, ((s.queueEnd a code).act a).run = some q ∧ q.edit = r.edit := by
  unfold State.queueEnd
  refine State.copyOutcome_run ?_ hop code
  rw [State.act_congr ((onlyIn_trans (onlyIn_onQueue (ps := [.dma, .cnt]) a _ (by decide))
    (onlyIn_evQueue _ _ (by decide) (by decide))).rest .acts (by decide)), h]

/-- An edit in hand given up: its locks go, and the op holds no edit. -/
theorem State.editDrop_of_edit {r : OpRun} {p : EditPlan} (h : (s.act a).run = some r) (hp : r.edit = some p) :
    s.editDrop a = (s.onLeaf fun x => { x with locks := x.locks.filter fun y => y.2 != 0 || !p.locks.contains y.1 }).onRun a
      fun r => { r with edit := none } := by
  simp only [State.editDrop, h, hp]

/-- The shadow after an edit that frees and retires nothing. -/
def EditPlan.shadow (p : EditPlan) (sh : Tab Shadow) : Tab Shadow :=
  p.writes.foldl (fun t w => Tab.set t w.leaf { used := true, entry := w.entry }) sh

theorem State.editRecord_of_ok {p : EditPlan} {u : State} (hres : s.editResults a p.outAddr p.results = .ok u) (huses : p.uses = [])
    (hfrees : p.frees = []) (hretire : p.retire = []) :
    s.editRecord a p = ((u.onLeaf fun x => { x with
      shadow := p.shadow u.leaf.shadow, uses := x.uses ++ []
      locks := x.locks.map fun y => if p.locks.contains y.1 then (y.1, 1) else y }).onRun a fun r => { r with edit := none }).opOutcome a
        0 := by
  simp only [State.editRecord, hres, huses, hfrees, hretire, List.foldl_nil]
  rfl

theorem State.leafRecordEff_of_ok {r : OpRun} {p : EditPlan} (h : s.opInHand a 0x0305 = some r) (hp : r.edit = some p)
    (hstop : (s.queue a).stop = .none) : s.leafRecordEff a 0 = (s.queueEnd a 0).editRecord a p := by
  simp only [State.leafRecordEff, h, hp, hstop, if_true, ne_eq, not_true_eq_false, if_false]

theorem State.leafRecordEff_of_failed {r : OpRun} {p : EditPlan} {ack : Nat} (h : s.opInHand a 0x0305 = some r) (hp : r.edit = some p)
    (hstop : (s.queue a).stop = .none) (hack : ack ≠ 0) :
    s.leafRecordEff a ack = ((s.queueEnd a ack).editDrop a).opOutcome a ack := by
  simp only [State.leafRecordEff, h, hp, hstop, if_true, ne_eq, hack, not_false_eq_true]

/-! ### Spills and fetches -/

@[simp] theorem commit_leafE (s : State) (l : Nat) : (commit s).leafE l = s.leafE l := rfl
@[simp] theorem commit_xferOf (s : State) (l : Nat) : (commit s).xferOf l = s.xferOf l := rfl

theorem State.leafE_congr (h : t.leaf.map = s.leaf.map) (l : Nat) : t.leafE l = s.leafE l := by
  unfold State.leafE
  rw [h]

theorem State.xferOf_congr (h : t.leaf.xfers = s.leaf.xfers) (l : Nat) : t.xferOf l = s.xferOf l := by
  unfold State.xferOf
  rw [h]

theorem State.leafE_onLeafE (w : s.leaf.map.wf = true) (l : Nat) (f : LeafEntry → LeafEntry) : (s.onLeafE l f).leafE l = f (s.leafE l) :=
  (Tab.get_upd s.leaf.map w l l f).trans (if_pos rfl)

theorem State.xferDrop_xferOf (s : State) (l : Nat) : (s.xferDrop l).xferOf l = none := by
  refine List.find?_eq_none.2 fun x hx => ?_
  have hne := (List.mem_filter.1 hx).2
  simpa using hne

/-- A tier slot freed: of the leaves' state the tiers alone change. -/
theorem State.tierFree_leaf (s : State) (tier : Tier) (k site slot : Nat) :
    (s.tierFree tier k site slot).leaf = { s.leaf with tiers := s.leaf.tiers.erase (s.tierKey tier k site slot) } := by
  have hsend : ∀ (u : State) (lane dest typ : Nat) (b : List Byte), (u.laneSend lane dest typ b).leaf = u.leaf :=
    fun u lane dest typ b => (onlyIn_laneSend lane dest typ b).rest .leaf (by decide)
  unfold State.tierFree
  dsimp only
  split
  · split
    · rw [hsend]
      rfl
    · rfl
  · rfl

theorem State.tierFree_map (s : State) (tier : Tier) (k site slot : Nat) : (s.tierFree tier k site slot).leaf.map = s.leaf.map := by
  rw [State.tierFree_leaf]

theorem State.spillAbandon_of_spill {x : Xfer} (h : s.xferOf l = some x) (hspill : x.isFetch = false) :
    s.spillAbandon l = ((s.tierFree x.tier (s.leafE l).tenant x.site x.tierSlot).xferDrop l).onLeafE l fun e => { e with state := .live } := by
  simp only [State.spillAbandon, h, hspill, Bool.false_eq_true, if_false]

/-- A spill given up: the leaf LIVE where it was, and no transfer left. -/
theorem State.spillAbandon_spec {x : Xfer} (h : s.xferOf l = some x) (hspill : x.isFetch = false) (w : s.leaf.map.wf = true) :
    (s.spillAbandon l).leafE l = { s.leafE l with state := .live } ∧ (s.spillAbandon l).xferOf l = none ∧
      (s.spillAbandon l).leaf.tierBad = s.leaf.tierBad := by
  have hmap := State.tierFree_map s x.tier (s.leafE l).tenant x.site x.tierSlot
  have hw : ((s.tierFree x.tier (s.leafE l).tenant x.site x.tierSlot).xferDrop l).leaf.map.wf = true := (congrArg Tab.wf hmap).trans w
  rw [State.spillAbandon_of_spill h hspill]
  refine ⟨(State.leafE_onLeafE hw l _).trans ?_, State.xferDrop_xferOf _ l, ?_⟩
  · exact congrArg (fun e : LeafEntry => { e with state := .live }) (State.leafE_congr hmap l)
  · have hleaf := State.tierFree_leaf s x.tier (s.leafE l).tenant x.site x.tierSlot
    have hbad : (s.tierFree x.tier (s.leafE l).tenant x.site x.tierSlot).leaf.tierBad = s.leaf.tierBad := by rw [hleaf]
    exact hbad

theorem State.spillEnd_of_failed {x : Xfer} {ack : Nat} (h : s.xferOf l = some x) (hspill : x.isFetch = false) (hack : ack ≠ 0) :
    s.spillEnd l ack = ((s.spillAbandon l).onLeaf fun y => { y with tierBad := (x.tier, x.site) :: y.tierBad }).evLeaf 7 none := by
  simp only [State.spillEnd, h, hspill, Bool.false_eq_true, if_false, ne_eq, hack, not_false_eq_true, if_true]

theorem State.spillEnd_of_ok {x : Xfer} (h : s.xferOf l = some x) (hspill : x.isFetch = false) (hsnap : s.snapped l = false) :
    s.spillEnd l 0 = ((s.retain (s.leafE l).site (s.leafE l).slot s.leaf.pubCount).xferDrop l).onLeafE l fun e =>
      { e with state := .spilled, tier := x.tier, site := x.site, slot := x.tierSlot } := by
  simp only [State.spillEnd, h, hspill, hsnap, Bool.false_eq_true, if_false, ne_eq, not_true_eq_false]

theorem State.fetchSlot_of_free {x : Xfer} {slot : Nat} (h : s.xferOf l = some x) (hfetch : x.isFetch = true) (hwait : x.localSlot = none)
    (hfirst : ((s.leaf.xfers.find? fun y => y.isFetch && y.channel == x.channel && y.localSlot.isNone).map (·.leaf)) = some l)
    (hslot : s.slotFor (s.leafE l).tenant x.channel [] 0 = some slot) :
    s.fetchSlot l = (s.tierRead x.tier (s.leafE l).tenant x.channel x.site x.tierSlot).onLeaf fun y =>
      { y with xfers := y.xfers.map fun z => if z.leaf = l then { z with localSlot := some slot } else z } := by
  simp only [State.fetchSlot, h, hfetch, hwait, hfirst, hslot, Option.isNone_none, beq_self_eq_true, Bool.and_self, if_true]

/-- A fetch over: its leaf's entry changed, no transfer of it left, and its failures in a row counted. -/
def State.fetchOver (s : State) (l : Nat) (f : LeafEntry → LeafEntry) (n : Nat) : State :=
  ((s.xferDrop l).onLeafE l f).onLeaf fun y => { y with fails := y.fails.set l n }

theorem onlyIn_fetchOver (f : LeafEntry → LeafEntry) (n : Nat) : OnlyIn [.leaf] s (s.fetchOver l f n) :=
  onlyIn_trans (onlyIn_trans (onlyIn_xferDrop l (by decide)) (onlyIn_onLeafE l _ (by decide))) (onlyIn_onLeaf _ (by decide))

theorem State.fetchOver_leafE (w : s.leaf.map.wf = true) (f : LeafEntry → LeafEntry) (n : Nat) :
    (s.fetchOver l f n).leafE l = f (s.leafE l) := State.leafE_onLeafE (s := s.xferDrop l) w l f

theorem State.fetchOver_xferOf (s : State) (l : Nat) (f : LeafEntry → LeafEntry) (n : Nat) : (s.fetchOver l f n).xferOf l = none :=
  State.xferDrop_xferOf s l

theorem State.fetchOver_events (s : State) (l : Nat) (f : LeafEntry → LeafEntry) (n : Nat) :
    (s.fetchOver l f n).leaf.events = s.leaf.events := rfl

/-- The state in which a fetch has brought a leaf's content to its local slot and freed the tier's. -/
def State.fetchMoved (s : State) (l : Nat) (x : Xfer) (slot : Nat) : State :=
  (s.gdPut x.channel (8192 * slot) (s.leaf.tiers.get (s.tierKey x.tier (s.leafE l).tenant x.site x.tierSlot)).content).tierFree x.tier
    (s.leafE l).tenant x.site x.tierSlot

theorem State.fetchMoved_map (s : State) (l : Nat) (x : Xfer) (slot : Nat) : (s.fetchMoved l x slot).leaf.map = s.leaf.map := by
  have hput : (s.gdPut x.channel (8192 * slot)
      (s.leaf.tiers.get (s.tierKey x.tier (s.leafE l).tenant x.site x.tierSlot)).content).leaf = s.leaf :=
    (onlyIn_gdPut (ps := [.gddr]) _ _ _ (by decide)).rest .leaf (by decide)
  rw [State.fetchMoved, State.tierFree_map, hput]

theorem State.fetchEnd_of_ok {x : Xfer} {slot : Nat} (h : s.xferOf l = some x) (hfetch : x.isFetch = true) (hslot : x.localSlot = some slot) :
    s.fetchEnd l 0 true =
      (s.fetchMoved l x slot).fetchOver l (fun e => { e with state := .live, tier := .loc, site := x.channel, slot := slot }) 0 := by
  simp only [State.fetchEnd, h, hfetch, hslot, Bool.not_true, Bool.false_and, Bool.false_eq_true, if_false, ne_eq, not_true_eq_false]
  rfl

theorem State.fetchEnd_of_first_failure {x : Xfer} {slot ack : Nat} (h : s.xferOf l = some x) (hfetch : x.isFetch = true)
    (hslot : x.localSlot = some slot) (hack : ack ≠ 0) (hfails : s.leaf.fails.get l = 0) (ok : Bool) :
    s.fetchEnd l ack ok = (s.evLeaf 7 none).fetchOver l (fun e => { e with state := .spilled }) 1 := by
  simp only [State.fetchEnd, h, hfetch, hslot, hfails, Bool.not_true, Bool.false_eq_true, if_false, ne_eq, hack, not_false_eq_true, if_true,
    Nat.zero_add, Nat.reduceLT]
  rfl

theorem State.fetchEnd_of_second_failure {x : Xfer} {slot ack : Nat} (h : s.xferOf l = some x) (hfetch : x.isFetch = true)
    (hslot : x.localSlot = some slot) (hack : ack ≠ 0) (hfails : 1 ≤ s.leaf.fails.get l) (ok : Bool) :
    s.fetchEnd l ack ok = ((s.evLeaf 7 none).leafLose l).onLeaf fun y => { y with fails := y.fails.set l 0 } := by
  have hsecond : ¬ s.leaf.fails.get l + 1 < 2 := by omega
  simp only [State.fetchEnd, h, hfetch, hslot, hsecond, Bool.not_true, Bool.false_eq_true, if_false, ne_eq, hack, not_false_eq_true, if_true]

/-- A leaf lost shows it and sets event bit 5. -/
theorem State.leafLose_spec (w : s.leaf.map.wf = true) (l : Nat) :
    ((s.leafLose l).leafE l).state = .lost ∧ (s.leafLose l).leaf.events.getLsbD 5 = true := by
  have hlose : ∀ u : State, u.leaf.map = s.leaf.map →
      ((((u.xferDrop l).onLeafE l fun e => { e with state := .lost }).evLeaf 5 none).leafE l).state = .lost ∧
        (((u.xferDrop l).onLeafE l fun e => { e with state := .lost }).evLeaf 5 none).leaf.events.getLsbD 5 = true := by
    intro u hu
    have hw : (u.xferDrop l).leaf.map.wf = true := (congrArg Tab.wf hu).trans w
    refine ⟨?_, State.evLeaf_events _ (by decide) none⟩
    rw [State.leafE_congr (State.evLeaf_map ..) l, State.leafE_onLeafE hw]
  unfold State.leafLose
  dsimp only
  split
  · exact hlose s rfl
  · exact hlose _ (State.tierFree_map ..)

end

/-- Settles O29, clause by clause. -/
theorem leafService : Obligations.LeafService := by
  unfold Obligations.LeafService
  refine ⟨?editPasses, ?editFails, ?recorded, ?notRecorded, ?spilled, ?spillFails, ?slotTaken, ?fetched, ?fetchFails, ?fetchLost⟩
  case editPasses =>
    intro s s1 a c o t' rs hl w wq hready hidle hs1 hacts hrun hreads hpoison
    subst hs1
    have heff : s.leafEditEff a c true = (s.opBegin a o).editPlanned a t' (t'.plan rs (o.p32 8)) := by
      rw [State.leafEditEff_of_ready hready hidle, State.editCheck_of_passed hacts hrun hreads hpoison]
    have hwrites := onlyIn_editWrites (s := s.opBegin a o) (a := a) t'
    have hrun' := State.onRun_run (s := (s.opBegin a o).editWrites a t') (a := a) (r := { seq := o.seq, opcode := o.opcode })
      (by rw [State.act_congr (hwrites.rest .acts (by decide)), State.opBegin_run])
      fun r => { r with edit := some (t'.plan rs (o.p32 8)) }
    have hact : ((((s.opBegin a o).editPlanned a t' (t'.plan rs (o.p32 8)))).act a).run =
        some { seq := o.seq, opcode := o.opcode, edit := some (t'.plan rs (o.p32 8)) } := hrun'
    have hleaf : ((s.opBegin a o).editWrites a t').leaf = s.leaf := hwrites.rest .leaf (by decide)
    have hmap : ((s.opBegin a o).editPlanned a t' (t'.plan rs (o.p32 8))).leaf.map = s.leaf.map := by
      have hmap : ((s.opBegin a o).editWrites a t').leaf.map = s.leaf.map := by rw [hleaf]
      exact hmap
    have hshadow : ((s.opBegin a o).editPlanned a t' (t'.plan rs (o.p32 8))).leaf.shadow = s.leaf.shadow := by
      have hshadow : ((s.opBegin a o).editWrites a t').leaf.shadow = s.leaf.shadow := by rw [hleaf]
      exact hshadow
    have hdma : ((s.opBegin a o).editWrites a t').dma = s.dma := hwrites.rest .dma (by decide)
    have hqueue := State.queue_onQueue (s := (((s.opBegin a o).editWrites a t').onRun a fun r =>
      { r with edit := some (t'.plan rs (o.p32 8)) }).onLeaf fun x => { x with
        nextLeaf := t'.next, locks := x.locks ++ (t'.plan rs (o.p32 8)).locks.map fun l => (l, 0) })
      ((congrArg (fun d : Dma => d.queues.wf) hdma).trans wq) a fun q =>
        { q with state := .active, stop := .none, pendCode := none, descAt := none, chained := false }
    refine ⟨commit (s.leafEditEff a c true), next_of_live hl _, ?_⟩
    rw [heff, commit_act, commit_queue, commit_leaf, hact]
    refine ⟨onlyIn_commit ?_, rfl, rfl, congrArg Queue.state hqueue, hmap, hshadow⟩
    exact onlyIn_trans (onlyIn_trans (onlyIn_trans (onlyIn_trans (onlyIn_opBegin _ _ (by decide)) (onlyIn_mono hwrites (by decide)))
      (onlyIn_onRun _ _ (by decide))) (onlyIn_onLeaf _ (by decide))) (onlyIn_onQueue _ _ (by decide))
  case editFails =>
    intro s s1 a c o t' rs code hl w hready hidle hs1 hacts hrun hcode hres
    subst hs1
    obtain ⟨u, hu⟩ := State.editResults_of_ok hres
    have heff : s.leafEditEff a c true = (u.editEvent a code).opOutcome a code := by
      rw [State.leafEditEff_of_ready hready hidle, State.editCheck_of_failed hacts hrun hcode hu]
    have hframe := onlyIn_trans (onlyIn_mono (qs := [.leaf, .spad, .cnt, .freeCount]) (onlyIn_editResults hu) (by decide))
      (onlyIn_mono (onlyIn_editEvent (s := u) (a := a) code) (by decide))
    obtain ⟨e, he⟩ := u.editEvent_leaf a code
    have hleaf : ((u.editEvent a code).opOutcome a code).leaf = { s.leaf with events := e } :=
      he.trans (congrArg (fun x : Leaves => { x with events := e }) ((onlyIn_editResults hu).rest .leaf (by decide)))
    refine ⟨commit (s.leafEditEff a c true), next_of_live hl _, ?_⟩
    rw [heff, commit_act, commit_leaf, hleaf]
    exact ⟨onlyIn_commit (onlyIn_trans (onlyIn_trans (onlyIn_opBegin _ _ (by decide)) (onlyIn_mono hframe (by decide)))
      (onlyIn_opOutcome _ _ (by decide))), State.opOutcome_after hframe (by decide) (State.opBegin_run s a o) code, rfl, rfl⟩
  case recorded =>
    intro s a r p hl w hhand hp hstop hres huses hfrees hretire
    obtain ⟨hrun, hop, -⟩ := State.opInHand_eq_some hhand
    have hqueue := onlyIn_queueEnd (s := s) a 0
    obtain ⟨q, hq, -⟩ := State.queueEnd_run hrun (by rw [hop]; decide) 0
    obtain ⟨u, hu⟩ := State.editResults_of_ok ((State.firstRefusal_congr (hqueue.rest .spad (by decide)) ..).trans hres)
    have hurun : (u.act a).run = some q := by rw [State.act_congr ((onlyIn_editResults hu).rest .acts (by decide)), hq]
    have huleaf : u.leaf = s.leaf := ((onlyIn_editResults hu).rest .leaf (by decide)).trans (hqueue.rest .leaf (by decide))
    have heff := State.leafRecordEff_of_ok hhand hp hstop
    rw [State.editRecord_of_ok hu huses hfrees hretire] at heff
    refine ⟨commit (s.leafRecordEff a 0), next_of_live hl _, ?_⟩
    rw [heff, commit_act, commit_leaf]
    have hmap : u.leaf.map = s.leaf.map := by rw [huleaf]
    have hshadow : p.shadow u.leaf.shadow = p.shadow s.leaf.shadow := by rw [huleaf]
    exact ⟨State.opOutcome_code (State.onRun_run (s := u.onLeaf _) hurun _) 0, hshadow, hmap⟩
  case notRecorded =>
    intro s a r p ack hl w hhand hp hstop hack
    obtain ⟨hrun, hop, -⟩ := State.opInHand_eq_some hhand
    obtain ⟨q, hq, hedit⟩ := State.queueEnd_run hrun (by rw [hop]; decide) ack
    have hleaf : (s.queueEnd a ack).leaf = s.leaf := (onlyIn_queueEnd (s := s) a ack).rest .leaf (by decide)
    have hmap : (s.queueEnd a ack).leaf.map = s.leaf.map := by rw [hleaf]
    have hshadow : (s.queueEnd a ack).leaf.shadow = s.leaf.shadow := by rw [hleaf]
    have heff := State.leafRecordEff_of_failed hhand hp hstop hack
    rw [State.editDrop_of_edit hq (hedit.trans hp)] at heff
    have hrun' := State.opOutcome_run (State.onRun_run (s := (s.queueEnd a ack).onLeaf fun x => { x with
      locks := x.locks.filter fun y => y.2 != 0 || !p.locks.contains y.1 }) hq fun r => { r with edit := none }) ack
    refine ⟨commit (s.leafRecordEff a ack), next_of_live hl _, ?_⟩
    rw [heff, commit_act, commit_leaf, hrun']
    exact ⟨rfl, rfl, hshadow, hmap⟩
  case spilled =>
    intro s l x hl hx hspill hsnap w
    refine ⟨commit (s.spillEnd l 0), next_of_live hl _, ?_⟩
    have hw : ((s.retain (s.leafE l).site (s.leafE l).slot s.leaf.pubCount).xferDrop l).leaf.map.wf = true := w
    rw [State.spillEnd_of_ok hx hspill hsnap, commit_leafE, commit_xferOf, commit_leaf, State.leafE_onLeafE hw]
    refine ⟨onlyIn_commit ?_, rfl, State.xferDrop_xferOf _ l, rfl⟩
    exact onlyIn_trans (onlyIn_trans (onlyIn_retain _ _ _ (by decide)) (onlyIn_xferDrop l (by decide))) (onlyIn_onLeafE l _ (by decide))
  case spillFails =>
    intro s l ack x hl hx hspill hack w
    obtain ⟨hentry, hnone, hbad⟩ := State.spillAbandon_spec hx hspill w
    refine ⟨commit (s.spillEnd l ack), next_of_live hl _, ?_⟩
    rw [State.spillEnd_of_failed hx hspill hack, commit_leaf, commit_leafE, commit_xferOf, State.leafE_congr (State.evLeaf_map ..) l,
      State.xferOf_congr (State.evLeaf_xfers ..) l, State.evLeaf_tierBad]
    exact ⟨hentry, hnone, State.evLeaf_events _ (by decide) none, congrArg _ hbad⟩
  case slotTaken =>
    intro s l slot x hl hx hfetch hwait hfirst hslot
    have hread := onlyIn_tierRead (s := s) x.tier (s.leafE l).tenant x.channel x.site x.tierSlot
    have hleaf : (s.tierRead x.tier (s.leafE l).tenant x.channel x.site x.tierSlot).leaf = s.leaf := hread.rest .leaf (by decide)
    have hxfers : (s.tierRead x.tier (s.leafE l).tenant x.channel x.site x.tierSlot).leaf.xfers = s.leaf.xfers := by rw [hleaf]
    refine ⟨commit (s.fetchSlot l), next_of_live hl _, ?_⟩
    rw [State.fetchSlot_of_free hx hfetch hwait hfirst hslot]
    refine ⟨onlyIn_commit (onlyIn_trans (onlyIn_mono hread (by decide)) (onlyIn_onLeaf _ (by decide))), ?_⟩
    exact congrArg (fun y : List Xfer => y.map fun z => if z.leaf = l then { z with localSlot := some slot } else z) hxfers
  case fetched =>
    intro s l slot x hl hx hfetch hslot hturn w
    have heff : (if s.fetchTurn l then s.fetchEnd l 0 true else s) = s.fetchEnd l 0 true := if_pos hturn
    have hmap := s.fetchMoved_map l x slot
    refine ⟨commit (if s.fetchTurn l then s.fetchEnd l 0 true else s), next_of_live hl _, ?_⟩
    rw [heff, State.fetchEnd_of_ok hx hfetch hslot, commit_leafE, commit_xferOf, State.fetchOver_leafE ((congrArg Tab.wf hmap).trans w),
      State.fetchOver_xferOf, State.leafE_congr hmap]
    exact ⟨rfl, rfl⟩
  case fetchFails =>
    intro s l slot x ok hl hx hfetch hslot hturn hfails w
    have heff : (if s.fetchTurn l then s.fetchEnd l 7 ok else s) = s.fetchEnd l 7 ok := if_pos hturn
    have hmap := s.evLeaf_map 7 none
    refine ⟨commit (if s.fetchTurn l then s.fetchEnd l 7 ok else s), next_of_live hl _, ?_⟩
    rw [heff, State.fetchEnd_of_first_failure hx hfetch hslot (by decide) hfails, commit_leafE, commit_xferOf, commit_leaf,
      State.fetchOver_leafE ((congrArg Tab.wf hmap).trans w), State.fetchOver_xferOf, State.fetchOver_events, State.leafE_congr hmap]
    exact ⟨onlyIn_commit (onlyIn_trans (onlyIn_evLeaf _ _ (by decide) (by decide)) (onlyIn_mono (onlyIn_fetchOver _ 1) (by decide))), rfl,
      rfl, s.evLeaf_events (by decide) none⟩
  case fetchLost =>
    intro s l slot x ok hl hx hfetch hslot hturn hfails w
    have heff : (if s.fetchTurn l then s.fetchEnd l 7 ok else s) = s.fetchEnd l 7 ok := if_pos hturn
    have hmap := s.evLeaf_map 7 none
    obtain ⟨hlost, hevent⟩ := State.leafLose_spec (s := s.evLeaf 7 none) ((congrArg Tab.wf hmap).trans w) l
    have hkeep : ∀ u : State, (u.onLeaf fun y => { y with fails := y.fails.set l 0 }).leafE l = u.leafE l ∧
        (u.onLeaf fun y => { y with fails := y.fails.set l 0 }).leaf.events = u.leaf.events := fun _ => ⟨rfl, rfl⟩
    refine ⟨commit (if s.fetchTurn l then s.fetchEnd l 7 ok else s), next_of_live hl _, ?_⟩
    rw [heff, State.fetchEnd_of_second_failure hx hfetch hslot (by decide) hfails, commit_leafE, commit_leaf, (hkeep _).1, (hkeep _).2]
    exact ⟨hlost, hevent⟩

end Sys2Proof.Machine

/-! The codec's slots (spec/13): CODEC_CTL, access units, pictures and the time bound. -/

namespace Sys2Proof.Machine

section

variable {s t : State} {a ch k : Nat} {o : OpRec}

/-! ### A slot -/

@[simp] theorem commit_slot (s : State) (ch k : Nat) : (commit s).slot ch k = s.slot ch k := rfl

@[simp] theorem State.opOutcome_slot (s : State) (a code ch k : Nat) : (s.opOutcome a code).slot ch k = s.slot ch k := rfl
@[simp] theorem State.opBegin_slot (s : State) (a : Nat) (o : OpRec) (ch k : Nat) : (s.opBegin a o).slot ch k = s.slot ch k := rfl
@[simp] theorem State.flagAct_slot (s : State) (a : Nat) (f : OutFlags → OutFlags) (ch k : Nat) :
    (s.flagAct a f).slot ch k = s.slot ch k := rfl

theorem State.slot_congr (h : t.codec = s.codec) (ch k : Nat) : t.slot ch k = s.slot ch k := by
  unfold State.slot
  rw [h]

theorem State.slot_onSlot (w : s.codec.wf = true) (ch k : Nat) (f : CodecSlot → CodecSlot) : (s.onSlot ch k f).slot ch k = f (s.slot ch k) :=
  (Tab.get_upd s.codec w _ _ f).trans (if_pos rfl)

theorem State.onSlot_wf (w : s.codec.wf = true) (ch k : Nat) (f : CodecSlot → CodecSlot) : (s.onSlot ch k f).codec.wf = true :=
  Tab.wf_upd _ w _ f

theorem onlyIn_onSlot {ps : List Part} (ch k : Nat) (f : CodecSlot → CodecSlot) (h : Part.codec ∈ ps) : OnlyIn ps s (s.onSlot ch k f) :=
  onlyIn_onCodec _ h

/-- An event of a slot sets its bit and changes nothing else of it. -/
theorem State.evSlot_slot (w : s.codec.wf = true) (ch k i : Nat) :
    (s.evSlot ch k i).slot ch k = { s.slot ch k with events := bitSet (s.slot ch k).events i } := by
  unfold State.evSlot
  rw [State.slot_congr (State.count_codec ..)]
  exact State.slot_onSlot w ch k _

theorem CodecSlot.restart_of_decode {x : CodecSlot} (h : x.encode = false) : x.restart =
    { x with state := .waitRap, waiting := [], held := [], pool := 0, tainted := false, cutPending := false, cycles := 0 } := by
  simp [CodecSlot.restart, h]

theorem CodecSlot.restart_of_encode {x : CodecSlot} (h : x.encode = true) : x.restart = { x with state := .running, forceIdr := true } := by
  simp [CodecSlot.restart, h]

/-! ### CODEC_CTL (R287 to R289) -/

theorem State.codecCtl_of_ready {c fn : Nat} (h : s.opReady a 0x0306 3 c = some o) (hfn : u8 o.params 0 = fn) (f : State → OpRec → State) :
    s.codecCtl a c fn f = f (s.opBegin a o) o := by
  simp only [State.codecCtl, h, hfn, if_true]

theorem State.sideInRange_congr (hb : t.bind = s.bind) (hh : t.host = s.host) (a : Nat) (w : DWord) (ns : List Nat) (st : List Int) (n : Nat)
    (isWrite : Bool) : t.sideInRange a w ns st n isWrite = s.sideInRange a w ns st n isWrite := by
  unfold State.sideInRange
  rw [State.b_congr hb, hh]

theorem State.codcRec_congr (hb : t.bind = s.bind) (ch k : Nat) : t.codcRec ch k = s.codcRec ch k := by
  unfold State.codcRec
  rw [State.b_congr hb]

theorem State.codecSetup_of_small (h : u32 o.params 24 < ((s.codcRec (a / 16) (u8 o.params 1)).getD {}).work) :
    s.codecSetup a o = s.opOutcome a 4 := by
  simp only [State.codecSetup, h, decide_true, Bool.true_or, if_true]

/-- A slot that a SETUP binds, before it starts. -/
def CodecSlot.bound (x : CodecSlot) (r : CodcRec) (o : OpRec) : CodecSlot :=
  { x with
    isSetup := true, isSealed := r.flags.testBit 0, encode := r.direction == 1, work := BitVec.ofNat 64 (u64 o.params 8)
    out := BitVec.ofNat 64 (u64 o.params 16), workBytes := u32 o.params 24
    outBufs := u16 o.params 28, backlogMax := u8 o.params 30, idrPeriod := u16 o.params 32, filled := 0, nextBuf := 0 }

theorem State.codecSetup_of_fitting {r : CodcRec} (hrec : s.codcRec (a / 16) (u8 o.params 1) = some r) (hwork : r.work ≤ u32 o.params 24)
    (hin : s.sideInRange a (BitVec.ofNat 64 (u64 o.params 8)) [1] [0] (u32 o.params 24) true = true)
    (hout : s.sideInRange a (BitVec.ofNat 64 (u64 o.params 16)) [1] [0] (u16 o.params 28 * r.pBytes) true = true)
    (hon : (s.suspends (a / 16)).contains (u8 o.params 1) = false) :
    s.codecSetup a o = (s.onSlot (a / 16) (u8 o.params 1) fun x => (x.bound r o).restart).opOutcome a 0 := by
  simp only [State.codecSetup, hrec, Option.getD_some, Nat.not_lt.2 hwork, hin, hout, hon, decide_false, Bool.not_true, Bool.or_self,
    Bool.false_eq_true, if_false]
  rfl

/-- What a COLLECT of up to `n` records leaves of the slot and the memory. -/
def State.collected (s : State) (ch k addr n released : Nat) : State :=
  let s1 := s.onSlot ch k fun x => { x with filled := x.filled - released, recs := x.recs.drop n }
  let s2 := s1.spWrite ch addr (((s.slot ch k).recs.take n).flatMap PicRec.record)
  (s2.spWrite ch (addr + 64 * n) (toLe 4 ((s.slot ch k).recs.take n).length ++ s2.freeBytes 60)).tookFree 60

theorem onlyIn_collectWrites {u : State} (ch addr at' : Nat) (b c : List Byte) (n : Nat) :
    OnlyIn [.spad, .freeCount] u (((u.spWrite ch addr b).spWrite ch at' c).tookFree n) :=
  onlyIn_trans (onlyIn_trans (onlyIn_spWrite _ _ _ (by decide)) (onlyIn_spWrite _ _ _ (by decide))) (onlyIn_tookFree n (by decide))

theorem onlyIn_collected (ch k addr n released : Nat) : OnlyIn [.codec, .spad, .freeCount] s (s.collected ch k addr n released) :=
  onlyIn_trans (onlyIn_onSlot ch k _ (by decide)) (onlyIn_mono (onlyIn_collectWrites ..) (by decide))

theorem State.collected_slot (w : s.codec.wf = true) (ch k addr n released : Nat) : (s.collected ch k addr n released).slot ch k =
    { s.slot ch k with filled := (s.slot ch k).filled - released, recs := (s.slot ch k).recs.drop n } := by
  unfold State.collected
  dsimp only
  rw [State.slot_congr ((onlyIn_collectWrites ..).rest .codec (by decide)), State.slot_onSlot w]

theorem State.codecCollect_of_ok (h : s.firstRefusal a true [(u32 o.params 4, 64 * u8 o.params 8 + 64)] = .ok) :
    ∃ f : OutFlags → OutFlags, s.codecCollect a o =
      ((s.collected (a / 16) (u8 o.params 1) (u32 o.params 4) (u8 o.params 8) (u8 o.params 9)).flagAct a f).opOutcome a 0 ∨
      s.codecCollect a o = (s.collected (a / 16) (u8 o.params 1) (u32 o.params 4) (u8 o.params 8) (u8 o.params 9)).opOutcome a 0 := by
  refine ⟨fun f => { f with concealed := true }, ?_⟩
  unfold State.codecCollect
  simp only [h]
  split
  · exact Or.inl rfl
  · exact Or.inr rfl

/-- The flags of outputs do not touch the op in progress. -/
theorem State.flagAct_run {r : OpRun} (h : (s.act a).run = some r) (f : OutFlags → OutFlags) : ((s.flagAct a f).act a).run = some r := by
  refine State.run_onAct_of_some ?_
  split
  · exact h
  · exact h

theorem State.codecSubmit_of_room {x : CodecSlot} (hx : x = s.slot (a / 16) (u8 o.params 1)) (henc : x.encode = true)
    (hsetup : x.isSetup = true) (hrun : x.state ≠ .suspended) (hroom : x.waiting.length < x.backlogMax) :
    s.codecSubmit a o =
      (s.onSlot (a / 16) (u8 o.params 1) fun x => { x with waiting := x.waiting ++ [(u32 o.params 16, 0)] }).opOutcome a 0 := by
  subst hx
  have hstate : ((s.slot (a / 16) (u8 o.params 1)).state == .suspended) = false := by simpa using hrun
  simp only [State.codecSubmit, henc, hsetup, hstate, Bool.not_true, Bool.or_self, Bool.false_eq_true, if_false, Nat.not_le.2 hroom]

theorem State.codecSubmit_of_full {x : CodecSlot} (hx : x = s.slot (a / 16) (u8 o.params 1)) (henc : x.encode = true)
    (hsetup : x.isSetup = true) (hrun : x.state ≠ .suspended) (hfull : x.backlogMax ≤ x.waiting.length) :
    s.codecSubmit a o = (s.evSlot (a / 16) (u8 o.params 1) 4).opOutcome a 0 := by
  subst hx
  have hstate : ((s.slot (a / 16) (u8 o.params 1)).state == .suspended) = false := by simpa using hrun
  simp only [State.codecSubmit, henc, hsetup, hstate, Bool.not_true, Bool.or_self, Bool.false_eq_true, if_false, hfull, if_true]

theorem State.codecRestart_of_setup (hsetup : (s.slot (a / 16) (u8 o.params 1)).isSetup = true) :
    s.codecRestart a o = (s.onSlot (a / 16) (u8 o.params 1) fun x =>
      if x.state == .suspended then { x.restart with state := .suspended } else x.restart).opOutcome a 0 := by
  simp only [State.codecRestart, hsetup, if_true]

end

/-- Settles O30, clause by clause. -/
theorem codecControl : Obligations.CodecControl := by
  unfold Obligations.CodecControl
  refine ⟨?tooSmall, ?setup, ?collect, ?submit, ?full, ?restart⟩
  case tooSmall =>
    intro s a c o hl w hready hfn hsmall
    refine ⟨commit (s.codecCtl a c 0 fun s o => s.codecSetup a o), next_of_live hl _, ?_⟩
    rw [State.codecCtl_of_ready hready hfn, State.codecSetup_of_small (s := s.opBegin a o) hsmall, commit_act]
    exact ⟨onlyIn_commit (onlyIn_trans (onlyIn_opBegin _ _ (by decide)) (onlyIn_opOutcome _ _ (by decide))),
      State.opOutcome_code (State.opBegin_run s a o) 4⟩
  case setup =>
    intro s a c o r k hl w wc hready hfn hk hrec hwork hin hout hon
    subst hk
    have hslot := State.slot_onSlot (s := s.opBegin a o) wc (a / 16) (u8 o.params 1) fun x => (x.bound r o).restart
    rw [State.opBegin_slot] at hslot
    refine ⟨commit (s.codecCtl a c 0 fun s o => s.codecSetup a o), next_of_live hl _, ?_⟩
    rw [State.codecCtl_of_ready hready hfn, State.codecSetup_of_fitting (s := s.opBegin a o) hrec hwork
      ((State.sideInRange_congr rfl rfl ..).trans hin) ((State.sideInRange_congr rfl rfl ..).trans hout) hon, commit_act, commit_slot, State.opOutcome_slot, hslot]
    refine ⟨onlyIn_commit (onlyIn_trans (onlyIn_trans (onlyIn_opBegin _ _ (by decide)) (onlyIn_onSlot _ _ _ (by decide)))
      (onlyIn_opOutcome _ _ (by decide))), State.opOutcome_after (onlyIn_onSlot (ps := [.codec]) _ _ _ (by decide)) (by decide)
        (State.opBegin_run s a o) 0, ?_⟩
    by_cases hdir : r.direction = 1
    · rw [CodecSlot.restart_of_encode (by simp [CodecSlot.bound, hdir])]
      simp [CodecSlot.bound, hdir]
    · rw [CodecSlot.restart_of_decode (by simp [CodecSlot.bound, hdir])]
      simp [CodecSlot.bound, hdir]
  case collect =>
    intro s a c o k n x hl w wc hready hfn hk hn hx hok
    subst hk hn hx
    have hframe := onlyIn_collected (s := s.opBegin a o) (a / 16) (u8 o.params 1) (u32 o.params 4) (u8 o.params 8) (u8 o.params 9)
    have hslot := State.collected_slot (s := s.opBegin a o) wc (a / 16) (u8 o.params 1) (u32 o.params 4) (u8 o.params 8) (u8 o.params 9)
    have hrun := State.act_congr (hframe.rest .acts (by decide)) a
    have hrun' : (((s.opBegin a o).collected (a / 16) (u8 o.params 1) (u32 o.params 4) (u8 o.params 8) (u8 o.params 9)).act a).run =
        some { seq := o.seq, opcode := o.opcode } := by rw [hrun, State.opBegin_run]
    have hall := onlyIn_trans (onlyIn_opBegin (ps := [.acts, .codec, .spad, .freeCount]) (s := s) a o (by decide))
      (onlyIn_mono hframe (by decide))
    obtain ⟨f, heff | heff⟩ := State.codecCollect_of_ok (s := s.opBegin a o) (a := a) (o := o) ((State.firstRefusal_congr rfl ..).trans hok)
    · refine ⟨commit (s.codecCtl a c 1 fun s o => s.codecCollect a o), next_of_live hl _, ?_⟩
      rw [State.codecCtl_of_ready hready hfn, heff, commit_act, commit_slot, State.opOutcome_slot, State.flagAct_slot, hslot]
      exact ⟨onlyIn_commit (onlyIn_trans (onlyIn_trans hall (onlyIn_flagAct _ _ (by decide))) (onlyIn_opOutcome _ _ (by decide))),
        State.opOutcome_code (State.flagAct_run hrun' f) 0, rfl, rfl⟩
    · refine ⟨commit (s.codecCtl a c 1 fun s o => s.codecCollect a o), next_of_live hl _, ?_⟩
      rw [State.codecCtl_of_ready hready hfn, heff, commit_act, commit_slot, State.opOutcome_slot, hslot]
      exact ⟨onlyIn_commit (onlyIn_trans hall (onlyIn_opOutcome _ _ (by decide))), State.opOutcome_code hrun' 0, rfl, rfl⟩
  case submit =>
    intro s a c o k x hl w wc hready hfn hk hx henc hsetup hrun hroom
    subst hk
    have hslot := State.slot_onSlot (s := s.opBegin a o) wc (a / 16) (u8 o.params 1) fun x =>
      { x with waiting := x.waiting ++ [(u32 o.params 16, 0)] }
    refine ⟨commit (s.codecCtl a c 2 fun s o => s.codecSubmit a o), next_of_live hl _, ?_⟩
    rw [State.codecCtl_of_ready hready hfn, State.codecSubmit_of_room (s := s.opBegin a o) hx henc hsetup hrun hroom, commit_act, commit_slot, State.opOutcome_slot, hslot, hx]
    exact ⟨onlyIn_commit (onlyIn_trans (onlyIn_trans (onlyIn_opBegin _ _ (by decide)) (onlyIn_onSlot _ _ _ (by decide)))
      (onlyIn_opOutcome _ _ (by decide))), State.opOutcome_after (onlyIn_onSlot (ps := [.codec]) _ _ _ (by decide)) (by decide)
        (State.opBegin_run s a o) 0, rfl⟩
  case full =>
    intro s a c o k x hl w wc hready hfn hk hx henc hsetup hrun hfull
    subst hk
    have hslot := State.evSlot_slot (s := s.opBegin a o) wc (a / 16) (u8 o.params 1) 4
    have hev := onlyIn_evSlot (ps := [.codec, .cnt]) (s := s.opBegin a o) (a / 16) (u8 o.params 1) 4 (by decide) (by decide)
    refine ⟨commit (s.codecCtl a c 2 fun s o => s.codecSubmit a o), next_of_live hl _, ?_⟩
    rw [State.codecCtl_of_ready hready hfn, State.codecSubmit_of_full (s := s.opBegin a o) hx henc hsetup hrun hfull, commit_act, commit_slot, State.opOutcome_slot, hslot, hx]
    exact ⟨onlyIn_commit (onlyIn_trans (onlyIn_trans (onlyIn_opBegin _ _ (by decide)) (onlyIn_mono hev (by decide)))
      (onlyIn_opOutcome _ _ (by decide))), State.opOutcome_after hev (by decide) (State.opBegin_run s a o) 0, rfl,
        getLsbD_bitSet_self _ (by decide)⟩
  case restart =>
    intro s a c o k x hl w wc hready hfn hk hx hsetup henc hrun
    subst hk hx
    have hstate : ((s.slot (a / 16) (u8 o.params 1)).state == .suspended) = false := by simpa using hrun
    have hslot := State.slot_onSlot (s := s.opBegin a o) wc (a / 16) (u8 o.params 1) fun x =>
      if x.state == .suspended then { x.restart with state := .suspended } else x.restart
    rw [State.opBegin_slot, hstate, if_neg (by decide), CodecSlot.restart_of_decode henc] at hslot
    refine ⟨commit (s.codecCtl a c 3 fun s o => s.codecRestart a o), next_of_live hl _, ?_⟩
    rw [State.codecCtl_of_ready hready hfn, State.codecRestart_of_setup (s := s.opBegin a o) hsetup, commit_act, commit_slot, State.opOutcome_slot, hslot]
    exact ⟨onlyIn_commit (onlyIn_trans (onlyIn_trans (onlyIn_opBegin _ _ (by decide)) (onlyIn_onSlot _ _ _ (by decide)))
      (onlyIn_opOutcome _ _ (by decide))), State.opOutcome_after (onlyIn_onSlot (ps := [.codec]) _ _ _ (by decide)) (by decide)
        (State.opBegin_run s a o) 0, rfl, rfl, rfl⟩

end Sys2Proof.Machine

/-! The codec's slots, continued (spec/13, R290 to R299): access units, pictures and the time bound. -/

namespace Sys2Proof.Machine

section

variable {s t : State} {ch k : Nat}

/-! ### Access units (R290) -/

/-- The bitstream FIFO of a slot after an access unit has left it. -/
def State.auPop (s : State) (ch k size : Nat) : State :=
  s.onDma fun d => { d with fifos := d.fifos.upd (ch * 256 + 0x10 + k) fun y => y.pop size }

section

variable {x : CodecSlot} {size : Nat}

theorem State.accessUnit_of_start (hx : x = s.slot ch k) (hsetup : x.isSetup = true) (henc : x.encode = false) (hstate : x.state = .waitRap)
    (hroom : x.waiting.length < x.backlogMax) (hfifo : size ≤ (s.dma.fifos.get (ch * 256 + 16 + k)).data.length) (isRef : Bool) (pts : Nat) :
    s.accessUnit ch k true true isRef false pts size =
      (s.auPop ch k size).onSlot ch k fun x => { x with state := .running, waiting := x.waiting ++ [(pts, size)] } := by
  subst hx
  have hfit : ¬ (s.slot ch k).backlogMax < (s.slot ch k).waiting.length + 1 := by omega
  have hlen : decide ((s.dma.fifos.get (ch * 256 + 16 + k)).data.length < size) = false := by simpa using hfifo
  have hrun : ((s.slot ch k).state == .suspended) = false := by rw [hstate]; rfl
  simp only [State.accessUnit, hlen, henc, hsetup, hrun, hfit, decide_false, Bool.or_self, Bool.not_true, Bool.and_false, Bool.false_and,
    Bool.false_eq_true, if_false, if_true]
  rfl

theorem State.accessUnit_of_waiting (hx : x = s.slot ch k) (hsetup : x.isSetup = true) (henc : x.encode = false) (hstate : x.state = .waitRap)
    (hfifo : size ≤ (s.dma.fifos.get (ch * 256 + 16 + k)).data.length) (isRef : Bool) (pts : Nat) :
    s.accessUnit ch k false true isRef false pts size = (s.auPop ch k size).auDrop ch k := by
  subst hx
  have hlen : decide ((s.dma.fifos.get (ch * 256 + 16 + k)).data.length < size) = false := by simpa using hfifo
  simp only [State.accessUnit, hlen, henc, hsetup, hstate, Bool.or_self, Bool.not_true, Bool.not_false, Bool.false_eq_true, if_false,
    if_true, beq_self_eq_true, Bool.and_self, Bool.or_true]
  rfl

end

theorem onlyIn_auPop (ch k size : Nat) : OnlyIn [.dma] s (s.auPop ch k size) := onlyIn_onDma _ (by decide)

theorem onlyIn_auDrop (ch k : Nat) : OnlyIn [.codec, .cnt] s (s.auDrop ch k) :=
  onlyIn_trans (onlyIn_onSlot _ _ _ (by decide)) (onlyIn_evSlot _ _ _ (by decide) (by decide))

theorem State.auDrop_slot (w : s.codec.wf = true) (ch k : Nat) : (s.auDrop ch k).slot ch k =
    { s.slot ch k with dropped := (s.slot ch k).dropped + 1, events := bitSet (s.slot ch k).events 9 } := by
  unfold State.auDrop
  rw [State.evSlot_slot (State.onSlot_wf w ch k _), State.slot_onSlot w]

/-! ### Pictures (R287, R293 to R299) -/

theorem length_insertBy {α : Type} (lt : α → α → Bool) (x : α) : ∀ l : List α, (insertBy lt x l).length = l.length + 1
  | [] => rfl
  | y :: r => by
    rw [insertBy]
    split
    · rfl
    · rw [List.length_cons, length_insertBy lt x r, List.length_cons]

/-- One picture more is held. -/
theorem length_heldInsert (r : PicRec × List Byte) (l : List (PicRec × List Byte)) : (heldInsert r l).length = l.length + 1 := by
  unfold heldInsert
  split
  · rw [List.length_append, List.length_singleton]
  · have htail : (l.reverse.takeWhile fun x => !x.1.flags.testBit 6).reverse.length ≤ l.length := by
      have hle := (List.takeWhile_sublist (l := l.reverse) fun x => !x.1.flags.testBit 6).length_le
      simpa using hle
    dsimp only
    rw [List.length_append, List.length_take, length_insertBy]
    omega

/-- The record of a decoded picture without errors. -/
def decodedRec (s : State) (poc : Int) (w h d pts size : Nat) (isIdr : Bool) : PicRec :=
  { tick := s.tick.num, pts := pts, poc := poc, width := w, height := h
    flags := picFlags false false false false false false isIdr, depth := d, concBlocks := 0, bytes := size }

theorem State.pictureDone_of_decoded {r : CodcRec} {x : CodecSlot} {pts size : Nat} {rest : List (Nat × Nat)} (hrec : s.codcRec ch k = some r)
    (hx : x = s.slot ch k) (hstate : x.state = .running) (henc : x.encode = false) (htaint : x.tainted = false) (hcut : x.cutPending = false)
    (hwait : x.waiting = (pts, size) :: rest) (hheld : s.holds r.activity 5 k = true ∨ s.holds r.activity 6 k = true) (poc : Int)
    (w h d pool : Nat) (isRap isIdr : Bool) (data : List Byte) :
    s.pictureDone ch k poc w h d 0 pool 0 false false false false false isRap isIdr data = s.onSlot ch k fun x => { x with
      waiting := rest, held := heldInsert (decodedRec s poc w h d pts size isIdr, data) x.held, pool := pool % 32
      tainted := false || (x.tainted && !isRap), cutPending := false, cycles := 0, conc := if false then x.conc + 1 else x.conc } := by
  subst hx
  have hholds : (s.holds r.activity 5 k || s.holds r.activity 6 k) = true := by
    rw [Bool.or_eq_true]
    exact hheld
  simp only [State.pictureDone, hrec, hstate, henc, hholds, ne_eq, not_true_eq_false, decide_false, Bool.not_true, Bool.or_self,
    Bool.false_eq_true, if_false, State.decodeDone, hwait, hcut, htaint, Bool.false_and, State.slotEvents, List.foldl_cons, List.foldl_nil,
    iter]
  rfl

/-- Without a rate cap no picture is skipped. -/
theorem rateQp_of_uncapped {r : CodcRec} (h : r.rateCap = 0) (fill : Nat) (idr : Bool) : (rateQp r fill idr).2 = false := by
  cases idr with
  | true => rfl
  | false => simp only [rateQp, h, Bool.false_eq_true, if_false, if_true]

/-- The bytes of an encoded picture in its slot's output FIFO. -/
def State.encodedOut (s : State) (ch k : Nat) (data : List Byte) : State :=
  s.onDma fun d => { d with fifos := d.fifos.upd (ch * 256 + 0x18 + k) fun f =>
    { data := f.data ++ data, marks := f.marks ++ [f.data.length + data.length] } }

/-- A picture encoded: the slot changes, and the bytes leave. -/
theorem State.pictureDone_of_encoded {r : CodcRec} {x : CodecSlot} {pts n : Nat} {rest : List (Nat × Nat)} (hrec : s.codcRec ch k = some r)
    (hx : x = s.slot ch k) (hstate : x.state = .running) (henc : x.encode = true) (hcap : r.rateCap = 0)
    (hwait : x.waiting = (pts, n) :: rest) (hheld : s.holds r.activity 5 k = true ∨ s.holds r.activity 6 k = true) (poc : Int)
    (w h d pool : Nat) (data : List Byte) :
    ∃ p : PicRec, s.pictureDone ch k poc w h d 0 pool 0 false false false false false false false data =
      (s.onSlot ch k fun x => { x with
        waiting := rest, recs := x.recs ++ [p], dropped := 0, pics := x.pics + 1, picIndex := x.picIndex + 1
        forceIdr := false, fill := if r.rateCap = 0 then 0
          else x.fill + 8 * data.length * r.maxFps - 1000 * r.rateCap }).encodedOut ch k data := by
  subst hx
  have hholds : (s.holds r.activity 5 k || s.holds r.activity 6 k) = true := by
    rw [Bool.or_eq_true]
    exact hheld
  simp only [State.pictureDone, hrec, hstate, henc, hholds, ne_eq, not_true_eq_false, decide_false, Bool.not_true, Bool.or_self,
    Bool.false_eq_true, if_false, if_true, State.encodeDone, hwait, rateQp_of_uncapped hcap]
  exact ⟨_, rfl⟩

/-! ### The time bound (R295) -/

theorem State.timeCut_of_running {x : CodecSlot} (hx : x = s.slot ch k) (hsealed : x.isSealed = true) (hstate : x.state = .running)
    (henc : x.encode = false) (hwait : x.waiting ≠ []) (hcut : x.cutPending = false) :
    s.timeCut ch k = (s.onSlot ch k fun x => { x with cutPending := true }).evSlot ch k 5 := by
  subst hx
  have hnone : (s.slot ch k).waiting.isEmpty = false := List.isEmpty_eq_false_iff.2 hwait
  simp only [State.timeCut, hsealed, hstate, henc, hnone, hcut, beq_self_eq_true, Bool.not_false, Bool.and_self, if_true]

end

/-- Settles O31, clause by clause. -/
theorem codecPictures : Obligations.CodecPictures := by
  unfold Obligations.CodecPictures
  refine ⟨?starts, ?dropped, ?decoded, ?encoded, ?cut⟩
  case starts =>
    intro s ch k isRef pts size x hl wc hx hsetup henc hstate hroom hfifo
    have hslot := State.slot_onSlot (s := s.auPop ch k size) wc ch k fun x => { x with state := .running, waiting := x.waiting ++ [(pts, size)] }
    have hsame : (s.auPop ch k size).slot ch k = s.slot ch k := rfl
    rw [hsame, ← hx] at hslot
    refine ⟨commit (s.accessUnit ch k true true isRef false pts size), next_of_live hl _, ?_⟩
    rw [State.accessUnit_of_start hx hsetup henc hstate hroom hfifo, commit_slot, hslot]
    exact ⟨onlyIn_commit (onlyIn_trans (onlyIn_mono (onlyIn_auPop _ _ _) (by decide)) (onlyIn_onSlot _ _ _ (by decide))), rfl, rfl⟩
  case dropped =>
    intro s ch k isRef pts size x hl wc hx hsetup henc hstate hfifo
    have hslot := State.auDrop_slot (s := s.auPop ch k size) wc ch k
    have hsame : (s.auPop ch k size).slot ch k = s.slot ch k := rfl
    rw [hsame, ← hx] at hslot
    refine ⟨commit (s.accessUnit ch k false true isRef false pts size), next_of_live hl _, ?_⟩
    rw [State.accessUnit_of_waiting hx hsetup henc hstate hfifo, commit_slot, hslot]
    exact ⟨onlyIn_commit (onlyIn_trans (onlyIn_mono (onlyIn_auPop _ _ _) (by decide)) (onlyIn_mono (onlyIn_auDrop _ _) (by decide))), hstate,
      rfl, rfl, getLsbD_bitSet_self _ (by decide)⟩
  case decoded =>
    intro s ch k r poc w h d pool pts size rest x isRap isIdr data hl wc hrec hx hstate henc htaint hcut hwait hheld
    have heff := State.pictureDone_of_decoded hrec hx hstate henc htaint hcut hwait hheld poc w h d pool isRap isIdr data
    have hslot := State.slot_onSlot wc ch k fun x => { x with
      waiting := rest, held := heldInsert (decodedRec s poc w h d pts size isIdr, data) x.held, pool := pool % 32
      tainted := false || (x.tainted && !isRap), cutPending := false, cycles := 0, conc := if false then x.conc + 1 else x.conc }
    rw [← hx] at hslot
    refine ⟨commit (s.pictureDone ch k poc w h d 0 pool 0 false false false false false isRap isIdr data), next_of_live hl _, ?_⟩
    rw [heff, commit_slot, hslot]
    exact ⟨onlyIn_commit (onlyIn_onSlot _ _ _ (by decide)), rfl, by simp [htaint], rfl, length_heldInsert _ _⟩
  case encoded =>
    intro s ch k r poc w h d pool pts rest x data hl wc wf hrec hx hstate henc hcap hwait hheld
    obtain ⟨p, heff⟩ := State.pictureDone_of_encoded hrec hx hstate henc hcap hwait hheld poc w h d pool data
    have hslot := State.slot_onSlot wc ch k fun x => { x with
      waiting := rest, recs := x.recs ++ [p], dropped := 0, pics := x.pics + 1, picIndex := x.picIndex + 1
      forceIdr := false, fill := if r.rateCap = 0 then 0 else x.fill + 8 * data.length * r.maxFps - 1000 * r.rateCap }
    rw [← hx] at hslot
    have hout : ∀ u : State, (u.encodedOut ch k data).slot ch k = u.slot ch k := fun _ => rfl
    have hfifo : ((s.dma.fifos.upd (ch * 256 + 24 + k) fun f =>
        { data := f.data ++ data, marks := f.marks ++ [f.data.length + data.length] }).get (ch * 256 + 24 + k)).data =
          (s.dma.fifos.get (ch * 256 + 24 + k)).data ++ data := by rw [Tab.get_upd _ wf, if_pos rfl]
    refine ⟨commit (s.pictureDone ch k poc w h d 0 pool 0 false false false false false false false data), next_of_live hl _, ?_⟩
    rw [heff, commit_slot, commit_dma, hout, hslot]
    exact ⟨onlyIn_commit (onlyIn_trans (onlyIn_onSlot _ _ _ (by decide)) (onlyIn_onDma _ (by decide))), rfl, rfl,
      by rw [List.length_append, List.length_singleton], hfifo⟩
  case cut =>
    intro s ch k x hl wc hx hsealed hstate henc hwait hcut
    have hslot := State.evSlot_slot (State.onSlot_wf wc ch k fun x => { x with cutPending := true }) ch k 5
    rw [State.slot_onSlot wc, ← hx] at hslot
    refine ⟨commit (s.timeCut ch k), next_of_live hl _, ?_⟩
    rw [State.timeCut_of_running hx hsealed hstate henc hwait hcut, commit_slot, hslot]
    exact ⟨onlyIn_commit (onlyIn_trans (onlyIn_onSlot _ _ _ (by decide)) (onlyIn_evSlot _ _ _ (by decide) (by decide))), rfl,
      getLsbD_bitSet_self _ (by decide), rfl⟩

end Sys2Proof.Machine

/-! Results and verdict lines (spec/14, R312 to R318). -/

namespace Sys2Proof.Machine

section

variable {s t : State} {a p : Nat} {o : OpRec}

/-! ### RESULT_OUT (R314) -/

theorem State.resultOut_of_ready (h : s.opReady a 0x0501 8 0x10 = some o) : s.resultOut a = (s.opBegin a o).resultWork a o := by
  simp only [State.resultOut, h]

theorem State.resultWork_of_reported {r : NetResult} {n : PrevTick} (hr : s.b.resultOf a = some r) (hn : s.tick.prev = some n)
    (hrep : s.reported a r.port n.num = true) : s.resultWork a o = s.opOutcome a 0 := by
  simp only [State.resultWork, hr, hn, hrep, if_true]

theorem State.resultWork_of_new {r : NetResult} {n : PrevTick} (hr : s.b.resultOf a = some r) (hn : s.tick.prev = some n)
    (hrep : s.reported a r.port n.num = false) (huser : absent (o.p32 4) = true) (hread : s.firstRefusal a false [(o.p32 0, 64)] = .ok)
    (hroom : (s.ing.tx.get r.port).length < 128) :
    s.resultWork a o = s.resultPlace a o r n (s.resultBytes o n (s.spGet (a / 16) (o.p32 0) 64) (List.replicate 32 0)) := by
  simp only [State.resultWork, hr, hn, hrep, huser, hread, Nat.not_le.2 hroom, if_true, Bool.false_eq_true, if_false]

/-- A record's bytes depend on the op in progress of no activity. -/
theorem State.resultBytes_opBegin (s : State) (a : Nat) (o q : OpRec) (w : s.acts.wf = true) (n : PrevTick) (x y : List Byte) :
    (s.opBegin a q).resultBytes o n x y = s.resultBytes o n x y := by
  have hflags : ∀ b : Nat, ((s.opBegin a q).act b).flagsPrev = (s.act b).flagsPrev := by
    intro b
    have hget : (s.opBegin a q).act b = if b = a then { s.act a with run := some { seq := q.seq, opcode := q.opcode } } else s.act b :=
      Tab.get_upd s.acts w a b fun x => { x with run := some { seq := q.seq, opcode := q.opcode } }
    rw [hget]
    split
    next hb => rw [hb]
    · rfl
  unfold State.resultBytes
  simp only [hflags]
  rfl

/-- The records that wait at a port once one more has joined them. -/
theorem State.tx_upd (w : s.ing.tx.wf = true) (p : Nat) (f : List TxRec → List TxRec) :
    (s.ing.tx.upd p f).get p = f (s.ing.tx.get p) := (Tab.get_upd s.ing.tx w p p f).trans (if_pos rfl)

/-- A record placed: of the ports the FIFO of its own gains it, the verdict lines may be armed, and the queue reports it. -/
theorem State.resultPlace_spec (w : s.ing.tx.wf = true) {run : OpRun} (hrun : (s.act a).run = some run) (r : NetResult) (n : PrevTick)
    (b : List Byte) :
    OnlyIn [.acts, .dma, .ing, .cnt] s (s.resultPlace a o r n b) ∧ (((s.resultPlace a o r n b).act a).run.bind (·.code)) = some 0 ∧
      (s.resultPlace a o r n b).ing.tx.get r.port =
        s.ing.tx.get r.port ++ [{ activity := a, bytes := b, tick := some n.num }] := by
  have hqueue : ∀ (u : State) (f : Queue → Queue), OnlyIn [.dma, .cnt] u ((u.onQueue a f).evQueue a 0) := fun u f =>
    onlyIn_trans (onlyIn_onQueue a f (by decide)) (onlyIn_evQueue a 0 (by decide) (by decide))
  have hplaced : ∀ (u : State) (f : Queue → Queue), OnlyIn [.ing] s u →
      u.ing.tx.get r.port = s.ing.tx.get r.port ++ [{ activity := a, bytes := b, tick := some n.num }] →
      OnlyIn [.acts, .dma, .ing, .cnt] s (((u.onQueue a f).evQueue a 0).opOutcome a 0) ∧
        (((((u.onQueue a f).evQueue a 0).opOutcome a 0).act a).run.bind (·.code)) = some 0 ∧
        (((u.onQueue a f).evQueue a 0).opOutcome a 0).ing.tx.get r.port =
          s.ing.tx.get r.port ++ [{ activity := a, bytes := b, tick := some n.num }] := by
    intro u f hu htx
    have hq := hqueue u f
    refine ⟨onlyIn_trans (onlyIn_trans (onlyIn_mono hu (by decide)) (onlyIn_mono hq (by decide))) (onlyIn_opOutcome _ _ (by decide)),
      State.opOutcome_after hq (by decide) (r := run) ?_ 0, ?_⟩
    · rw [State.act_congr (hu.rest .acts (by decide)), hrun]
    · have hing : ((u.onQueue a f).evQueue a 0).ing = u.ing := hq.rest .ing (by decide)
      rw [← htx, ← hing]
      rfl
  have htx := State.tx_upd w r.port fun l => l ++ [{ activity := a, bytes := b, tick := some n.num }]
  unfold State.resultPlace
  dsimp only
  split
  · exact hplaced _ _ (onlyIn_onIng _ (by decide)) htx
  · exact hplaced _ _ (onlyIn_trans (onlyIn_onIng _ (by decide)) (onlyIn_onIng _ (by decide))) htx

/-! ### The sending of a record (R315, R318) -/

/-- The pace of a queue is kept in the queues. -/
theorem State.paceUpdate_eq (s : State) (a : Nat) : ∃ d, s.paceUpdate a = { s with dma := d } := by
  unfold State.paceUpdate
  dsimp only
  split
  · exact ⟨s.dma, rfl⟩
  · exact ⟨_, rfl⟩

/-- A port's oldest record taken out of its FIFO. -/
def State.txTaken (s : State) (p : Nat) (rest : List TxRec) (d : Dma) : State :=
  { s.onIng fun g => { g with tx := g.tx.set p rest } with dma := d }

theorem onlyIn_txTaken (p : Nat) (rest : List TxRec) (d : Dma) : OnlyIn [.ing, .dma] s (s.txTaken p rest d) :=
  onlyIn_trans (onlyIn_onIng _ (by decide)) (onlyIn_onDma (fun _ => d) (by decide))

theorem State.txTaken_get (w : s.ing.tx.wf = true) (p : Nat) (rest : List TxRec) (d : Dma) : (s.txTaken p rest d).ing.tx.get p = rest :=
  (Tab.get_set s.ing.tx w p p rest).trans (if_pos rfl)

section

variable {x : TxRec} {rest : List TxRec} {r : NetResult}

theorem State.resultSend_of_driving {m : BitVec 48} (htx : s.ing.tx.get p = x :: rest) (hr : s.b.resultOf x.activity = some r)
    (hheld : s.holds x.activity 11 p = true) (hdrive : s.mayDrive = true) (hon : s.portOn p = true) (hmac : s.macFor p r.dstIp = some m) :
    ∃ d, s.resultSend p = (s.txTaken p rest d).resultGo p r x m := by
  obtain ⟨d, hd⟩ := State.paceUpdate_eq (s.onIng fun g => { g with tx := g.tx.set p rest }) x.activity
  refine ⟨d, ?_⟩
  have hd' : (s.onIng fun g => { g with tx := g.tx.set p rest }).paceUpdate x.activity = s.txTaken p rest d := hd
  have hdrive' : (s.txTaken p rest d).mayDrive = true := hdrive
  have hon' : (s.txTaken p rest d).portOn p = true := hon
  have hmac' : (s.txTaken p rest d).macFor p r.dstIp = some m := hmac
  simp only [State.resultSend, htx, hr, hheld, hd', hdrive', hon', hmac', Bool.not_true, Bool.false_eq_true, if_false]

theorem State.resultSend_of_not_driving (htx : s.ing.tx.get p = x :: rest) (hr : s.b.resultOf x.activity = some r)
    (hheld : s.holds x.activity 11 p = true) (hdrive : s.mayDrive = false) : ∃ d, s.resultSend p = s.txTaken p rest d := by
  obtain ⟨d, hd⟩ := State.paceUpdate_eq (s.onIng fun g => { g with tx := g.tx.set p rest }) x.activity
  refine ⟨d, ?_⟩
  have hd' : (s.onIng fun g => { g with tx := g.tx.set p rest }).paceUpdate x.activity = s.txTaken p rest d := hd
  have hdrive' : (s.txTaken p rest d).mayDrive = false := hdrive
  simp only [State.resultSend, htx, hr, hheld, hd', hdrive', Bool.not_true, Bool.not_false, Bool.false_eq_true, if_false, if_true]

end

theorem onlyIn_resultGo (p : Nat) (r : NetResult) (x : TxRec) (m : BitVec 48) : OnlyIn [.ing, .sent, .freeCount] s (s.resultGo p r x m) := by
  have hfree : OnlyIn [.ing, .sent, .freeCount] s (s.tookFree 3) := onlyIn_tookFree 3 (by decide)
  unfold State.resultGo State.ethOut State.onPort
  exact onlyIn_trans (onlyIn_trans (onlyIn_trans hfree (onlyIn_out _ (by decide))) (onlyIn_onIng _ (by decide))) (onlyIn_onIng _ (by decide))

theorem State.resultGo_tx (s : State) (p : Nat) (r : NetResult) (x : TxRec) (m : BitVec 48) : (s.resultGo p r x m).ing.tx = s.ing.tx := rfl

/-- A record of a tick that leaves: its activity's SEQ goes up and its tick is the last one sent. -/
theorem State.resultGo_res (w : s.ing.res.wf = true) (p : Nat) (r : NetResult) {x : TxRec} (hx : x.tick.isSome = true) (m : BitVec 48) :
    (s.resultGo p r x m).ing.res.get x.activity =
      { s.ing.res.get x.activity with seq := (s.ing.res.get x.activity).seq + 1, lastTick := x.tick } := by
  have hupd := Tab.get_upd s.ing.res w x.activity x.activity fun c => if x.tick.isSome then { c with seq := c.seq + 1, lastTick := x.tick } else c
  rw [if_pos rfl, if_pos hx] at hupd
  exact hupd

/-! ### Verdict lines (R317) -/

theorem State.vdlUpdateEff_of_armed {x : Nat × BitVec 8 × BitVec 8} {r : NetResult} (hx : s.ing.vdl.armed.find? (fun y => y.1 == a) = some x)
    (hr : s.b.resultOf a = some r) (hheld : s.holds a 11 r.port = true) (hdrive : s.mayDrive = true) :
    s.vdlUpdateEff a = (s.onVdl fun v => { v with armed := v.armed.filter fun y => y.1 != a }).onVdl fun v =>
      { v with valid := false, begun := v.begun ++ [(s.tb.time + 100, x.2)], riseAt := some (s.tb.time + 200) } := by
  have hdrive' : (s.onVdl fun v => { v with armed := v.armed.filter fun y => y.1 != a }).mayDrive = true := hdrive
  simp only [State.vdlUpdateEff, hx, hr, hheld, hdrive', Bool.not_true, Bool.false_eq_true, if_false]

theorem State.vdlChangeEff_of_due {x : Nat × BitVec 8 × BitVec 8} {rest : List (Nat × BitVec 8 × BitVec 8)} (h : s.ing.vdl.begun = x :: rest)
    (hdue : x.1 ≤ s.tb.time) : s.vdlChangeEff = s.onVdl fun v => { v with lines := (v.lines &&& ~~~ x.2.1) ||| x.2.2, begun := rest } := by
  simp only [State.vdlChangeEff, h, hdue, if_true]

theorem State.vdlRise_of_due {r : Nat} (h : s.ing.vdl.begun = []) (hr : s.ing.vdl.riseAt = some r) (hdue : r ≤ s.tb.time) :
    s.vdlRise = s.onVdl fun v => { v with valid := true, riseAt := none } := by
  simp only [State.vdlRise, h, hr, hdue, List.isEmpty_nil, decide_true, Bool.and_self, if_true]

end

/-- Settles O32, clause by clause. -/
theorem resultsAndVerdicts : Obligations.ResultsAndVerdicts := by
  unfold Obligations.ResultsAndVerdicts
  refine ⟨?placed, ?alreadyReported, ?sent, ?discarded, ?vdlBegins, ?vdlChanges, ?vdlRises⟩
  case placed =>
    intro s a o r n hl w wtx hready hr hn hrep huser hread hroom
    have heff : s.resultOut a = (s.opBegin a o).resultPlace a o r n (s.resultBytes o n (s.spGet (a / 16) (o.p32 0) 64) (List.replicate 32 0)) := by
      rw [State.resultOut_of_ready hready, State.resultWork_of_new (s := s.opBegin a o) hr hn hrep huser
        ((State.firstRefusal_congr rfl ..).trans hread) hroom, State.resultBytes_opBegin s a o o w]
      rfl
    obtain ⟨hframe, hcode, htx⟩ := State.resultPlace_spec (s := s.opBegin a o) (a := a) (o := o) wtx (State.opBegin_run s a o) r n
      (s.resultBytes o n (s.spGet (a / 16) (o.p32 0) 64) (List.replicate 32 0))
    refine ⟨commit (s.resultOut a), next_of_live hl _, ?_⟩
    rw [heff, commit_act, commit_ing, htx]
    exact ⟨onlyIn_commit (onlyIn_trans (onlyIn_opBegin _ _ (by decide)) hframe), hcode, rfl⟩
  case alreadyReported =>
    intro s a o r n hl w hready hr hn hrep
    refine ⟨commit (s.resultOut a), next_of_live hl _, ?_⟩
    rw [State.resultOut_of_ready hready, State.resultWork_of_reported (s := s.opBegin a o) hr hn hrep, commit_act]
    exact ⟨onlyIn_commit (onlyIn_trans (onlyIn_opBegin _ _ (by decide)) (onlyIn_opOutcome _ _ (by decide))),
      State.opOutcome_code (State.opBegin_run s a o) 0⟩
  case sent =>
    intro s p x rest r m hl wtx wres htx hr hheld hdrive hon hmac hx
    obtain ⟨d, heff⟩ := State.resultSend_of_driving htx hr hheld hdrive hon hmac
    have hres := State.resultGo_res (s := s.txTaken p rest d) wres p r hx m
    refine ⟨commit (s.resultSend p), next_of_live hl _, ?_⟩
    rw [heff, commit_ing, State.resultGo_tx, State.txTaken_get wtx, hres]
    exact ⟨onlyIn_commit (onlyIn_trans (onlyIn_mono (onlyIn_txTaken _ _ _) (by decide)) (onlyIn_mono (onlyIn_resultGo _ _ _ _) (by decide))),
      rfl, rfl, rfl⟩
  case discarded =>
    intro s p x rest r hl wtx htx hr hheld hdrive
    obtain ⟨d, heff⟩ := State.resultSend_of_not_driving htx hr hheld hdrive
    refine ⟨commit (s.resultSend p), next_of_live hl _, ?_⟩
    rw [heff, commit_ing, State.txTaken_get wtx]
    exact ⟨onlyIn_commit (onlyIn_txTaken _ _ _), rfl, rfl⟩
  case vdlBegins =>
    intro s a x r hl hx hr hheld hdrive
    refine (next_of_live hl _).trans ?_
    rw [State.vdlUpdateEff_of_armed hx hr hheld hdrive]
    rfl
  case vdlChanges =>
    intro s x rest hl hbegun hdue
    refine (next_of_live hl _).trans ?_
    rw [State.vdlChangeEff_of_due hbegun hdue]
    rfl
  case vdlRises =>
    intro s r hl hbegun hr hdue
    refine (next_of_live hl _).trans ?_
    rw [State.vdlRise_of_due hbegun hr hdue]
    rfl

end Sys2Proof.Machine

/-! CHECK, DIGEST and digest messages (spec/20, R414 to R416, R427, R430; spec/22, R467). -/

namespace Sys2Proof.Machine

section

variable {s t : State} {a : Nat} {o : OpRec}

/-! ### CHECK -/

theorem State.rangeFails_congr (h : t.spad = s.spad) (ch : Nat) (e : List Byte) (r : SafeRange) :
    t.rangeFails ch e r = s.rangeFails ch e r := by
  unfold State.rangeFails State.checkVals State.checkRow
  simp only [State.valAt_congr h, State.spGet_congr h]

/-- The records of a CHECK that fail. -/
def State.failedRanges (s : State) (a : Nat) (o : OpRec) : List SafeRange :=
  s.b.safe.ranges.filter fun r => (s.checkPairs a o).any fun x => x.2 == r && s.rangeFails (a / 16) x.1 r

theorem State.checkOp_of_readable (h : s.firstRefusal a false ((s.checkPairs a o).flatMap fun x => checkReads x.1 x.2.check) = .ok) :
    s.checkOp a o = ((s.failedRanges a o).foldl (fun (s : State) r => s.rangeFail a r) s).opOutcome a 0 := by
  simp only [State.checkOp, h]
  rfl

theorem State.failedRanges_of_pass (h : ∀ x ∈ s.checkPairs a o, s.rangeFails (a / 16) x.1 x.2 = false) : s.failedRanges a o = [] := by
  refine List.filter_eq_nil_iff.2 fun r _ hany => ?_
  obtain ⟨x, hx, hfail⟩ := List.any_eq_true.1 hany
  obtain ⟨heq, hr⟩ := Bool.and_eq_true_iff.1 hfail
  obtain rfl := eq_of_beq heq
  rw [h x hx] at hr
  cases hr

/-- With one pair of entry and record, the record stands once among those of its activity and SEQ. -/
theorem State.rangesFor_of_single {x : List Byte × SafeRange} (h : s.checkPairs a o = [x]) :
    s.rangesFor a x.2.seq = [x.2] ∧ x.2.activity = a := by
  have hmem : x ∈ s.checkPairs a o := by rw [h]; exact List.mem_singleton_self x
  obtain ⟨i, hi, hx⟩ := List.mem_flatMap.1 hmem
  obtain ⟨r, hr, rfl⟩ := List.mem_map.1 hx
  obtain ⟨-, hmatch⟩ := List.mem_filter.1 hr
  obtain ⟨hact, hseq⟩ := Bool.and_eq_true_iff.1 hmatch
  have hsub : ((s.rangesFor a (u8 (checkEntry o i) 0)).map fun r => (checkEntry o i, r)).Sublist [(checkEntry o i, r)] := by
    rw [← h, State.checkPairs, List.flatMap_def]
    exact List.sublist_flatten_of_mem (List.mem_map.2 ⟨i, hi, rfl⟩)
  have hone : (s.rangesFor a (u8 (checkEntry o i) 0)).length ≤ 1 := by simpa using hsub.length_le
  have hlist : s.rangesFor a (u8 (checkEntry o i) 0) = [r] := by
    obtain ⟨y, hy⟩ := List.length_eq_one_iff.1 (Nat.le_antisymm hone (List.length_pos_of_mem hr))
    rw [hy] at hr ⊢
    rw [List.mem_singleton.1 hr]
  refine ⟨?_, eq_of_beq hact⟩
  rw [← eq_of_beq hseq] at hlist
  exact hlist

theorem State.failedRanges_of_single {x : List Byte × SafeRange} (h : s.checkPairs a o = [x])
    (hfail : s.rangeFails (a / 16) x.1 x.2 = true) : s.failedRanges a o = [x.2] := by
  obtain ⟨hlist, hact⟩ := State.rangesFor_of_single h
  have hpred : (fun r => (s.checkPairs a o).any fun x => x.2 == r && s.rangeFails (a / 16) x.1 r) = fun r => x.2 == r := by
    funext r
    rw [h, List.any_cons, List.any_nil, Bool.or_false]
    cases heq : x.2 == r
    · rfl
    · rw [← eq_of_beq heq, hfail]
      rfl
  have hfilter : (fun r => x.2 == r) = fun r : SafeRange => (x.2 == r) && (r.activity == a && r.seq == x.2.seq) := by
    funext r
    cases heq : x.2 == r
    · rfl
    · rw [← eq_of_beq heq, hact]
      simp
  rw [State.failedRanges, hpred, hfilter, ← List.filter_filter]
  have hfor : s.b.safe.ranges.filter (fun r => r.activity == a && r.seq == x.2.seq) = [x.2] := hlist
  rw [hfor]
  simp

/-- A failed record without ACTION flags the activity's outputs and counts RANGE_FAIL. -/
theorem State.rangeFail_of_flag {r : SafeRange} (h : r.action = 0) : s.rangeFail a r = (s.flagRange a).evSafe 0 (some a) := by
  simp [State.rangeFail, h]

/-- The outputs of the open tick flagged RANGE. -/
theorem State.flagRange_act (w : s.acts.wf = true) (h : (s.act a).carry = false) :
    (s.flagRange a).act a = { s.act a with flags := { (s.act a).flags with range := true } } := by
  have hact := State.act_onAct w a fun x => if x.carry then { x with flagsPrev := { x.flagsPrev with range := true } }
    else { x with flags := { x.flags with range := true } }
  exact hact.trans (if_neg (by rw [h]; decide))

theorem State.evSafe_chk (s : State) (i : Nat) (act : Option Nat) : (s.evSafe i act).chk = { s.chk with events := bitSet s.chk.events i } :=
  State.count_chk ..

/-! ### DIGEST -/

/-- A module that is no member sends no digest and holds none of its own. -/
theorem State.digestOp_of_alone (h : s.firstRefusal a false (digestAreas o) = .ok) (hm : s.member = none) :
    s.digestOp a o = s.opOutcome a 0 := by
  have hnot : s.isMember = false := by simp [State.isMember, hm]
  simp only [State.digestOp, h, State.sendDigest, hnot, Bool.not_false, if_true, State.holdOwn, hm]

theorem sliceZ_self (b : List Byte) : sliceZ b 0 b.length = b := by
  refine List.ext_getElem (by simp [sliceZ]) fun i hi hb => ?_
  simp [sliceZ, byteAt, hb]

theorem State.digestMsg_of_own {src group tick : Nat} {c : SafeCopy} {v : List Byte} (hm : s.isMember = true) (hsrc : src ≠ s.memberIdx)
    (hc : c ∈ s.b.safe.copies) (hgroup : c.group = group) (hlen : v.length = 64) :
    s.digestMsg src group 0 tick v =
      s.onChk fun k => { k with digests := k.digests ++ [{ sender := src, group := group, kind := 0, tick := tick, digest := v }] } := by
  have hcopy : (s.b.safe.copies.any fun c => c.group == group) = true := List.any_eq_true.2 ⟨c, hc, by simpa using hgroup⟩
  have hne : (src != s.memberIdx) = true := by simpa using hsrc
  have hv : sliceZ v 0 64 = v := by
    rw [← hlen]
    exact sliceZ_self v
  simp only [State.digestMsg, hm, hne, hcopy, hv, beq_self_eq_true, Bool.and_self, Bool.true_or, if_true]

end

/-- Settles O33, clause by clause. -/
theorem checksAndDigests : Obligations.ChecksAndDigests := by
  unfold Obligations.ChecksAndDigests
  refine ⟨?passes, ?fails, ?digest, ?message⟩
  case passes =>
    intro s a o hl w hready hread hpass
    have hnone : (s.opBegin a o).failedRanges a o = [] :=
      State.failedRanges_of_pass fun x hx => (State.rangeFails_congr rfl ..).trans (hpass x hx)
    have heff : s.restartOp a 0x0404 4 0 true (fun s o => s.checkOp a o) = (s.opBegin a o).opOutcome a 0 := by
      rw [State.restartOp_of_ready hready, State.checkOp_of_readable (s := s.opBegin a o) ((State.firstRefusal_congr rfl ..).trans hread), hnone]
      rfl
    have hflags : (((s.opBegin a o).opOutcome a 0).act a).flags = (s.act a).flags := by
      rw [State.opOutcome, State.onRun, State.act_onAct (s := s.opBegin a o) (State.onAct_wf w a _), State.opBegin, State.act_onAct w]
    refine ⟨commit (s.restartOp a 0x0404 4 0 true fun s o => s.checkOp a o), next_of_live hl _, ?_⟩
    rw [heff, commit_act]
    exact ⟨onlyIn_commit (onlyIn_trans (onlyIn_opBegin _ _ (by decide)) (onlyIn_opOutcome _ _ (by decide))),
      State.opOutcome_code (State.opBegin_run s a o) 0, hflags⟩
  case fails =>
    intro s a o x hl w hready hread hpair hfail haction hcarry
    have hread' : s.firstRefusal a false ((s.checkPairs a o).flatMap fun x => checkReads x.1 x.2.check) = .ok := by
      rw [hpair, List.flatMap_cons, List.flatMap_nil, List.append_nil]
      exact hread
    have hone : (s.opBegin a o).failedRanges a o = [x.2] :=
      State.failedRanges_of_single hpair ((State.rangeFails_congr rfl ..).trans hfail)
    have heff : s.restartOp a 0x0404 4 0 true (fun s o => s.checkOp a o) =
        (((s.opBegin a o).flagRange a).evSafe 0 (some a)).opOutcome a 0 := by
      rw [State.restartOp_of_ready hready, State.checkOp_of_readable (s := s.opBegin a o) ((State.firstRefusal_congr rfl ..).trans hread'),
        hone, List.foldl_cons, List.foldl_nil, State.rangeFail_of_flag haction]
    have hbegin : (s.opBegin a o).act a = { s.act a with run := some { seq := o.seq, opcode := o.opcode } } := State.act_onAct w a _
    have hflag := State.flagRange_act (s := s.opBegin a o) (State.onAct_wf w a _) (a := a) (by rw [hbegin]; exact hcarry)
    have hev := onlyIn_evSafe (ps := [.chk, .cnt]) (s := (s.opBegin a o).flagRange a) 0 (some a.val) (by decide) (by decide)
    have hact : ((((s.opBegin a o).flagRange a).evSafe 0 (some a)).act a) =
        { (s.opBegin a o).act a with flags := { ((s.opBegin a o).act a).flags with range := true } } := by
      rw [State.act_congr (hev.rest .acts (by decide)), hflag]
    have hout : ((((s.opBegin a o).flagRange a).evSafe 0 (some a)).opOutcome a 0).act a =
        { (s.opBegin a o).act a with
          flags := { ((s.opBegin a o).act a).flags with range := true }
          run := some { seq := o.seq, opcode := o.opcode, code := some 0 } } := by
      have wev : (((s.opBegin a o).flagRange a).evSafe 0 (some a)).acts.wf = true := by
        rw [hev.rest .acts (by decide)]
        exact State.onAct_wf (s := s.opBegin a o) (State.onAct_wf w a _) a _
      rw [State.opOutcome, State.onRun, State.act_onAct wev, hact, hbegin]
      rfl
    have hchk : ((((s.opBegin a o).flagRange a).evSafe 0 (some a)).opOutcome a 0).chk = { s.chk with events := s.chk.events ||| 1 } :=
      State.evSafe_chk ((s.opBegin a o).flagRange a) 0 (some a)
    refine ⟨commit (s.restartOp a 0x0404 4 0 true fun s o => s.checkOp a o), next_of_live hl _, ?_⟩
    rw [heff, commit_act, commit_chk, hout, hchk]
    exact ⟨onlyIn_commit (onlyIn_trans (onlyIn_trans (onlyIn_trans (onlyIn_opBegin _ _ (by decide)) (onlyIn_flagAct _ _ (by decide)))
      (onlyIn_mono hev (by decide))) (onlyIn_opOutcome _ _ (by decide))), rfl, rfl, rfl⟩
  case digest =>
    intro s a o hl w hready hread hm
    have heff : s.restartOp a 0x0405 4 0 true (fun s o => s.digestOp a o) = (s.opBegin a o).opOutcome a 0 := by
      rw [State.restartOp_of_ready hready, State.digestOp_of_alone (s := s.opBegin a o) ((State.firstRefusal_congr rfl ..).trans hread) hm]
    refine ⟨commit (s.restartOp a 0x0405 4 0 true fun s o => s.digestOp a o), next_of_live hl _, ?_⟩
    rw [heff, commit_act]
    exact ⟨onlyIn_commit (onlyIn_trans (onlyIn_opBegin _ _ (by decide)) (onlyIn_opOutcome _ _ (by decide))),
      State.opOutcome_code (State.opBegin_run s a o) 0⟩
  case message =>
    intro s src c tick v hl hm hsrc hc hlen
    refine (next_of_live hl _).trans ?_
    rw [State.digestMsg_of_own hm hsrc hc rfl hlen]
    rfl

end Sys2Proof.Machine

/-! Ethernet frames and the GVSP stream into the receive buffers (spec/14, R302 to R308). -/

namespace Sys2Proof.Machine

section

variable {s : State} {ps : List Part} {p : Nat} {r : NetFlow} {key : List Nat} {g : GvBlock}

/-! ### Frames of the shared operations -/

theorem onlyIn_onPort (p : Nat) (f : Port → Port) (h : Part.ing ∈ ps) : OnlyIn ps s (s.onPort p f) := onlyIn_onIng _ h

theorem onlyIn_rxDrop (p : Nat) (h : Part.ing ∈ ps) : OnlyIn ps s (s.rxDrop p) := onlyIn_onPort _ _ h

theorem onlyIn_rxTaken (p : Nat) (h : Part.ing ∈ ps) : OnlyIn ps s (s.rxTaken p) := onlyIn_onPort _ _ h

theorem onlyIn_flowLost (f n : Nat) (h : Part.ing ∈ ps) : OnlyIn ps s (s.flowLost f n) := by
  unfold State.flowLost State.onFlow
  exact onlyIn_onIng _ h

theorem onlyIn_putBlock (g : GvBlock) (h : Part.ing ∈ ps) : OnlyIn ps s (s.putBlock g) := onlyIn_onIng _ h

theorem onlyIn_noMatch (p : Nat) (h : Part.ing ∈ ps) (k : Part.cnt ∈ ps) : OnlyIn ps s (s.noMatch p) :=
  onlyIn_trans (onlyIn_rxDrop p h) (onlyIn_evPort p 2 none h k)

theorem onlyIn_rxPut (f a p : Nat) (b : List Byte) (h : Part.ing ∈ ps) (k : Part.dma ∈ ps) : OnlyIn ps s (s.rxPut f a p b) := by
  unfold State.rxPut
  split
  · exact onlyIn_refl _ _
  · exact onlyIn_trans (onlyIn_trans (onlyIn_onIng _ h) (onlyIn_onIng _ h)) (onlyIn_paceUpdate a k)

theorem onlyIn_rxMark (a p : Nat) (h : Part.ing ∈ ps) (k : Part.dma ∈ ps) : OnlyIn ps s (s.rxMark a p) :=
  onlyIn_trans (onlyIn_onIng _ h) (onlyIn_paceUpdate a k)

/-! ### What the shared operations do to the ingest state -/

theorem State.evPort_ing (s : State) (p i : Nat) (act : Option Nat) :
    (s.evPort p i act).ing = { s.ing with ports := s.ing.ports.upd p fun x => { x with events := bitSet x.events i } } := State.count_ing ..

@[simp] theorem State.paceUpdate_ing (s : State) (a : Nat) : (s.paceUpdate a).ing = s.ing :=
  (onlyIn_paceUpdate (ps := [.dma]) a (by decide)).rest .ing (by decide)

/-- What is left of the ingest state once bytes of a flow joined a buffer. -/
theorem State.rxPut_ing (f a p : Nat) {b : List Byte} (h : b ≠ []) :
    (s.rxPut f a p b).ing = { s.ing with
      rx := s.ing.rx.upd (4 * a + p) fun x => { x with data := x.data ++ b }
      flows := s.ing.flows.upd f fun x => { x with bytes := x.bytes + BitVec.ofNat 48 b.length } } := by
  rw [State.rxPut, if_neg (by simpa using h)]
  exact State.paceUpdate_ing ..

theorem State.rxPut_data (w : s.ing.rx.wf = true) (f a p : Nat) {b : List Byte} (h : b ≠ []) :
    ((s.rxPut f a p b).ing.rx.get (4 * a + p)).data = (s.ing.rx.get (4 * a + p)).data ++ b := by
  rw [State.rxPut_ing f a p h]
  exact congrArg Fifo.data ((Tab.get_upd s.ing.rx w _ _ fun x => { x with data := x.data ++ b }).trans (if_pos rfl))

theorem State.rxMark_ing (a p : Nat) :
    (s.rxMark a p).ing = { s.ing with rx := s.ing.rx.upd (4 * a + p) fun x => { x with marks := x.marks ++ [x.data.length] } } :=
  State.paceUpdate_ing ..

theorem State.rxMark_marks (w : s.ing.rx.wf = true) (a p : Nat) :
    ((s.rxMark a p).ing.rx.get (4 * a + p)).marks =
      (s.ing.rx.get (4 * a + p)).marks ++ [(s.ing.rx.get (4 * a + p)).data.length] := by
  rw [State.rxMark_ing]
  exact congrArg Fifo.marks ((Tab.get_upd s.ing.rx w _ _ fun x => { x with marks := x.marks ++ [x.data.length] }).trans (if_pos rfl))

theorem State.gvBlock_congr {t : State} (h : t.ing.blocks = s.ing.blocks) (key : List Nat) : t.gvBlock key = s.gvBlock key := by
  rw [State.gvBlock, h, State.gvBlock]

/-- A stream's block is the one put last. -/
theorem State.gvBlock_putBlock (s : State) (h : g.key = key) : (s.putBlock g).gvBlock key = some g := by
  have hnone : (s.ing.blocks.filter fun y => y.key != g.key).find? (fun y => y.key == key) = none := by
    refine List.find?_eq_none.2 fun y hy heq => ?_
    obtain ⟨-, hne⟩ := List.mem_filter.1 hy
    simp [eq_of_beq heq, h] at hne
  have hblocks : (s.putBlock g).ing.blocks = (s.ing.blocks.filter fun y => y.key != g.key) ++ [g] := rfl
  rw [State.gvBlock, hblocks, List.find?_append, hnone, Option.none_or, List.find?_singleton, if_pos (beq_iff_eq.2 h)]

theorem State.owedTo_nil (h : s.ing.owed = []) (f a p : Nat) : s.owedTo f a p = 0 := by
  simp [State.owedTo, h]

/-- With no fill owed, nothing is written and none is owed. -/
theorem State.fillFlow_nil (h : s.ing.owed = []) (f : Nat) : s.fillFlow f = s := by
  have hing : s.onIng (fun g => { g with owed := [] }) = s := by
    unfold State.onIng
    rw [← h]
  simp only [State.fillFlow, h, List.foldl_nil]
  exact hing

/-! ### A GVSP datagram -/

theorem State.gvspOn_of_flow {srcIp srcUdp dstUdp : Nat} (f : State → NetFlow → List Nat → State) (hon : s.portOn p = true)
    (hr : s.flowFor p srcIp srcUdp dstUdp 0 = some r) (hproto : r.proto = 0) (hrun : s.tick.running = true) :
    s.gvspOn p srcIp srcUdp dstUdp f = f s r [p, srcIp, srcUdp, dstUdp] := by
  simp [State.gvspOn, hon, hr, hproto, hrun]

theorem State.gvspOn_of_none {srcIp srcUdp dstUdp : Nat} (f : State → NetFlow → List Nat → State) (hon : s.portOn p = true)
    (hr : s.flowFor p srcIp srcUdp dstUdp 0 = none) : s.gvspOn p srcIp srcUdp dstUdp f = s.noMatch p := by
  simp [State.gvspOn, hon, hr]

theorem State.gvAbandon_of_none (h : s.gvBlock key = none) : s.gvAbandon key = s := by
  simp only [State.gvAbandon, h]

/-- The block a leader opens, before a calibration table is fixed for it. -/
def State.leaderBlock (s : State) (r : NetFlow) (key : List Nat) (blockId sx sy : Nat) : GvBlock :=
  { key := key, rcd := r, odd := s.oddTick, activity := r.act s.oddTick, blockId := blockId, size := sx * sy, sizeX := sx }

theorem State.gvLeader_of_plain {blk sx sy : Nat} (hsteers : s.steers (r.act s.oddTick) = true) (hnone : s.gvBlock key = none)
    (hcal : r.calSet = 0xFF) :
    s.gvLeader r key blk 1 0x01080001 sx sy = (s.putBlock (s.leaderBlock r key blk sx sy)).rxTaken r.port := by
  simp [State.gvLeader, State.gvAbandon_of_none hnone, hsteers, hcal, mono8, State.leaderBlock]

/-- A leader of another format counted, its block skipped. -/
def State.leaderSkipped (s : State) (p : Nat) (r : NetFlow) (key : List Nat) (blockId sx sy : Nat) : State :=
  ((s.putBlock { s.leaderBlock r key blockId sx sy with skip := true }).rxDrop p).flowLost r.flow 1

theorem onlyIn_leaderSkipped (p : Nat) (r : NetFlow) (key : List Nat) (blk sx sy : Nat) (h : Part.ing ∈ ps) :
    OnlyIn ps s (s.leaderSkipped p r key blk sx sy) :=
  onlyIn_trans (onlyIn_trans (onlyIn_putBlock _ h) (onlyIn_rxDrop _ h)) (onlyIn_flowLost _ _ h)

theorem State.leaderSkipped_ports_wf (w : s.ing.ports.wf = true) (p : Nat) (r : NetFlow) (key : List Nat) (blk sx sy : Nat) :
    (s.leaderSkipped p r key blk sx sy).ing.ports.wf = true := by
  have hports : (s.leaderSkipped p r key blk sx sy).ing.ports = s.ing.ports.upd p fun x => { x with rxDrops := x.rxDrops + 1 } := rfl
  rw [hports]
  exact Tab.wf_upd _ w _ _

theorem State.leaderSkipped_gvBlock (s : State) (p : Nat) (r : NetFlow) (key : List Nat) (blk sx sy : Nat) :
    (s.leaderSkipped p r key blk sx sy).gvBlock key = some { s.leaderBlock r key blk sx sy with skip := true } :=
  State.gvBlock_putBlock s (g := { s.leaderBlock r key blk sx sy with skip := true }) rfl

/-- A port's event bit is set. -/
theorem State.evPort_events (w : s.ing.ports.wf = true) (p : Nat) {i : Nat} (hi : i < 12) (act : Option Nat) :
    (((s.evPort p i act).ing.ports.get p).events).getLsbD i = true := by
  rw [State.evPort_ing, Tab.get_upd _ w, if_pos rfl]
  exact getLsbD_bitSet_self _ hi

theorem State.gvLeader_of_unsupported {blk pf sx sy : Nat} (hsteers : s.steers (r.act s.oddTick) = true) (hnone : s.gvBlock key = none)
    (hpf : pf ≠ 0x01080001) :
    s.gvLeader r key blk 1 pf sx sy = (s.leaderSkipped r.port r key blk sx sy).evPort r.port 5 (some (r.act s.oddTick)) := by
  simp [State.gvLeader, State.gvAbandon_of_none hnone, hsteers, hpf, mono8, State.leaderSkipped, State.leaderBlock]

theorem State.gvFollow_of_open (h : s.gvBlock key = some g) (hopen : g.isOpen = true) (hskip : g.skip = false) (hrcd : g.rcd = r) :
    s.gvFollow r key g.blockId = (s, some g) := by
  simp [State.gvFollow, h, hopen, hskip, hrcd]

theorem State.gvGap_zero (g : GvBlock) (n : Nat) : s.gvGap g 0 n = s := by
  simp [State.gvGap]

theorem GvBlock.correct_of_none (h : g.table = none) (off : Nat) (b : List Byte) : g.correct off b = b := by
  simp only [GvBlock.correct, h]

/-- The packet in order of an open block, with room for it and no fill owed before it. -/
theorem State.gvPayload_in_order {b : List Byte} (h : s.gvBlock key = some g) (hopen : g.isOpen = true) (hskip : g.skip = false)
    (hrcd : g.rcd = r) (htable : g.table = none) (hb : b ≠ []) (hpay : g.payload = b.length)
    (hpos : g.pos = (g.nextPacket - 1) * b.length) (hfit : g.pos + b.length ≤ g.size) (howed : s.ing.owed = [])
    (hroom : b.length ≤ s.rxRoom g.activity r.port) :
    s.gvPayload r key g.blockId g.nextPacket b =
      ((s.putBlock { g with nextPacket := g.nextPacket + 1, pos := g.pos + b.length }).rxPut r.flow g.activity r.port b).rxTaken r.port := by
  have hlen : b.length ≠ 0 := fun h0 => hb (List.eq_nil_of_length_eq_zero h0)
  have hoff : min ((g.nextPacket - 1) * g.payload) g.size = g.pos := by
    rw [hpay, ← hpos]
    exact Nat.min_eq_left (Nat.le_trans (Nat.le_add_right _ _) hfit)
  have hpsz : (if g.payload = 0 then b.length else g.payload) = g.payload := if_neg (by rw [hpay]; exact hlen)
  have htake : b.take (g.size - g.pos) = b := List.take_of_length_le (Nat.le_sub_of_add_le' hfit)
  have howed' : (s.putBlock { g with nextPacket := g.nextPacket + 1, pos := g.pos + b.length }).ing.owed = [] := howed
  have hroom' : ¬ (s.putBlock { g with nextPacket := g.nextPacket + 1, pos := g.pos + b.length }).rxRoom g.activity r.port < b.length :=
    Nat.not_lt.2 hroom
  simp only [State.gvPayload, State.gvFollow_of_open h hopen hskip hrcd, List.isEmpty_eq_false_iff.2 hb, Nat.lt_irrefl, decide_false,
    Bool.or_false, Bool.false_eq_true, if_false, hpsz, hoff, Nat.sub_self, State.gvGap_zero, htake, State.owedTo_nil howed',
    Nat.zero_add, hroom', State.fillFlow_nil howed', GvBlock.correct_of_none htable]

/-- The trailer of a block that lacks nothing, with no fill owed before it. -/
theorem State.gvTrailer_of_whole (h : s.gvBlock key = some g) (hopen : g.isOpen = true) (hskip : g.skip = false) (hrcd : g.rcd = r)
    (hpos : g.pos = g.size) (howed : s.ing.owed = []) :
    s.gvTrailer r key g.blockId =
      ((s.putBlock { g with isOpen := false, pos := g.size }).rxTaken r.port).rxMark g.activity r.port := by
  have hlack : g.lacking.1 = 0 := by rw [GvBlock.lacking, hpos, Nat.sub_self]
  have howed' : ((s.putBlock { g with isOpen := false, pos := g.size }).rxTaken r.port).ing.owed = [] := howed
  simp only [State.gvTrailer, State.gvFollow_of_open h hopen hskip hrcd, hlack, State.gvGap_zero, State.owedTo_nil howed', if_true]

/-! ### Owed fill (R306) -/

/-- One fill owed alone, without a mark, for which there is room. -/
theorem State.fillFlow_single {e : Owed} (h : s.ing.owed = [e]) (hmark : e.mark = false) (hroom : e.bytes ≤ s.rxRoom e.activity e.port) :
    s.fillFlow e.flow = (s.rxPut e.flow e.activity e.port (List.replicate e.bytes 0)).onIng fun g => { g with owed := [] } := by
  have hone : s.fillOne e = (s.rxPut e.flow e.activity e.port (List.replicate e.bytes 0), []) := by
    simp [State.fillOne, Nat.min_eq_left hroom, hmark]
  simp only [State.fillFlow, h, List.foldl_cons, List.foldl_nil, if_true, hone, List.append_nil]

/-! ### Whole frames (R302) -/

theorem State.frameIn_of_bad {b : List Byte} (hon : s.portOn p = true) (hbad : frameOk (s.portCfg p) b = false) :
    s.frameIn p b = (s.rxDrop p).evPort p 1 none := by
  simp [State.frameIn, hon, hbad]

/-- An ARP request for another address is counted. -/
theorem State.frameIn_of_other_arp {b : List Byte} (hon : s.portOn p = true) (hok : frameOk (s.portCfg p) b = true)
    (htype : (frameTag b).2.2.1 = 0x0806)
    (hhead : slice (slice b (frameTag b).2.2.2 (b.length - 4 - (frameTag b).2.2.2)) 0 6 = [0, 1, 8, 0, 6, 4])
    (hop : beField (slice b (frameTag b).2.2.2 (b.length - 4 - (frameTag b).2.2.2)) 6 2 = 1)
    (hip : beField (slice b (frameTag b).2.2.2 (b.length - 4 - (frameTag b).2.2.2)) 24 4 ≠ (s.portCfg p).ipv4) :
    s.frameIn p b = s.rxTaken p := by
  have hbe : toBe 2 1 ++ toBe 2 0x0800 ++ [6, 4] = ([0, 1, 8, 0, 6, 4] : List Byte) := by decide
  simp only [State.frameIn, hon, hok, htype, hbe, hhead, hop, State.arpAsk, hip, Bool.not_true, Bool.false_eq_true, ne_eq,
    not_true_eq_false, if_true, if_false]

end

/-- Settles O34, clause by clause. -/
theorem gvspReception : Obligations.GvspReception := by
  unfold Obligations.GvspReception
  refine ⟨?badFrame, ?otherArp, ?leader, ?unsupported, ?payload, ?trailer, ?fill, ?unmatched⟩
  case badFrame =>
    intro s p b hl hon hbad
    refine ⟨commit (s.frameIn p b), next_of_live hl _, ?_⟩
    rw [State.frameIn_of_bad hon hbad, commit_ing, State.evPort_ing]
    exact ⟨onlyIn_commit (onlyIn_trans (onlyIn_rxDrop p (by decide)) (onlyIn_evPort p 1 none (by decide) (by decide))), rfl⟩
  case otherArp =>
    rintro s p b l hl hon hok htype rfl hhead hop hip
    refine (next_of_live hl _).trans ?_
    rw [State.frameIn_of_other_arp hon hok htype hhead hop hip]
    rfl
  case leader =>
    rintro s p srcIp srcUdp dstUdp blk sx sy r a hl hon hr hproto hrun hport rfl hsteers hnone hcal
    have heff : (s.gvspOn p srcIp srcUdp dstUdp fun s r k => s.gvLeader r k blk 1 0x01080001 sx sy) =
        (s.putBlock (s.leaderBlock r [p.val, srcIp, srcUdp, dstUdp] blk sx sy)).rxTaken r.port := by
      rw [State.gvspOn_of_flow _ hon hr hproto hrun, State.gvLeader_of_plain hsteers hnone hcal]
    refine ⟨commit (s.gvspOn p srcIp srcUdp dstUdp fun s r k => s.gvLeader r k blk 1 0x01080001 sx sy), next_of_live hl _, ?_⟩
    rw [heff, commit_ing]
    exact ⟨onlyIn_commit (onlyIn_trans (onlyIn_putBlock _ (by decide)) (onlyIn_rxTaken _ (by decide))),
      State.gvBlock_putBlock s (g := s.leaderBlock r [p.val, srcIp, srcUdp, dstUdp] blk sx sy) rfl, rfl⟩
  case unsupported =>
    intro s p srcIp srcUdp dstUdp blk pf sx sy r hl hon hr hproto hrun hport hsteers hnone hpf wports
    have heff : (s.gvspOn p srcIp srcUdp dstUdp fun s r k => s.gvLeader r k blk 1 pf sx sy) =
        (s.leaderSkipped p r [p.val, srcIp, srcUdp, dstUdp] blk sx sy).evPort p 5 (some (r.act s.oddTick)) := by
      rw [State.gvspOn_of_flow _ hon hr hproto hrun, State.gvLeader_of_unsupported hsteers hnone hpf, hport]
    have hblock := State.leaderSkipped_gvBlock s p r [p.val, srcIp, srcUdp, dstUdp] blk sx sy
    refine ⟨commit (s.gvspOn p srcIp srcUdp dstUdp fun s r k => s.gvLeader r k blk 1 pf sx sy), next_of_live hl _, ?_⟩
    rw [heff, commit_ing, State.gvBlock_congr (s := s.leaderSkipped p r [p.val, srcIp, srcUdp, dstUdp] blk sx sy)
      (by rw [commit_ing, State.evPort_ing]), hblock]
    exact ⟨onlyIn_commit (onlyIn_trans (onlyIn_leaderSkipped _ _ _ _ _ _ (by decide)) (onlyIn_evPort _ _ _ (by decide) (by decide))),
      State.evPort_events (State.leaderSkipped_ports_wf wports _ _ _ _ _ _) _ (by decide) _, rfl⟩
  case payload =>
    rintro s p srcIp srcUdp dstUdp pid b r g hl hon hr hproto hrun hport hblock hkey hopen hskip hrcd htable hb rfl hpay hpos hfit howed
      hroom wrx
    have heff : (s.gvspOn p srcIp srcUdp dstUdp fun s r k => s.gvPayload r k g.blockId g.nextPacket b) =
        ((s.putBlock { g with nextPacket := g.nextPacket + 1, pos := g.pos + b.length }).rxPut r.flow g.activity p b).rxTaken p := by
      rw [State.gvspOn_of_flow _ hon hr hproto hrun, State.gvPayload_in_order hblock hopen hskip hrcd htable hb hpay hpos hfit howed
        (by rw [hport]; exact hroom), hport]
    have hput := State.rxPut_ing (s := s.putBlock { g with nextPacket := g.nextPacket + 1, pos := g.pos + b.length }) r.flow g.activity p hb
    refine ⟨commit (s.gvspOn p srcIp srcUdp dstUdp fun s r k => s.gvPayload r k g.blockId g.nextPacket b), next_of_live hl _, ?_⟩
    rw [heff, commit_ing]
    refine ⟨onlyIn_commit (onlyIn_trans (onlyIn_trans (onlyIn_putBlock _ (by decide)) (onlyIn_rxPut _ _ _ _ (by decide) (by decide)))
      (onlyIn_rxTaken _ (by decide))), ?_, ?_⟩
    · exact State.rxPut_data (s := s.putBlock { g with nextPacket := g.nextPacket + 1, pos := g.pos + b.length }) wrx r.flow g.activity p hb
    · rw [State.gvBlock_congr (s := s.putBlock { g with nextPacket := g.nextPacket + 1, pos := g.pos + b.length })
        (by rw [commit_ing, State.rxTaken, State.onPort, State.onIng_ing, hput])]
      exact State.gvBlock_putBlock s hkey
  case trailer =>
    intro s p srcIp srcUdp dstUdp r g hl hon hr hproto hrun hport hblock hkey hopen hskip hrcd hpos howed wrx
    have heff : (s.gvspOn p srcIp srcUdp dstUdp fun s r k => s.gvTrailer r k g.blockId) =
        ((s.putBlock { g with isOpen := false, pos := g.size }).rxTaken p).rxMark g.activity p := by
      rw [State.gvspOn_of_flow _ hon hr hproto hrun, State.gvTrailer_of_whole hblock hopen hskip hrcd hpos howed, hport]
    have hmark := State.rxMark_ing (s := (s.putBlock { g with isOpen := false, pos := g.size }).rxTaken p) g.activity p
    refine ⟨commit (s.gvspOn p srcIp srcUdp dstUdp fun s r k => s.gvTrailer r k g.blockId), next_of_live hl _, ?_⟩
    rw [heff, commit_ing]
    refine ⟨onlyIn_commit (onlyIn_trans (onlyIn_trans (onlyIn_putBlock _ (by decide)) (onlyIn_rxTaken _ (by decide)))
      (onlyIn_rxMark _ _ (by decide) (by decide))), ?_, ?_⟩
    · exact State.rxMark_marks (s := (s.putBlock { g with isOpen := false, pos := g.size }).rxTaken p) wrx g.activity p
    · rw [State.gvBlock_congr (s := s.putBlock { g with isOpen := false, pos := g.size }) (by rw [commit_ing, hmark]; rfl)]
      exact congrArg (Option.map (·.isOpen)) (State.gvBlock_putBlock s (g := { g with isOpen := false, pos := g.size }) hkey)
  case fill =>
    intro s f e hl howed hflow hmark hpos hroom wrx
    have heff : s.fillFlow f =
        (s.rxPut e.flow e.activity e.port (List.replicate e.bytes 0)).onIng fun g => { g with owed := [] } := by
      rw [← hflow, State.fillFlow_single howed hmark hroom]
    have hne : List.replicate e.bytes (0 : Byte) ≠ [] := List.ne_nil_of_length_pos (by rw [List.length_replicate]; exact hpos)
    refine ⟨commit (s.fillFlow f), next_of_live hl _, ?_⟩
    rw [heff, commit_ing, State.onIng_ing]
    exact ⟨onlyIn_commit (onlyIn_trans (onlyIn_rxPut _ _ _ _ (by decide) (by decide)) (onlyIn_onIng _ (by decide))), rfl,
      State.rxPut_data wrx e.flow e.activity e.port hne⟩
  case unmatched =>
    intro s p srcIp srcUdp dstUdp blk ty pf sx sy hl hon hnone
    refine ⟨commit (s.gvspOn p srcIp srcUdp dstUdp fun s r k => s.gvLeader r k blk ty pf sx sy), next_of_live hl _, ?_⟩
    rw [State.gvspOn_of_none _ hon hnone, commit_ing, State.noMatch, State.evPort_ing]
    exact ⟨onlyIn_commit (onlyIn_noMatch p (by decide) (by decide)), rfl⟩

end Sys2Proof.Machine

/-! RTP packets, ARP and the links of the ingest ports (spec/14, R301, R309, R310, R315). -/

namespace Sys2Proof.Machine

section

variable {s : State} {ps : List Part} {p ip : Nat} {r : NetFlow}

theorem onlyIn_ethOut (p et : Nat) (dst : BitVec 48) (b : List Byte) (h : Part.sent ∈ ps) : OnlyIn ps s (s.ethOut p et dst b) :=
  onlyIn_out _ h

/-! ### RTP (R309, R310) -/

/-- A whole NAL unit of H.264 in one packet. -/
theorem nals264_of_single {b : List Byte} (fu : Option (List Byte)) (hb : b ≠ []) (h1 : 1 ≤ u8 b 0 % 32) (h23 : u8 b 0 % 32 ≤ 23) :
    nals264 b fu = { nals := [b] } := by
  have hkeep : (u8 b 0 % 32 != 31) = true := by
    rw [bne_iff_ne]
    omega
  simp [nals264, hb, h1, h23, hkeep]

/-- A flow once a packet in sequence brought whole units only. -/
def FlowRun.inSequence (k : List Byte) (x : FlowRun) : FlowRun :=
  { x with rtpNext := some ((beField k 2 2 + 1) % 65536), dropped := 0, fuOpen := false, fuBytes := [], fuSkip := false }

/-- The packet in sequence with one whole unit and no marker. -/
theorem State.rtpTake_of_whole {k b : List Byte} (hproto : r.proto = 1) (hsteers : s.steers (r.act s.oddTick) = true)
    (hnext : (s.ing.flows.get r.flow).rtpNext = some (beField k 2 2)) (hpay : rtpPayload k = some b) (h1 : 1 ≤ u8 b 0 % 32)
    (h23 : u8 b 0 % 32 ≤ 23) (hb : b ≠ []) (hmark : (u8 k 1).testBit 7 = false)
    (hroom : b.length + 4 ≤ s.rxRoom (r.act s.oddTick) r.port) :
    s.rtpTake r k = ((s.onFlow r.flow (FlowRun.inSequence k)).rxPut r.flow (r.act s.oddTick) r.port (annexB b)).rxTaken r.port := by
  have hd : (beField k 2 2 + 65536 - beField k 2 2) % 65536 = 0 := by omega
  have hlen : ¬ s.rxRoom (r.act s.oddTick) r.port < (annexB b).length := by
    have : (annexB b).length = b.length + 4 := by
      rw [annexB, List.length_append, Nat.add_comm]
      rfl
    omega
  simp only [State.rtpTake, hsteers, hnext, hd, hpay, hproto, nals264_of_single _ hb h1 h23, hmark, Bool.not_true, Bool.false_eq_true,
    if_false, if_true, Bool.false_and, List.nil_append, List.flatMap_cons, List.flatMap_nil, List.append_nil, hlen, Option.isSome_none,
    Option.getD_none, Nat.not_lt_zero]
  rfl

theorem State.rtpOn_of_flow {srcIp dstUdp : Nat} {k : List Byte} (hon : s.portOn p = true)
    (hr : s.flowFor p srcIp 0 dstUdp (beField k 8 4) = some r) (hproto : r.proto ≠ 0) (hrun : s.tick.running = true) :
    s.rtpOn p srcIp dstUdp k = s.rtpTake r k := by
  simp [State.rtpOn, hon, hr, hproto, hrun]

/-! ### ARP (R315) -/

theorem State.arpAsk_of_own {mac : BitVec 48} (hon : s.portOn p = true) :
    s.arpAsk p ip mac (s.portCfg p).ipv4 =
      (s.rxTaken p).ethOut p 0x0806 mac (arpBytes 2 (s.portMac p) (s.portCfg p).ipv4 mac ip) := by
  simp [State.arpAsk, hon]

/-- The ARP entry of a destination that answered. -/
def ArpEntry.answered (mac : BitVec 48) (now : Nat) (e : ArpEntry) : ArpEntry := { e with mac := some mac, lastReply := now }

theorem State.arpTell_of_dest {mac : BitVec 48} (hon : s.portOn p = true) (hdest : s.isDest p ip = true) :
    s.arpTell p ip mac = (s.rxTaken p).onPort p fun x => { x with arp := arpUpd ip (ArpEntry.answered mac s.tb.time) x.arp } := by
  simp only [State.arpTell, hon, hdest, Bool.not_true, Bool.false_eq_true, if_false, if_true]
  rfl

/-- The request for an address without an entry. -/
theorem State.arpSend_of_new (hon : s.portOn p = true) (hdest : s.isDest p ip = true)
    (hnone : ((s.ing.ports.get p).arp.find? fun e => e.ip == ip) = none) :
    s.arpSend p ip = (s.onPort p fun x => { x with arp := arpUpd ip (fun e => { e with lastRequest := s.tb.time }) x.arp }).ethOut p
      0x0806 0xFFFFFFFFFFFF (arpBytes 1 (s.portMac p) (s.portCfg p).ipv4 0 ip) := by
  simp [State.arpSend, hon, hdest, hnone]

/-! ### Links (R301) -/

theorem State.portUp_of_mode (hb : s.bound = true) (hpwr : s.pwr.ing = true) (hmode : (s.portCfg p).mode ≠ 0) :
    s.portUp p = (s.onPort p fun x => { x with linkUp := true }).onPair fun x => { x with portsDown := bitClr x.portsDown p } := by
  simp [State.portUp, hb, hpwr, hmode]

theorem State.portDown_of_up (h : (s.ing.ports.get p).linkUp = true) :
    s.portDown p = (s.onPort p fun x => { x with linkUp := false }).evPort p 0 none := by
  simp [State.portDown, h]

end

/-- Settles O35, clause by clause. -/
theorem rtpAndPorts : Obligations.RtpAndPorts := by
  unfold Obligations.RtpAndPorts
  refine ⟨?rtp, ?arpRequest, ?arpReply, ?arpTimer, ?arpExpire, ?linkUp, ?linkDown⟩
  case rtp =>
    rintro s p srcIp dstUdp a k b r hl hon hr hproto hport hrun rfl hsteers hnext hpay h1 h23 hb hmark hroom wrx wflows hseq
    have heff : s.rtpOn p srcIp dstUdp k =
        ((s.onFlow r.flow (FlowRun.inSequence k)).rxPut r.flow (r.act s.oddTick) p (annexB b)).rxTaken p := by
      rw [State.rtpOn_of_flow hon hr (by rw [hproto]; decide) hrun, State.rtpTake_of_whole hproto hsteers hnext hpay h1 h23 hb hmark
        (by rw [hport]; exact hroom), hport]
    have hne : annexB b ≠ [] := List.cons_ne_nil _ _
    have hflow : (s.ing.flows.upd r.flow (FlowRun.inSequence k)).get r.flow = (s.ing.flows.get r.flow).inSequence k :=
      (Tab.get_upd s.ing.flows wflows _ _ _).trans (if_pos rfl)
    refine ⟨commit (s.rtpOn p srcIp dstUdp k), next_of_live hl _, ?_⟩
    rw [heff, commit_ing]
    refine ⟨onlyIn_commit (onlyIn_trans (onlyIn_trans (onlyIn_onIng _ (by decide)) (onlyIn_rxPut _ _ _ _ (by decide) (by decide)))
      (onlyIn_rxTaken _ (by decide))), ?_, ?_⟩
    · exact State.rxPut_data (s := s.onFlow r.flow (FlowRun.inSequence k)) wrx r.flow _ p hne
    · rw [State.rxTaken, State.onPort, State.onIng_ing, State.rxPut_ing _ _ _ hne]
      refine (congrArg FlowRun.rtpNext ((Tab.get_upd (s.ing.flows.upd r.flow (FlowRun.inSequence k)) (Tab.wf_upd _ wflows _ _) _ _
        fun x => { x with bytes := x.bytes + BitVec.ofNat 48 (annexB b).length }).trans (if_pos rfl))).trans ?_
      exact congrArg FlowRun.rtpNext hflow
  case arpRequest =>
    intro s p ip mac hl hon
    refine (next_of_live hl _).trans ?_
    rw [State.arpAsk_of_own hon]
    rfl
  case arpReply =>
    intro s p ip mac hl hon hdest wports
    have htaken : (s.rxTaken p).ing.ports.get p = { s.ing.ports.get p with rxFrames := (s.ing.ports.get p).rxFrames + 1 } :=
      (Tab.get_upd s.ing.ports wports _ _ fun x => { x with rxFrames := x.rxFrames + 1 }).trans (if_pos rfl)
    have hentry := (Tab.get_upd (s.ing.ports.upd p fun x => { x with rxFrames := x.rxFrames + 1 }) (Tab.wf_upd _ wports _ _) p p
      fun x => { x with arp := arpUpd ip (ArpEntry.answered mac s.tb.time) x.arp }).trans (if_pos rfl)
    refine ⟨commit (s.arpTell p ip mac), next_of_live hl _, ?_⟩
    rw [State.arpTell_of_dest hon hdest, commit_ing]
    refine ⟨onlyIn_commit (onlyIn_trans (onlyIn_rxTaken _ (by decide)) (onlyIn_onPort _ _ (by decide))), hentry.trans ?_⟩
    rw [show (s.ing.ports.upd p fun x => { x with rxFrames := x.rxFrames + 1 }).get p = _ from htaken]
    rfl
  case arpTimer =>
    intro s p ip hl hon hdest hnone
    refine ⟨commit (s.arpSend p ip), next_of_live hl _, onlyIn_commit (onlyIn_arpSend p ip), ?_⟩
    rw [State.arpSend_of_new hon hdest hnone]
    rfl
  case arpExpire =>
    intro s p ip hl
    exact next_of_live hl _
  case linkUp =>
    intro s p hl hb hpwr hmode
    refine (next_of_live hl _).trans ?_
    rw [State.portUp_of_mode hb hpwr hmode]
    rfl
  case linkDown =>
    intro s p hl hup
    refine ⟨commit (s.portDown p), next_of_live hl _, ?_⟩
    rw [State.portDown_of_up hup, commit_ing, State.evPort_ing]
    exact ⟨onlyIn_commit (onlyIn_trans (onlyIn_onPort _ _ (by decide)) (onlyIn_evPort _ _ _ (by decide) (by decide))), rfl⟩

end Sys2Proof.Machine

/-! PTP messages and the measured offset and path delay (spec/02, R22 to R24; spec/14, R311). -/

namespace Sys2Proof.Machine

section

variable {s : State} {ps : List Part} {p m q : Nat}

/-! ### A measured reference offset -/

@[simp] theorem TimeBase.counted_offset (t : TimeBase) (d : Int) : (t.counted d).offset = t.offset := rfl

@[simp] theorem TimeBase.lockIf_offset (t : TimeBase) : t.lockIf.offset = t.offset := by
  unfold TimeBase.lockIf
  split <;> rfl

/-- Whatever the lock, the offset measured is the one kept, and only the time base and its event bit change. -/
theorem State.reference_spec (s : State) (d : Int) : OnlyIn [.tb, .tick, .cnt] s (s.reference d) ∧ (s.reference d).tb.offset = d := by
  have htb (u : State) (f : TimeBase → TimeBase) : OnlyIn [.tb, .tick, .cnt] u (u.onTb f) := onlyIn_onTb f (by decide)
  unfold State.reference
  dsimp only
  split
  case h_1 => exact ⟨htb s _, rfl⟩
  case h_2 =>
    split
    · exact ⟨onlyIn_trans (htb s _) (htb _ _), rfl⟩
    · exact ⟨onlyIn_trans (htb s _) (htb _ _), by simp⟩
  case h_3 =>
    split
    · split
      · exact ⟨onlyIn_trans (htb s _) (htb _ _), rfl⟩
      · exact ⟨onlyIn_trans (onlyIn_trans (htb s _) (htb _ _)) (onlyIn_evTick 12 (by decide) (by decide)), by rw [evTick_tb]; rfl⟩
    · exact ⟨onlyIn_trans (htb s _) (htb _ _), by simp⟩
  case h_4 => exact ⟨onlyIn_trans (htb s _) (htb _ _), rfl⟩

/-! ### Messages (R311) -/

theorem State.ptpOn_of_other (f : State → State) (d : Nat) (hon : s.portOn p = true) (h : s.discSrc ≠ 1 ∨ p ≠ s.b.netw.glob.ptpPort) :
    s.ptpOn p d f = s.ptpDrop p := by
  have h' : (decide (s.discSrc ≠ 1) || decide (p ≠ s.b.netw.glob.ptpPort)) = true := by simpa using h
  simp only [State.ptpOn, hon, h', Bool.not_true, Bool.false_eq_true, if_false, if_true]

theorem State.ptpOn_of_domain (f : State → State) (hon : s.portOn p = true) (hsrc : s.discSrc = 1) (hp : p = s.b.netw.glob.ptpPort) :
    s.ptpOn p s.b.netw.glob.ptpDomain f = f (s.ptpTaken p) := by
  simp [State.ptpOn, hon, hsrc, ← hp]

/-- The exchange once a Sync of the master in use is taken. -/
def Ptp.synced (now seq : Nat) (corr : Int) (twoStep : Bool) (q : Ptp) : Ptp :=
  { q with syncSeq := seq, syncRx := now, t2 := now, syncCorr := corr, awaitFollow := twoStep }

theorem onlyIn_syncTaken (p : Nat) (f : Ptp → Ptp) (h : Part.ing ∈ ps) : OnlyIn ps s ((s.ptpTaken p).onPtp f) :=
  onlyIn_trans (onlyIn_onIng _ h) (onlyIn_onIng _ h)

theorem State.syncDone_spec (s : State) (t1 : Int) :
    OnlyIn [.ing, .tb, .tick, .cnt] s (s.syncDone t1) ∧
      (s.syncDone t1).tb.offset = (s.ing.ptp.syncRx : Int) - t1 - s.ing.ptp.pathDelay ∧
      (s.syncDone t1).ing.ptp = { s.ing.ptp with t1 := t1, awaitFollow := false } := by
  obtain ⟨hframe, hoffset⟩ := State.reference_spec (s.onPtp fun q => { q with t1 := t1, awaitFollow := false })
    ((s.ing.ptp.syncRx : Int) - t1 - s.ing.ptp.pathDelay)
  refine ⟨onlyIn_trans (onlyIn_onIng _ (by decide)) (onlyIn_mono hframe (by decide)), hoffset, ?_⟩
  rw [State.syncDone, hframe.rest .ing (by decide)]
  rfl

section

variable (hon : s.portOn p = true) (hsrc : s.discSrc = 1) (hp : p = s.b.netw.glob.ptpPort) (hm : s.ing.ptp.master = some m)

include hon hsrc hp hm

theorem State.ptpSyncEff_of_two_step (o : Nat) (c : Int) :
    s.ptpSyncEff p s.b.netw.glob.ptpDomain m q true o c = (s.ptpTaken p).onPtp (Ptp.synced s.tb.time q c true) := by
  have hm' : (s.ptpTaken p).ing.ptp.master = some m := hm
  simp only [State.ptpSyncEff, State.ptpOn_of_domain _ hon hsrc hp, hm', ne_eq, not_true_eq_false, if_false, if_true]
  rfl

theorem State.ptpSyncEff_of_one_step (o : Nat) (c : Int) :
    s.ptpSyncEff p s.b.netw.glob.ptpDomain m q false o c =
      ((s.ptpTaken p).onPtp (Ptp.synced s.tb.time q c false)).syncDone ((o : Int) + c) := by
  have hm' : (s.ptpTaken p).ing.ptp.master = some m := hm
  simp only [State.ptpSyncEff, State.ptpOn_of_domain _ hon hsrc hp, hm', ne_eq, not_true_eq_false, Bool.false_eq_true, if_false]
  rfl

theorem State.ptpFollow_of_awaited (hwait : s.ing.ptp.awaitFollow = true) (o : Nat) (c : Int) :
    s.ptpFollow p s.b.netw.glob.ptpDomain m s.ing.ptp.syncSeq o c =
      (s.ptpTaken p).syncDone ((o : Int) + c + s.ing.ptp.syncCorr) := by
  have hptp : (s.ptpTaken p).ing.ptp = s.ing.ptp := rfl
  simp [State.ptpFollow, State.ptpOn_of_domain _ hon hsrc hp, hptp, hm, hwait]

theorem State.ptpDelay_of_open (hopen : s.ing.ptp.delayOpen = true) (r : Nat) (c i : Int) :
    s.ptpDelay p s.b.netw.glob.ptpDomain m s.ing.ptp.delaySeq r c i = (s.ptpTaken p).onPtp fun q => { q with
      delayOpen := false, interval := i
      pathDelay := (((q.t2 : Int) - q.t1) + ((r : Int) - c - q.delayTx)) / 2 } := by
  have hptp : (s.ptpTaken p).ing.ptp = s.ing.ptp := rfl
  simp [State.ptpDelay, State.ptpOn_of_domain _ hon hsrc hp, hptp, hm, hopen]

end

/-- The candidates and the master an Announce leaves. -/
def Ptp.announced (m : Nat) (x : List Nat) (q : Ptp) : Ptp :=
  let cs := (q.candidates.filter fun c => c.1 != m) ++ [(m, x)]
  let best := (bestMaster cs).map (·.1)
  if best = q.master then { q with candidates := cs }
  else { q with candidates := cs, master := best, awaitFollow := false, delayOpen := false, pathDelay := 0 }

theorem Ptp.announced_spec (m : Nat) (x : List Nat) (q : Ptp) :
    (q.announced m x).candidates = (q.candidates.filter fun c => c.1 != m) ++ [(m, x)] ∧
      (q.announced m x).master = (bestMaster (q.announced m x).candidates).map (·.1) := by
  unfold Ptp.announced
  dsimp only
  split
  next h => exact ⟨rfl, h.symm⟩
  next => exact ⟨rfl, rfl⟩

theorem State.ptpAnnounceEff_of_domain (hon : s.portOn p = true) (hsrc : s.discSrc = 1) (hp : p = s.b.netw.glob.ptpPort) (x : List Nat) :
    s.ptpAnnounceEff p s.b.netw.glob.ptpDomain m x = (s.ptpTaken p).onPtp (Ptp.announced m x) := by
  rw [State.ptpAnnounceEff, State.ptpOn_of_domain _ hon hsrc hp]
  rfl

theorem State.delayReqEff_of_master (hsrc : s.discSrc = 1) (hon : s.portOn s.b.netw.glob.ptpPort = true)
    (hm : s.ing.ptp.master.isSome = true) :
    s.delayReqEff = (s.onPtp fun q => { q with delayTx := s.tb.time, delaySeq := (q.delaySeq + 1) % 65536, delayOpen := true }).out
      { kind := .eth, port := s.b.netw.glob.ptpPort, code := 0x88F7, status := (s.ing.ptp.delaySeq + 1) % 65536 } := by
  simp [State.delayReqEff, hsrc, hon, hm]

end

/-- Settles O36, clause by clause. -/
theorem ptpExchange : Obligations.PtpExchange := by
  unfold Obligations.PtpExchange
  refine ⟨?dropped, ?twoStep, ?oneStep, ?followUp, ?delayResp, ?announce, ?delayReq⟩
  case dropped =>
    intro s p d m q two o c hl hon h
    refine (next_of_live hl _).trans ?_
    rw [State.ptpSyncEff, State.ptpOn_of_other _ _ hon h]
    rfl
  case twoStep =>
    intro s p m q o c hl hon hsrc hp hm
    refine (next_of_live hl _).trans ?_
    rw [State.ptpSyncEff_of_two_step hon hsrc hp hm]
    rfl
  case oneStep =>
    intro s p m q o c hl hon hsrc hp hm
    obtain ⟨hframe, hoffset, hptp⟩ := State.syncDone_spec ((s.ptpTaken p).onPtp (Ptp.synced s.tb.time q c false)) ((o : Int) + c)
    refine ⟨commit (s.ptpSyncEff p s.b.netw.glob.ptpDomain m q false o c), next_of_live hl _, ?_⟩
    rw [State.ptpSyncEff_of_one_step hon hsrc hp hm, commit_tb, commit_ing, hoffset, hptp]
    exact ⟨onlyIn_commit (onlyIn_trans (onlyIn_syncTaken _ _ (by decide)) hframe), rfl, rfl⟩
  case followUp =>
    intro s p m o c hl hon hsrc hp hm hwait
    obtain ⟨hframe, hoffset, hptp⟩ := State.syncDone_spec (s.ptpTaken p) ((o : Int) + c + s.ing.ptp.syncCorr)
    refine ⟨commit (s.ptpFollow p s.b.netw.glob.ptpDomain m s.ing.ptp.syncSeq o c), next_of_live hl _, ?_⟩
    rw [State.ptpFollow_of_awaited hon hsrc hp hm hwait, commit_tb, commit_ing, hoffset, hptp]
    exact ⟨onlyIn_commit (onlyIn_trans (onlyIn_onIng _ (by decide)) hframe), rfl, rfl⟩
  case delayResp =>
    intro s p m r c i hl hon hsrc hp hm hopen
    refine (next_of_live hl _).trans ?_
    rw [State.ptpDelay_of_open hon hsrc hp hm hopen]
    rfl
  case announce =>
    intro s p m x hl hon hsrc hp
    obtain ⟨hcandidates, hmaster⟩ := Ptp.announced_spec m x s.ing.ptp
    refine ⟨commit (s.ptpAnnounceEff p s.b.netw.glob.ptpDomain m x), next_of_live hl _, ?_⟩
    rw [State.ptpAnnounceEff_of_domain hon hsrc hp, commit_ing]
    exact ⟨onlyIn_commit (onlyIn_syncTaken _ _ (by decide)), hcandidates, hmaster⟩
  case delayReq =>
    intro s hl hsrc hon hm
    refine (next_of_live hl _).trans ?_
    rw [State.delayReqEff_of_master hsrc hon hm]
    rfl

end Sys2Proof.Machine

/-! The ring's ports: training, identity, loss, delay exchange, bypass and link reports (spec/15, R320 to R328, R336). -/

namespace Sys2Proof.Machine

theorem Tab.wf_updAll {α : Type} [Inhabited α] [DecidableEq α] {t : Tab α} (w : t.wf = true) (ks : List Nat) (f : Nat → α → α) :
    (t.updAll ks f).wf = true := by
  induction ks generalizing t with
  | nil => exact w
  | cons k ks ih => exact ih (Tab.wf_set t w k (f k (t.get k)))

section

variable {s t : State} {p : Nat}

/-! ### A port read and written -/

theorem State.rport_congr (h : t.ring.ports = s.ring.ports) (p : Nat) : t.rport p = s.rport p := by
  rw [State.rport, h, State.rport]

@[simp] theorem commit_rport (s : State) (p : Nat) : (commit s).rport p = s.rport p := rfl

theorem State.onRport_wf (w : s.ring.ports.wf = true) (q : Nat) (f : RPort → RPort) : (s.onRport q f).ring.ports.wf = true :=
  Tab.wf_upd _ w q f

theorem State.rport_onRport (w : s.ring.ports.wf = true) (q p : Nat) (f : RPort → RPort) :
    (s.onRport q f).rport p = if p = q then f (s.rport q) else s.rport p := Tab.get_upd s.ring.ports w q p f

theorem State.rport_onRport_self (w : s.ring.ports.wf = true) (p : Nat) (f : RPort → RPort) :
    (s.onRport p f).rport p = f (s.rport p) := (State.rport_onRport w p p f).trans (if_pos rfl)

theorem State.evRport_ring (s : State) (q i : Nat) (act : Option Nat) :
    (s.evRport q i act).ring = (s.onRport q fun x => { x with events := bitSet x.events i }).ring := State.count_ring ..

theorem State.evRport_wf (w : s.ring.ports.wf = true) (q i : Nat) (act : Option Nat) : (s.evRport q i act).ring.ports.wf = true := by
  rw [State.evRport_ring]
  exact State.onRport_wf w q _

theorem State.rport_evRport_self (w : s.ring.ports.wf = true) (p i : Nat) (act : Option Nat) :
    (s.evRport p i act).rport p = { s.rport p with events := bitSet (s.rport p).events i } := by
  rw [State.rport_congr (congrArg Ring.ports (State.evRport_ring s p i act))]
  exact State.rport_onRport_self w p _

theorem State.rport_evRport_of_ne (w : s.ring.ports.wf = true) {p q : Nat} (h : p ≠ q) (i : Nat) (act : Option Nat) :
    (s.evRport q i act).rport p = s.rport p := by
  rw [State.rport_congr (congrArg Ring.ports (State.evRport_ring s q i act)), State.rport_onRport w, if_neg h]

/-! ### What sending leaves a port -/

/-- A port apart from what the frames it sends change. -/
def RPort.core (x : RPort) : RPort := { x with nextSeq := 0, replay := [], frames := 0, reported := false }

theorem RPort.fields_of_core {x y : RPort} (h : x.core = y.core) :
    x.state = y.state ∧ x.locked = y.locked ∧ x.narrow = y.narrow ∧ x.skip = y.skip ∧ x.farAcc = y.farAcc ∧ x.events = y.events := by
  have hfield {β : Type} (g : RPort → β) : g x.core = g y.core := congrArg g h
  exact ⟨hfield RPort.state, hfield RPort.locked, hfield RPort.narrow, hfield RPort.skip, hfield RPort.farAcc, hfield RPort.events⟩

/-- The ports of two states agree but for the frames sent. -/
def PortsKept (s t : State) : Prop :=
  s.ring.ports.wf = true → t.ring.ports.wf = true ∧ ∀ p, (t.rport p).core = (s.rport p).core

theorem portsKept_trans {s t u : State} (h : PortsKept s t) (k : PortsKept t u) : PortsKept s u := fun w =>
  ⟨(k (h w).1).1, fun p => ((k (h w).1).2 p).trans ((h w).2 p)⟩

theorem portsKept_of_ports (h : t.ring.ports = s.ring.ports) : PortsKept s t := fun w =>
  ⟨by rw [h]; exact w, fun p => by rw [State.rport_congr h]⟩

theorem portsKept_onRport (q : Nat) (f : RPort → RPort) (h : ∀ x, (f x).core = x.core) : PortsKept s (s.onRport q f) := fun w => by
  refine ⟨State.onRport_wf w q f, fun p => ?_⟩
  rw [State.rport_onRport w]
  split
  next hp => rw [h, hp]
  next => rfl

/-- The port a frame leaves by: it takes its SEQ, waits for its acknowledgement and is counted (R326). -/
def RPort.took (f : RFrame) (x : RPort) : RPort :=
  { x with nextSeq := (x.nextSeq + 1) % 4096, replay := x.replay ++ [f], frames := x.frames + 1 }

theorem State.frameOut_ring (s : State) (q : Nat) (f : RFrame) :
    (s.frameOut q f).ring = (s.onRport q (RPort.took { f with seq := (s.rport q).nextSeq })).ring := by
  unfold State.frameOut
  dsimp only
  split <;> rfl

theorem portsKept_frameOut (s : State) (q : Nat) (f : RFrame) : PortsKept s (s.frameOut q f) :=
  portsKept_trans (portsKept_onRport q (RPort.took { f with seq := (s.rport q).nextSeq }) fun _ => rfl)
    (portsKept_of_ports (congrArg Ring.ports (State.frameOut_ring s q f)))

theorem portsKept_frameClosed : FrameClosed PortsKept :=
  { trans := portsKept_trans, ofRing := fun h => portsKept_of_ports (congrArg Ring.ports h), frameOut := portsKept_frameOut }

theorem portsKept_linkMsg (s : State) (q typ : Nat) (b : List Byte) : PortsKept s (s.linkMsg q typ b) :=
  portsKept_frameOut _ _ _

theorem portsKept_sendDelay (s : State) (q : Nat) : PortsKept s (s.sendDelay q) := portsKept_linkMsg _ _ _ _

/-- Both ports are reported. -/
def State.allReported (s : State) : State :=
  s.onRing fun r => { r with ports := r.ports.updAll [0, 1] fun _ x => { x with reported := true } }

theorem State.rport_allReported (w : s.ring.ports.wf = true) (p : Nat) :
    s.allReported.rport p = if p ∈ [0, 1] then { s.rport p with reported := true } else s.rport p :=
  Tab.get_updAll (f := fun _ (x : RPort) => { x with reported := true }) (fun _ _ => rfl) p [0, 1] w

theorem portsKept_allReported : PortsKept s s.allReported := fun w => by
  refine ⟨?_, fun p => ?_⟩
  · exact Tab.wf_updAll w [0, 1] fun _ x => { x with reported := true }
  · rw [State.rport_allReported w]
    split <;> rfl

theorem State.sendLinkReport_of_member (h : s.isMember = true) :
    ∃ b, s.sendLinkReport = (s.broadcast 4 b).allReported := by
  simp only [State.sendLinkReport, h, Bool.not_true, Bool.false_eq_true, if_false]
  exact ⟨_, rfl⟩

theorem State.sendLinkReport_of_alone (h : s.isMember = false) : s.sendLinkReport = s := by
  simp [State.sendLinkReport, h]

theorem portsKept_sendLinkReport (s : State) : PortsKept s s.sendLinkReport := by
  cases h : s.isMember with
  | false =>
    rw [State.sendLinkReport_of_alone h]
    exact portsKept_frameClosed.refl s
  | true =>
    obtain ⟨b, hb⟩ := State.sendLinkReport_of_member h
    rw [hb]
    exact portsKept_trans (portsKept_frameClosed.broadcast s 4 b) portsKept_allReported

/-- What a link message leaves of its port. -/
theorem State.linkMsg_rport (w : s.ring.ports.wf = true) (p typ : Nat) (b : List Byte) :
    ((s.linkMsg p typ b).rport p).core = (s.rport p).core ∧ ((s.linkMsg p typ b).rport p).frames = (s.rport p).frames + 1 := by
  refine ⟨(portsKept_linkMsg s p typ b w).2 p, ?_⟩
  rw [State.linkMsg, State.rport_congr (congrArg Ring.ports (State.frameOut_ring ..)), State.rport_onRport_self w]
  rfl

theorem State.sendIdent_rport (w : s.ring.ports.wf = true) (p : Nat) :
    ((s.sendIdent p).rport p).core = (s.rport p).core ∧ ((s.sendIdent p).rport p).frames = (s.rport p).frames + 1 :=
  State.linkMsg_rport w p 0 _

/-- A port that carries no frames sends none. -/
theorem State.broadcast_rport_of_silent (w : s.ring.ports.wf = true) (h : (s.rport p).carries false = false) (typ : Nat) (b : List Byte) :
    (s.broadcast typ b).rport p = s.rport p := by
  have hstep : ∀ (u : State) (q : Nat) (f : RFrame), u.ring.ports.wf = true ∧ u.rport p = s.rport p →
      (if (u.rport q).carries false then u.frameOut q f else u).ring.ports.wf = true ∧
        (if (u.rport q).carries false then u.frameOut q f else u).rport p = s.rport p := by
    intro u q f hu
    obtain ⟨wu, hport⟩ := hu
    split
    next hcarries =>
      have hne : p ≠ q := by
        rintro rfl
        rw [hport, h] at hcarries
        cases hcarries
      refine ⟨(portsKept_frameOut u q f wu).1, ?_⟩
      rw [State.rport_congr (congrArg Ring.ports (State.frameOut_ring u q f)), State.rport_onRport wu, if_neg hne, hport]
    next => exact ⟨wu, hport⟩
  exact (hstep _ 1 _ (hstep s 0 _ ⟨w, rfl⟩)).2

/-- A link report leaves a port that carries no frames as it is, but reported. -/
theorem State.sendLinkReport_rport_of_silent (w : s.ring.ports.wf = true) (h : (s.rport p).carries false = false) :
    ∃ r, s.sendLinkReport.rport p = { s.rport p with reported := r } := by
  cases hm : s.isMember with
  | false => exact ⟨(s.rport p).reported, by rw [State.sendLinkReport_of_alone hm]⟩
  | true =>
    obtain ⟨b, hb⟩ := State.sendLinkReport_of_member hm
    rw [hb, State.rport_allReported (portsKept_frameClosed.broadcast s 4 b w).1, State.broadcast_rport_of_silent w h]
    split
    · exact ⟨true, rfl⟩
    · exact ⟨(s.rport p).reported, rfl⟩

/-- A member's link report leaves both ports reported. -/
theorem State.sendLinkReport_reported (w : s.ring.ports.wf = true) (hm : s.isMember = true) (hp : p < 2) :
    (s.sendLinkReport.rport p).reported = true := by
  have hmem : p ∈ [0, 1] := by
    simp only [List.mem_cons, List.not_mem_nil, or_false]
    omega
  obtain ⟨b, hb⟩ := State.sendLinkReport_of_member hm
  rw [hb, State.rport_allReported (portsKept_frameClosed.broadcast s 4 b w).1, if_pos hmem]

/-! ### A port goes DOWN (R322, R325) -/

/-- What going DOWN makes of a port. -/
def RPort.fallen (x : RPort) : RPort :=
  { x with state := .down, locked := false, skip := 0, replay := [], replayRun := 0, retraining := false, nextSeq := 0, rxSeq := 0 }

theorem State.ringDown_of_not_down (h : (s.rport p).state ≠ .down) :
    s.ringDown p = ((s.onRport p RPort.fallen).evRport p 0 none).sendLinkReport := by
  simp only [State.ringDown, beq_eq_false_iff_ne.2 h, Bool.false_eq_true, if_false]
  rfl

/-- A port that goes DOWN is as fallen, with event bit 0 set. -/
theorem State.ringDown_rport (w : s.ring.ports.wf = true) (h : (s.rport p).state ≠ .down) :
    ∃ r, (s.ringDown p).rport p =
      { (s.rport p).fallen with events := bitSet (s.rport p).events 0, reported := r } := by
  have wfell := State.onRport_wf w p RPort.fallen
  have hport : ((s.onRport p RPort.fallen).evRport p 0 none).rport p =
      { (s.rport p).fallen with events := bitSet (s.rport p).events 0 } := by
    rw [State.rport_evRport_self wfell, State.rport_onRport_self w]
    rfl
  obtain ⟨r, hr⟩ := State.sendLinkReport_rport_of_silent (State.evRport_wf wfell p 0 none)
    (p := p) (by rw [hport]; rfl)
  exact ⟨r, by rw [State.ringDown_of_not_down h, hr, hport]⟩

theorem State.ringDown_events (w : s.ring.ports.wf = true) (h : (s.rport p).state ≠ .down) :
    ((s.ringDown p).rport p).state = .down ∧ ((s.ringDown p).rport p).locked = false ∧ ((s.ringDown p).rport p).replay = [] ∧
      ((s.ringDown p).rport p).events.getLsbD 0 = true := by
  obtain ⟨r, hr⟩ := State.ringDown_rport w h
  rw [hr]
  exact ⟨rfl, rfl, rfl, getLsbD_bitSet_self _ (by decide)⟩

theorem State.ringDown_wf (w : s.ring.ports.wf = true) (p : Nat) : (s.ringDown p).ring.ports.wf = true := by
  unfold State.ringDown
  dsimp only
  split
  · exact w
  · exact (portsKept_sendLinkReport _ (State.evRport_wf (State.onRport_wf w _ _) _ _ _)).1

theorem State.ringDown_state (w : s.ring.ports.wf = true) (p : Nat) : ((s.ringDown p).rport p).state = .down := by
  by_cases h : (s.rport p).state = .down
  · simp only [State.ringDown, h, beq_self_eq_true, if_true]
  · exact (State.ringDown_events w h).1

/-- Another port keeps its state. -/
theorem State.ringDown_state_of_ne (w : s.ring.ports.wf = true) {p q : Nat} (h : p ≠ q) :
    ((s.ringDown q).rport p).state = (s.rport p).state := by
  unfold State.ringDown
  dsimp only
  split
  · rfl
  · have wfell := State.onRport_wf w q fun x => { x with
      state := .down, locked := false, skip := 0, replay := [], replayRun := 0, retraining := false, nextSeq := 0, rxSeq := 0 }
    refine (congrArg RPort.state ((portsKept_sendLinkReport _ (State.evRport_wf wfell q 0 none)).2 p)).trans ?_
    rw [State.rport_evRport_of_ne wfell h, State.rport_onRport w, if_neg h]
    rfl

/-! ### Training and identity (R322 to R325) -/

theorem State.signalDetect_of_down (hopen : s.ring.bypassOpen = true) (h : (s.rport p).state = .down) :
    s.signalDetect p = (s.onRport p fun x => { x with state := .train }).sendLinkReport := by
  simp [State.signalDetect, hopen, h]

/-- The lanes of a training port locked. -/
def State.lanesLocked (s : State) (p : Nat) (narrow : Bool) : State :=
  if narrow then (s.onRport p fun x => { x with locked := true, narrow := narrow }).evRport p 6 none
  else s.onRport p fun x => { x with locked := true, narrow := narrow }

theorem onlyIn_lanesLocked (p : Nat) (narrow : Bool) : OnlyIn [.ring, .sent, .cnt] s (s.lanesLocked p narrow) :=
  onlyIn_ite (fun _ => onlyIn_trans (onlyIn_onRport _ _ (by decide)) (onlyIn_evRport _ _ _ (by decide) (by decide)))
    (fun _ => onlyIn_onRport _ _ (by decide))

theorem State.lanesLocked_wf (w : s.ring.ports.wf = true) (p : Nat) (narrow : Bool) : (s.lanesLocked p narrow).ring.ports.wf = true := by
  unfold State.lanesLocked
  split
  · exact State.evRport_wf (State.onRport_wf w _ _) _ _ _
  · exact State.onRport_wf w _ _

theorem State.lanesLocked_rport (w : s.ring.ports.wf = true) (p : Nat) (narrow : Bool) :
    (s.lanesLocked p narrow).rport p = { s.rport p with
      locked := true, narrow := narrow
      events := if narrow then bitSet (s.rport p).events 6 else (s.rport p).events } := by
  unfold State.lanesLocked
  cases narrow with
  | true => rw [if_pos rfl, State.rport_evRport_self (State.onRport_wf w _ _), State.rport_onRport_self w, if_pos rfl]
  | false => rw [if_neg Bool.false_ne_true, State.rport_onRport_self w, if_neg Bool.false_ne_true]

theorem State.laneLockEff_of_train (h : (s.rport p).state = .train) (narrow : Bool) :
    s.laneLockEff p narrow = (s.lanesLocked p narrow).sendIdent p := by
  simp [State.laneLockEff, h, State.lanesLocked]

/-- What an IDENT tells of the far end. -/
def RPort.told (x : RPort) (member ring farPort : Nat) (acc : List Byte) : RPort :=
  { x with farMember := member % 8, farRing := ring % 2, farPort := farPort % 2, farAcc := acc }

/-- The port of a far end in place, and of one that is no member. -/
def RPort.joined (x : RPort) (member ring farPort k : Nat) (acc : List Byte) : RPort :=
  { x.told member ring farPort acc with state := .up, skip := k }

def RPort.miswired (x : RPort) (member ring farPort : Nat) (acc : List Byte) : RPort :=
  { x.told member ring farPort acc with state := .mgmt, skip := 0 }

/-- The record of the member that sent an IDENT: its COLD_COUNT is kept, and under a new one its tags and what it held are gone. -/
def State.memberSeen (s : State) (m : NetMember) (old cold : Nat) : State :=
  let t := (s.onRing fun r => { r with farCold := r.farCold.set m.index cold }).clearTags
    fun g => !(g.used && g.member == m.index && g.coldCount != cold)
  if old ≠ 0 && old ≠ cold then t.tierLost .peer m.index none else t

theorem portsKept_memberSeen (s : State) (m : NetMember) (old cold : Nat) : PortsKept s (s.memberSeen m old cold) := by
  unfold State.memberSeen
  dsimp only
  split
  · refine portsKept_trans ?_ (portsKept_frameClosed.tierLost _ _ _ _)
    exact portsKept_of_ports rfl
  · exact portsKept_of_ports rfl

theorem onlyIn_memberSeen (m : NetMember) (old cold : Nat) : OnlyIn tierParts s (s.memberSeen m old cold) := by
  have hclear : OnlyIn tierParts s ((s.onRing fun r => { r with farCold := r.farCold.set m.index cold }).clearTags
      fun g => !(g.used && g.member == m.index && g.coldCount != cold)) :=
    onlyIn_trans (onlyIn_onRing _ (by decide)) (onlyIn_clearTags _ (by decide))
  unfold State.memberSeen
  dsimp only
  split
  · exact onlyIn_trans hclear (onlyIn_tierLost ..)
  · exact hclear

section

variable {a : List Byte} {r f m c : Nat} (ht : (s.rport p).state = .train) (hlock : (s.rport p).locked = true)

include ht hlock

/-- An IDENT of the member in place: the port is UP, and what the far end is known by is noted. -/
theorem State.identEff_of_skip {k : Nat} (hk : s.skipFor p a r f = some k) :
    ∃ u, OnlyIn tierParts s u ∧ PortsKept (s.onRport p fun x => x.joined m r f k a) u ∧
      s.identEff p a r f m c = (u.sendDelay p).sendLinkReport := by
  have hready : ¬ (!((s.rport p).state == .train && (s.rport p).locked)) = true := by simp [ht, hlock]
  have hup : OnlyIn tierParts s (s.onRport p fun x => x.joined m r f k a) :=
    onlyIn_onRport _ _ (by decide)
  cases hmem : s.b.netw.members.find? fun x => x.accession == a with
  | none =>
    refine ⟨s.onRport p fun x => x.joined m r f k a, hup, portsKept_frameClosed.refl _, ?_⟩
    simp only [State.identEff, hready, hk, hmem]
    rfl
  | some n =>
    refine ⟨(s.onRport p fun x => x.joined m r f k a).memberSeen n (s.ring.farCold.get n.index) c,
      onlyIn_trans hup (onlyIn_memberSeen ..), portsKept_memberSeen _ _ _ _, ?_⟩
    simp only [State.identEff, hready, hk, hmem]
    rfl

/-- An IDENT of no member: the port stays in MGMT with WIRING_MISMATCH. -/
theorem State.identEff_of_stranger (hk : s.skipFor p a r f = none)
    (hmem : (s.b.netw.members.find? fun x => x.accession == a) = none) :
    s.identEff p a r f m c =
      (((s.onRport p fun x => x.miswired m r f a).evRport p 5 none).sendDelay p).sendLinkReport := by
  have hready : ¬ (!((s.rport p).state == .train && (s.rport p).locked)) = true := by simp [ht, hlock]
  simp only [State.identEff, hready, hk, hmem]
  rfl

end

theorem State.isMember_of_skipFor {a : List Byte} {r f k : Nat} (h : s.skipFor p a r f = some k) : s.isMember = true := by
  cases hm : s.isMember with
  | true => rfl
  | false => simp [State.skipFor, hm] at h

theorem State.isMember_congr (hb : t.bind = s.bind) (hk : t.keep = s.keep) : t.isMember = s.isMember := by
  have hbound : t.bound = s.bound := by
    unfold State.bound
    rw [hb]
  rw [State.isMember, hbound, State.member_congr hb hk, State.isMember]

/-! ### The delay exchange (R324) -/

theorem State.delayEff_of_response (h : (s.rport p).carries false = true) (t1 t2 t3 : Nat) :
    s.delayEff p true t1 t2 t3 = s.onRport p fun x => { x with delay := BitVec.ofNat 16 (8 * ((s.tb.time - t1) - (t3 - t2))) } := by
  simp [State.delayEff, h]

theorem State.delayEff_of_request (h : (s.rport p).carries false = true) (t1 t2 t3 : Nat) :
    s.delayEff p false t1 t2 t3 =
      s.linkMsg p 1 ([1] ++ List.replicate 7 0 ++ toLe 8 t1 ++ toLe 8 s.tb.time ++ toLe 8 s.tb.time) := by
  simp [State.delayEff, h]

/-! ### The bypass (R336) -/

/-- FORCE_BYPASS written, the switches closed. -/
def State.bypassShut (s : State) : State := s.onRing fun r => { r with forceBypass := true, bypassOpen := false }

theorem State.bypassUpdate_of_forced (s : State) :
    (s.onRing fun r => { r with forceBypass := true }).bypassUpdate = (s.bypassShut.ringDown 0).ringDown 1 := by
  simp [State.bypassUpdate, State.bypassShut, State.onRing]

theorem portsOnly_evRport (q i : Nat) (act : Option Nat) : PortsOnly s (s.evRport q i act) := ⟨_, State.evRport_ring s q i act⟩

theorem portsOnly_sendLinkReport (s : State) : PortsOnly s s.sendLinkReport := by
  cases h : s.isMember with
  | false =>
    rw [State.sendLinkReport_of_alone h]
    exact portsOnly_refl s
  | true =>
    obtain ⟨b, hb⟩ := State.sendLinkReport_of_member h
    have hall (u : State) : PortsOnly u u.allReported := ⟨_, rfl⟩
    rw [hb]
    exact portsOnly_trans (portsOnly_frameClosed.broadcast s 4 b) (hall _)

theorem portsOnly_ringDown (p : Nat) : PortsOnly s (s.ringDown p) := by
  by_cases h : (s.rport p).state = .down
  · simp only [State.ringDown, h, beq_self_eq_true, if_true]
    exact portsOnly_refl s
  · rw [State.ringDown_of_not_down h]
    exact portsOnly_trans (portsOnly_trans (portsOnly_onRport p _) (portsOnly_evRport p 0 none)) (portsOnly_sendLinkReport _)

theorem State.bypassUpdate_of_open (hl : s.live = true) (hb : s.bound = true) (hm : s.b.netw.members ≠ [])
    (h : s.ring.forceBypass = false) : s.bypassUpdate = s.onRing fun r => { r with bypassOpen := true } := by
  simp [State.bypassUpdate, hl, hb, hm, h]

end

/-- Settles O37, clause by clause. -/
theorem ringLinks : Obligations.RingLinks := by
  unfold Obligations.RingLinks
  refine ⟨?signal, ?laneLock, ?identUp, ?identMgmt, ?loss, ?trainingFails, ?delayTimer, ?delayAnswer, ?delayRequest, ?forced, ?released,
    ?report, ?reportSent, ?reportNotDue⟩
  case signal =>
    intro s p hl hopen hdown w
    have hcore := (portsKept_sendLinkReport (s.onRport p fun x => { x with state := .train }) (State.onRport_wf w _ _)).2 p
    rw [State.rport_onRport_self w] at hcore
    obtain ⟨hstate, hlocked, -⟩ := RPort.fields_of_core hcore
    refine ⟨commit (s.signalDetect p), next_of_live hl _, ?_⟩
    rw [State.signalDetect_of_down hopen hdown, commit_rport]
    exact ⟨onlyIn_commit (onlyIn_trans (onlyIn_onRport _ _ (by decide)) onlyIn_sendLinkReport), hstate, hlocked⟩
  case laneLock =>
    intro s p n hl htrain w
    have hport := State.lanesLocked_rport w p n
    obtain ⟨hcore, hframes⟩ := State.sendIdent_rport (State.lanesLocked_wf w p n) p
    rw [hport] at hcore hframes
    obtain ⟨hstate, hlocked, hnarrow, -, -, hevents⟩ := RPort.fields_of_core hcore
    refine ⟨commit (s.laneLockEff p n), next_of_live hl _, ?_⟩
    rw [State.laneLockEff_of_train htrain, commit_rport, hstate, hlocked, hnarrow, hevents]
    refine ⟨onlyIn_commit (onlyIn_trans (onlyIn_lanesLocked p n) (onlyIn_mono (onlyIn_frameOut _ _) (by decide))), rfl, rfl, htrain, ?_,
      hframes⟩
    rintro rfl
    exact getLsbD_bitSet_self _ (by decide)
  case identUp =>
    intro s p a r f m g c k hl htrain hlocked hk w
    obtain ⟨u, hframe, hkept, heff⟩ := State.identEff_of_skip (m := m) (c := c) htrain hlocked hk
    obtain ⟨wu, hu⟩ := hkept (State.onRport_wf w _ _)
    obtain ⟨wv, hv⟩ := portsKept_sendDelay u p wu
    have hparts : OnlyIn tierParts s (u.sendDelay p) := onlyIn_trans hframe (onlyIn_mono (onlyIn_frameOut _ _) (by decide))
    have hcore := ((portsKept_sendLinkReport (u.sendDelay p) wv).2 p).trans ((hv p).trans (hu p))
    rw [State.rport_onRport_self w] at hcore
    obtain ⟨hstate, -, -, hskip, hacc, -⟩ := RPort.fields_of_core hcore
    have hmember : (u.sendDelay p).isMember = true := by
      rw [State.isMember_congr (hparts.rest .bind (by decide)) (hparts.rest .keep (by decide)), State.isMember_of_skipFor hk]
    have hall : OnlyIn tierParts s (u.sendDelay p).sendLinkReport :=
      onlyIn_trans hparts (onlyIn_mono onlyIn_sendLinkReport (by decide))
    refine ⟨commit (s.identEff p a r f m c), next_of_live hl _, ?_⟩
    rw [heff, commit_rport, commit_tick, commit_bind]
    exact ⟨hstate, hskip, hacc, State.sendLinkReport_reported wv hmember p.isLt, hall.rest .tick (by decide), hall.rest .bind (by decide)⟩
  case identMgmt =>
    intro s p a r f m g c hl htrain hlocked hk hmem w
    have wmgmt := State.onRport_wf w p fun x => x.miswired m r f a
    obtain ⟨wv, hv⟩ := portsKept_sendDelay ((s.onRport p fun x => x.miswired m r f a).evRport p 5 none) p
      (State.evRport_wf wmgmt p 5 none)
    have hcore := ((portsKept_sendLinkReport _ wv).2 p).trans (hv p)
    rw [State.rport_evRport_self wmgmt, State.rport_onRport_self w] at hcore
    obtain ⟨hstate, -, -, hskip, -, hevents⟩ := RPort.fields_of_core hcore
    refine ⟨commit (s.identEff p a r f m c), next_of_live hl _, ?_⟩
    rw [State.identEff_of_stranger htrain hlocked hk hmem, commit_rport]
    refine ⟨onlyIn_commit (onlyIn_trans (onlyIn_trans (onlyIn_trans (onlyIn_onRport _ _ (by decide))
      (onlyIn_evRport _ _ _ (by decide) (by decide))) (onlyIn_mono (onlyIn_frameOut _ _) (by decide)))
      (onlyIn_mono onlyIn_sendLinkReport (by decide))), hstate, hskip, ?_⟩
    rw [hevents]
    exact getLsbD_bitSet_self _ (by decide)
  case loss =>
    intro s p hl hup w
    obtain ⟨hstate, -, hreplay, hevent⟩ := State.ringDown_events (p := p) w (by rw [hup]; decide)
    refine ⟨commit (s.ringDown p), next_of_live hl _, onlyIn_commit (onlyIn_ringDown p), ?_⟩
    rw [commit_rport]
    exact ⟨hstate, hreplay, hevent⟩
  case trainingFails =>
    intro s p hl htrain w
    obtain ⟨hstate, hlocked, hreplay, hevent⟩ := State.ringDown_events (p := p) w (by rw [htrain]; decide)
    have heff : s.trainFail p = s.ringDown p := if_pos (by rw [htrain]; decide)
    refine ⟨commit (s.trainFail p), next_of_live hl _, ?_⟩
    rw [heff, commit_rport]
    exact ⟨onlyIn_commit (onlyIn_ringDown p), hstate, hlocked, hreplay, hevent⟩
  case delayTimer =>
    intro s p hl hcarries w
    refine ⟨commit (if (s.rport p).carries false then s.sendDelay p else s), next_of_live hl _, ?_⟩
    rw [if_pos hcarries, commit_rport]
    exact ⟨onlyIn_commit (onlyIn_frameOut _ _), (State.linkMsg_rport w _ _ _).2⟩
  case delayAnswer =>
    intro s p t1 t2 t3 hl hcarries
    refine (next_of_live hl _).trans ?_
    rw [State.delayEff_of_response hcarries]
    rfl
  case delayRequest =>
    intro s p t1 t2 t3 hl hcarries w
    refine ⟨commit (s.delayEff p false t1 t2 t3), next_of_live hl _, ?_⟩
    rw [State.delayEff_of_request hcarries, commit_rport]
    exact ⟨onlyIn_commit (onlyIn_frameOut _ _), (State.linkMsg_rport w _ _ _).2⟩
  case forced =>
    intro s hl w
    have hring := (portsOnly_trans (portsOnly_ringDown (s := s.bypassShut) 0) (portsOnly_ringDown 1))
    have w0 := State.ringDown_wf (s := s.bypassShut) w 0
    refine ⟨commit (s.onRing fun r => { r with forceBypass := true }).bypassUpdate, next_of_live hl _, ?_⟩
    rw [State.bypassUpdate_of_forced, commit_ring, commit_rport, commit_rport]
    refine ⟨onlyIn_commit (onlyIn_trans (onlyIn_trans (onlyIn_onRing _ (by decide)) (onlyIn_ringDown 0)) (onlyIn_ringDown 1)), ?_, ?_, ?_,
      State.ringDown_state w0 1⟩
    · obtain ⟨x, hx⟩ := hring
      rw [hx]
      rfl
    · obtain ⟨x, hx⟩ := hring
      rw [hx]
      rfl
    · rw [State.ringDown_state_of_ne w0 (by decide)]
      exact State.ringDown_state (s := s.bypassShut) w 0
  case released =>
    intro s hl hb hm
    refine (next_of_live hl _).trans ?_
    rw [State.bypassUpdate_of_open (s := s.onRing fun r => { r with forceBypass := false }) hl hb hm rfl]
    rfl
  case report =>
    intro s m e w es ws hl hm hne
    refine (next_of_live hl _).trans ?_
    rw [if_pos (by rw [hm]; simpa using hne)]
    rfl
  case reportSent =>
    intro s hl hm hrun hnum w
    refine ⟨commit (if s.tick.running && s.tick.num % 256 == 0 then s.sendLinkReport else s), next_of_live hl _, ?_⟩
    rw [if_pos (by rw [hrun, hnum]; rfl), commit_rport, commit_rport]
    exact ⟨onlyIn_commit onlyIn_sendLinkReport, State.sendLinkReport_reported w hm (by decide), State.sendLinkReport_reported w hm (by decide)⟩
  case reportNotDue =>
    intro s hl hnum
    refine (next_of_live hl _).trans ?_
    rw [if_neg (by simp [hnum])]

end Sys2Proof.Machine

/-! Ring frames, acknowledgements, replay and retraining (spec/15, R326, R327, R329). -/

namespace Sys2Proof.Machine

section

variable {s t : State} {ps : List Part} {p : Nat}

theorem State.onRport_congr {f g : RPort → RPort} (h : f (s.rport p) = g (s.rport p)) : s.onRport p f = s.onRport p g := by
  have hupd : s.ring.ports.upd p f = s.ring.ports.upd p g := congrArg (s.ring.ports.set p) h
  simp only [State.onRport, State.onRing, hupd]

theorem onlyIn_control (p seq : Nat) (nak : Bool) (h : Part.sent ∈ ps) : OnlyIn ps s (s.control p seq nak) := onlyIn_out _ h

theorem onlyIn_forward (p : Nat) (f : RFrame) : OnlyIn [.ring, .sent] s (s.forward p f) :=
  onlyIn_ite (fun _ => onlyIn_frameOut _ _) (fun _ => onlyIn_refl _ _)

theorem onlyIn_resend (p : Nat) (h : Part.sent ∈ ps) : OnlyIn ps s (s.resend p) :=
  onlyIn_foldl _ (fun _ _ => onlyIn_out _ h) _ _

@[simp] theorem State.resend_rport (s : State) (p q : Nat) : (s.resend p).rport q = s.rport q :=
  State.rport_congr (congrArg Ring.ports ((onlyIn_resend (ps := [.sent]) p (by decide)).rest .ring (by decide))) q

/-! ### A frame taken -/

/-- What taking a frame does to a port that it does not leave by: only its events change. -/
def PortEventsOnly (p : Nat) (s t : State) : Prop :=
  s.ring.ports.wf = true → t.ring.ports.wf = true ∧ ∃ e, t.rport p = { s.rport p with events := e }

theorem portEventsOnly_refl (p : Nat) (s : State) : PortEventsOnly p s s := fun w => ⟨w, _, rfl⟩

theorem portEventsOnly_trans {u : State} (h : PortEventsOnly p s t) (k : PortEventsOnly p t u) : PortEventsOnly p s u := fun w => by
  obtain ⟨wt, e, he⟩ := h w
  obtain ⟨wu, e', he'⟩ := k wt
  exact ⟨wu, e', by rw [he', he]⟩

theorem portEventsOnly_evRport (i : Nat) (act : Option Nat) : PortEventsOnly p s (s.evRport p i act) := fun w =>
  ⟨State.evRport_wf w p i act, _, State.rport_evRport_self w p i act⟩

theorem portEventsOnly_forward (hp : p < 2) (f : RFrame) : PortEventsOnly p s (s.forward p f) := fun w => by
  unfold State.forward
  split
  · refine ⟨(portsKept_frameOut s (1 - p) _ w).1, (s.rport p).events, ?_⟩
    rw [State.rport_congr (congrArg Ring.ports (State.frameOut_ring ..)), State.rport_onRport w, if_neg (by omega)]
  · exact portEventsOnly_refl p s w

/-- What a frame is counted as when it is for this member. -/
def State.frameCounted (s : State) (p : Nat) (f : RFrame) : State :=
  if f.lane = 0 then (if 7 < f.typ then s.evRport p 7 none else s)
  else if (s.b.routeOf f.lane).isNone then s.evRport p 7 none else s

theorem portEventsOnly_frameCounted (f : RFrame) : PortEventsOnly p s (s.frameCounted p f) := by
  unfold State.frameCounted
  split
  · split
    · exact portEventsOnly_evRport 7 none
    · exact portEventsOnly_refl p s
  · split
    · exact portEventsOnly_evRport 7 none
    · exact portEventsOnly_refl p s

theorem onlyIn_frameCounted (p : Nat) (f : RFrame) (h : Part.ring ∈ ps) (k : Part.cnt ∈ ps) : OnlyIn ps s (s.frameCounted p f) :=
  onlyIn_ite (fun _ => onlyIn_ite (fun _ => onlyIn_evRport _ _ _ h k) fun _ => onlyIn_refl _ _)
    (fun _ => onlyIn_ite (fun _ => onlyIn_evRport _ _ _ h k) fun _ => onlyIn_refl _ _)

/-- A frame that is taken is counted, or forwarded, or both. -/
theorem State.frameTake_spec (hp : p < 2) (f : RFrame) :
    OnlyIn [.ring, .sent, .cnt] s (s.frameTake p f) ∧ PortEventsOnly p s (s.frameTake p f) := by
  have hcount : ∀ c : Bool, OnlyIn [.ring, .sent, .cnt] s (if c then s.frameCounted p f else s) ∧
      PortEventsOnly p s (if c then s.frameCounted p f else s) := by
    intro c
    cases c with
    | true => exact ⟨onlyIn_frameCounted p f (by decide) (by decide), portEventsOnly_frameCounted f⟩
    | false => exact ⟨onlyIn_refl _ _, portEventsOnly_refl p s⟩
  have hout : ∀ u : State, OnlyIn [.ring, .sent, .cnt] u (if f.hops = 0 then u.evRport p 7 none else u.forward p f) ∧
      PortEventsOnly p u (if f.hops = 0 then u.evRport p 7 none else u.forward p f) := by
    intro u
    split
    · exact ⟨onlyIn_evRport _ _ _ (by decide) (by decide), portEventsOnly_evRport 7 none⟩
    · exact ⟨onlyIn_mono (onlyIn_forward p f) (by decide), portEventsOnly_forward hp f⟩
  obtain ⟨hframe, hport⟩ := hcount (f.dest == s.memberIdx || f.dest == 7 || f.typ ≤ 1 && f.lane == 0 && f.hops == 0)
  unfold State.frameTake
  extract_lets mine s1
  split
  · exact ⟨hframe, hport⟩
  · exact ⟨onlyIn_trans hframe (hout s1).1, portEventsOnly_trans hport (hout s1).2⟩

section

variable {h : Nat} {b : List Byte} {c : Word} (hcarries : (s.rport p).carries false = true)

include hcarries

theorem State.ringFrameEff_of_bad_header (hok : headerOk h = false) :
    s.ringFrameEff p h b c = (s.evRport p 3 none).control p (s.rport p).rxSeq true := by
  simp [State.ringFrameEff, hcarries, hok]

theorem State.ringFrameEff_of_next (hok : headerOk h = true) (hseq : (frameOf h b).seq = (s.rport p).rxSeq)
    (hlen : b.length = 64 * (h / 2 ^ 18 % 16)) :
    s.ringFrameEff p h b (crc32c b) =
      ((s.onRport p fun x => { x with rxSeq := (x.rxSeq + 1) % 4096 }).frameTake p (frameOf h b)).control p (s.rport p).rxSeq false := by
  simp only [State.ringFrameEff, hcarries, hok, hseq, hlen, Bool.not_true, Bool.false_eq_true, if_false, ne_eq, not_true_eq_false,
    beq_self_eq_true, Bool.or_true, Bool.and_self, if_true]

/-- A frame taken before is acknowledged again. -/
theorem State.ringFrameEff_of_past (hok : headerOk h = true) (hseq : (frameOf h b).seq ≠ (s.rport p).rxSeq)
    (hpast : ((s.rport p).rxSeq + 4096 - (frameOf h b).seq) % 4096 ≤ 2048) :
    s.ringFrameEff p h b c = s.control p (frameOf h b).seq false := by
  simp only [State.ringFrameEff, hcarries, hok, hseq, hpast, Nat.not_lt.2 hpast, Bool.not_true, Bool.false_eq_true, if_false, ne_eq,
    not_false_eq_true, if_true, decide_false]

end

/-! ### Acknowledgement and replay (R329) -/

theorem fromFirst_append {α : Type} {q : α → Bool} {f : α} {x : List α} (hx : ∀ g ∈ x, q g = false) (hf : q f = true) (y : List α) :
    fromFirst q (x ++ f :: y) = f :: y := by
  induction x with
  | nil => simp [fromFirst, hf]
  | cons g x ih =>
    rw [List.cons_append, fromFirst, hx g List.mem_cons_self]
    exact ih fun e he => hx e (List.mem_cons_of_mem g he)

section

variable {n : Nat} {f : RFrame} {x y : List RFrame} (hreplay : (s.rport p).replay = x ++ f :: y) (hf : f.seq = n)

include hreplay hf

theorem State.replay_any : ((s.rport p).replay.any fun g => g.seq == n) = true := by
  rw [hreplay]
  exact List.any_eq_true.2 ⟨f, List.mem_append_right x List.mem_cons_self, by rw [hf]; exact beq_self_eq_true n⟩

theorem State.replay_fromFirst (hx : ∀ g ∈ x, g.seq ≠ n) : fromFirst (fun g => g.seq == n) (s.rport p).replay = f :: y := by
  rw [hreplay]
  exact fromFirst_append (fun g hg => beq_eq_false_iff_ne.2 (hx g hg)) (by rw [hf]; exact beq_self_eq_true n) y

theorem State.ringAckEff_of_waiting (hx : ∀ g ∈ x, g.seq ≠ n) :
    s.ringAckEff p n = s.onRport p fun z => { z with replay := y, replayRun := 0 } := by
  rw [State.ringAckEff, if_pos (State.replay_any hreplay hf)]
  refine State.onRport_congr ?_
  rw [State.replay_fromFirst hreplay hf hx]
  rfl

end

/-- The port from which frames leave again. -/
def RPort.replaying (seq run : Nat) (x : RPort) : RPort :=
  { x with replay := fromFirst (fun f => f.seq == seq) x.replay, replays := x.replays + 1, replaySeq := seq, replayRun := run }

theorem State.replayFrom_of_first {n : Nat} (hany : ((s.rport p).replay.any fun g => g.seq == n) = true)
    (hidle : (s.rport p).retraining = false) (hrun : (s.rport p).replayRun = 0) :
    s.replayFrom p n = ((s.onRport p (RPort.replaying n 1)).evRport p 2 none).resend p := by
  simp only [State.replayFrom, hany, hidle, hrun, Bool.not_true, Bool.or_self, Bool.false_eq_true, if_false, ne_eq, not_true_eq_false,
    decide_false, Bool.and_false, Nat.reduceLT, if_true]
  rfl

theorem State.replayFrom_of_fourth {n : Nat} (hany : ((s.rport p).replay.any fun g => g.seq == n) = true)
    (hidle : (s.rport p).retraining = false) (hseq : (s.rport p).replaySeq = n) (hrun : (s.rport p).replayRun = 3) :
    s.replayFrom p n = (((s.onRport p (RPort.replaying n 4)).evRport p 2 none).onRport p fun x =>
      { x with retraining := true, retrains := x.retrains + 1, replayRun := 0 }).evRport p 1 none := by
  simp [State.replayFrom, hany, hidle, hrun, hseq]
  rfl

theorem State.replaying_rport (w : s.ring.ports.wf = true) (n run : Nat) :
    ((s.onRport p (RPort.replaying n run)).evRport p 2 none).rport p =
      { (s.rport p).replaying n run with events := bitSet (s.rport p).events 2 } := by
  rw [State.rport_evRport_self (State.onRport_wf w _ _), State.rport_onRport_self w]
  rfl

theorem onlyIn_replaying (n run : Nat) (h : Part.ring ∈ ps) (k : Part.cnt ∈ ps) :
    OnlyIn ps s ((s.onRport p (RPort.replaying n run)).evRport p 2 none) :=
  onlyIn_trans (onlyIn_onRport _ _ h) (onlyIn_evRport _ _ _ h k)

theorem State.replayTime_of_cons {f : RFrame} {y : List RFrame} (h : (s.rport p).replay = f :: y) :
    s.replayTime p = s.replayFrom p f.seq := by
  simp only [State.replayTime, h]

theorem State.retrainEff_of_restored (h : (s.rport p).retraining = true) :
    s.retrainEff p true = (s.onRport p fun x => { x with retraining := false }).resend p := by
  simp [State.retrainEff, h]

theorem State.retrainEff_of_lost (h : (s.rport p).retraining = true) : s.retrainEff p false = s.ringDown p := by
  simp [State.retrainEff, h]

end

/-- Settles O38, clause by clause. -/
theorem ringFrames : Obligations.RingFrames := by
  unfold Obligations.RingFrames
  refine ⟨?badHeader, ?inOrder, ?past, ?ack, ?nak, ?timeout, ?restored, ?lost⟩
  case badHeader =>
    intro s p h b c hl hcarries hok w
    refine ⟨commit (s.ringFrameEff p h.toNat b c), next_of_live hl _, ?_⟩
    rw [State.ringFrameEff_of_bad_header hcarries hok, commit_rport]
    have hport : (((s.evRport p 3 none).control p (s.rport p).rxSeq true).rport p) =
        { s.rport p with events := bitSet (s.rport p).events 3 } := State.rport_evRport_self w p 3 none
    rw [hport]
    exact ⟨onlyIn_commit (onlyIn_trans (onlyIn_evRport _ _ _ (by decide) (by decide)) (onlyIn_control _ _ _ (by decide))), rfl,
      getLsbD_bitSet_self _ (by decide), mem_commit_sent List.mem_cons_self⟩
  case inOrder =>
    intro s p h b hl hcarries hok hseq hlen w
    obtain ⟨hframe, hport⟩ := State.frameTake_spec (s := s.onRport p fun x => { x with rxSeq := (x.rxSeq + 1) % 4096 }) p.isLt
      (frameOf h.toNat b)
    obtain ⟨-, e, he⟩ := hport (State.onRport_wf w _ _)
    rw [State.rport_onRport_self w] at he
    refine ⟨commit (s.ringFrameEff p h.toNat b (crc32c b)), next_of_live hl _, ?_⟩
    rw [State.ringFrameEff_of_next hcarries hok hseq hlen, commit_rport]
    have hcontrol : ((((s.onRport p fun x => { x with rxSeq := (x.rxSeq + 1) % 4096 }).frameTake p (frameOf h.toNat b)).control p
        (s.rport p).rxSeq false).rport p) = _ := he
    rw [hcontrol]
    exact ⟨onlyIn_commit (onlyIn_trans (onlyIn_trans (onlyIn_onRport _ _ (by decide)) hframe) (onlyIn_control _ _ _ (by decide))), rfl, rfl,
      mem_commit_sent List.mem_cons_self⟩
  case past =>
    intro s p h b c hl hcarries hok hseq hpast
    refine (next_of_live hl _).trans ?_
    rw [State.ringFrameEff_of_past hcarries hok hseq hpast]
    rfl
  case ack =>
    intro s p n f x y hl hreplay hf hx
    refine (next_of_live hl _).trans ?_
    rw [State.ringAckEff_of_waiting hreplay hf hx]
    rfl
  case nak =>
    intro s p n f x y hl hreplay hf hx hidle hrun w
    refine ⟨commit (s.replayFrom p n), next_of_live hl _, ?_⟩
    rw [State.replayFrom_of_first (State.replay_any hreplay hf) hidle hrun, commit_rport, State.resend_rport, State.replaying_rport w]
    exact ⟨onlyIn_commit (onlyIn_trans (onlyIn_replaying _ _ (by decide) (by decide)) (onlyIn_resend _ (by decide))),
      State.replay_fromFirst hreplay hf hx, rfl, rfl, rfl, getLsbD_bitSet_self _ (by decide), hidle⟩
  case timeout =>
    intro s p f y hl hreplay hidle hseq hrun w
    have hfirst := State.replay_fromFirst (x := []) hreplay rfl (by simp)
    have wreplaying := State.evRport_wf (State.onRport_wf w p (RPort.replaying f.seq 4)) p 2 none
    refine ⟨commit (s.replayTime p), next_of_live hl _, ?_⟩
    rw [State.replayTime_of_cons hreplay, State.replayFrom_of_fourth (State.replay_any (x := []) hreplay rfl) hidle hseq hrun, commit_rport,
      State.rport_evRport_self (State.onRport_wf wreplaying _ _), State.rport_onRport_self wreplaying, State.replaying_rport w]
    exact ⟨onlyIn_commit (onlyIn_trans (onlyIn_trans (onlyIn_replaying _ _ (by decide) (by decide)) (onlyIn_onRport _ _ (by decide)))
      (onlyIn_evRport _ _ _ (by decide) (by decide))), hfirst, rfl, rfl, rfl, getLsbD_bitSet_self _ (by decide)⟩
  case restored =>
    intro s p hl hretrain w
    refine ⟨commit (s.retrainEff p true), next_of_live hl _, ?_⟩
    rw [State.retrainEff_of_restored hretrain, commit_rport, State.resend_rport, State.rport_onRport_self w]
    exact ⟨onlyIn_commit (onlyIn_trans (onlyIn_onRport _ _ (by decide)) (onlyIn_resend _ (by decide))), rfl⟩
  case lost =>
    intro s p hl hretrain hup w
    obtain ⟨hstate, -, hreplay, -⟩ := State.ringDown_events (p := p) w (by rw [hup]; decide)
    refine ⟨commit (s.retrainEff p false), next_of_live hl _, ?_⟩
    rw [State.retrainEff_of_lost hretrain, commit_rport]
    exact ⟨onlyIn_commit (onlyIn_ringDown p), hstate, hreplay⟩

end Sys2Proof.Machine

/-! The peer spill service: the lender's slots and the borrower's answers (spec/15, R330 to R335; spec/11, R261, R262). -/

namespace Sys2Proof.Machine

section

variable {s t : State} {ps : List Part} {l m slot k : Nat}

/-! ### Replies -/

theorem FrameClosed.reply {R : State → State → Prop} (h : FrameClosed R) (s : State) (lane dest typ : Nat) (b : List Byte) :
    R s (s.reply lane dest typ b) := by
  unfold State.reply
  split
  · exact h.frameOut ..
  · exact h.refl _

theorem onlyIn_reply (lane dest typ : Nat) (b : List Byte) : OnlyIn [.ring, .sent] s (s.reply lane dest typ b) := by
  unfold State.reply
  split
  · exact onlyIn_frameOut ..
  · exact onlyIn_refl _ _

theorem onlyIn_onLaneRx (lane : Nat) (x : LaneRx) (h : Part.ring ∈ ps) : OnlyIn ps s (s.onLaneRx lane x) := onlyIn_onRing _ h

/-- A reply changes the ring controller in its ports alone. -/
theorem State.reply_ring (s : State) (lane dest typ : Nat) (b : List Byte) :
    ∃ p, (s.reply lane dest typ b).ring = { s.ring with ports := p } := portsOnly_frameClosed.reply s lane dest typ b

theorem State.onLane_of_route (f : State → State) (hm : s.isMember = true) (hr : (s.b.routeOf l).isSome = true) :
    s.onLane l m f = f s := by
  have hroute : (s.b.routeOf l).isNone = false := Option.isNone_eq_false_iff.2 hr
  simp [State.onLane, hm, hroute]

theorem State.onLane_of_none (f : State → State) (hm : s.isMember = true) (hr : s.b.routeOf l = none) :
    s.onLane l m f = s.evRport ((s.routePort 2 m true).getD 0) 7 none := by
  simp [State.onLane, hm, hr]

/-! ### SPILL_WRITE (R334, R335) -/

theorem State.spillWriteEff_of_free (hm : s.isMember = true) (hr : (s.b.routeOf l).isSome = true) (hslot : slot < s.serveSpace)
    (hfree : (s.ring.serve.get slot).used = false) (hfill : s.ring.serveFill + 8704 ≤ 524288) :
    s.spillWriteEff l m slot k = (s.onRing fun r => { r with
      serveFill := r.serveFill + 8704
      serve := r.serve.upd slot fun t => { t with
        used := true, member := m, tenant := k, coldCount := r.farCold.get m, gen := t.gen + 1 } }).onLaneRx l
        { active := true, member := m, slot := slot, tenant := k } := by
  simp only [State.spillWriteEff, State.onLane_of_route _ hm hr, Nat.not_le.2 hslot, hfree, Nat.not_lt.2 hfill, Bool.false_and,
    Bool.false_eq_true, if_false]

/-- A write refused with a status: the lane's frames are discarded. -/
def State.spillRefused (s : State) (l m slot st : Nat) : State :=
  (s.reply l m 11 (toLe 4 slot ++ toLe 1 st)).onLaneRx l { active := true, discard := true, member := m, slot := slot }

theorem State.spillWriteEff_of_refused (hm : s.isMember = true) (hr : (s.b.routeOf l).isSome = true)
    (h : s.serveSpace ≤ slot ∨ ((s.ring.serve.get slot).used = true ∧ (s.ring.serve.get slot).tenant ≠ k)) :
    ∃ st, s.spillWriteEff l m slot k = s.spillRefused l m slot st := by
  rw [State.spillWriteEff, State.onLane_of_route _ hm hr]
  by_cases hslot : s.serveSpace ≤ slot
  · exact ⟨2, if_pos hslot⟩
  · obtain ⟨hused, htenant⟩ := h.resolve_left hslot
    refine ⟨1, (if_neg hslot).trans (if_pos ?_)⟩
    simp [hused, htenant]

theorem State.spillRefused_ring (w : s.ring.laneRx.wf = true) (l m slot st : Nat) :
    (s.spillRefused l m slot st).ring.serve = s.ring.serve ∧ (s.spillRefused l m slot st).ring.serveFill = s.ring.serveFill ∧
      ((s.spillRefused l m slot st).ring.laneRx.get l).discard = true := by
  obtain ⟨p, hp⟩ := State.reply_ring s l m 11 (toLe 4 slot ++ toLe 1 st)
  have hring : (s.spillRefused l m slot st).ring = { s.ring with
      ports := p, laneRx := s.ring.laneRx.set l { active := true, discard := true, member := m, slot := slot } } := by
    rw [State.spillRefused, State.onLaneRx, State.onRing_ring, hp]
  rw [hring]
  have hlane := (Tab.get_set s.ring.laneRx w l l { active := true, discard := true, member := m, slot := slot }).trans (if_pos rfl)
  exact ⟨rfl, rfl, congrArg LaneRx.discard hlane⟩

/-! ### DATA (R330, R335) -/

section

variable {b : List Byte} (hactive : (s.ring.laneRx.get l).active = true) (hkeep : (s.ring.laneRx.get l).discard = false)
  (hwrite : (s.ring.laneRx.get l).isRead = false)

include hactive hkeep hwrite

theorem State.dataEff_of_open (hframes : (s.ring.laneRx.get l).frames < 16) :
    s.dataEff l m b = s.onLaneRx l { s.ring.laneRx.get l with
      frames := (s.ring.laneRx.get l).frames + 1, data := (s.ring.laneRx.get l).data ++ sliceZ b 0 512 } := by
  have hlt : (s.ring.laneRx.get l).frames + 1 < 17 := Nat.succ_lt_succ hframes
  simp only [State.dataEff, hactive, hkeep, hwrite, hlt, Bool.not_true, Bool.or_self, Bool.false_eq_true, if_false, if_true]

/-- The slot a lane's last frame completes. -/
def State.slotStored (s : State) (l : Nat) (b : List Byte) : State :=
  (s.onLaneRx l {}).onRing fun r => { r with
    serveFill := r.serveFill - 8704
    serve := r.serve.upd (s.ring.laneRx.get l).slot fun t =>
      if t.used then { t with content := (s.ring.laneRx.get l).data ++ sliceZ b 0 512 } else t }

theorem State.dataEff_of_last (hframes : (s.ring.laneRx.get l).frames = 16) :
    s.dataEff l m b = (s.slotStored l b).reply l (s.ring.laneRx.get l).member 11
      (toLe 4 (s.ring.laneRx.get l).slot ++ toLe 1 0) := by
  simp only [State.dataEff, hactive, hkeep, hwrite, hframes, Bool.not_true, Bool.or_self, Bool.false_eq_true, if_false, Nat.lt_irrefl]
  rfl

end

/-! ### SPILL_READ, SPILL_FREE (R335) -/

theorem State.spillReadEff_spec (hm : s.isMember = true) (hr : (s.b.routeOf l).isSome = true) {line : Nat} (hline : line ≤ 1)
    (R : State → State → Prop) (hrefl : ∀ u, R u u) (htrans : ∀ {u v w}, R u v → R v w → R u w)
    (hreply : ∀ u typ b, R u (u.reply l m typ b)) : R s (s.spillReadEff l m slot k line) := by
  have hok : (decide (line = 2) || decide (line = 3)) = false := by
    simp only [Bool.or_eq_false_iff, decide_eq_false_iff_not]
    omega
  have hfold : ∀ (c : List Byte) (ns : List Nat) (u : State),
      R u (ns.foldl (fun (s : State) n => s.reply l m 13 (sliceZ c (512 * n) 512)) u) := by
    intro c ns
    induction ns with
    | nil => exact hrefl
    | cons n ns ih => exact fun u => htrans (hreply u 13 _) (ih _)
  rw [State.spillReadEff, State.onLane_of_route _ hm hr]
  dsimp only
  split
  · exact hreply ..
  · split
    · exact hreply ..
    · rw [hok, if_neg Bool.false_ne_true]
      exact htrans (hreply s 10 _) (hfold _ _ _)

theorem State.spillFreeEff_of_other (hm : s.isMember = true) (hr : (s.b.routeOf l).isSome = true)
    (h : (s.ring.serve.get slot).member ≠ m ∨ (s.ring.serve.get slot).tenant ≠ k) : s.spillFreeEff l m slot k = s := by
  rw [State.spillFreeEff, State.onLane_of_route _ hm hr]
  refine if_neg fun hall => ?_
  simp only [Bool.and_eq_true, beq_iff_eq] at hall
  obtain ⟨⟨-, hmember⟩, htenant⟩ := hall
  exact h.elim (fun h => h hmember) (fun h => h htenant)

/-! ### The borrower (R261, R264, R335) -/

theorem State.spillAckEff_of_spill {leaf st : Nat} (h : s.peerXfer l slot false = some leaf) :
    s.spillAckEff l slot st = s.spillEnd leaf (if st = 0 then 0 else 8) := by
  simp only [State.spillAckEff, h]

theorem State.spillAckEff_of_none {st : Nat} (h : s.peerXfer l slot false = none) (hr : s.b.routeOf l = none) :
    s.spillAckEff l slot st = s := by
  simp only [State.spillAckEff, h, hr]

theorem State.readDataEff_of_refused {leaf st : Nat} (hst : st ≠ 0) (h : s.peerXfer l slot true = some leaf) :
    s.readDataEff l slot st = s.fetchEnd leaf 8 true := by
  simp only [State.readDataEff, hst, if_false, h]

end

/-- Settles O39, clause by clause. -/
theorem peerSpill : Obligations.PeerSpill := by
  unfold Obligations.PeerSpill
  refine ⟨?write, ?writeRefused, ?noRoute, ?dataOpen, ?dataLast, ?read, ?free, ?freeOther, ?revoke, ?ack, ?ackNone, ?readData,
    ?readRefused⟩
  case write =>
    intro s l m slot k ch hl hm hr hslot hfree hfill
    refine (next_of_live hl _).trans ?_
    rw [State.spillWriteEff_of_free hm hr hslot hfree hfill]
    rfl
  case writeRefused =>
    intro s l m slot k ch hl hm hr h w
    obtain ⟨st, heff⟩ := State.spillWriteEff_of_refused (m := m) hm hr h
    refine ⟨commit (s.spillWriteEff l m slot k), next_of_live hl _, ?_⟩
    rw [heff, commit_ring]
    exact ⟨onlyIn_commit (onlyIn_trans (onlyIn_reply _ _ _ _) (onlyIn_onLaneRx _ _ (by decide))), State.spillRefused_ring w _ _ _ _⟩
  case noRoute =>
    intro s l m slot k ch hl hm hr
    refine ⟨commit (s.spillWriteEff l m slot k), next_of_live hl _, ?_⟩
    rw [State.spillWriteEff, State.onLane_of_none _ hm hr, commit_ring, State.evRport_serve]
    exact ⟨onlyIn_commit (onlyIn_evRport _ _ _ (by decide) (by decide)), rfl⟩
  case dataOpen =>
    intro s l m b hl hactive hkeep hwrite hframes
    refine (next_of_live hl _).trans ?_
    rw [State.dataEff_of_open hactive hkeep hwrite hframes]
    rfl
  case dataLast =>
    intro s l m b hl hactive hkeep hwrite hframes hused wserve wlane
    obtain ⟨p, hp⟩ := State.reply_ring (s.slotStored l b) l (s.ring.laneRx.get l).member 11
      (toLe 4 (s.ring.laneRx.get l).slot ++ toLe 1 0)
    have hlane := (Tab.get_set s.ring.laneRx wlane l l {}).trans (if_pos rfl)
    refine ⟨commit (s.dataEff l m b), next_of_live hl _, ?_⟩
    rw [State.dataEff_of_last hactive hkeep hwrite hframes, commit_ring, hp]
    refine ⟨onlyIn_commit (onlyIn_trans (onlyIn_trans (onlyIn_onLaneRx _ _ (by decide)) (onlyIn_onRing _ (by decide)))
      (onlyIn_reply _ _ _ _)), ?_, rfl, hlane⟩
    refine (Tab.get_upd s.ring.serve wserve _ _ fun t =>
      if t.used then { t with content := (s.ring.laneRx.get l).data ++ sliceZ b 0 512 } else t).trans ?_
    rw [if_pos rfl, if_pos hused]
  case read =>
    intro s l m slot k line hl hm hr hline
    have hframe : OnlyIn [.ring, .sent] s (s.spillReadEff l m slot k line) :=
      State.spillReadEff_spec hm hr hline (OnlyIn [.ring, .sent]) (fun _ => onlyIn_refl _ _) onlyIn_trans fun _ _ _ => onlyIn_reply _ _ _ _
    have hports : PortsOnly s (s.spillReadEff l m slot k line) :=
      State.spillReadEff_spec hm hr hline PortsOnly portsOnly_refl portsOnly_trans fun u typ b => portsOnly_frameClosed.reply u _ _ typ b
    exact ⟨commit (s.spillReadEff l m slot k line), next_of_live hl _, onlyIn_commit hframe, hports.serve⟩
  case free =>
    intro s l m slot k hl hm hr hused hmember htenant
    exact exec_spillFree hl hm hr hused hmember htenant
  case freeOther =>
    intro s l m slot k hl hm hr h
    refine (next_of_live hl _).trans ?_
    rw [State.spillFreeEff_of_other hm hr h]
  case revoke =>
    intro s m k n hl hm w
    refine ⟨_, exec_revoke hl hm m k n, onlyIn_commit (onlyIn_clearTags _ (by decide)), fun i => ?_⟩
    rw [commit_ring, State.clearTags_get w]
    by_cases h : (s.ring.serve.get i).used = true ∧ (s.ring.serve.get i).member = m.val ∧ (s.ring.serve.get i).tenant = k
    · obtain ⟨hused, hmember, htenant⟩ := h
      rw [if_pos ⟨hused, hmember, htenant⟩, ServeSlot.clearUnless_of_not_keep (by simp [hused, hmember, htenant])]
    · rw [if_neg h, ServeSlot.clearUnless_of_keep (by
        simpa only [Bool.not_eq_true', Bool.eq_false_iff, ne_eq, Bool.and_eq_true, beq_iff_eq, and_assoc] using h)]
  case ack =>
    intro s l slot st leaf hl h
    refine ⟨commit (s.spillAckEff l slot st), next_of_live hl _, ?_⟩
    rw [State.spillAckEff_of_spill h]
    exact next_of_live hl _
  case ackNone =>
    intro s l slot st hl h hr
    refine (next_of_live hl _).trans ?_
    rw [State.spillAckEff_of_none h hr]
  case readData =>
    intro s l slot hl hm
    refine (next_of_live hl _).trans ?_
    rw [if_pos hm]
    rfl
  case readRefused =>
    intro s l slot st leaf n x hl hm hst h hx hfetch hlocal hfails w
    have heff : (if s.isMember then s.readDataEff l slot st else s) =
        (s.evLeaf 7 none).fetchOver leaf (fun e => { e with state := .spilled }) 1 := by
      rw [if_pos hm, State.readDataEff_of_refused hst h, State.fetchEnd_of_first_failure hx hfetch hlocal (by decide) hfails]
    have hmap := s.evLeaf_map 7 none
    refine ⟨commit (if s.isMember then s.readDataEff l slot st else s), next_of_live hl _, ?_⟩
    rw [heff, commit_leafE, commit_leaf, State.fetchOver_leafE ((congrArg Tab.wf hmap).trans w), State.fetchOver_events,
      State.leafE_congr hmap]
    exact ⟨onlyIn_commit (onlyIn_trans (onlyIn_evLeaf _ _ (by decide) (by decide)) (onlyIn_mono (onlyIn_fetchOver _ 1) (by decide))), rfl,
      s.evLeaf_events (by decide) none⟩

end Sys2Proof.Machine

/-! RING_EVENT and a member's view of the others (spec/02, R48; spec/15, R325; spec/22, R456, R457, R466). -/

namespace Sys2Proof.Machine

section

variable {s t : State} {m : Nat}

theorem State.ringEventEff_of_stranger (k : Nat) (h : s.b.memberRec m = none) : s.ringEventEff k m = s := by
  simp [State.ringEventEff, h]

/-- Of a module without a pair only the time it has been fit since is taken anew. -/
theorem State.pairUpdate_of_unpaired (h : s.paired = false) : ∃ f, s.pairUpdate = s.onPair fun p => { p with fitSince := f } := by
  refine ⟨_, if_pos ?_⟩
  rw [Bool.not_eq_true']
  exact h

theorem State.paired_congr (hb : t.bind = s.bind) : t.paired = s.paired := by
  unfold State.paired State.bound
  rw [hb, State.b_congr hb]

section

variable (hm : s.isMember = true) (hrec : (s.b.memberRec m).isSome = true)

include hm hrec

theorem State.ringEventEff_absent_self (hself : m = s.memberIdx) : s.ringEventEff 0 m = s.takeAbsent m := by
  have hmember : (s.b.memberRec m).isNone = false := Option.isNone_eq_false_iff.2 hrec
  simp [State.ringEventEff, hm, hmember, ← hself]

theorem State.ringEventEff_suspect_other (hother : m ≠ s.memberIdx) :
    s.ringEventEff 1 m = (s.onPair fun p => { p with suspect := bitSet p.suspect m }).pairUpdate := by
  have hmember : (s.b.memberRec m).isNone = false := Option.isNone_eq_false_iff.2 hrec
  simp [State.ringEventEff, hm, hmember, hother]

theorem State.ringEventEff_suspect_self (hself : m = s.memberIdx) :
    s.ringEventEff 1 m = ((s.onPair fun p => { p with suspect := bitSet p.suspect m }).evTick 10).pairUpdate := by
  have hmember : (s.b.memberRec m).isNone = false := Option.isNone_eq_false_iff.2 hrec
  simp [State.ringEventEff, hm, hmember, ← hself]

theorem State.ringEventEff_admitted : s.ringEventEff 2 m = s.takeAdmitted m := by
  have hmember : (s.b.memberRec m).isNone = false := Option.isNone_eq_false_iff.2 hrec
  simp [State.ringEventEff, hm, hmember]

theorem State.ringEventEff_cleared :
    s.ringEventEff 3 m = (s.onPair fun p => { p with suspect := bitClr p.suspect m }).pairUpdate := by
  have hmember : (s.b.memberRec m).isNone = false := Option.isNone_eq_false_iff.2 hrec
  simp [State.ringEventEff, hm, hmember]

end

/-- With no leaf mapped nothing is lost with a tier's site. -/
theorem State.tierLost_of_empty (h : s.leaf.map = []) (tier : Tier) (site : Nat) (k : Option Nat) : s.tierLost tier site k = s := by
  rw [State.tierLost, h]
  rfl

/-- The view without a member. -/
def Pair.without (m : Nat) (p : Pair) : Pair := { p with absent := bitSet p.absent m, admittedSet := bitClr p.admittedSet m }

/-- Once a member's tags are cleared, a slot in use is another's. -/
theorem State.clearTags_other (w : s.ring.serve.wf = true) {i : Nat}
    (h : ((s.clearTags fun t => !(t.used && t.member == m)).ring.serve.get i).used = true) :
    ((s.clearTags fun t => !(t.used && t.member == m)).ring.serve.get i).member ≠ m := by
  intro hmember
  have hkeep := State.keep_of_used_clearTags w h
  rw [h, hmember, beq_self_eq_true] at hkeep
  exact Bool.false_ne_true hkeep

/-- Another member taken for ABSENT by a module without a pair and without leaves. -/
theorem State.takeAbsent_other (hother : m ≠ s.memberIdx) (hmap : s.leaf.map = []) (hpair : s.paired = false) :
    ∃ f, s.takeAbsent m = ((s.onPair (Pair.without m)).clearTags
      fun t => !(t.used && t.member == m)).onPair fun p => { p with fitSince := f } := by
  have hlost : (s.onPair (Pair.without m)).tierLost .peer m none =
      s.onPair (Pair.without m) :=
    State.tierLost_of_empty (s := s.onPair (Pair.without m)) hmap .peer m none
  obtain ⟨f, hf⟩ := State.pairUpdate_of_unpaired (s := (s.onPair (Pair.without m)).clearTags fun t => !(t.used && t.member == m)) hpair
  refine ⟨f, ?_⟩
  rw [← hf, State.takeAbsent, if_neg hother]
  exact congrArg (fun u : State => (u.clearTags fun t => !(t.used && t.member == m)).pairUpdate) hlost

/-- A member that is named ABSENT is in SHADOW. -/
theorem State.takeAbsent_self (hself : m = s.memberIdx) (hpair : s.paired = false) :
    ∃ f, s.takeAbsent m = s.onPair fun p => { p with
      absent := bitSet p.absent m, admittedSet := bitClr p.admittedSet m, admission := .shadow, admitCount := 0, fitSince := f } := by
  obtain ⟨f, hf⟩ := State.pairUpdate_of_unpaired (s := s.onPair fun p => { p with
    absent := bitSet p.absent m, admittedSet := bitClr p.admittedSet m, admission := .shadow, admitCount := 0 }) hpair
  refine ⟨f, ?_⟩
  rw [State.takeAbsent, if_pos hself]
  exact hf

/-- The view once a member is admitted, before its own admission is counted. -/
def Pair.admitting (m : Nat) (p : Pair) : Pair :=
  { p with admittedSet := bitSet p.admittedSet m, absent := bitClr p.absent m, suspect := bitClr p.suspect m }

/-- A member's own pending admission ends. -/
def State.selfAdmitted (s : State) (m : Nat) : State :=
  if m = s.memberIdx && s.isMember && s.pair.admission == .pending then
    (if s.b.admitTicks ≤ s.pair.admitCount then ((s.onPair (Pair.admitting m)).onPair fun p => { p with admission := .admitted }).evPair 5
     else (s.onPair (Pair.admitting m)).onPair fun p => { p with admission := .admitted })
  else s.onPair (Pair.admitting m)

theorem State.takeAdmitted_eq (s : State) (m : Nat) : s.takeAdmitted m = (s.selfAdmitted m).pairUpdate := rfl

theorem onlyIn_selfAdmitted (m : Nat) : OnlyIn [.pair, .cnt] s (s.selfAdmitted m) := by
  have hown : OnlyIn [.pair, .cnt] s ((s.onPair (Pair.admitting m)).onPair fun p => { p with admission := .admitted }) :=
    onlyIn_trans (onlyIn_onPair _ (by decide)) (onlyIn_onPair _ (by decide))
  exact onlyIn_ite (fun _ => onlyIn_ite (fun _ => onlyIn_trans hown (onlyIn_evPair _ (by decide) (by decide))) fun _ => hown)
    (fun _ => onlyIn_onPair _ (by decide))

theorem State.evPair_pair (s : State) (i : Nat) : (s.evPair i).pair = { s.pair with events := bitSet s.pair.events i } :=
  State.count_pair ..

theorem State.selfAdmitted_view (s : State) (m : Nat) :
    (s.selfAdmitted m).pair.admittedSet = bitSet s.pair.admittedSet m ∧ (s.selfAdmitted m).pair.absent = bitClr s.pair.absent m ∧
      (s.selfAdmitted m).pair.suspect = bitClr s.pair.suspect m := by
  unfold State.selfAdmitted
  split
  · split
    · rw [State.evPair_pair]
      exact ⟨rfl, rfl, rfl⟩
    · exact ⟨rfl, rfl, rfl⟩
  · exact ⟨rfl, rfl, rfl⟩

theorem State.selfAdmitted_admission (hm : s.isMember = true) (hself : m = s.memberIdx) (hpending : s.pair.admission = .pending) :
    (s.selfAdmitted m).pair.admission = .admitted := by
  have hown : (decide (m = s.memberIdx) && s.isMember && s.pair.admission == .pending) = true := by simp [hm, hself, hpending]
  rw [State.selfAdmitted, if_pos hown]
  split
  · rw [State.evPair_pair]
    rfl
  · rfl

end

/-- Settles O40, clause by clause. -/
theorem ringView : Obligations.RingView := by
  unfold Obligations.RingView
  refine ⟨?stranger, ?absentOther, ?absentSelf, ?suspectOther, ?suspectSelf, ?admitted, ?cleared⟩
  case stranger =>
    intro s k n m hl hrec
    refine (next_of_live hl _).trans ?_
    rw [State.ringEventEff_of_stranger k hrec]
  case absentOther =>
    intro s n m hl hm hrec hrole hother hmap w hpair
    obtain ⟨f, heff⟩ := State.takeAbsent_other hother hmap hpair
    refine ⟨_, exec_ringEvent_absent hl hm hrec hrole n, ?_⟩
    rw [heff, commit_pair, commit_ring]
    refine ⟨onlyIn_commit (onlyIn_trans (onlyIn_trans (onlyIn_onPair _ (by decide)) (onlyIn_clearTags _ (by decide)))
      (onlyIn_onPair _ (by decide))), rfl, rfl, fun i hused => ?_⟩
    exact State.clearTags_other (s := s.onPair (Pair.without m)) w hused
  case absentSelf =>
    intro s n m hl hm hrec hself hpair
    obtain ⟨f, heff⟩ := State.takeAbsent_self hself hpair
    refine ⟨commit (s.ringEventEff 0 m), next_of_live hl _, ?_⟩
    rw [State.ringEventEff_absent_self hm hrec hself, heff, commit_pair]
    exact ⟨onlyIn_commit (onlyIn_onPair _ (by decide)), rfl, rfl, rfl⟩
  case suspectOther =>
    intro s n m hl hm hrec hother hpair
    obtain ⟨f, hf⟩ := State.pairUpdate_of_unpaired (s := s.onPair fun p => { p with suspect := bitSet p.suspect m }) hpair
    refine ⟨commit (s.ringEventEff 1 m), next_of_live hl _, ?_⟩
    rw [State.ringEventEff_suspect_other hm hrec hother, hf, commit_pair]
    exact ⟨onlyIn_commit (onlyIn_trans (onlyIn_onPair _ (by decide)) (onlyIn_onPair _ (by decide))), rfl⟩
  case suspectSelf =>
    intro s n m hl hm hrec hself hpair
    have hev : OnlyIn [.pair, .tick, .cnt] s ((s.onPair fun p => { p with suspect := bitSet p.suspect m }).evTick 10) :=
      onlyIn_trans (onlyIn_onPair _ (by decide)) (onlyIn_evTick 10 (by decide) (by decide))
    obtain ⟨f, hf⟩ := State.pairUpdate_of_unpaired (s := (s.onPair fun p => { p with suspect := bitSet p.suspect m }).evTick 10)
      ((State.paired_congr (hev.rest .bind (by decide))).trans hpair)
    refine ⟨commit (s.ringEventEff 1 m), next_of_live hl _, ?_⟩
    rw [State.ringEventEff_suspect_self hm hrec hself, hf, commit_pair, commit_tick, State.onPair_pair, State.onPair_tick, State.evTick_pair,
      State.evTick_tick]
    exact ⟨onlyIn_commit (onlyIn_trans hev (onlyIn_onPair _ (by decide))), rfl, rfl⟩
  case admitted =>
    intro s n m hl hm hrec hpair
    have hself := onlyIn_selfAdmitted (s := s) m
    obtain ⟨f, hf⟩ := State.pairUpdate_of_unpaired (s := s.selfAdmitted m)
      ((State.paired_congr (hself.rest .bind (by decide))).trans hpair)
    obtain ⟨hset, habsent, hsuspect⟩ := State.selfAdmitted_view s m
    refine ⟨commit (s.ringEventEff 2 m), next_of_live hl _, ?_⟩
    rw [State.ringEventEff_admitted hm hrec, State.takeAdmitted_eq, hf, commit_pair, State.onPair_pair]
    exact ⟨onlyIn_commit (onlyIn_trans hself (onlyIn_onPair _ (by decide))), hset, habsent, hsuspect,
      fun hidx hpending => State.selfAdmitted_admission hm hidx hpending⟩
  case cleared =>
    intro s n m hl hm hrec hpair
    obtain ⟨f, hf⟩ := State.pairUpdate_of_unpaired (s := s.onPair fun p => { p with suspect := bitClr p.suspect m }) hpair
    refine ⟨commit (s.ringEventEff 3 m), next_of_live hl _, ?_⟩
    rw [State.ringEventEff_cleared hm hrec, hf, commit_pair]
    exact ⟨onlyIn_commit (onlyIn_trans (onlyIn_onPair _ (by decide)) (onlyIn_onPair _ (by decide))), rfl⟩

end Sys2Proof.Machine

/-! What resets of the host side, TDIs that fail and tenants that are removed leave alone (spec/16, R351, R355; spec/17, R378). -/

namespace Sys2Proof.Machine

section

variable {s t u : State} {ps : List Part}

/-! ### Frames -/

theorem onlyIn_onTen (k : Nat) (f : Tenant → Tenant) (h : Part.ksi ∈ ps) : OnlyIn ps s (s.onTen k f) := onlyIn_onKsi _ h

theorem onlyIn_evTen (k i : Nat) (h : Part.host ∈ ps) : OnlyIn ps s (s.evTen k i) := by
  unfold State.evTen
  split
  · exact onlyIn_evVf _ _ h
  · exact onlyIn_refl _ _

theorem onlyIn_setSlot (k n : Nat) (x : KeySlot) (h : Part.ksi ∈ ps) (g : Part.host ∈ ps) : OnlyIn ps s (s.setSlot k n x) :=
  onlyIn_trans (onlyIn_onKsi _ h) (onlyIn_evTen k 2 g)

theorem onlyIn_sendRevoke (k : Nat) : OnlyIn [.ring, .sent] s (s.sendRevoke k) := by
  unfold State.sendRevoke
  split
  · exact onlyIn_refl _ _
  · exact onlyIn_broadcast _ _

theorem onlyIn_dropEdits (k : Nat) : OnlyIn [.leaf, .acts] s (s.dropEdits k) :=
  onlyIn_trans (onlyIn_onLeaf _ (by decide)) (onlyIn_foldl _ (fun _ a => onlyIn_editDrop a) _ _)

theorem onlyIn_ksiOut (c st : Nat) (b : List Byte) (h : Part.sent ∈ ps) : OnlyIn ps s (s.ksiOut c st b) := onlyIn_out _ h

theorem onlyIn_beatStops (a c : Nat) (h : Part.dma ∈ ps) : OnlyIn ps s (s.beatStops a c) := onlyIn_onQueue a _ h

/-! ### The host interface once a command ends -/

@[simp] theorem commit_tdi (s : State) (v : Nat) : (commit s).tdi v = s.tdi v := rfl

@[simp] theorem commit_numVfs (s : State) : (commit s).host.numVfs = s.host.numVfs := rfl

@[simp] theorem commit_irqEn (s : State) : (commit s).host.irqEn = s.host.irqEn := rfl

@[simp] theorem commit_linkUp (s : State) : (commit s).host.linkUp = s.host.linkUp := rfl

@[simp] theorem commit_streams (s : State) : (commit s).host.streams = s.host.streams := rfl

@[simp] theorem commit_funcs (s : State) : (commit s).host.funcs = s.host.funcs := rfl

@[simp] theorem commit_wins (s : State) : (commit s).host.wins = s.host.wins := rfl

@[simp] theorem commit_hostEvents (s : State) : (commit s).host.events = s.host.events := rfl

/-- A field of the host interface other than its interrupt vectors, where the frame leaves it out. -/
theorem hostField_of_onlyIn {β : Type} (g : HostIf → β) (hg : ∀ (h : HostIf) m, g { h with msix := m } = g h) (h : OnlyIn ps s t)
    (hhost : Part.host ∉ ps) : g t.host = g s.host := by
  have hh : { t.host with msix := s.host.msix } = s.host := h.rest .host hhost
  rw [← hg t.host s.host.msix, hh]

/-! ### The host interface apart from what these operations change -/

/-- The parts that the operations of this file can change. -/
abbrev hostParts : List Part :=
  [.host, .bus, .mbx, .ksi, .dma, .acts, .leaf, .ring, .pwr, .spad, .gddr, .cnt, .sent, .freeCount]

/-- What work on windows, tenants and function registers keeps of the host interface: how many functions there are, the link and its
streams, TDIs and sessions, the host's registers; event bits stay set. -/
structure HostQuiet (s t : State) : Prop where
  frame : OnlyIn hostParts s t
  bar4 : t.bus.bar4Enable = s.bus.bar4Enable
  numVfs : t.host.numVfs = s.host.numVfs
  irqEn : t.host.irqEn = s.host.irqEn
  linkUp : t.host.linkUp = s.host.linkUp
  streams : t.host.streams = s.host.streams
  tdis : t.host.tdis = s.host.tdis
  sessions : t.host.sessions = s.host.sessions
  eid : t.host.eid = s.host.eid
  events : ∀ i, s.host.events.getLsbD i = true → t.host.events.getLsbD i = true

theorem hostQuiet_trans (h : HostQuiet s t) (k : HostQuiet t u) : HostQuiet s u where
  frame := onlyIn_trans h.frame k.frame
  bar4 := k.bar4.trans h.bar4
  numVfs := k.numVfs.trans h.numVfs
  irqEn := k.irqEn.trans h.irqEn
  linkUp := k.linkUp.trans h.linkUp
  streams := k.streams.trans h.streams
  tdis := k.tdis.trans h.tdis
  sessions := k.sessions.trans h.sessions
  eid := k.eid.trans h.eid
  events i hi := k.events i (h.events i hi)

/-- Operations outside the host interface and the register file. -/
theorem hostQuiet_of_frame {qs : List Part} (h : OnlyIn qs s t) (hsub : ∀ p ∈ qs, p ∈ hostParts) (hhost : Part.host ∉ qs)
    (hbus : Part.bus ∉ qs) : HostQuiet s t := by
  have hb : t.bus = s.bus := h.rest .bus hbus
  exact {
    frame := onlyIn_mono h hsub
    bar4 := by rw [hb]
    numVfs := hostField_of_onlyIn HostIf.numVfs (fun _ _ => rfl) h hhost
    irqEn := hostField_of_onlyIn HostIf.irqEn (fun _ _ => rfl) h hhost
    linkUp := hostField_of_onlyIn HostIf.linkUp (fun _ _ => rfl) h hhost
    streams := hostField_of_onlyIn HostIf.streams (fun _ _ => rfl) h hhost
    tdis := hostField_of_onlyIn HostIf.tdis (fun _ _ => rfl) h hhost
    sessions := hostField_of_onlyIn HostIf.sessions (fun _ _ => rfl) h hhost
    eid := hostField_of_onlyIn HostIf.eid (fun _ _ => rfl) h hhost
    events := fun i hi => by
      rw [← hi]
      exact hostField_of_onlyIn (fun x => x.events.getLsbD i) (fun _ _ => rfl) h hhost }

theorem hostQuiet_refl (s : State) : HostQuiet s s :=
  hostQuiet_of_frame (onlyIn_refl [] s) (by decide) (by decide) (by decide)

theorem hostQuiet_foldl {α : Type} (f : State → α → State) (h : ∀ s x, HostQuiet s (f s x)) (l : List α) (s : State) :
    HostQuiet s (l.foldl f s) := by
  induction l generalizing s with
  | nil => exact hostQuiet_refl s
  | cons x l ih => exact hostQuiet_trans (h s x) (ih (f s x))

theorem hostQuiet_ite {c : Prop} [Decidable c] (h : HostQuiet s t) (k : HostQuiet s u) : HostQuiet s (if c then t else u) := by
  split
  · exact h
  · exact k

/-- Changes of functions, windows and interrupt vectors. -/
theorem hostQuiet_onHost {f : HostIf → HostIf} (h : ∀ x, (f x).numVfs = x.numVfs ∧ (f x).irqEn = x.irqEn ∧ (f x).linkUp = x.linkUp ∧
    (f x).streams = x.streams ∧ (f x).events = x.events ∧ (f x).tdis = x.tdis ∧ (f x).sessions = x.sessions ∧
    (f x).eid = x.eid) : HostQuiet s (s.onHost f) := by
  obtain ⟨hnum, hirq, hlink, hstreams, hevents, htdis, hsessions, heid⟩ := h s.host
  exact {
    frame := onlyIn_onHost f (by decide)
    bar4 := rfl
    numVfs := hnum
    irqEn := hirq
    linkUp := hlink
    streams := hstreams
    tdis := htdis
    sessions := hsessions
    eid := heid
    events := fun i hi => by rw [State.onHost_host, hevents]; exact hi }

theorem hostQuiet_evVf (vf i : Nat) : HostQuiet s (s.evVf vf i) := hostQuiet_onHost fun _ => ⟨rfl, rfl, rfl, rfl, rfl, rfl, rfl, rfl⟩

theorem bitSet_of_getLsbD {n : Nat} {b : BitVec n} {i : Nat} (j : Nat) (h : b.getLsbD i = true) : (bitSet b j).getLsbD i = true := by
  rw [bitSet, BitVec.getLsbD_or, h, Bool.true_or]

theorem hostQuiet_evHost (i : Nat) (act : Option Nat) : HostQuiet s (s.evHost i act) where
  frame := onlyIn_evHost i act (by decide) (by decide)
  bar4 := by rw [(onlyIn_evHost (ps := [.host, .cnt]) i act (by decide) (by decide)).rest .bus (by decide)]
  numVfs := by rw [State.evHost_host]
  irqEn := by rw [State.evHost_host]
  linkUp := by rw [State.evHost_host]
  streams := by rw [State.evHost_host]
  events j hj := by
    rw [State.evHost_host]
    exact bitSet_of_getLsbD i hj
  tdis := by rw [State.evHost_host]
  sessions := by rw [State.evHost_host]
  eid := by rw [State.evHost_host]

theorem hostQuiet_evTen (k i : Nat) : HostQuiet s (s.evTen k i) := by
  unfold State.evTen
  split
  · exact hostQuiet_evVf _ _
  · exact hostQuiet_refl _

theorem hostQuiet_setSlot (k n : Nat) (x : KeySlot) : HostQuiet s (s.setSlot k n x) :=
  hostQuiet_trans (hostQuiet_of_frame (onlyIn_onKsi (ps := [.ksi]) _ (by decide)) (by decide) (by decide) (by decide)) (hostQuiet_evTen k 2)

theorem hostQuiet_roleChange (id : Nat) : HostQuiet s (s.roleChange id) :=
  hostQuiet_of_frame (onlyIn_roleChange (ps := [.mbx, .pwr, .cnt]) id (by decide) (by decide) (by decide)) (by decide) (by decide) (by decide)

theorem hostQuiet_winFault (w k : Nat) : HostQuiet s (s.winFault w k) := by
  have hwin : HostQuiet s (s.onHost fun h => { h with wins := h.wins.upd w fun x => { x with fault := true } }) :=
    hostQuiet_onHost fun _ => ⟨rfl, rfl, rfl, rfl, rfl, rfl, rfl, rfl⟩
  unfold State.winFault
  dsimp only
  split
  · exact hostQuiet_trans hwin (hostQuiet_evVf _ _)
  · exact hwin

theorem hostQuiet_winDisable (w : Nat) : HostQuiet s (s.winDisable w) := by
  have hwin : HostQuiet s (s.onHost fun h => { h with wins := h.wins.upd w fun x => { x with enabled := false } }) :=
    hostQuiet_onHost fun _ => ⟨rfl, rfl, rfl, rfl, rfl, rfl, rfl, rfl⟩
  have hqueue : ∀ (u : State) (a : Nat), HostQuiet u (if u.usesWin a w then (u.beatStops a 7).winFault w (u.b.tenantOf a) else u) :=
    fun u a => hostQuiet_ite (hostQuiet_trans (hostQuiet_of_frame (onlyIn_beatStops (ps := [.dma]) a 7 (by decide)) (by decide) (by decide)
      (by decide)) (hostQuiet_winFault w _)) (hostQuiet_refl u)
  unfold State.winDisable
  dsimp only
  refine hostQuiet_ite ?_ (hostQuiet_refl s)
  exact hostQuiet_trans (hostQuiet_trans hwin (hostQuiet_foldl _ hqueue _ _))
    (hostQuiet_of_frame (onlyIn_tierLost ..) (by decide) (by decide) (by decide))

/-! ### A tenant removed (R378) -/

/-- The load in progress of a tenant that is removed is answered REVOKED. -/
def State.loadDropped (s : State) (loading : Bool) (k : Nat) : State :=
  if loading then (s.measureFree 7 k).ksiOut 2 4 [] else s

theorem hostQuiet_loadDropped (b : Bool) (k : Nat) : HostQuiet s (s.loadDropped b k) :=
  hostQuiet_ite (hostQuiet_of_frame (qs := [.ksi, .freeCount, .sent]) (onlyIn_trans (onlyIn_mono (onlyIn_measureFree 7 k) (by decide))
    (onlyIn_ksiOut _ _ _ (by decide))) (by decide) (by decide) (by decide)) (hostQuiet_refl s)

theorem hostQuiet_removeTenant (k : Nat) : HostQuiet s (s.removeTenant k) := by
  have hslots : ∀ (u : State) (n : Nat), HostQuiet u
      (if u.slotLive n then u.setSlot k n { u.ksi.slots.get n with state := .draining } else u) := fun u n =>
    hostQuiet_ite (hostQuiet_setSlot k n _) (hostQuiet_refl u)
  have hstops : ∀ (u : State) (a : Nat), HostQuiet u (u.queueStop a .revoked) := fun u a =>
    hostQuiet_of_frame (onlyIn_queueStop a .revoked) (by decide) (by decide) (by decide)
  unfold State.removeTenant
  extract_lets x s1 s2 s3 s4 s5
  refine hostQuiet_ite (hostQuiet_refl s) ?_
  have h1 : HostQuiet s s1 := hostQuiet_foldl _ hslots _ _
  have h2 : HostQuiet s s2 := hostQuiet_trans h1
    (hostQuiet_of_frame (onlyIn_onTen (ps := [.ksi]) k _ (by decide)) (by decide) (by decide) (by decide))
  have h3 : HostQuiet s s3 := hostQuiet_trans h2 (hostQuiet_loadDropped x.load.isSome k)
  have h4 : HostQuiet s s4 := hostQuiet_trans h3 (hostQuiet_foldl _ hstops _ _)
  have h5 : HostQuiet s s5 := hostQuiet_trans h4 (hostQuiet_trans
    (hostQuiet_of_frame (onlyIn_dropEdits k) (by decide) (by decide) (by decide))
    (hostQuiet_of_frame (onlyIn_sendRevoke k) (by decide) (by decide) (by decide)))
  split
  · exact hostQuiet_trans h5 (hostQuiet_roleChange _)
  · exact h5

theorem hostQuiet_removeOf (vf : Nat) : HostQuiet s (s.removeOf vf) := by
  unfold State.removeOf
  split
  · exact hostQuiet_removeTenant _
  · exact hostQuiet_refl s

/-! ### The host interface under resets of its functions -/

/-- What the reset of a function keeps besides: unlocked TDIs stay unlocked. -/
structure HostKept (s t : State) : Prop where
  frame : OnlyIn hostParts s t
  bar4 : t.bus.bar4Enable = s.bus.bar4Enable
  numVfs : t.host.numVfs = s.host.numVfs
  irqEn : t.host.irqEn = s.host.irqEn
  linkUp : t.host.linkUp = s.host.linkUp
  streams : t.host.streams = s.host.streams
  events : ∀ i, s.host.events.getLsbD i = true → t.host.events.getLsbD i = true
  tdisWf : s.host.tdis.wf = true → t.host.tdis.wf = true
  unlocked : s.host.tdis.wf = true → ∀ v, (s.tdi v).state = .unlocked → (t.tdi v).state = .unlocked

theorem HostQuiet.tdi (h : HostQuiet s t) (v : Nat) : t.tdi v = s.tdi v := by
  rw [State.tdi, h.tdis, State.tdi]

theorem HostQuiet.kept (h : HostQuiet s t) : HostKept s t where
  frame := h.frame
  bar4 := h.bar4
  numVfs := h.numVfs
  irqEn := h.irqEn
  linkUp := h.linkUp
  streams := h.streams
  events := h.events
  tdisWf w := by rw [h.tdis]; exact w
  unlocked _ v hv := by rw [h.tdi]; exact hv

theorem hostKept_trans (h : HostKept s t) (k : HostKept t u) : HostKept s u where
  frame := onlyIn_trans h.frame k.frame
  bar4 := k.bar4.trans h.bar4
  numVfs := k.numVfs.trans h.numVfs
  irqEn := k.irqEn.trans h.irqEn
  linkUp := k.linkUp.trans h.linkUp
  streams := k.streams.trans h.streams
  events i hi := k.events i (h.events i hi)
  tdisWf w := k.tdisWf (h.tdisWf w)
  unlocked w v hv := k.unlocked (h.tdisWf w) v (h.unlocked w v hv)

theorem hostKept_refl (s : State) : HostKept s s := (hostQuiet_refl s).kept

theorem hostKept_foldl {α : Type} (f : State → α → State) (h : ∀ s x, HostKept s (f s x)) (l : List α) (s : State) :
    HostKept s (l.foldl f s) := by
  induction l generalizing s with
  | nil => exact hostKept_refl s
  | cons x l ih => exact hostKept_trans (h s x) (ih (f s x))

theorem hostKept_ite {c : Prop} [Decidable c] (h : HostKept s t) (k : HostKept s u) : HostKept s (if c then t else u) := by
  split
  · exact h
  · exact k

/-! ### TDIs (R355) -/

theorem State.tdi_onTdis (w : s.host.tdis.wf = true) (vf v : Nat) (f : Tdi → Tdi) :
    (s.onHost fun h => { h with tdis := h.tdis.upd vf f }).tdi v = if v = vf then f (s.tdi vf) else s.tdi v :=
  Tab.get_upd s.host.tdis w vf v f

/-- A TDI written and its event bit leave the TDIs as written. -/
theorem State.tdiSet_tdi (w : s.host.tdis.wf = true) (vf v : Nat) (f : Tdi → Tdi) :
    (s.tdiSet vf f).tdi v = if v = vf then f (s.tdi vf) else s.tdi v := by
  rw [← State.tdi_onTdis w]
  unfold State.tdiSet
  dsimp only
  split
  · rfl
  · rfl

/-- A TDI that was not unlocked, or that is, written. -/
theorem hostKept_tdiSet {vf : Nat} {f : Tdi → Tdi} (h : (s.tdi vf).state = .unlocked → (f (s.tdi vf)).state = .unlocked) :
    HostKept s (s.tdiSet vf f) := by
  have hset : HostKept s (s.onHost fun h => { h with tdis := h.tdis.upd vf f }) := {
    frame := onlyIn_onHost _ (by decide)
    bar4 := rfl
    numVfs := rfl
    irqEn := rfl
    linkUp := rfl
    streams := rfl
    events := fun _ hi => hi
    tdisWf := fun w => Tab.wf_upd _ w vf f
    unlocked := fun w v hv => by
      rw [State.tdi_onTdis w]
      split
      next hvf => exact h (hvf ▸ hv)
      next => exact hv }
  unfold State.tdiSet
  exact hostKept_ite hset (hostKept_trans hset (hostQuiet_evVf _ _).kept)

theorem State.tdi_of_held {vf : Nat} (h : s.tdiHeld vf = true) : (s.tdi vf).state ≠ .unlocked := by
  intro hu
  rw [State.tdiHeld, hu] at h
  cases h

theorem hostKept_tdiError (vf : Nat) : HostKept s (s.tdiError vf) := by
  unfold State.tdiError
  split
  next h =>
    exact hostKept_trans (hostKept_trans (hostKept_tdiSet fun hu => absurd hu (State.tdi_of_held h)) (hostQuiet_evHost 8 none).kept)
      (hostQuiet_removeOf vf).kept
  next => exact hostKept_refl s

/-! ### Sessions (R356) -/

theorem hostKept_sessionEnd (n : Nat) : HostKept s (s.sessionEnd n) := by
  have herase : HostKept s (s.onHost fun h => { h with sessions := h.sessions.erase n }) :=
    { frame := onlyIn_onHost _ (by decide), bar4 := rfl, numVfs := rfl, irqEn := rfl, linkUp := rfl, streams := rfl
      events := fun _ hi => hi, tdisWf := fun w => w, unlocked := fun _ _ hv => hv }
  have htdis : ∀ (u : State) (i : Nat), HostKept u (if (u.tdi (i + 1)).session = n then u.tdiError (i + 1) else u) :=
    fun u i => hostKept_ite (hostKept_tdiError _) (hostKept_refl u)
  unfold State.sessionEnd
  dsimp only
  exact hostKept_ite (hostKept_refl s) (hostKept_trans herase (hostKept_foldl _ htdis _ _))

theorem hostKept_sessionsEnd (b : Bool) : HostKept s (s.sessionsEnd b) := hostKept_foldl _ (fun _ _ => hostKept_sessionEnd _) _ _

theorem State.sessionsEnd_of_none (h : s.host.sessions = []) (b : Bool) : s.sessionsEnd b = s := by
  rw [State.sessionsEnd, h]
  rfl

/-! ### Function resets (R351) -/

theorem hostKept_vfRegs (vf : Nat) : HostKept s (((s.onMbx fun x => { x with bells := x.bells.erase (idFn vf) }).onBus fun u =>
    { u with rmb := u.rmb.erase (idFn vf), regErr := u.regErr.erase (idFn vf) }).onHost fun h => { h with
      funcs := h.funcs.erase vf, msix := h.msix.keep fun i _ => i / 4 != vf }) where
  frame := onlyIn_trans (onlyIn_trans (onlyIn_onMbx _ (by decide)) (onlyIn_onBus _ (by decide))) (onlyIn_onHost _ (by decide))
  bar4 := rfl
  numVfs := rfl
  irqEn := rfl
  linkUp := rfl
  streams := rfl
  events _ hi := hi
  tdisWf w := w
  unlocked _ _ hv := hv

theorem hostQuiet_winsErase (w : Nat) : HostQuiet s ((s.winDisable w).onHost fun h => { h with wins := h.wins.erase w }) :=
  hostQuiet_trans (hostQuiet_winDisable w) (hostQuiet_onHost fun _ => ⟨rfl, rfl, rfl, rfl, rfl, rfl, rfl, rfl⟩)

theorem hostKept_vfRegsReset (vf : Nat) : HostKept s (s.vfRegsReset vf) := by
  unfold State.vfRegsReset
  dsimp only
  split
  · exact hostKept_trans (hostKept_vfRegs vf) (hostKept_foldl _ (fun u w => hostKept_ite (hostQuiet_winsErase w).kept (hostKept_refl u)) _ _)
  · exact hostKept_vfRegs vf

/-- A held TDI of a function that is reset is counted. -/
def State.heldCounted (s : State) (vf : Nat) : State := if s.tdiHeld vf then s.evHost 8 none else s

theorem hostKept_heldCounted (vf : Nat) : HostKept s (s.heldCounted vf) := hostKept_ite (hostQuiet_evHost 8 none).kept (hostKept_refl s)

/-- What the reset of a function does after its TDI is unlocked. -/
theorem State.vfReset_after_unlock (s : State) (vf : Nat) :
    HostKept ((s.heldCounted vf).tdiSet vf fun t => { stopOwed := t.stopOwed }) (s.vfReset vf) := by
  unfold State.vfReset State.heldCounted
  dsimp only
  refine hostKept_trans (hostKept_ite (hostQuiet_removeOf vf).kept (hostQuiet_roleChange _).kept) (hostKept_vfRegsReset vf)

theorem hostKept_vfReset (vf : Nat) : HostKept s (s.vfReset vf) :=
  hostKept_trans (hostKept_trans (hostKept_heldCounted vf) (hostKept_tdiSet fun _ => rfl)) (State.vfReset_after_unlock s vf)

theorem State.vfReset_unlocked (w : s.host.tdis.wf = true) (vf : Nat) : ((s.vfReset vf).tdi vf).state = .unlocked := by
  have wheld := (hostKept_heldCounted (s := s) vf).tdisWf w
  refine (State.vfReset_after_unlock s vf).unlocked
    ((hostKept_tdiSet (s := s.heldCounted vf) (f := fun t => { stopOwed := t.stopOwed }) fun _ => rfl).tdisWf wheld) vf ?_
  rw [State.tdiSet_tdi wheld, if_pos rfl]

/-- The functions above a new count, reset. -/
def State.vfsReset (s : State) (l : List Nat) : State := l.foldl (fun (s : State) i => s.vfReset (i + 1)) s

theorem hostKept_vfsReset (l : List Nat) : HostKept s (s.vfsReset l) := hostKept_foldl _ (fun _ _ => hostKept_vfReset _) _ _

theorem State.vfsReset_unlocked {l : List Nat} {j : Nat} (hj : j ∈ l) :
    ∀ {s : State}, s.host.tdis.wf = true → ((s.vfsReset l).tdi (j + 1)).state = .unlocked := by
  induction l with
  | nil => cases hj
  | cons i l ih =>
    intro s w
    have wreset := (hostKept_vfReset (s := s) (i + 1)).tdisWf w
    rcases List.mem_cons.1 hj with rfl | hj
    · exact (hostKept_vfsReset l).unlocked wreset _ (State.vfReset_unlocked w (j + 1))
    · exact ih hj wreset

theorem State.numVfsDown_eq (s : State) (n : Nat) : s.numVfsDown n =
    (s.vfsReset ((List.range 8).filter fun i => n ≤ i && i < s.host.numVfs)).onHost fun h => { h with numVfs := n } := rfl

end

end Sys2Proof.Machine

/-! Events of the host side: function resets, link loss, PERST_N, NumVFs, configuration writes and unmasking (spec/16, R342, R343, R351,
R355; spec/23, R472). -/

namespace Sys2Proof.Machine

section

variable {s t : State}

/-! ### The physical function's reset (R351) -/

/-- HOST_PF's registers cleared and the windows of tenant 0 off. -/
def State.pfCleared (s : State) : State :=
  (List.range 16).foldl (fun (s : State) w => if s.winOwner w = 0
      then (s.winDisable w).onHost fun h => { h with wins := h.wins.erase w } else s)
    ((s.onMbx fun x => { x with bells := x.bells.erase idHostPf }).onBus fun u => { u with
      rmb := u.rmb.erase idHostPf, regErr := u.regErr.erase idHostPf, bar4Channel := 0, bar4Enable := false, bar4Base := 0 })

/-- The configuration of the physical function at its reset values. -/
def State.pfConfigured (s : State) : State :=
  s.onHost fun h => { h with irqEn := 0, funcs := h.funcs.erase 0, msix := h.msix.keep fun i _ => i / 4 != 0, cplTimeoutUs := 10000 }

theorem onlyIn_pfConfigured {ps : List Part} (h : Part.host ∈ ps) : OnlyIn ps s s.pfConfigured := onlyIn_onHost _ h

@[simp] theorem State.pfConfigured_irqEn (s : State) : s.pfConfigured.host.irqEn = 0 := rfl

@[simp] theorem State.pfConfigured_bus (s : State) : s.pfConfigured.bus = s.bus := rfl

@[simp] theorem State.pfConfigured_streams (s : State) : s.pfConfigured.host.streams = s.host.streams := rfl

@[simp] theorem State.pfConfigured_linkUp (s : State) : s.pfConfigured.host.linkUp = s.host.linkUp := rfl

@[simp] theorem State.pfConfigured_events (s : State) : s.pfConfigured.host.events = s.host.events := rfl

theorem State.pfReset_eq (s : State) :
    s.pfReset = ((s.pfCleared.pfConfigured.roleChange idHostPf).numVfsDown 0).sessionsEnd false := rfl

theorem State.pfCleared_spec (s : State) :
    OnlyIn hostParts s s.pfCleared ∧ s.pfCleared.bus.bar4Enable = false ∧ s.pfCleared.host.streams = s.host.streams ∧
      s.pfCleared.host.linkUp = s.host.linkUp ∧ ∀ i, s.host.events.getLsbD i = true → s.pfCleared.host.events.getLsbD i = true := by
  have hkept : HostKept ((s.onMbx fun x => { x with bells := x.bells.erase idHostPf }).onBus fun u => { u with
      rmb := u.rmb.erase idHostPf, regErr := u.regErr.erase idHostPf, bar4Channel := 0, bar4Enable := false, bar4Base := 0 }) s.pfCleared :=
    hostKept_foldl _ (fun u w => hostKept_ite (hostQuiet_winsErase w).kept (hostKept_refl u)) _ _
  exact ⟨onlyIn_trans (onlyIn_trans (onlyIn_onMbx _ (by decide)) (onlyIn_onBus _ (by decide))) hkept.frame, hkept.bar4, hkept.streams,
    hkept.linkUp, hkept.events⟩

/-- What a step to fewer functions leaves. -/
structure VfsDown (n : Nat) (s t : State) : Prop where
  frame : OnlyIn hostParts s t
  numVfs : t.host.numVfs = n
  irqEn : t.host.irqEn = s.host.irqEn
  bar4 : t.bus.bar4Enable = s.bus.bar4Enable
  streams : t.host.streams = s.host.streams
  linkUp : t.host.linkUp = s.host.linkUp
  events : ∀ i, s.host.events.getLsbD i = true → t.host.events.getLsbD i = true

theorem VfsDown.of_kept {n : Nat} (h : HostKept s t) : VfsDown n s (t.onHost fun h => { h with numVfs := n }) where
  frame := onlyIn_trans h.frame (onlyIn_onHost _ (by decide))
  numVfs := rfl
  irqEn := h.irqEn
  bar4 := h.bar4
  streams := h.streams
  linkUp := h.linkUp
  events := h.events

theorem State.numVfsDown_spec (s : State) (n : Nat) : VfsDown n s (s.numVfsDown n) := VfsDown.of_kept (hostKept_vfsReset _)

/-- What the reset of the physical function leaves. -/
structure PfReset (s t : State) : Prop where
  frame : OnlyIn hostParts s t
  numVfs : t.host.numVfs = 0
  irqEn : t.host.irqEn = 0
  bar4 : t.bus.bar4Enable = false
  streams : t.host.streams = s.host.streams
  linkUp : t.host.linkUp = s.host.linkUp
  events : ∀ i, s.host.events.getLsbD i = true → t.host.events.getLsbD i = true

/-- The reset goes on from the registers cleared: the role changes, the functions go and the sessions end. -/
theorem PfReset.of_steps {c r d e : State} (hframe : OnlyIn hostParts s c) (hbar4 : c.bus.bar4Enable = false) (hirq : c.host.irqEn = 0)
    (hstreams : c.host.streams = s.host.streams) (hlink : c.host.linkUp = s.host.linkUp)
    (hevents : ∀ i, s.host.events.getLsbD i = true → c.host.events.getLsbD i = true) (hrole : HostKept c r) (hdown : VfsDown 0 r d)
    (hend : HostKept d e) : PfReset s e where
  frame := onlyIn_trans (onlyIn_trans (onlyIn_trans hframe hrole.frame) hdown.frame) hend.frame
  numVfs := hend.numVfs.trans hdown.numVfs
  irqEn := hend.irqEn.trans (hdown.irqEn.trans (hrole.irqEn.trans hirq))
  bar4 := hend.bar4.trans (hdown.bar4.trans (hrole.bar4.trans hbar4))
  streams := hend.streams.trans (hdown.streams.trans (hrole.streams.trans hstreams))
  linkUp := hend.linkUp.trans (hdown.linkUp.trans (hrole.linkUp.trans hlink))
  events i hi := hend.events i (hdown.events i (hrole.events i (hevents i hi)))

theorem State.pfReset_spec (s : State) : PfReset s s.pfReset := by
  obtain ⟨hframe, hbar4, hstreams, hlink, hevents⟩ := s.pfCleared_spec
  rw [State.pfReset_eq]
  refine PfReset.of_steps (c := s.pfCleared.pfConfigured) (onlyIn_trans hframe (onlyIn_pfConfigured (by decide))) ?_ ?_ ?_ ?_ ?_
    (hostQuiet_roleChange _).kept (State.numVfsDown_spec _ 0) (hostKept_sessionsEnd _)
  · rw [State.pfConfigured_bus, hbar4]
  · rw [State.pfConfigured_irqEn]
  · rw [State.pfConfigured_streams, hstreams]
  · rw [State.pfConfigured_linkUp, hlink]
  · rw [State.pfConfigured_events]
    exact hevents

theorem onlyIn_ideDrop {ps : List Part} (h : Part.host ∈ ps) : OnlyIn ps s s.ideDrop := onlyIn_onHost _ h

@[simp] theorem State.ideDrop_numVfs (s : State) : s.ideDrop.host.numVfs = s.host.numVfs := rfl

@[simp] theorem State.ideDrop_irqEn (s : State) : s.ideDrop.host.irqEn = s.host.irqEn := rfl

@[simp] theorem State.ideDrop_events (s : State) : s.ideDrop.host.events = s.host.events := rfl

@[simp] theorem State.ideDrop_linkUp (s : State) : s.ideDrop.host.linkUp = s.host.linkUp := rfl

@[simp] theorem State.ideDrop_streams (s : State) : s.ideDrop.host.streams = [] := rfl

/-- Loss of the link, before the physical function is reset for it. -/
def State.linkLess (s : State) : State := (s.evHost 0 none).onHost fun h => { h with linkUp := false, speed := 0, width := 0 }

theorem State.linkLost_eq (s : State) : s.linkLost = s.linkLess.pfReset.ideDrop := rfl

theorem State.linkLess_host (s : State) :
    s.linkLess.host = { s.host with linkUp := false, speed := 0, width := 0, events := bitSet s.host.events 0 } := by
  rw [State.linkLess, State.onHost_host, State.evHost_host]

theorem onlyIn_linkLost : OnlyIn hostParts s s.linkLost := by
  rw [State.linkLost_eq]
  exact onlyIn_trans (onlyIn_trans (onlyIn_trans (onlyIn_evHost _ _ (by decide) (by decide)) (onlyIn_onHost _ (by decide)))
    (State.pfReset_spec s.linkLess).frame) (onlyIn_ideDrop (by decide))

/-- What the loss of the link leaves. -/
theorem State.linkLost_spec (s : State) : s.linkLost.host.numVfs = 0 ∧ s.linkLost.host.irqEn = 0 ∧
    s.linkLost.host.events.getLsbD 0 = true ∧ s.linkLost.host.linkUp = false ∧ s.linkLost.host.streams = [] := by
  have hreset := s.linkLess.pfReset_spec
  rw [State.linkLost_eq, State.ideDrop_numVfs, State.ideDrop_irqEn, State.ideDrop_events, State.ideDrop_linkUp, State.ideDrop_streams]
  refine ⟨hreset.numVfs, hreset.irqEn, hreset.events 0 ?_, ?_, rfl⟩
  · rw [State.linkLess_host]
    exact getLsbD_bitSet_self _ (by decide)
  · exact hreset.linkUp.trans (by rw [State.linkLess_host])

/-- The reset of the physical function with its event bit set. -/
theorem State.pfReset_evHost (s : State) (i : Nat) (hi : i < 9) : OnlyIn hostParts s (s.evHost i none).pfReset ∧
    (s.evHost i none).pfReset.host.numVfs = 0 ∧ (s.evHost i none).pfReset.host.irqEn = 0 ∧
    (s.evHost i none).pfReset.bus.bar4Enable = false ∧ (s.evHost i none).pfReset.host.events.getLsbD i = true ∧
    (s.evHost i none).pfReset.host.streams = s.host.streams ∧ (s.evHost i none).pfReset.host.linkUp = s.host.linkUp := by
  have hreset := (s.evHost i none).pfReset_spec
  have hhost := s.evHost_host i none
  refine ⟨onlyIn_trans (onlyIn_evHost _ _ (by decide) (by decide)) hreset.frame, hreset.numVfs, hreset.irqEn, hreset.bar4,
    hreset.events i ?_, hreset.streams.trans (by rw [hhost]), hreset.linkUp.trans (by rw [hhost])⟩
  rw [hhost]
  exact getLsbD_bitSet_self _ hi

/-! ### A function's reset -/

theorem State.vfFlrEff_of_exists {vf : Nat} (h : vf ≤ s.host.numVfs) :
    s.vfFlrEff vf = (((s.evHost 2 none).vfReset vf)).sessionsEnd false := if_neg (Nat.not_lt.2 h)

/-- The reset of a function without a tenant. -/
theorem State.vfReset_of_free {vf : Nat} (h : s.b.tentOfVf vf = none) :
    s.vfReset vf = (((s.heldCounted vf).tdiSet vf fun t => { stopOwed := t.stopOwed }).roleChange (idFn vf)).vfRegsReset vf := by
  simp only [State.vfReset, h, Bool.false_eq_true, if_false]
  rfl

/-- The registers of a function without a tenant at their reset values. -/
theorem State.vfRegsReset_of_free {vf : Nat} (h : s.b.tentOfVf vf = none) :
    s.vfRegsReset vf = (((s.onMbx fun x => { x with bells := x.bells.erase (idFn vf) }).onBus fun u =>
      { u with rmb := u.rmb.erase (idFn vf), regErr := u.regErr.erase (idFn vf) }).onHost fun h => { h with
        funcs := h.funcs.erase vf, msix := h.msix.keep fun i _ => i / 4 != vf }) := by
  have h' : (((s.onMbx fun x => { x with bells := x.bells.erase (idFn vf) }).onBus fun u =>
      { u with rmb := u.rmb.erase (idFn vf), regErr := u.regErr.erase (idFn vf) }).onHost fun h => { h with
        funcs := h.funcs.erase vf, msix := h.msix.keep fun i _ => i / 4 != vf }).b.tentOfVf vf = none := h
  simp only [State.vfRegsReset, h']

theorem State.vfRegsReset_of_free_spec {vf : Nat} (h : s.b.tentOfVf vf = none) :
    OnlyIn [.mbx, .bus, .host] s (s.vfRegsReset vf) ∧ (s.vfRegsReset vf).mbx.gens = s.mbx.gens ∧
      (s.vfRegsReset vf).host.funcs = s.host.funcs.erase vf ∧ (s.vfRegsReset vf).host.sessions = s.host.sessions := by
  rw [State.vfRegsReset_of_free h]
  exact ⟨onlyIn_trans (onlyIn_trans (onlyIn_onMbx _ (by decide)) (onlyIn_onBus _ (by decide))) (onlyIn_onHost _ (by decide)), rfl, rfl, rfl⟩

theorem onlyIn_tdiSet {ps : List Part} (vf : Nat) (f : Tdi → Tdi) (h : Part.host ∈ ps) : OnlyIn ps s (s.tdiSet vf f) :=
  onlyIn_ite (fun _ => onlyIn_onHost _ h) (fun _ => onlyIn_trans (onlyIn_onHost _ h) (onlyIn_evVf _ _ h))

theorem onlyIn_heldCounted {ps : List Part} (vf : Nat) (h : Part.host ∈ ps) (k : Part.cnt ∈ ps) : OnlyIn ps s (s.heldCounted vf) :=
  onlyIn_ite (fun _ => onlyIn_evHost _ _ h k) (fun _ => onlyIn_refl _ _)

/-- A function's TDI unlocked for its reset. -/
def State.vfUnlocked (s : State) (vf : Nat) : State := (s.heldCounted vf).tdiSet vf fun t => { stopOwed := t.stopOwed }

theorem onlyIn_vfUnlocked (vf : Nat) : OnlyIn [.host, .cnt] s (s.vfUnlocked vf) :=
  onlyIn_trans (onlyIn_heldCounted vf (by decide) (by decide)) (onlyIn_tdiSet _ _ (by decide))

theorem State.heldCounted_host (s : State) (vf : Nat) :
    (s.heldCounted vf).host.funcs = s.host.funcs ∧ (s.heldCounted vf).host.sessions = s.host.sessions := by
  unfold State.heldCounted
  split
  · rw [State.evHost_host]
    exact ⟨rfl, rfl⟩
  · exact ⟨rfl, rfl⟩

theorem State.tdiSet_host (w : s.host.funcs.wf = true) (vf : Nat) (f : Tdi → Tdi) :
    (s.tdiSet vf f).host.funcs.wf = true ∧ (s.tdiSet vf f).host.sessions = s.host.sessions := by
  unfold State.tdiSet
  dsimp only
  split
  · exact ⟨w, rfl⟩
  · exact ⟨Tab.wf_upd s.host.funcs w vf fun x => { x with events := bitSet x.events 0 }, rfl⟩

/-- The reset of a function without a tenant: its generation rises and its configuration is that of reset. -/
theorem State.vfReset_of_free_spec {vf : Nat} (h : s.b.tentOfVf vf = none) (wfuncs : s.host.funcs.wf = true)
    (wgens : s.mbx.gens.wf = true) (hsessions : s.host.sessions = []) :
    OnlyIn [.host, .mbx, .bus, .cnt, .pwr] s (s.vfReset vf) ∧
      ((s.vfReset vf).mbx.gens.get (vf + 1)).gen = nextGen (s.genOf (vf + 1)) ∧ (s.vfReset vf).host.funcs.get vf = {} ∧
      (s.vfReset vf).host.sessions = [] := by
  have hunlock := onlyIn_vfUnlocked (s := s) vf
  have hrole : OnlyIn [.mbx, .pwr, .cnt] (s.vfUnlocked vf) ((s.vfUnlocked vf).roleChange (idFn vf)) :=
    onlyIn_roleChange _ (by decide) (by decide) (by decide)
  have hboth : OnlyIn [.host, .mbx, .pwr, .cnt] s ((s.vfUnlocked vf).roleChange (idFn vf)) :=
    onlyIn_trans (onlyIn_mono hunlock (by decide)) (onlyIn_mono hrole (by decide))
  have hfuncs : ((s.vfUnlocked vf).roleChange (idFn vf)).host.funcs = (s.vfUnlocked vf).host.funcs := 
    hostField_of_onlyIn HostIf.funcs (fun _ _ => rfl) hrole (by decide)
  have hsess : ((s.vfUnlocked vf).roleChange (idFn vf)).host.sessions = (s.vfUnlocked vf).host.sessions := 
    hostField_of_onlyIn HostIf.sessions (fun _ _ => rfl) hrole (by decide)
  obtain ⟨hcountf, hcounts⟩ := s.heldCounted_host vf
  obtain ⟨wset, hset⟩ := State.tdiSet_host (s := s.heldCounted vf) (by rw [hcountf]; exact wfuncs) vf fun t => { stopOwed := t.stopOwed }
  have hmbx : (s.vfUnlocked vf).mbx = s.mbx := hunlock.rest .mbx (by decide)
  have hid : idFn vf = vf + 1 := Nat.add_comm 1 vf
  have hgen : ((s.vfUnlocked vf).roleChange (idFn vf)).genOf (vf + 1) = nextGen (s.genOf (vf + 1)) := by
    rw [hid, State.genOf_roleChange (by rw [hmbx]; exact wgens), if_pos rfl, State.genOf, hmbx, State.genOf]
  have hfree : ((s.vfUnlocked vf).roleChange (idFn vf)).b.tentOfVf vf = none := by
    rw [State.b_congr (hboth.rest .bind (by decide)), h]
  have heff : s.vfReset vf = ((s.vfUnlocked vf).roleChange (idFn vf)).vfRegsReset vf := State.vfReset_of_free h
  obtain ⟨hregs, hgens, herase, hregsSess⟩ := State.vfRegsReset_of_free_spec hfree
  rw [heff, hgens, herase, hregsSess]
  refine ⟨onlyIn_trans (onlyIn_mono hboth (by decide)) (onlyIn_mono hregs (by decide)), hgen, ?_, ?_⟩
  · exact (Tab.get_erase vf vf 0 _ (by rw [hfuncs]; exact wset)).trans (if_pos rfl)
  · exact hsess.trans (hset.trans (hcounts.trans hsessions))

/-! ### Configuration (R343, R355) -/

theorem State.tdiError_of_free {fn : Nat} (h : s.tdiHeld fn = false) : s.tdiError fn = s := by
  simp [State.tdiError, h]

theorem State.tdiError_of_held {fn : Nat} (h : s.tdiHeld fn = true) (hfree : s.b.tentOfVf fn = none) :
    s.tdiError fn = (s.tdiSet fn fun t => { t with state := .error }).evHost 8 none := by
  have hnone : ((s.tdiSet fn fun t => { t with state := .error }).evHost 8 none).b.tentOfVf fn = none := by
    rw [State.b_congr ((onlyIn_trans (onlyIn_tdiSet (ps := [.host, .cnt]) _ _ (by decide)) (onlyIn_evHost 8 none (by decide)
      (by decide))).rest .bind (by decide))]
    exact hfree
  simp only [State.tdiError, h, if_true, State.removeOf, hnone]

/-- A TDI that was held takes ERROR and sets its function's event bit. -/
theorem State.tdiSet_of_held {fn : Nat} (w : s.host.tdis.wf = true) (h : s.tdiHeld fn = true) :
    (s.tdiSet fn fun t => { t with state := .error }) =
      (s.onHost fun h => { h with tdis := h.tdis.upd fn fun t => { t with state := .error } }).evVf fn 0 := by
  refine if_neg ?_
  rw [State.tdi_onTdis w, if_pos rfl]
  intro heq
  rw [State.tdiHeld, ← heq] at h
  cases h

/-- Bus Master Enable of a function. -/
def State.busMaster (s : State) (fn : Nat) (on : Bool) : State :=
  s.onHost fun h => { h with funcs := h.funcs.upd fn fun f => { f with busMaster := on } }

theorem State.configWrite_busMaster_on {fn v : Nat} (hfn : fn ≤ s.host.numVfs) (hheld : s.tdiHeld fn = false) (hv : v ≠ 0)
    (hoff : (s.host.funcs.get fn).busMaster = false) : s.configWrite fn 1 v = s.busMaster fn true := by
  have hheld' : (s.busMaster fn true).tdiHeld fn = false := hheld
  have hon : (v != 0) = true := bne_iff_ne.2 hv
  have herr := State.tdiError_of_free hheld'
  have hgoal : s.configWrite fn 1 v = if fn = 0 then s.busMaster fn true else (s.busMaster fn true).tdiError fn := by
    simp only [State.configWrite, State.fnExists, hfn, hon, hoff, decide_true, Bool.not_true, Bool.false_eq_true, if_false, if_true]
    rfl
  rw [hgoal, herr, ite_self]

theorem State.configWrite_busMaster_off {fn : Nat} (hfn : fn ≤ s.host.numVfs) (hne : fn ≠ 0)
    (hon : (s.host.funcs.get fn).busMaster = true) : s.configWrite fn 1 0 = (s.busMaster fn false).tdiError fn := by
  have hoff : ((0 : Nat) != 0) = false := rfl
  simp only [State.configWrite, State.fnExists, hfn, hon, hoff, fnTdis, hne, decide_true, Bool.not_true, Bool.false_eq_true,
    Bool.true_eq_false, if_false, List.foldl_cons, List.foldl_nil]
  rfl

theorem State.unmask_of_pending {v : Nat} (hlink : s.host.linkUp = true) (hmask : (s.host.msix.get v).masked = true)
    (hpend : (s.host.msix.get v).pend = true) :
    s.unmask 0 v = (s.onHost fun h => { h with msix := h.msix.upd v fun x => { x with masked := false, pend := false } }).out
      (msixOut 0 v) := by
  have hkey : vecKey 0 v = v := Nat.zero_add v
  simp [State.unmask, State.fnExists, hkey, hmask, hpend, hlink]

theorem State.unmask_of_unmasked {fn v : Nat} (h : (s.host.msix.get (vecKey fn v)).masked = false) : s.unmask fn v = s := by
  simp [State.unmask, h]

end

/-- Settles O41, clause by clause: the operations of the host island keep what `HostKept` lists. -/
theorem hostSideEvents : Obligations.HostSideEvents := by
  unfold Obligations.HostSideEvents
  refine ⟨?vfFlr, ?vfFlrFree, ?pfFlr, ?linkDown, ?busReset, ?linkUp, ?perstReleased, ?perst, ?numVfsUp, ?numVfsDown, ?cplTimeout,
    ?masterOn, ?masterOff, ?unmask, ?unmasked⟩
  case vfFlr =>
    intro s j hl hj w
    have hev := (hostQuiet_evHost (s := s) 2 none).kept
    have hreset := hostKept_vfReset (s := s.evHost 2 none) (j + 1)
    have hend := hostKept_sessionsEnd (s := (s.evHost 2 none).vfReset (j + 1)) false
    have hall := hostKept_trans (hostKept_trans hev hreset) hend
    refine ⟨commit (s.vfFlrEff (j + 1)), next_of_live hl _, ?_⟩
    rw [State.vfFlrEff_of_exists hj, commit_tick, commit_bind, commit_tdi, commit_hostEvents, commit_numVfs]
    refine ⟨hall.frame.rest .tick (by decide), hall.frame.rest .bind (by decide), ?_, ?_, hall.numVfs⟩
    · exact hend.unlocked (hreset.tdisWf (hev.tdisWf w)) _ (State.vfReset_unlocked (hev.tdisWf w) _)
    · refine (hostKept_trans hreset hend).events 2 ?_
      rw [State.evHost_host]
      exact getLsbD_bitSet_self _ (by decide)
  case vfFlrFree =>
    intro s j hl hj wtdis wfuncs wgens hfree hsessions
    have hev : OnlyIn [.host, .cnt] s (s.evHost 2 none) := onlyIn_evHost 2 none (by decide) (by decide)
    have hfree' : (s.evHost 2 none).b.tentOfVf (j + 1) = none := by rw [State.b_congr (hev.rest .bind (by decide)), hfree]
    have hunlock : OnlyIn [.host, .cnt] s ((s.evHost 2 none).vfUnlocked (j + 1)) := onlyIn_trans hev (onlyIn_vfUnlocked _)
    obtain ⟨hframe, hgens, hfuncs, hnone⟩ := State.vfReset_of_free_spec (s := s.evHost 2 none) (vf := j + 1) hfree'
      (by rw [State.evHost_host]; exact wfuncs) (by rw [hev.rest .mbx (by decide)]; exact wgens) (by rw [State.evHost_host]; exact hsessions)
    refine ⟨commit (s.vfFlrEff (j + 1)), next_of_live hl _, ?_⟩
    rw [State.vfFlrEff_of_exists hj, State.sessionsEnd_of_none hnone, commit_mbx, commit_funcs, hgens, hfuncs,
      State.genOf, hev.rest .mbx (by decide)]
    exact ⟨onlyIn_commit (onlyIn_trans (onlyIn_mono hev (by decide)) hframe), rfl, rfl⟩
  case pfFlr =>
    intro s hl
    obtain ⟨hframe, hnum, hirq, hbar4, hevent, hstreams, -⟩ := s.pfReset_evHost 1 (by decide)
    refine ⟨commit (s.evHost 1 none).pfReset, next_of_live hl _, ?_⟩
    rw [commit_tick, commit_bind, commit_numVfs, commit_irqEn, commit_bus, commit_hostEvents, commit_streams]
    exact ⟨hframe.rest .tick (by decide), hframe.rest .bind (by decide), hnum, hirq, hbar4, hevent, hstreams⟩
  case linkDown =>
    intro s hl
    refine ⟨commit s.linkLost, next_of_live hl _, ?_⟩
    rw [commit_tick, commit_bind, commit_numVfs, commit_irqEn, commit_hostEvents, commit_linkUp, commit_streams]
    exact ⟨onlyIn_linkLost.rest .tick (by decide), onlyIn_linkLost.rest .bind (by decide), s.linkLost_spec⟩
  case busReset =>
    intro s hl
    obtain ⟨hframe, hnum, hirq, -, hevent, -, hlink⟩ := s.pfReset_evHost 1 (by decide)
    refine ⟨commit (s.evHost 1 none).pfReset.ideDrop, next_of_live hl _, ?_⟩
    rw [commit_tick, commit_bind, commit_numVfs, commit_irqEn, commit_hostEvents, commit_linkUp, commit_streams,
      State.ideDrop_numVfs, State.ideDrop_irqEn, State.ideDrop_events, State.ideDrop_linkUp, State.ideDrop_streams]
    have hdrop : OnlyIn hostParts s (s.evHost 1 none).pfReset.ideDrop := onlyIn_trans hframe (onlyIn_ideDrop (by decide))
    exact ⟨hdrop.rest .tick (by decide), hdrop.rest .bind (by decide), hnum, hirq, hevent, hlink, rfl⟩
  case linkUp =>
    intro s speed width hl hperst
    have hopen : (!s.live || s.start.perst) = false := by rw [hl, hperst]; rfl
    exact congrArg Host.Outcome.next (if_neg (Bool.eq_false_iff.1 hopen))
  case perstReleased =>
    intro s
    rfl
  case perst =>
    intro s hl hperst
    have hon : (true && !s.start.perst && s.live) = true := by rw [hperst, hl]; rfl
    have hstart : OnlyIn [.start] s (s.onStart fun x => { x with perst := true }) := onlyIn_onStart _ (by decide)
    have hdone : ∀ t : State, OnlyIn hostParts (s.onStart fun x => { x with perst := true }) t → t.host.numVfs = 0 →
        t.host.streams = [] → t.host.linkUp = false → s.perstEff true = t →
        ∃ t, exec (.perstN true) s = .next t ∧ t.tick = s.tick ∧ t.bind = s.bind ∧ t.start = { s.start with perst := true } ∧
          t.host.numVfs = 0 ∧ t.host.streams = [] ∧ t.host.linkUp = false := by
      rintro t hframe hnum hstreams hlink rfl
      refine ⟨commit (s.perstEff true), rfl, ?_⟩
      rw [commit_tick, commit_bind, commit_start, commit_numVfs, commit_streams, commit_linkUp]
      exact ⟨(hframe.rest .tick (by decide)).trans (hstart.rest .tick (by decide)),
        (hframe.rest .bind (by decide)).trans (hstart.rest .bind (by decide)), hframe.rest .start (by decide), hnum, hstreams, hlink⟩
    cases hlink : s.host.linkUp with
    | true =>
      obtain ⟨hnum, -, -, hdown, hstreams⟩ := (s.onStart fun x => { x with perst := true }).linkLost_spec
      refine hdone _ onlyIn_linkLost hnum hstreams hdown ?_
      simp only [State.perstEff, hon, hlink, if_true]
    | false =>
      have hreset := (s.onStart fun x => { x with perst := true }).pfReset_spec
      refine hdone (s.onStart fun x => { x with perst := true }).pfReset.ideDrop
        (onlyIn_trans hreset.frame (onlyIn_ideDrop (by decide))) ?_ ?_ ?_ ?_
      · rw [State.ideDrop_numVfs, hreset.numVfs]
      · rw [State.ideDrop_streams]
      · rw [State.ideDrop_linkUp, hreset.linkUp]
        exact hlink
      · simp only [State.perstEff, hon, hlink, Bool.false_eq_true, if_false, if_true]
  case numVfsUp =>
    intro s n hl hn h8
    have hok : (!s.live || decide (8 < n)) = false := by rw [hl, decide_eq_false (Nat.not_lt.2 h8)]; rfl
    refine congrArg Host.Outcome.next ((if_neg (Bool.eq_false_iff.1 hok)).trans ?_)
    rw [if_neg (Nat.not_lt.2 hn)]
    rfl
  case numVfsDown =>
    intro s n hl hn h8 w
    have hok : (!s.live || decide (8 < n)) = false := by rw [hl, decide_eq_false (by omega)]; rfl
    have hdown := s.numVfsDown_spec n
    have hend := hostKept_sessionsEnd (s := s.numVfsDown n) false
    have hall := onlyIn_trans hdown.frame hend.frame
    have wreset := (hostKept_vfsReset (s := s) ((List.range 8).filter fun i => n ≤ i && i < s.host.numVfs)).tdisWf w
    refine ⟨commit ((s.numVfsDown n).sessionsEnd false), ?_, ?_⟩
    · exact congrArg Host.Outcome.next ((if_neg (Bool.eq_false_iff.1 hok)).trans (by rw [if_pos hn]))
    · rw [commit_tick, commit_bind, commit_numVfs]
      refine ⟨hall.rest .tick (by decide), hall.rest .bind (by decide), hend.numVfs.trans hdown.numVfs, fun j hlo hhi => ?_⟩
      have hj : j.val ∈ (List.range 8).filter fun i => n ≤ i && i < s.host.numVfs := by
        simp [hlo, hhi]
      rw [commit_tdi]
      exact hend.unlocked wreset _ (State.vfsReset_unlocked hj w)
  case cplTimeout =>
    intro s us hl
    exact next_of_live hl _
  case masterOn =>
    intro s f v hl hf hheld hv hoff
    refine (next_of_live hl _).trans ?_
    rw [State.configWrite_busMaster_on hf hheld hv hoff]
    rfl
  case masterOff =>
    intro s j f hf hl hexists hheld hon hfree wtdis wfuncs
    have hne : f.val ≠ 0 := by omega
    have hheld' : (s.busMaster f false).tdiHeld f = true := hheld
    have hset := State.tdiSet_of_held (s := s.busMaster f false) wtdis hheld'
    have hfunc : ((s.busMaster f false).tdiSet f fun t => { t with state := .error }).host.funcs.get f =
        { s.host.funcs.get f with busMaster := false, events := bitSet (s.host.funcs.get f).events 0 } := by
      have hmaster : (s.host.funcs.upd f fun x => { x with busMaster := false }).get f = { s.host.funcs.get f with busMaster := false } :=
        (Tab.get_upd s.host.funcs wfuncs f f _).trans (if_pos rfl)
      rw [hset]
      refine ((Tab.get_upd (s.host.funcs.upd f fun x => { x with busMaster := false }) (Tab.wf_upd _ wfuncs _ _) f f
        fun x => { x with events := bitSet x.events 0 }).trans (if_pos rfl)).trans ?_
      rw [hmaster]
    refine ⟨commit (s.configWrite f 1 0), next_of_live hl _, ?_⟩
    rw [State.configWrite_busMaster_off hexists hne hon, State.tdiError_of_held hheld' hfree, commit_tdi, commit_funcs, commit_hostEvents,
      State.tdi, State.evHost_host]
    refine ⟨onlyIn_commit (onlyIn_trans (onlyIn_trans (onlyIn_onHost _ (by decide)) (onlyIn_tdiSet _ _ (by decide)))
      (onlyIn_evHost _ _ (by decide) (by decide))), ?_, ?_, ?_, getLsbD_bitSet_self _ (by decide)⟩
    · exact (congrArg Tdi.state (State.tdiSet_tdi (s := s.busMaster f false) wtdis f f fun t => { t with state := .error })).trans
        (by rw [if_pos rfl])
    · exact congrArg Func.busMaster hfunc
    · exact (congrArg (fun x => x.events.getLsbD 0) hfunc).trans (getLsbD_bitSet_self _ (by decide))
  case unmask =>
    intro s v hl hlink hmask hpend
    refine (next_of_live hl _).trans ?_
    rw [show s.unmask (0 : Fin 9).val v.val = _ from State.unmask_of_pending hlink hmask hpend]
    rfl
  case unmasked =>
    intro s f v hl h
    refine (next_of_live hl _).trans ?_
    rw [State.unmask_of_unmasked h]

end Sys2Proof.Machine

/-! Host windows, completions and timeouts, IDE keys and streams (spec/16, R347 to R350, R352). -/

namespace Sys2Proof.Machine

section

variable {s t : State} {w m : Nat} {v : Word}

/-! ### Window control (R348, R349) -/

section

variable (hm : s.winMaster w = m)

include hm

theorem State.hswCtrl_of_ok (hv : v.getLsbD 0 = true) (hoff : (s.host.wins.get w).enabled = false) (hok : s.winOk w = true) :
    s.hswCtrl m w v = s.onHost fun h => { h with wins := h.wins.upd w fun x => { x with enabled := true } } := by
  rw [State.hswCtrl, if_neg (not_not_intro hm.symm), if_neg (by rw [hv]; decide), if_neg (by rw [hoff]; decide), if_pos hok]

theorem State.hswCtrl_of_bad (hv : v.getLsbD 0 = true) (hoff : (s.host.wins.get w).enabled = false) (hok : s.winOk w = false) :
    s.hswCtrl m w v = s.evHost 7 none := by
  rw [State.hswCtrl, if_neg (not_not_intro hm.symm), if_neg (by rw [hv]; decide), if_neg (by rw [hoff]; decide),
    if_neg (by rw [hok]; decide)]

theorem State.hswCtrl_of_clear (hv : v.getLsbD 0 = false) : s.hswCtrl m w v = s.winDisable w := by
  simp only [State.hswCtrl, hm, hv, ne_eq, not_true_eq_false, if_false, Bool.not_false, if_true]

end

theorem State.hswCtrl_of_other (h : s.winMaster w ≠ m) : s.hswCtrl m w v = s.regErr m 6 := by
  simp [State.hswCtrl, h.symm]

/-- A window stays off. -/
def WinOff (w : Nat) (s : State) : Prop := s.host.wins.wf = true ∧ (s.host.wins.get w).enabled = false

theorem winOff_congr (h : t.host.wins = s.host.wins) (hs : WinOff w s) : WinOff w t := by
  rw [WinOff, h]
  exact hs

theorem State.winFault_wins (s : State) (w k : Nat) :
    (s.winFault w k).host.wins = s.host.wins.upd w fun x => { x with fault := true } := by
  unfold State.winFault
  dsimp only
  split <;> rfl

theorem WinOff.winFault (h : WinOff w s) (k : Nat) : WinOff w (s.winFault w k) := by
  obtain ⟨wins, hoff⟩ := h
  refine ⟨?_, ?_⟩
  · rw [State.winFault_wins]
    exact Tab.wf_upd _ wins _ _
  · rw [State.winFault_wins, Tab.get_upd _ wins, if_pos rfl]
    exact hoff

/-- A window disabled is off, whatever its transfers and leaves come to. -/
theorem State.winDisable_off (wins : s.host.wins.wf = true) (w : Nat) : WinOff w (s.winDisable w) := by
  have hfold : ∀ (l : List Nat) (u : State), WinOff w u →
      WinOff w (l.foldl (fun (s : State) a => if s.usesWin a w then (s.beatStops a 7).winFault w (s.b.tenantOf a) else s) u) := by
    intro l
    induction l with
    | nil => exact fun u hu => hu
    | cons a l ih =>
      refine fun u hu => ih _ ?_
      dsimp only
      split
      · exact WinOff.winFault (s := u.beatStops a 7) hu _
      · exact hu
  unfold State.winDisable
  split
  next henabled =>
    refine winOff_congr (hostField_of_onlyIn HostIf.wins (fun _ _ => rfl) (onlyIn_tierLost ..) (by decide)) (hfold _ _ ⟨?_, ?_⟩)
    · exact Tab.wf_upd s.host.wins wins w fun x => { x with enabled := false }
    · exact congrArg HostWin.enabled ((Tab.get_upd s.host.wins wins w w fun x => { x with enabled := false }).trans (if_pos rfl))
  next hoff => exact ⟨wins, Bool.eq_false_iff.2 hoff⟩

/-! ### Completions (R350) -/

theorem onlyIn_winFault {ps : List Part} (w k : Nat) (h : Part.host ∈ ps) : OnlyIn ps s (s.winFault w k) := by
  unfold State.winFault
  dsimp only
  split
  · exact onlyIn_trans (onlyIn_onHost _ h) (onlyIn_evVf _ _ h)
  · exact onlyIn_onHost _ h

theorem State.winFault_events (s : State) (w k : Nat) : (s.winFault w k).host.events = s.host.events := by
  unfold State.winFault
  dsimp only
  split <;> rfl

/-- A queue's transfer on a host window ended with HOST_ERROR. -/
def State.hostFailed (s : State) (a bit : Nat) : State :=
  ((s.evHost bit (some a)).winFault (adWin (s.queue a).prog.src) (s.b.tenantOf a)).beatStops a 7

theorem State.hostError_of_source {a bit : Nat} (hbusy : (s.queue a).busy = true) (hpend : (s.queue a).pendCode = none)
    (hsrc : adSpace (s.queue a).prog.src = 2) : s.hostError a bit = s.hostFailed a bit := by
  simp [State.hostError, hbusy, hpend, hsrc, State.hostFailed]

theorem State.hostFailed_spec {a bit : Nat} (wq : s.dma.queues.wf = true) (wwin : s.host.wins.wf = true) :
    OnlyIn [.host, .dma, .cnt] s (s.hostFailed a bit) ∧ ((s.hostFailed a bit).queue a).pendCode = some 7 ∧
      ((s.hostFailed a bit).host.wins.get (adWin (s.queue a).prog.src)).fault = true ∧
      (s.hostFailed a bit).host.events = bitSet s.host.events bit := by
  have hev : OnlyIn [.host, .cnt] s (s.evHost bit (some a)) := onlyIn_evHost _ _ (by decide) (by decide)
  have hfault : OnlyIn [.host, .cnt] s ((s.evHost bit (some a)).winFault (adWin (s.queue a).prog.src) (s.b.tenantOf a)) :=
    onlyIn_trans hev (onlyIn_winFault _ _ (by decide))
  have hstop (u : State) : (u.beatStops a 7).host = u.host := rfl
  refine ⟨onlyIn_trans (onlyIn_mono hfault (by decide)) (onlyIn_beatStops a 7 (by decide)), ?_, ?_, ?_⟩
  · rw [State.hostFailed, State.beatStops, State.queue_onQueue (by rw [hfault.rest .dma (by decide)]; exact wq)]
  · rw [State.hostFailed, hstop, State.winFault_wins, State.evHost_host]
    exact congrArg HostWin.fault ((Tab.get_upd s.host.wins wwin _ _ fun x => { x with fault := true }).trans (if_pos rfl))
  · rw [State.hostFailed, hstop, State.winFault_events, State.evHost_host]

/-! ### IDE (R352) -/

theorem next_of_linked (hl : s.live = true) (hlink : s.host.linkUp = true) (t : State) :
    Host.Outcome.next (if !s.live || !s.host.linkUp then s else t) = (.next t : Host.Outcome State Fault Refusal) := by
  rw [hl, hlink]
  rfl

theorem State.kSetGoEff_of_keys {n : Nat} (h : (s.host.streams.get n).keys1 = true) :
    s.kSetGoEff n true = s.onStream n fun x => { x with keySet := true, secure := true } := by
  simp [State.kSetGoEff, h]

theorem State.kSetGoEff_of_none {n : Nat} (h : (s.host.streams.get n).keys1 = false) : s.kSetGoEff n true = s := by
  simp [State.kSetGoEff, h]

theorem State.onStream_congr {n : Nat} {f g : IdeStream → IdeStream} (h : f (s.host.streams.get n) = g (s.host.streams.get n)) :
    s.onStream n f = s.onStream n g := by
  have hupd : s.host.streams.upd n f = s.host.streams.upd n g := congrArg (s.host.streams.set n) h
  simp only [State.onStream, State.onHost, hupd]

/-- The stop of the key set in use makes the stream Insecure. -/
theorem State.ideKmEff_stop {n : Nat} (h : (s.host.streams.get n).keySet = false) :
    s.ideKmEff n false 1 = s.onStream n fun x => { x with keys0 := false, secure := false } := by
  refine State.onStream_congr ?_
  simp [h]

/-- A stream that failed. -/
def State.ideFailed (s : State) (n : Nat) : State := (s.onStream n fun x => { x with secure := false }).evHost 5 none

theorem State.ideFailed_host (s : State) (n : Nat) : (s.ideFailed n).host =
    { s.host with streams := s.host.streams.upd n fun x => { x with secure := false }, events := bitSet s.host.events 5 } := by
  rw [State.ideFailed, State.evHost_host]
  rfl

theorem onlyIn_ideFailed (n : Nat) : OnlyIn [.host, .cnt] s (s.ideFailed n) :=
  onlyIn_trans (onlyIn_onHost _ (by decide)) (onlyIn_evHost _ _ (by decide) (by decide))

theorem State.ideFail_of_link (h : (s.host.streams.get 0).secure = true) : s.ideFail 0 = s.ideFailed 0 := by
  simp [State.ideFail, h, State.ideFailed]

theorem State.ideFail_of_function {n : Nat} (hn : n ≠ 0) (h : (s.host.streams.get n).secure = true) :
    s.ideFail n = (s.ideFailed n).tdiError n := by
  simp [State.ideFail, h, hn, State.ideFailed]

/-- A held TDI in error: its state, the event bit of the host, and what stays. -/
theorem State.tdiError_spec {n : Nat} (w : s.host.tdis.wf = true) (h : s.tdiHeld n = true) :
    OnlyIn hostParts s (s.tdiError n) ∧ ((s.tdiError n).tdi n).state = .error ∧ (s.tdiError n).host.events.getLsbD 8 = true ∧
      (s.tdiError n).host.streams = s.host.streams := by
  have heff : s.tdiError n = ((s.tdiSet n fun t => { t with state := .error }).evHost 8 none).removeOf n := if_pos h
  have hremove := hostQuiet_removeOf (s := (s.tdiSet n fun t => { t with state := .error }).evHost 8 none) n
  refine ⟨(hostKept_tdiError n).frame, ?_, ?_, (hostKept_tdiError n).streams⟩
  · rw [heff, hremove.tdi, State.tdi, State.evHost_host]
    exact (congrArg Tdi.state (State.tdiSet_tdi w n n fun t => { t with state := .error })).trans (by rw [if_pos rfl])
  · rw [heff]
    refine hremove.events 8 ?_
    rw [State.evHost_host]
    exact getLsbD_bitSet_self _ (by decide)

end

/-- Settles O42, clause by clause. -/
theorem hostWindowsAndStreams : Obligations.HostWindowsAndStreams := by
  unfold Obligations.HostWindowsAndStreams
  refine ⟨?refused, ?enabled, ?enableRefused, ?disabled, ?completed, ?badCompletion, ?timeout, ?keys, ?keysStopped, ?switched, ?notSwitched,
    ?linkFails, ?streamFails⟩
  case refused =>
    intro s w v hl hw
    refine ⟨commit (s.hswCtrl 1 w v), next_of_live hl _, ?_⟩
    rw [State.hswCtrl_of_other hw, commit_bus, commit_cnt]
    exact ⟨onlyIn_commit (onlyIn_regErr _ _ (by decide) (by decide)), State.regErr_bus_host s 6, State.regErr_cnt s 1 6⟩
  case enabled =>
    intro s m w v hl hw hv hoff hok
    refine (next_of_live hl _).trans ?_
    rw [State.hswCtrl_of_ok hw hv hoff hok]
    rfl
  case enableRefused =>
    intro s m w v hl hw hv hoff hok
    refine ⟨commit (s.hswCtrl m w v), next_of_live hl _, ?_⟩
    rw [State.hswCtrl_of_bad hw hv hoff hok, commit_wins, commit_hostEvents, State.evHost_host]
    exact ⟨onlyIn_commit (onlyIn_evHost _ _ (by decide) (by decide)), rfl, rfl⟩
  case disabled =>
    intro s w v hl hw hv wwin
    have hquiet := hostQuiet_winDisable (s := s) w
    obtain ⟨-, hoff⟩ := State.winDisable_off wwin w
    refine ⟨commit (s.hswCtrl 1 w v), next_of_live hl _, ?_⟩
    rw [State.hswCtrl_of_clear hw hv, commit_wins, commit_tick, commit_bind]
    exact ⟨hoff, hquiet.frame.rest .tick (by decide), hquiet.frame.rest .bind (by decide)⟩
  case completed =>
    intro s a hl
    exact next_of_live hl _
  case badCompletion =>
    intro s a n hl hn hbusy hpend hsrc wq wwin
    obtain ⟨hframe, hcode, hfault, hevents⟩ := State.hostFailed_spec (a := a.val) (bit := 4) wq wwin
    refine ⟨commit (if n = 0 then s else s.hostError a 4), next_of_live hl _, ?_⟩
    rw [if_neg hn, State.hostError_of_source hbusy hpend hsrc, commit_queue, commit_wins, commit_hostEvents]
    exact ⟨onlyIn_commit hframe, hcode, hfault, hevents⟩
  case timeout =>
    intro s a hl hbusy hpend hsrc wq wwin
    obtain ⟨hframe, hcode, hfault, hevents⟩ := State.hostFailed_spec (a := a.val) (bit := 3) wq wwin
    refine ⟨commit (s.hostError a 3), next_of_live hl _, ?_⟩
    rw [State.hostError_of_source hbusy hpend hsrc, commit_queue, commit_wins, commit_hostEvents]
    exact ⟨onlyIn_commit hframe, hcode, hfault, hevents⟩
  case keys =>
    intro s n hl hlink
    exact next_of_linked hl hlink _
  case keysStopped =>
    intro s n hl hlink hset
    refine (next_of_linked hl hlink _).trans ?_
    rw [State.ideKmEff_stop hset]
    rfl
  case switched =>
    intro s n hl hlink hkeys
    refine (next_of_linked hl hlink _).trans ?_
    rw [State.kSetGoEff_of_keys hkeys]
    rfl
  case notSwitched =>
    intro s n hl hlink hkeys
    refine (next_of_linked hl hlink _).trans ?_
    rw [State.kSetGoEff_of_none hkeys]
  case linkFails =>
    intro s hl hsecure
    refine ⟨commit (s.ideFail 0), next_of_live hl _, ?_⟩
    rw [State.ideFail_of_link hsecure, commit_host, State.ideFailed_host]
    exact ⟨onlyIn_commit (onlyIn_ideFailed 0), rfl⟩
  case streamFails =>
    intro s n hl hn hsecure hheld wtdis wstreams
    have hhost := s.ideFailed_host n
    have hheld' : (s.ideFailed n).tdiHeld n = true := by
      rw [State.tdiHeld, State.tdi, hhost]
      exact hheld
    obtain ⟨hframe, hstate, hevent, hstreams⟩ := State.tdiError_spec (s := s.ideFailed n) (by rw [hhost]; exact wtdis) hheld'
    have hall : OnlyIn hostParts s ((s.ideFailed n).tdiError n) := onlyIn_trans (onlyIn_mono (onlyIn_ideFailed n) (by decide)) hframe
    refine ⟨commit (s.ideFail n), next_of_live hl _, ?_⟩
    rw [State.ideFail_of_function hn hsecure, commit_tick, commit_bind, commit_tdi, commit_streams, commit_hostEvents, hstreams, hhost]
    refine ⟨hall.rest .tick (by decide), hall.rest .bind (by decide), hstate, ?_, ?_, hevent⟩
    · exact congrArg IdeStream.secure ((Tab.get_upd s.host.streams wstreams _ _ fun x => { x with secure := false }).trans (if_pos rfl))
    · refine (hostKept_tdiError n.val).events 5 ?_
      rw [hhost]
      exact getLsbD_bitSet_self _ (by decide)

end Sys2Proof.Machine

/-! TDISP requests and their answers (spec/16, R354, R355). -/

namespace Sys2Proof.Machine

section

variable {s : State} {n vf k : Nat}

theorem onlyIn_tdispOut {ps : List Part} (vf code st : Nat) (b : List Byte) (h : Part.sent ∈ ps) :
    OnlyIn ps s (s.tdispOut vf code st b) := onlyIn_out _ h

theorem State.tdispReq_of_open (f : State → State) (ho : (s.host.sessions.get n).isOpen = true) (hvf : vf ≤ s.host.numVfs) :
    s.tdispReq n vf f = f s := by
  rw [State.tdispReq, if_neg (by rw [ho]; decide), if_neg (Nat.not_lt.2 hvf)]

@[simp] theorem commit_ten (s : State) (k : Nat) : (commit s).ten k = s.ten k := rfl

/-! ### LOCK and the report -/

/-- A TDI locked in a session under a nonce. -/
def Tdi.lockedBy (nonce : List Byte) (session : Nat) (noFwUpdate : Bool) (t : Tdi) : Tdi :=
  { t with state := .locked, nonce := nonce, session := session, noFwUpdate := noFwUpdate }

/-- The lock entered, and the session that made it named. -/
def State.lockMade (s : State) (n vf : Nat) (c : Bool) : State :=
  ((s.tookFree 32).tdiSet vf (Tdi.lockedBy (s.freeBytes 32) n c)).onHost fun h =>
    { h with sessions := h.sessions.upd n fun x => { x with lockedVf := vf } }

theorem State.tdiLock_of_ok (c : Bool) (hstate : (s.tdi vf).state = .unlocked) (hten : (s.b.tentOfVf vf).isSome = true)
    (hsecure : (s.host.streams.get vf).secure = true) :
    s.tdiLock n vf c = (s.lockMade n vf c).tdispOut vf 0x03 0 (s.freeBytes 32) := by
  have hnone : (s.b.tentOfVf vf).isNone = false := Option.isNone_eq_false_iff.2 hten
  have hne : ((s.tdi vf).state != .unlocked) = false := by rw [hstate]; rfl
  simp only [State.tdiLock, hne, hnone, hsecure, Bool.not_true, Bool.or_self, Bool.false_eq_true, if_false]
  rfl

theorem State.tdiLock_of_refused (c : Bool)
    (h : (s.tdi vf).state ≠ .unlocked ∨ s.b.tentOfVf vf = none ∨ (s.host.streams.get vf).secure = false) :
    s.tdiLock n vf c = s.tdispErr vf 4 := by
  refine if_pos ?_
  rcases h with h | h | h <;> simp [h]

theorem State.lockMade_tdi (w : s.host.tdis.wf = true) (n vf : Nat) (c : Bool) :
    (s.lockMade n vf c).tdi vf = (s.tdi vf).lockedBy (s.freeBytes 32) n c := by
  have hset := State.tdiSet_tdi (s := s.tookFree 32) w vf vf (Tdi.lockedBy (s.freeBytes 32) n c)
  rw [if_pos rfl] at hset
  exact hset

theorem State.tdiSet_freeCount (s : State) (vf : Nat) (f : Tdi → Tdi) : (s.tdiSet vf f).freeCount = s.freeCount :=
  (onlyIn_tdiSet (ps := [.host]) vf f (by decide)).rest .freeCount (by decide)

theorem State.tdiReport_of_held (h : s.tdiHeld vf = true) : ∃ b, s.tdiReport vf = (s.tookFree 8).tdispOut vf 0x04 0 b :=
  ⟨_, if_pos h⟩

/-! ### START (R355, R372) -/

theorem State.tdiStart_of_not_locked (x : List Byte) (hstate : (s.tdi vf).state ≠ .locked) : s.tdiStart vf x = s.tdispErr vf 4 :=
  if_pos (bne_iff_ne.2 hstate)

theorem hostQuiet_drawSlot (k n : Nat) : HostQuiet s (s.drawSlot k n) :=
  hostQuiet_trans (hostQuiet_setSlot k n _)
    (hostQuiet_of_frame (onlyIn_tookFree (ps := [.freeCount]) 1 (by decide)) (by decide) (by decide) (by decide))

theorem State.setSlot_tenants (s : State) (k n : Nat) (x : KeySlot) : (s.setSlot k n x).ksi.tenants = s.ksi.tenants := by
  unfold State.setSlot State.evTen
  split <;> rfl

/-- A tenant's admission begun, its keys drawn. -/
def State.admitDrawn (s : State) (k : Nat) : State :=
  ((s.onTen k fun x => { x with admitPend := true, writeEpoch := false }).epochSlots k false).foldl
    (fun (s : State) n => s.drawSlot k n) (s.onTen k fun x => { x with admitPend := true, writeEpoch := false })

theorem State.admitDrawn_tenants (s : State) (k : Nat) :
    (s.admitDrawn k).ksi.tenants = s.ksi.tenants.upd k fun x => { x with admitPend := true, writeEpoch := false } := by
  have hfold : ∀ (l : List Nat) (u : State), (l.foldl (fun (s : State) n => s.drawSlot k n) u).ksi.tenants = u.ksi.tenants := by
    intro l
    induction l with
    | nil => exact fun _ => rfl
    | cons n l ih => exact fun u => (ih _).trans (State.setSlot_tenants u k n _)
  exact hfold _ _

theorem onlyIn_makeVirgin {ps : List Part} (k : Nat) (h : Part.gddr ∈ ps) : OnlyIn ps s (s.makeVirgin k) := by
  unfold State.makeVirgin State.virginRegion
  exact onlyIn_foldl _ (fun _ _ => onlyIn_onGddr _ h) _ _

/-- The tenant's granules VIRGIN and its regions under epoch 0. -/
def State.admitVirgin (s : State) (k : Nat) : State :=
  (s.makeVirgin k).onGddr fun g => { g with
    regions := g.regions.updAll ((s.sealedRegions k).map (·.region)) fun _ r => { r with epoch := false, cursor := 0 } }

theorem onlyIn_admitVirgin {ps : List Part} (k : Nat) (h : Part.gddr ∈ ps) : OnlyIn ps s (s.admitVirgin k) :=
  onlyIn_trans (onlyIn_makeVirgin k h) (onlyIn_onGddr _ h)

theorem State.admitTenant_eq (s : State) (k : Nat) : s.admitTenant k = ((s.admitDrawn k).admitVirgin k).measureFree 7 k := rfl

theorem State.measureFree_tenants (s : State) (i k : Nat) : (s.measureFree i k).ksi.tenants = s.ksi.tenants := rfl

theorem hostQuiet_admitDrawn (k : Nat) : HostQuiet s (s.admitDrawn k) :=
  hostQuiet_trans (hostQuiet_of_frame (onlyIn_onTen (ps := [.ksi]) k _ (by decide)) (by decide) (by decide) (by decide))
    (hostQuiet_foldl _ (fun _ n => hostQuiet_drawSlot k n) _ _)

theorem hostQuiet_admitTenant (k : Nat) : HostQuiet s (s.admitTenant k) := by
  rw [State.admitTenant_eq]
  exact hostQuiet_trans (hostQuiet_trans (hostQuiet_admitDrawn k)
    (hostQuiet_of_frame (onlyIn_admitVirgin (ps := [.gddr]) k (by decide)) (by decide) (by decide) (by decide)))
    (hostQuiet_of_frame (onlyIn_measureFree 7 k) (by decide) (by decide) (by decide))

theorem State.admitTenant_ten (w : s.ksi.tenants.wf = true) (k : Nat) :
    (s.admitTenant k).ten k = { s.ten k with admitPend := true, writeEpoch := false } := by
  have hvirgin : ((s.admitDrawn k).admitVirgin k).ksi = (s.admitDrawn k).ksi :=
    (onlyIn_admitVirgin (ps := [.gddr]) k (by decide)).rest .ksi (by decide)
  rw [State.ten, State.admitTenant_eq, State.measureFree_tenants, hvirgin, State.admitDrawn_tenants, Tab.get_upd _ w, if_pos rfl]
  rfl

/-- A function's TDI in RUN and its role changed. -/
def State.runStarted (s : State) (vf : Nat) : State := (s.tdiSet vf fun t => { t with state := .run }).roleChange (idFn vf)

theorem onlyIn_runStarted (vf : Nat) : OnlyIn [.host, .mbx, .pwr, .cnt] s (s.runStarted vf) :=
  onlyIn_trans (onlyIn_tdiSet _ _ (by decide)) (onlyIn_roleChange _ (by decide) (by decide) (by decide))

theorem State.runStarted_tdi (w : s.host.tdis.wf = true) (vf : Nat) : (s.runStarted vf).tdi vf = { s.tdi vf with state := .run } := by
  rw [State.runStarted, (hostQuiet_roleChange _).tdi, State.tdiSet_tdi w, if_pos rfl]

theorem State.tdiStart_of_ok {r : TentRec} (hstate : (s.tdi vf).state = .locked) (hr : s.b.tentOfVf vf = some r)
    (hok : s.admissible r.tenant = true) :
    s.tdiStart vf (s.tdi vf).nonce =
      ((s.runStarted vf).admitTenant r.tenant).tdispOut vf 0x06 0 [] := by
  have hlocked : ((s.tdi vf).state != .locked) = false := by rw [hstate]; rfl
  simp only [State.tdiStart, hlocked, bne_self_eq_false, Bool.false_eq_true, if_false, hr, hok, if_true]
  rfl

/-! ### STOP (R355) -/

/-- The stop of a function without a tenant is answered at once. -/
theorem State.tdiStop_of_free (hstate : (s.tdi vf).state ≠ .unlocked) (hfree : s.b.tentOfVf vf = none) :
    s.tdiStop vf = (s.tdiSet vf fun _ => {}).tdispOut vf 0x07 0 [] := by
  have hfree' : (s.tdiSet vf fun _ => {}).b.tentOfVf vf = none := by
    rw [State.b_congr ((onlyIn_tdiSet (ps := [.host]) vf _ (by decide)).rest .bind (by decide)), hfree]
  simp only [State.tdiStop, hstate, if_false, State.removeOf, State.removing, hfree', Bool.false_eq_true]

theorem State.tdiStop_of_unlocked (hstate : (s.tdi vf).state = .unlocked) : s.tdiStop vf = s.tdispErr vf 4 := if_pos hstate

end

/-- Settles O43, clause by clause. -/
theorem tdispRequests : Obligations.TdispRequests := by
  unfold Obligations.TdispRequests
  refine ⟨?version, ?capabilities, ?lock, ?lockRefused, ?report, ?state, ?start, ?startRefused, ?stop, ?stopRefused, ?other⟩
  case version =>
    intro s n j hl ho hj
    refine (next_of_live hl _).trans ?_
    rw [State.tdispReq_of_open _ ho hj]
    rfl
  case capabilities =>
    intro s n j hl ho hj
    refine (next_of_live hl _).trans ?_
    rw [State.tdispReq_of_open _ ho hj]
    rfl
  case lock =>
    intro s n j c hl ho hj hstate hten hsecure w
    have heff : s.tdispReq n (j + 1) (fun s => s.tdiLock n (j + 1) c) =
        (s.lockMade n (j + 1) c).tdispOut (j + 1) 0x03 0 (s.freeBytes 32) := by
      rw [State.tdispReq_of_open _ ho hj, State.tdiLock_of_ok c hstate hten hsecure]
    have hmade := State.lockMade_tdi w n (j + 1) c
    have hout (u : State) (b : List Byte) : (u.tdispOut (j + 1) 0x03 0 b).tdi (j + 1) = u.tdi (j + 1) := rfl
    refine ⟨commit (s.tdispReq n (j + 1) fun s => s.tdiLock n (j + 1) c), next_of_live hl _, ?_⟩
    rw [heff, commit_tdi, commit_freeCount, hout, hmade]
    refine ⟨onlyIn_commit (onlyIn_trans (onlyIn_trans (onlyIn_trans (onlyIn_tookFree 32 (by decide)) (onlyIn_tdiSet _ _ (by decide)))
      (onlyIn_onHost _ (by decide))) (onlyIn_tdispOut _ _ _ _ (by decide))), rfl, ?_⟩
    exact (State.tdiSet_freeCount (s.tookFree 32) (j + 1) _)
  case lockRefused =>
    intro s n j c hl ho hj h
    refine (next_of_live hl _).trans ?_
    rw [State.tdispReq_of_open _ ho hj, State.tdiLock_of_refused c h]
    rfl
  case report =>
    intro s n j hl ho hj hheld
    obtain ⟨b, hb⟩ := State.tdiReport_of_held hheld
    refine ⟨commit (s.tdispReq n (j + 1) fun s => s.tdiReport (j + 1)), next_of_live hl _, ?_⟩
    rw [State.tdispReq_of_open _ ho hj, hb, commit_freeCount]
    exact ⟨onlyIn_commit (onlyIn_trans (onlyIn_tookFree 8 (by decide)) (onlyIn_tdispOut _ _ _ _ (by decide))), rfl⟩
  case state =>
    intro s n j hl ho hj
    refine (next_of_live hl _).trans ?_
    rw [State.tdispReq_of_open _ ho hj]
    rfl
  case start =>
    intro s n j r hl ho hj hstate hr hok wtdis wten
    have hksi : (s.runStarted (j + 1)).ksi = s.ksi := (onlyIn_runStarted _).rest .ksi (by decide)
    have hadmit := hostQuiet_admitTenant (s := s.runStarted (j + 1)) r.tenant
    have hten := State.admitTenant_ten (s := s.runStarted (j + 1)) (by rw [hksi]; exact wten) r.tenant
    rw [show (s.runStarted (j + 1)).ten r.tenant = s.ten r.tenant by rw [State.ten, hksi, State.ten]] at hten
    have hall := onlyIn_trans (onlyIn_mono (onlyIn_runStarted (j + 1)) (by decide)) hadmit.frame
    have hout (u : State) (v : Nat) : (u.tdispOut v 0x06 0 []).ten = u.ten ∧ (u.tdispOut v 0x06 0 []).tdi = u.tdi ∧
        (u.tdispOut v 0x06 0 []).tick = u.tick ∧ (u.tdispOut v 0x06 0 []).bind = u.bind := ⟨rfl, rfl, rfl, rfl⟩
    obtain ⟨houtTen, houtTdi, houtTick, houtBind⟩ := hout ((s.runStarted (j + 1)).admitTenant r.tenant) (j + 1)
    refine ⟨commit (s.tdispReq n (j + 1) fun u => u.tdiStart (j + 1) (s.tdi (j + 1)).nonce), next_of_live hl _, ?_⟩
    rw [State.tdispReq_of_open _ ho hj, State.tdiStart_of_ok hstate hr hok, commit_tdi, commit_ten, commit_tick, commit_bind, houtTen, houtTdi,
      houtTick, houtBind, hadmit.tdi, State.runStarted_tdi wtdis, hten]
    refine ⟨rfl, rfl, ?_, hall.rest .tick (by decide), hall.rest .bind (by decide)⟩
    simp only [State.admissible, Bool.and_eq_true, beq_iff_eq] at hok
    obtain ⟨⟨⟨hstateNone, -⟩, -⟩, -⟩ := hok
    exact hstateNone
  case startRefused =>
    intro s n j x hl ho hj hstate
    refine (next_of_live hl _).trans ?_
    rw [State.tdispReq_of_open _ ho hj, State.tdiStart_of_not_locked x hstate]
    rfl
  case stop =>
    intro s n j hl ho hj hstate hfree w
    have hset := State.tdiSet_tdi w (j + 1) (j + 1) fun _ => {}
    rw [if_pos rfl] at hset
    have hout (u : State) (v : Nat) : (u.tdispOut v 0x07 0 []).tdi v = u.tdi v := rfl
    refine ⟨commit (s.tdispReq n (j + 1) fun s => s.tdiStop (j + 1)), next_of_live hl _, ?_⟩
    rw [State.tdispReq_of_open _ ho hj, State.tdiStop_of_free hstate hfree, commit_tdi, hout, hset]
    exact ⟨onlyIn_commit (onlyIn_trans (onlyIn_tdiSet _ _ (by decide)) (onlyIn_tdispOut _ _ _ _ (by decide))), rfl,
      mem_commit_sent List.mem_cons_self⟩
  case stopRefused =>
    intro s n j hl ho hj hstate
    refine (next_of_live hl _).trans ?_
    rw [State.tdispReq_of_open _ ho hj, State.tdiStop_of_unlocked hstate]
    rfl
  case other =>
    intro s n c j hl ho hj
    refine (next_of_live hl _).trans ?_
    rw [State.tdispReq_of_open _ ho hj]
    rfl

end Sys2Proof.Machine

/-! SPDM sessions and MCTP control (spec/16, R356, R357; spec/17, R383, R384). -/

namespace Sys2Proof.Machine

section

variable {s t : State} {n : Nat}

/-! ### Session numbers -/

/-- The numbers a session may have. -/
def sessionNumbers : List Nat := (List.range 12).map (· + 1)

theorem mem_sessionNumbers {n : Nat} : n ∈ sessionNumbers ↔ 1 ≤ n ∧ n ≤ 12 := by
  simp only [sessionNumbers, List.mem_map, List.mem_range]
  constructor
  · rintro ⟨i, hi, rfl⟩
    omega
  · exact fun h => ⟨n - 1, by omega, by omega⟩

/-- While fewer than twelve sessions are open, one of the twelve numbers is free. -/
theorem State.newSession_spec (h : s.openSessions.length < 12) :
    s.newSession ∉ s.openSessions ∧ 1 ≤ s.newSession ∧ s.newSession ≤ 12 := by
  have hnew : s.newSession = ((sessionNumbers.find? fun n => !s.openSessions.contains n).getD 0) := rfl
  cases hfind : sessionNumbers.find? fun n => !s.openSessions.contains n with
  | none =>
    have hall : sessionNumbers ⊆ s.openSessions := fun n hn => by
      simpa using List.find?_eq_none.1 hfind n hn
    have hle : 12 ≤ s.openSessions.length := List.Nodup.length_le_of_subset (by decide : sessionNumbers.Nodup) hall
    omega
  | some n =>
    rw [hnew, hfind, Option.getD_some]
    exact ⟨by simpa using List.find?_some hfind, mem_sessionNumbers.1 (List.mem_of_find?_eq_some hfind)⟩

/-- What a table holds besides the default stands in it under its key. -/
theorem Tab.mem_of_get {α : Type} [Inhabited α] {k : Nat} : ∀ {t : Tab α}, t.get k ≠ default → (k, t.get k) ∈ t
  | [], h => absurd rfl h
  | (j, v) :: r, h => by
    rw [Tab.get] at h ⊢
    split at h
    next hk =>
      rw [if_pos hk, hk]
      exact List.mem_cons_self
    next hk =>
      split at h
      next => exact absurd rfl h
      next hlt =>
        rw [if_neg hk, if_neg hlt]
        exact List.mem_cons_of_mem _ (Tab.mem_of_get h)

theorem State.session_mem (h : (s.host.sessions.get n).isOpen = true) : (n, s.host.sessions.get n) ∈ s.host.sessions := by
  refine Tab.mem_of_get fun hdefault => ?_
  rw [hdefault] at h
  cases h

theorem State.mem_openSessions (h : (s.host.sessions.get n).isOpen = true) : n ∈ s.openSessions :=
  List.mem_map.2 ⟨(n, s.host.sessions.get n), List.mem_filter.2 ⟨State.session_mem h, h⟩, rfl⟩

theorem State.newSession_closed (h : s.newSession ∉ s.openSessions) : (s.host.sessions.get s.newSession).isOpen = false := by
  exact Bool.eq_false_iff.2 fun hopen => h (State.mem_openSessions hopen)

/-! ### Requests (R356) -/

/-- A session opened now. -/
def State.sessionOpened (s : State) (m : Bool) : Session := { isOpen := true, cert := s.freeCount + 1, overMctp := m, lastBeat := s.tb.time }

theorem State.keyExchangeEff_of_room {m : Bool} (hup : s.spdmUp m = true) (h : s.openSessions.length < 12) :
    s.keyExchangeEff m = ((s.onHost fun x => { x with sessions := x.sessions.set s.newSession (s.sessionOpened m) }).tookFree 1).spdmOut
      0x64 s.newSession [] := by
  simp only [State.keyExchangeEff, hup, Bool.not_true, Bool.false_eq_true, if_false, Nat.not_le.2 h]
  rfl

theorem State.keyExchangeEff_of_full {m : Bool} (hup : s.spdmUp m = true) (h : 12 ≤ s.openSessions.length) :
    s.keyExchangeEff m = s.spdmOut 0x7F 0x0A [] := by
  simp only [State.keyExchangeEff, hup, h, Bool.not_true, Bool.false_eq_true, if_false, if_true]

theorem State.inSession_of_open (f : State → State) (h : (s.host.sessions.get n).isOpen = true) : s.inSession n f = f s := if_pos h

/-- A session erased, before its TDIs are looked at. -/
def State.sessionErased (s : State) (n : Nat) : State := s.onHost fun x => { x with sessions := x.sessions.erase n }

/-- What the end of a session does about one TDI: one that the session holds goes to ERROR. -/
def State.sessionLeaves (n : Nat) (u : State) (i : Nat) : State := if (u.tdi (i + 1)).session = n then u.tdiError (i + 1) else u

theorem State.sessionEnd_of_open (h : (s.host.sessions.get n).isOpen = true) :
    s.sessionEnd n = (List.range 8).foldl (State.sessionLeaves n) (s.sessionErased n) := by
  rw [State.sessionEnd, if_neg (by rw [h]; decide)]
  rfl

/-- A session that holds no TDI ends alone. -/
theorem State.sessionEnd_of_free (h : (s.host.sessions.get n).isOpen = true) (hfree : ∀ i, (s.tdi i).session ≠ n) :
    s.sessionEnd n = s.onHost fun x => { x with sessions := x.sessions.erase n } := by
  rw [State.sessionEnd_of_open h]
  exact foldl_eq_self fun i _ => if_neg (hfree (i + 1))

theorem State.measurements_of_module {i : Nat} (h1 : 1 ≤ i) (h6 : i ≤ 6) :
    s.measurements n i true = s.spdmOut 0x60 i ((s.ksi.measures.get i).acc ++ toLe 4 (s.ksi.measures.get i).count) := by
  rw [State.measurements, if_neg (by omega), if_pos ⟨h1, h6⟩]
  rfl

theorem State.measurements_of_none (raw : Bool) (h : ∀ k, s.sessionFor n k = false) :
    s.measurements n 7 raw = s.spdmOut 0x7F 0x01 [] := by
  have hnone : s.sessionTenant n = none := List.find?_eq_none.2 fun k _ => by rw [h k]; decide
  simp only [State.measurements, if_true, hnone]

/-! ### MCTP (R357) -/

theorem next_of_aon (h : s.aon = true) (t : State) :
    Host.Outcome.next (if !s.aon then s else t) = (.next t : Host.Outcome State Fault Refusal) := by
  rw [h]
  rfl

/-- A session that is closed, in a table in canonical form. -/
def SessionClosed (n : Nat) (s : State) : Prop := s.host.sessions.wf = true ∧ (s.host.sessions.get n).isOpen = false

theorem sessionClosed_congr (h : t.host.sessions = s.host.sessions) (hs : SessionClosed n s) : SessionClosed n t := by
  rw [SessionClosed, h]
  exact hs

/-- A TDI in error leaves sessions and the endpoint as they are. -/
theorem State.tdiError_host (s : State) (vf : Nat) :
    (s.tdiError vf).host.sessions = s.host.sessions ∧ (s.tdiError vf).host.eid = s.host.eid := by
  have hset : ∀ f, (s.tdiSet vf f).host.sessions = s.host.sessions ∧ (s.tdiSet vf f).host.eid = s.host.eid := by
    intro f
    unfold State.tdiSet
    dsimp only
    split <;> exact ⟨rfl, rfl⟩
  have hremove := hostQuiet_trans (hostQuiet_evHost (s := s.tdiSet vf fun t => { t with state := .error }) 8 none) (hostQuiet_removeOf vf)
  obtain ⟨hsess, heid⟩ := hset fun t => { t with state := .error }
  unfold State.tdiError
  split
  · exact ⟨hremove.sessions.trans hsess, hremove.eid.trans heid⟩
  · exact ⟨rfl, rfl⟩

theorem State.sessionLeaves_host (s : State) (m i : Nat) :
    (s.sessionLeaves m i).host.sessions = s.host.sessions ∧ (s.sessionLeaves m i).host.eid = s.host.eid := by
  unfold State.sessionLeaves
  split
  · exact s.tdiError_host (i + 1)
  · exact ⟨rfl, rfl⟩

theorem State.sessionsLeave_host (m : Nat) (l : List Nat) (s : State) :
    (l.foldl (State.sessionLeaves m) s).host.sessions = s.host.sessions ∧ (l.foldl (State.sessionLeaves m) s).host.eid = s.host.eid := by
  induction l generalizing s with
  | nil => exact ⟨rfl, rfl⟩
  | cons i l ih =>
    obtain ⟨hsess, heid⟩ := ih (s.sessionLeaves m i)
    obtain ⟨hsessI, heidI⟩ := s.sessionLeaves_host m i
    exact ⟨hsess.trans hsessI, heid.trans heidI⟩

theorem State.sessionErased_host (s : State) (m : Nat) :
    (s.sessionErased m).host.sessions = s.host.sessions.erase m ∧ (s.sessionErased m).host.eid = s.host.eid := ⟨rfl, rfl⟩

/-- The end of a session erases it and no other, and leaves the endpoint. -/
theorem State.sessionEnd_host (s : State) (m : Nat) :
    (s.sessionEnd m).host.sessions = (if (s.host.sessions.get m).isOpen then s.host.sessions.erase m else s.host.sessions) ∧
      (s.sessionEnd m).host.eid = s.host.eid := by
  cases hopen : (s.host.sessions.get m).isOpen with
  | true =>
    obtain ⟨hsess, heid⟩ := State.sessionsLeave_host m (List.range 8) (s.sessionErased m)
    obtain ⟨hsessE, heidE⟩ := s.sessionErased_host m
    rw [State.sessionEnd_of_open hopen, if_pos rfl]
    exact ⟨hsess.trans hsessE, heid.trans heidE⟩
  | false =>
    rw [State.sessionEnd, if_pos (by rw [hopen]; rfl)]
    exact ⟨rfl, rfl⟩

theorem SessionClosed.sessionEnd (h : SessionClosed n s) (m : Nat) : SessionClosed n (s.sessionEnd m) := by
  obtain ⟨w, hclosed⟩ := h
  rw [SessionClosed, (s.sessionEnd_host m).1]
  split
  · refine ⟨Tab.wfFrom_erase m 0 _ w, ?_⟩
    rw [Tab.get_erase m n 0 _ w]
    split
    · rfl
    · exact hclosed
  · exact ⟨w, hclosed⟩

theorem State.sessionEnd_closed (w : s.host.sessions.wf = true) (n : Nat) : SessionClosed n (s.sessionEnd n) := by
  cases hopen : (s.host.sessions.get n).isOpen with
  | false => exact SessionClosed.sessionEnd ⟨w, hopen⟩ n
  | true =>
    rw [SessionClosed, (s.sessionEnd_host n).1, if_pos hopen, Tab.get_erase n n 0 _ w, if_pos rfl]
    exact ⟨Tab.wfFrom_erase n 0 _ w, rfl⟩

/-- Sessions that end in a row: the endpoint stays, closed sessions stay closed, and those named are. -/
theorem State.sessionEnds_spec (l : List (Nat × Session)) :
    ∀ {s : State}, s.host.sessions.wf = true → (l.foldl (fun (s : State) e => s.sessionEnd e.1) s).host.eid = s.host.eid ∧
      ((SessionClosed n s ∨ ∃ x, (n, x) ∈ l) → SessionClosed n (l.foldl (fun (s : State) e => s.sessionEnd e.1) s)) := by
  induction l with
  | nil =>
    refine fun _ => ⟨rfl, fun h => h.resolve_right ?_⟩
    rintro ⟨x, hx⟩
    cases hx
  | cons e l ih =>
    intro s w
    have wend : (s.sessionEnd e.1).host.sessions.wf = true := (State.sessionEnd_closed w e.1).1
    obtain ⟨heid, hclosed⟩ := ih wend
    refine ⟨heid.trans (s.sessionEnd_host e.1).2, fun h => hclosed ?_⟩
    rcases h with h | ⟨x, hx⟩
    · exact Or.inl (h.sessionEnd e.1)
    · rcases List.mem_cons.1 hx with rfl | hx
      · exact Or.inl (State.sessionEnd_closed w n)
      · exact Or.inr ⟨x, hx⟩

/-- The endpoint's ID set. -/
def State.eidSet (s : State) (e : Nat) : State := s.onHost fun h => { h with eid := e }

theorem State.setEid_of_change {e : Nat} (h0 : e ≠ 0) (h255 : e ≠ 255) (hne : s.host.eid ≠ e) :
    s.setEid e = ((s.eidSet e).sessionsEnd true).mctpOut 1 0 (toLe 1 e) := by
  simp only [State.setEid, h0, h255, hne, or_self, if_false]
  rfl

theorem State.setEid_of_no_session {e : Nat} (h0 : e ≠ 0) (h255 : e ≠ 255) (hnone : s.host.sessions = []) :
    s.setEid e = (s.eidSet e).mctpOut 1 0 (toLe 1 e) := by
  by_cases heq : s.host.eid = e
  · have hset : s.eidSet e = s := by rw [← heq]; rfl
    simp only [State.setEid, h0, h255, heq, or_self, if_false, if_true, hset]
  · rw [State.setEid_of_change h0 h255 heq, State.sessionsEnd_of_none (s := s.eidSet e) hnone]

theorem eid_bounds {e : BitVec 8} (h0 : e ≠ 0) (h255 : e ≠ 255) : e.toNat ≠ 0 ∧ e.toNat ≠ 255 :=
  ⟨fun h => h0 (BitVec.eq_of_toNat_eq h), fun h => h255 (BitVec.eq_of_toNat_eq h)⟩

end

/-- Settles O44, clause by clause. -/
theorem spdmSessions : Obligations.SpdmSessions := by
  unfold Obligations.SpdmSessions
  refine ⟨?opened, ?full, ?ended, ?heartbeat, ?beatLost, ?keyUpdate, ?certificate, ?challenge, ?measured, ?notMeasured⟩
  case opened =>
    intro s m hl hup hroom w
    obtain ⟨hfree, hlo, hhi⟩ := State.newSession_spec hroom
    have hget := (Tab.get_set s.host.sessions w s.newSession s.newSession (s.sessionOpened m)).trans (if_pos rfl)
    refine ⟨commit (s.keyExchangeEff m), next_of_live hl _, ?_⟩
    rw [State.keyExchangeEff_of_room hup hroom]
    refine ⟨onlyIn_commit (onlyIn_trans (onlyIn_trans (onlyIn_onHost _ (by decide)) (onlyIn_tookFree 1 (by decide)))
      (onlyIn_out _ (by decide))), congrArg Session.isOpen hget, congrArg Session.overMctp hget, congrArg Session.lastBeat hget,
      State.newSession_closed hfree, hlo, hhi⟩
  case full =>
    intro s m hl hup hfull
    refine (next_of_live hl _).trans ?_
    rw [State.keyExchangeEff_of_full hup hfull]
    rfl
  case ended =>
    intro s n hl hopen hfree
    refine (next_of_live hl _).trans ?_
    rw [State.inSession_of_open _ hopen, State.sessionEnd_of_free hopen hfree]
    rfl
  case heartbeat =>
    intro s n hl hopen
    refine (next_of_live hl _).trans ?_
    rw [State.inSession_of_open _ hopen]
    rfl
  case beatLost =>
    intro s n hl hopen hfree
    refine (next_of_live hl _).trans ?_
    rw [State.beatLost, State.inSession_of_open _ hopen, State.sessionEnd_of_free hopen hfree]
    rfl
  case keyUpdate =>
    intro s n hl hopen
    refine (next_of_live hl _).trans ?_
    rw [State.inSession_of_open _ hopen]
    rfl
  case certificate =>
    intro s hl
    refine (next_of_live hl _).trans ?_
    rw [if_pos (by rfl)]
    rfl
  case challenge =>
    intro s x hl
    refine (next_of_live hl _).trans ?_
    rw [if_pos (by rfl)]
    rfl
  case measured =>
    intro s n i hl h1 h6
    refine (next_of_live hl _).trans ?_
    rw [State.measurements_of_module h1 h6]
    rfl
  case notMeasured =>
    intro s n raw hl h
    refine (next_of_live hl _).trans ?_
    rw [State.measurements_of_none raw h]
    rfl

/-- Settles O45, clause by clause. -/
theorem mctpControl : Obligations.MctpControl := by
  unfold Obligations.MctpControl
  refine ⟨?setAlone, ?setEnds, ?getEid, ?uuid, ?version, ?types, ?vendor⟩
  case setAlone =>
    intro s e haon h0 h255 hnone
    obtain ⟨hn0, hn255⟩ := eid_bounds h0 h255
    refine (next_of_aon haon _).trans ?_
    rw [State.setEid_of_no_session hn0 hn255 hnone]
    rfl
  case setEnds =>
    intro s e n haon h0 h255 hne w hopen hmctp
    obtain ⟨hn0, hn255⟩ := eid_bounds h0 h255
    have hmem : (n, s.host.sessions.get n) ∈ (s.eidSet e.toNat).host.sessions.filter fun x => x.2.isOpen && x.2.overMctp == true :=
      List.mem_filter.2 ⟨State.session_mem hopen, by rw [hopen, hmctp]; rfl⟩
    obtain ⟨heid, hclosed⟩ := State.sessionEnds_spec (n := n)
      ((s.eidSet e.toNat).host.sessions.filter fun x => x.2.isOpen && x.2.overMctp == true) (s := s.eidSet e.toNat) w
    obtain ⟨-, hended⟩ := hclosed (Or.inr ⟨_, hmem⟩)
    refine ⟨commit (s.setEid e.toNat), next_of_aon haon _, ?_⟩
    rw [State.setEid_of_change hn0 hn255 hne]
    exact ⟨heid, hended⟩
  case getEid =>
    intro s haon
    exact next_of_aon haon _
  case uuid =>
    intro s haon
    exact next_of_aon haon _
  case version =>
    intro s haon
    exact next_of_aon haon _
  case types =>
    intro s haon
    exact next_of_aon haon _
  case vendor =>
    intro s haon
    exact next_of_aon haon _

end Sys2Proof.Machine

/-! The tray protocol (spec/16 R358; spec/21 R442, R443; spec/23 R489). -/

namespace Sys2Proof.Machine

section

variable {s t : State}

/-! ### Power of a role change -/

/-- The power part but for its domains stays as it was. -/
def DomainsOnly (s t : State) : Prop := ∃ d, t.pwr = { s.pwr with domains := d }

theorem domainsOnly_of_eq (h : t.pwr = s.pwr) : DomainsOnly s t := ⟨s.pwr.domains, h⟩

theorem domainsOnly_trans {u : State} (h1 : DomainsOnly s t) (h2 : DomainsOnly t u) : DomainsOnly s u := by
  obtain ⟨d, hd⟩ := h1
  obtain ⟨e, he⟩ := h2
  exact ⟨e, by rw [he, hd]⟩

theorem domainsOnly_wake (id m : Nat) : DomainsOnly s (s.wake id m) := by
  unfold State.wake
  split
  · exact domainsOnly_of_eq rfl
  · split
    · split
      · exact domainsOnly_of_eq rfl
      · split
        · exact ⟨_, rfl⟩
        · exact domainsOnly_of_eq (by rw [State.count_pwr])
    · exact domainsOnly_of_eq rfl

theorem domainsOnly_roleSide {id : Nat} {r : MboxRec} (b : Bool) : DomainsOnly s (State.roleSide id r s b) := by
  unfold State.roleSide
  split
  · exact domainsOnly_of_eq rfl
  · exact domainsOnly_trans (domainsOnly_of_eq rfl) (domainsOnly_wake ..)

theorem domainsOnly_roleRec {id : Nat} {r : MboxRec} : DomainsOnly s (State.roleRec id s r) := by
  unfold State.roleRec
  split
  · exact domainsOnly_of_eq rfl
  · exact domainsOnly_trans (domainsOnly_roleSide false) (domainsOnly_roleSide true)

theorem domainsOnly_roleRecs (id : Nat) (l : List MboxRec) : DomainsOnly s (l.foldl (State.roleRec id) s) := by
  induction l generalizing s with
  | nil => exact domainsOnly_of_eq rfl
  | cons r l ih => exact domainsOnly_trans domainsOnly_roleRec ih

/-- A role change wakes masters, so it changes the power of cores' domains alone. -/
theorem domainsOnly_roleChange (id : Nat) : DomainsOnly s (s.roleChange id) := by
  rw [State.roleChange_eq]
  exact domainsOnly_trans (domainsOnly_of_eq rfl) (domainsOnly_roleRecs id _)

/-! ### Requests -/

theorem State.aon_of_live (h : s.live = true) : s.aon = true := by
  rw [State.live, Bool.and_eq_true] at h
  rw [State.aon, h.1, Bool.true_or]

theorem State.trayReq_of_live (hl : s.live = true) (he : s.host.eid ≠ 0) (cmd tag : Nat) (f : State → State) :
    s.trayReq cmd tag f = f s := by
  simp only [State.trayReq, State.aon_of_live hl, hl, beq_eq_false_iff_ne.2 he, Bool.not_true, Bool.or_self, Bool.false_eq_true,
    if_false]

theorem State.trayReq_of_stopped (ha : s.aon = true) (hl : s.live = false) (he : s.host.eid ≠ 0) (cmd tag : Nat) (f : State → State) :
    s.trayReq cmd tag f = s.trayOut cmd tag 3 [] := by
  simp only [State.trayReq, ha, hl, beq_eq_false_iff_ne.2 he, Bool.not_true, Bool.not_false, Bool.or_self, Bool.false_eq_true,
    if_false, if_true]

theorem State.regAt_tickEvents_tray (s : State) : s.regAt idTray 0x4104 = some .tickEvents := rfl

theorem State.trayRead_tickEvents (tag : Nat) :
    s.trayRead tag 0x4104 = (s.returns s.tick.events.toNat).trayOut 0x01 tag 0 (toLe 4 (s.returns s.tick.events.toNat).bus.readData.toNat) := by
  have hread : s.read4 idTray 0x4104 = (s.tick.events.toNat, s) := by
    simp only [State.read4, s.regAt_tickEvents_tray]
    rfl
  rw [State.trayRead, s.access_read_four idTray 0 rfl, hread]

theorem State.trayWrite_tickEvents (tag : Nat) (v : Word) :
    s.trayWrite tag 0x4104 v =
      ((s.onTick fun x => { x with events := x.events &&& ~~~ v }).reArm 0 1).trayOut 0x02 tag 0 [] := by
  have hwrite : s.write4 idTray 0x4104 v = (s.onTick fun x => { x with events := x.events &&& ~~~ v }).reArm 0 1 := by
    simp only [State.write4, s.regAt_tickEvents_tray]
    rfl
  have hclosed : trayClosed 0x4104 = false := by decide
  rw [State.trayWrite, if_neg (by rw [hclosed]; decide), s.regAt_tickEvents_tray, if_neg (by decide),
    s.access_write_four idTray _ rfl]
  simp only [BitVec.setWidth_setWidth_of_le, Nat.reduceLeDiff, BitVec.setWidth_eq, hwrite]

theorem State.trayWrite_of_closed (tag : Nat) {off : Nat} (v : Word) (h : 0x4000000 ≤ off) :
    s.trayWrite tag off v = s.trayOut 0x02 tag 1 [] :=
  if_pos (by rw [trayClosed, decide_eq_true h, Bool.true_or])

/-! ### Heartbeat and cap -/

theorem State.beat1_of_bound (h : s.bound = true) : s.beat1 = s.onPwr fun p => { p with beating := true, lastBeat := s.tb.time } := if_pos h

theorem onlyIn_beat1 {ps : List Part} (h : Part.pwr ∈ ps) : OnlyIn ps s s.beat1 := by
  unfold State.beat1
  split
  · exact onlyIn_onPwr _ h
  · exact onlyIn_refl _ _

theorem State.beat1_lost : s.beat1.pwr.trayLost = s.pwr.trayLost := by
  unfold State.beat1
  split <;> rfl

theorem State.beat1_gens : s.beat1.mbx.gens = s.mbx.gens := by
  unfold State.beat1
  split <;> rfl

/-- What a heartbeat leaves after a loss: the tray is back and its role changed. -/
def State.trayBack (s : State) : State := (s.beat1.onPwr fun p => { p with trayLost := false }).roleChange idTray

theorem State.heartbeatEff_of_kept (h : s.pwr.trayLost = false) (tag : Nat) :
    s.heartbeatEff tag = s.beat1.trayOut 0x10 tag 0 s.beat1.beatBytes := by
  simp only [State.heartbeatEff, State.beat1_lost, h, Bool.false_eq_true, if_false]

theorem State.heartbeatEff_of_lost (h : s.pwr.trayLost = true) (tag : Nat) :
    s.heartbeatEff tag = s.trayBack.trayOut 0x10 tag 0 s.trayBack.beatBytes := by
  simp only [State.heartbeatEff, State.beat1_lost, h, if_true]
  rfl

theorem State.trayBack_lost : s.trayBack.pwr.trayLost = false := by
  obtain ⟨d, hd⟩ := domainsOnly_roleChange (s := s.beat1.onPwr fun p => { p with trayLost := false }) idTray
  rw [State.trayBack, hd]
  rfl

theorem onlyIn_trayBack : OnlyIn [.pwr, .mbx, .cnt] s s.trayBack :=
  onlyIn_trans (onlyIn_trans (onlyIn_beat1 (by decide)) (onlyIn_onPwr _ (by decide)))
    (onlyIn_roleChange idTray (by decide) (by decide) (by decide))

theorem onlyIn_trayOut {ps : List Part} (cmd tag status : Nat) (b : List Byte) (h : Part.sent ∈ ps) :
    OnlyIn ps s (s.trayOut cmd tag status b) := onlyIn_out _ h

theorem State.capSetEff_of_bad (tag : Nat) {cap : Nat} (h : cap < 36 ∨ 650 < cap) : s.capSetEff tag cap = s.trayOut 0x11 tag 2 [] :=
  if_pos (by rcases h with h | h <;> simp [h])

theorem State.capSetEff_of_good (tag : Nat) {cap : Nat} (h1 : 36 ≤ cap) (h2 : cap ≤ 650) :
    s.capSetEff tag cap = ((s.capTake cap).onPwr fun p => { p with safe := false }).beat1.trayOut 0x11 tag 0 [] :=
  if_neg (by simp; omega)

theorem onlyIn_capTake {ps : List Part} (cap : Nat) (h : Part.pwr ∈ ps) (k : Part.cnt ∈ ps) : OnlyIn ps s (s.capTake cap) :=
  onlyIn_trans (onlyIn_onPwr _ h) (onlyIn_evPwr 0 h k)

theorem State.evPwr_pwr (i : Nat) : (s.evPwr i).pwr = { s.pwr with events := bitSet s.pwr.events i } := by
  rw [State.evPwr, State.count_pwr, State.onPwr_pwr]

theorem State.evPwr_tb (i : Nat) : (s.evPwr i).tb = s.tb := by
  rw [State.evPwr, State.count_tb, State.onPwr_tb]

theorem State.evPwr_bound (i : Nat) : (s.evPwr i).bound = s.bound := by
  rw [State.evPwr, State.bound, State.count_bind, State.onPwr_bind]
  rfl

theorem State.capTake_tb (cap : Nat) : (s.capTake cap).tb = s.tb := State.evPwr_tb 0

theorem State.capTake_bound (cap : Nat) : (s.capTake cap).bound = s.bound := State.evPwr_bound 0

theorem State.capTake_of_released (h : s.pwr.pcapPin = false) (cap : Nat) :
    (s.capTake cap).pwr = { s.pwr with capNext := some cap, fastTarget := 0, events := bitSet s.pwr.events 0 } := by
  rw [State.capTake, State.evPwr_pwr, State.onPwr_pwr, if_neg (by rw [h]; decide)]

theorem State.capTake_of_pinned (h : s.pwr.pcapPin = true) {cap : Nat} (hlow : cap < profileWatts s.pwr.profile) :
    (s.capTake cap).pwr = { s.pwr with
      cap := cap, capNext := none, fastTarget := 0, fast := true, degraded := true, events := bitSet s.pwr.events 0 } := by
  rw [State.capTake, State.evPwr_pwr, State.onPwr_pwr, if_pos h, decide_eq_true hlow, Bool.or_true, Bool.or_true]

theorem State.beat1_pwr : ∃ b l, s.beat1.pwr = { s.pwr with beating := b, lastBeat := l } := by
  unfold State.beat1
  split
  · exact ⟨_, _, rfl⟩
  · exact ⟨s.pwr.beating, s.pwr.lastBeat, rfl⟩

theorem onlyIn_capAnswer (tag cap : Nat) : OnlyIn [.pwr, .cnt, .sent] s
    (((s.capTake cap).onPwr fun p => { p with safe := false }).beat1.trayOut 0x11 tag 0 []) :=
  onlyIn_trans (onlyIn_trans (onlyIn_trans (onlyIn_capTake cap (by decide) (by decide)) (onlyIn_onPwr _ (by decide)))
    (onlyIn_beat1 (by decide))) (onlyIn_trayOut _ _ _ _ (by decide))

/-! ### Images -/

theorem State.imageBlockEff_of_bad (tag typ v : Nat) (c : Word) (b : List Byte) {cmd n : Nat} (h : cmd = 0 ∨ 6 < cmd ∨ 4096 < n) :
    s.imageBlockEff tag cmd typ v n c b = s.trayOut 0x20 tag 2 [] :=
  if_pos (by rcases h with h | h | h <;> simp [h])

/-- An image command answered, with the registers of the host's commands back. -/
def State.imageAnswer (s u : State) (tag : Nat) : State :=
  let r := u.onImg fun x => { x with offset := s.img.offset, blkLen := s.img.blkLen, crc := s.img.crc, buf := s.img.buf }
  r.trayOut 0x20 tag (if r.img.result = 0 then 0 else if r.img.result = 1 then 3 else 2) []

theorem State.imageAnswer_img (s u : State) (tag : Nat) : (s.imageAnswer u tag).img =
    { u.img with offset := s.img.offset, blkLen := s.img.blkLen, crc := s.img.crc, buf := s.img.buf } := rfl

theorem onlyIn_imageAnswer (s u : State) (tag : Nat) : OnlyIn [.img, .sent] u (s.imageAnswer u tag) :=
  onlyIn_trans (onlyIn_onImg _ (by decide)) (onlyIn_trayOut _ _ _ _ (by decide))

/-- ABORT of a transfer that no other master holds, over IMAGE_BLOCK. -/
theorem State.imageBlockEff_abort (tag : Nat) (c : Word) {b : List Byte} (hb : b.length = 4096) (hs : s.img.state = .idle) :
    s.imageBlockEff tag 4 0 0 4096 c b =
      s.imageAnswer ((s.onImg fun x => { x with offset := 0, blkLen := 4096#13, crc := c, buf := wrBytes [] 0 b }).imgDone 0
        fun x => { x with state := .idle, busy := false, blocks := [], data := [], detail := 0 }) tag := by
  have hcmd := State.imgCmd_of_taken (s := s.onImg fun x => { x with offset := 0, blkLen := 4096#13, crc := c, buf := wrBytes [] 0 b })
    (m := 0x41) (.inr rfl) (by simp [hs]) fun s =>
      s.imgDone 0 fun x => { x with state := .idle, busy := false, blocks := [], data := [], detail := 0 }
  rw [State.imageBlockEff, if_neg (by simp [hb])]
  dsimp only
  rw [show (s.onImg fun x => { x with
      offset := BitVec.ofNat 32 0, blkLen := BitVec.ofNat 13 4096, crc := c, buf := wrBytes [] 0 b }).imageRun 4 0 0 = _ from hcmd]
  rfl

end

/-- Settles O46, clause by clause: each request as its own effect followed by its answer. -/
theorem trayProtocol : Obligations.TrayProtocol := by
  unfold Obligations.TrayProtocol
  refine ⟨?busy, ?read, ?denied, ?write, ?beat, ?beatBack, ?capBad, ?capSoon, ?capNow, ?imageBad, ?abort, ?status⟩
  case busy =>
    intro s tag off ha he hl
    exact congrArg (fun t => Host.Outcome.next (commit t)) (State.trayReq_of_stopped ha hl he ..)
  case read =>
    intro s tag hl he
    have hdata : (s.returns s.tick.events.toNat).bus.readData.toNat = s.tick.events.toNat := by
      rw [State.returns, State.onBus_bus, BitVec.toNat_ofNat]
      exact Nat.mod_eq_of_lt (by omega)
    refine ⟨_, congrArg (fun t => Host.Outcome.next (commit t)) ((State.trayReq_of_live hl he ..).trans (State.trayRead_tickEvents tag)),
      onlyIn_commit ?_, mem_commit_sent ?_⟩
    · exact onlyIn_trans (onlyIn_onBus _ (by decide)) (onlyIn_trayOut _ _ _ _ (by decide))
    · rw [hdata]
      exact List.mem_cons_self
  case denied =>
    intro s tag off v hl he hoff
    exact congrArg (fun t => Host.Outcome.next (commit t)) ((State.trayReq_of_live hl he ..).trans (State.trayWrite_of_closed tag v hoff))
  case write =>
    intro s tag v hl he
    refine ⟨_, congrArg (fun t => Host.Outcome.next (commit t)) ((State.trayReq_of_live hl he ..).trans (State.trayWrite_tickEvents tag v)),
      onlyIn_commit ?_, ?_, mem_commit_sent List.mem_cons_self⟩
    · exact onlyIn_trans (onlyIn_trans (onlyIn_onTick _ (by decide)) (onlyIn_onHost _ (by decide))) (onlyIn_trayOut _ _ _ _ (by decide))
    · rw [commit_tick]
      rfl
  case beat =>
    intro s tag n hl he hlost hb
    refine congrArg (fun t => Host.Outcome.next (commit t)) ((State.trayReq_of_live hl he ..).trans (State.heartbeatEff_of_kept hlost tag)) |>.trans ?_
    rw [State.beat1_of_bound hb]
    rfl
  case beatBack =>
    intro s tag n hl he hlost w
    refine ⟨_, congrArg (fun t => Host.Outcome.next (commit t))
      ((State.trayReq_of_live hl he ..).trans (State.heartbeatEff_of_lost hlost tag)), ?_, ?_, ?_⟩
    · exact onlyIn_commit (onlyIn_trans (onlyIn_mono onlyIn_trayBack (by decide)) (onlyIn_trayOut _ _ _ _ (by decide)))
    · rw [commit_pwr]
      exact State.trayBack_lost
    · rw [commit_mbx]
      have hgen := State.genOf_roleChange (s := s.beat1.onPwr fun p => { p with trayLost := false })
        (by rw [State.onPwr_mbx, State.beat1_gens]; exact w) idTray idTray
      rw [if_pos rfl] at hgen
      refine hgen.trans ?_
      rw [nextGen, State.genOf, State.onPwr_mbx, State.beat1_gens]
  case capBad =>
    intro s tag cap hl he hcap
    exact congrArg (fun t => Host.Outcome.next (commit t)) ((State.trayReq_of_live hl he ..).trans (State.capSetEff_of_bad tag hcap))
  case capSoon =>
    intro s tag cap hl he h1 h2 hpin hb
    refine ⟨_, congrArg (fun t => Host.Outcome.next (commit t)) ((State.trayReq_of_live hl he ..).trans (State.capSetEff_of_good tag h1 h2)),
      onlyIn_commit (onlyIn_capAnswer tag cap), ?_⟩
    have hbound : ((s.capTake cap).onPwr fun p => { p with safe := false }).bound = true := (State.capTake_bound cap).trans hb
    rw [commit_pwr, State.beat1_of_bound hbound]
    change { (s.capTake cap).pwr with safe := false, beating := true, lastBeat := (s.capTake cap).tb.time } = _
    rw [State.capTake_of_released hpin, State.capTake_tb]
  case capNow =>
    intro s tag cap hl he h1 hlow h2 hpin
    refine ⟨_, congrArg (fun t => Host.Outcome.next (commit t)) ((State.trayReq_of_live hl he ..).trans (State.capSetEff_of_good tag h1 h2)),
      onlyIn_commit (onlyIn_capAnswer tag cap), ?_⟩
    obtain ⟨b, l, hbeat⟩ := ((s.capTake cap).onPwr fun p => { p with safe := false }).beat1_pwr
    have hpwr : (((s.capTake cap).onPwr fun p => { p with safe := false }).beat1.trayOut 0x11 tag 0 []).pwr =
        { (s.capTake cap).pwr with safe := false, beating := b, lastBeat := l } := hbeat
    rw [commit_pwr, hpwr, State.capTake_of_pinned hpin hlow]
    exact ⟨rfl, rfl, rfl, rfl⟩
  case imageBad =>
    intro s tag cmd typ v n c b hl he hbad
    exact congrArg (fun t => Host.Outcome.next (commit t)) ((State.trayReq_of_live hl he ..).trans (State.imageBlockEff_of_bad tag typ v c b hbad))
  case abort =>
    intro s tag c b hl he hb hs hbusy
    refine ⟨_, congrArg (fun t => Host.Outcome.next (commit t))
      ((State.trayReq_of_live hl he ..).trans (State.imageBlockEff_abort tag c hb hs)), onlyIn_commit ?_, ?_⟩
    · exact onlyIn_trans (onlyIn_trans (onlyIn_onImg _ (by decide)) (onlyIn_onImg _ (by decide))) (onlyIn_imageAnswer s _ tag)
    · rw [commit_img, State.imageAnswer_img]
      exact ⟨rfl, rfl, rfl, rfl⟩
  case status =>
    intro s tag hl he
    exact congrArg (fun t => Host.Outcome.next (commit t)) (State.trayReq_of_live hl he ..)

end Sys2Proof.Machine

/-! The KSI's services to a tenant's session (spec/17, R371, R373 to R375, R385, R388). -/

namespace Sys2Proof.Machine

section

variable {s t : State} {session k : Nat}

/-! ### What a service is -/

theorem State.service_of_allowed {code : Nat} {allowed : Bool} (hl : s.live = true) (hs : s.sessionFor session k = true)
    (ha : allowed = true) (f : State → State) : s.service session k code allowed f = f s := by
  simp only [State.service, hl, hs, ha, Bool.not_true, Bool.false_eq_true, Bool.and_self, if_false, if_true]

theorem State.service_of_denied (hl : s.live = true) (hs : s.sessionFor session k = false) (code : Nat) (allowed : Bool)
    (f : State → State) : s.service session k code allowed f = s.ksiOut code 1 [] := by
  simp only [State.service, hl, hs, Bool.not_true, Bool.false_and, Bool.false_eq_true, if_false]

/-- A tenant's own data after an update of it. -/
theorem State.onTen_ten (w : s.ksi.tenants.wf = true) (f : Tenant → Tenant) : (s.onTen k f).ten k = f (s.ten k) :=
  (Tab.get_upd s.ksi.tenants w k k f).trans (if_pos rfl)

theorem State.ksiOut_ten (c st : Nat) (b : List Byte) : (s.ksiOut c st b).ten k = s.ten k := rfl

theorem State.tookFree_ten (n : Nat) : (s.tookFree n).ten k = s.ten k := rfl

/-! ### The services -/

theorem State.keyDeliverEff_of_good {m : Nat} (hl : s.live = true) (hs : s.sessionFor session k = true) (ha : s.isAdmitted k = true)
    (h1 : 1 ≤ m) (h2 : m ≤ 0xFFFFFFFF) (hroom : (s.ten k).models.length < 16) (key : List Byte) :
    s.keyDeliverEff session k m key = (s.onTen k fun x => { x with models := x.models.set m (sliceZ key 0 32) }).ksiOut 1 0 [] := by
  have hm : ¬ ((decide (m = 0) || decide (0xFFFFFFFF < m)) = true) := by simp; omega
  rw [State.keyDeliverEff, State.service_of_allowed hl hs ha, if_neg hm, if_neg (by simp; omega)]

theorem State.weightLoadEff_of_good {x : WLoad} {a : Nat} (hl : s.live = true) (hs : s.sessionFor session k = true)
    (ha : s.isAdmitted k = true) (hargs : s.loadArgs k x = true) (hnone : (s.ten k).load = none)
    (hseal : s.b.sealAct k ((s.b.region x.dstRegion).elim 0 (·.channel)) = some a) :
    s.weightLoadEff session k x = (s.onTen k fun t => { t with load := some { x with activity := a } }).ksiOut 2 0 [] := by
  rw [State.weightLoadEff, State.service_of_allowed hl hs (by rw [ha]; rfl)]
  simp only [hargs, hnone, hseal, Bool.not_true, Bool.false_eq_true, if_false, Option.isSome_none]

theorem State.rotateEff_of_ready (hl : s.live = true) (hs : s.sessionFor session k = true) (hst : (s.ten k).state = .admitted)
    (hp : (s.ten k).rotatePend = false) (ho : s.otherEmpty k = true) (hk : k ≠ 0) :
    s.rotateEff session k = (s.onTen k fun x => { x with rotatePend := true }).ksiOut 3 0 [] := by
  rw [State.rotateEff, State.service_of_allowed hl hs rfl, if_pos]
  rw [hst, hp, ho, bne_iff_ne.2 hk]
  rfl

theorem State.rotateEff_of_rotating (hl : s.live = true) (hs : s.sessionFor session k = true) (hst : (s.ten k).state = .rotating) :
    s.rotateEff session k = s.ksiOut 3 3 [] := by
  rw [State.rotateEff, State.service_of_allowed hl hs rfl, if_neg]
  simp [hst]

/-- A consent that a record names pends. -/
def Consent.asked (r : List Byte) (c : Consent) (i : Nat) : Consent :=
  if (u8 r 1).testBit i then { c with pend := true, ending := false, expires := u64 r 8 } else c

theorem State.consentEff_of_bad (hl : s.live = true) (hs : s.sessionFor session k = true) (ha : s.isAdmitted k = true) {r : List Byte}
    (hok : s.consentOk session k r = false) : s.consentEff session k r = s.ksiOut 4 2 [] := by
  rw [State.consentEff, State.service_of_allowed hl hs ha, if_pos (by rw [hok]; rfl)]

theorem State.consentEff_of_good (hl : s.live = true) (hs : s.sessionFor session k = true) (ha : s.isAdmitted k = true) {r : List Byte}
    (hok : s.consentOk session k r = true) :
    s.consentEff session k r = (s.onTen k fun x =>
      { x with debugging := x.debugging.asked r 0, counters := x.counters.asked r 1 }).ksiOut 4 0 [] := by
  rw [State.consentEff, State.service_of_allowed hl hs ha, if_neg (by rw [hok]; decide)]
  rfl

theorem State.consentEndEff_both (hl : s.live = true) (hs : s.sessionFor session k = true) (ha : s.isAdmitted k = true) :
    s.consentEndEff session k 3 = (s.onTen k fun x =>
      { x with
        debugging := { x.debugging with pend := false, ending := x.debugging.inForce }
        counters := { x.counters with pend := false, ending := x.counters.inForce } }).ksiOut 5 0 [] := by
  rw [State.consentEndEff, State.service_of_allowed hl hs ha, if_neg (by decide)]
  rfl

/-- What STATUS says of a tenant, with the nonce drawn. -/
def State.statusBytes (s : State) (k : Nat) (nonce : List Byte) : List Byte :=
  toLe 1 (s.ten k).state.code ++ ((s.slotsOf k).flatMap fun n => toLe 1 (s.ksi.slots.get n).state.code)
    ++ toLe 1 (if (s.ten k).writeEpoch then 1 else 0) ++ toLe 1 (s.ten k).lastLoad ++ toLe 8 (s.resealLeft k) ++ nonce

theorem State.statusEff_eq (hl : s.live = true) (hs : s.sessionFor session k = true) :
    s.statusEff session k = ((s.onTen k fun x => { x with nonce := s.freeBytes 16 }).tookFree 16).ksiOut 6 0
      (s.statusBytes k (s.freeBytes 16)) := by
  rw [State.statusEff, State.service_of_allowed hl hs rfl]
  rfl

/-! ### The end of a weight load -/

/-- The protected memory and the KSI's counts, without its tenants. -/
def LoadFrame (s t : State) : Prop := OnlyIn [.gddr, .ksi, .cnt] s t ∧ t.ksi.tenants = s.ksi.tenants

theorem loadFrame_trans {u : State} (h1 : LoadFrame s t) (h2 : LoadFrame t u) : LoadFrame s u :=
  ⟨onlyIn_trans h1.1 h2.1, h2.2.trans h1.2⟩

theorem loadFrame_line (a ch addr lo hi x : Nat) (b : List Byte) :
    LoadFrame s (if s.lineWritable k ch x then s.gdPut ch lo (slice b (lo - addr) (hi - lo)) else s.evKsi 2 (some a)) := by
  split
  · have hput := onlyIn_gdPut (ps := [.gddr]) (s := s) ch lo (slice b (lo - addr) (hi - lo)) (by decide)
    exact ⟨onlyIn_mono hput (by decide), congrArg Ksi.tenants (hput.rest .ksi (by decide))⟩
  · refine ⟨onlyIn_evKsi 2 (some a) (by decide) (by decide), ?_⟩
    rw [State.evKsi, State.count_ksi, State.onKsi_ksi]

theorem loadFrame_gdWrite (a ch addr : Nat) (b : List Byte) : LoadFrame s (s.gdWrite a k ch addr b) := by
  unfold State.gdWrite
  generalize linesOf addr b.length = l
  induction l generalizing s with
  | nil => exact ⟨onlyIn_refl _ _, rfl⟩
  | cons x l ih => exact loadFrame_trans (loadFrame_line ..) ih

theorem loadFrame_chunks (x : WLoad) (n j : Nat) : LoadFrame s (loadChunks x n j s).1 := by
  induction n generalizing j s with
  | zero => exact ⟨onlyIn_refl _ _, rfl⟩
  | succ n ih =>
    rw [loadChunks]
    cases s.chunkPlain x j with
    | none => exact ⟨onlyIn_refl _ _, rfl⟩
    | some p => exact loadFrame_trans (loadFrame_gdWrite ..) (ih (j + 1))

theorem State.loadEnd_ten (w : s.ksi.tenants.wf = true) (st : Nat) :
    (s.loadEnd k st).ten k = { s.ten k with load := none, lastLoad := st } := by
  have hmeasured : ((s.onTen k fun t => { t with load := none, lastLoad := st }).measureFree 7 k).ten k =
      { s.ten k with load := none, lastLoad := st } := by
    rw [State.ten, State.measureFree_tenants]
    exact State.onTen_ten w fun t => { t with load := none, lastLoad := st }
  unfold State.loadEnd
  dsimp only
  split
  · rw [State.ten, State.evKsi, State.count_ksi, State.onKsi_ksi]
    exact hmeasured
  · exact hmeasured

theorem onlyIn_loadEnd (st : Nat) : OnlyIn [.ksi, .cnt, .freeCount] s (s.loadEnd k st) := by
  have hmeasured : OnlyIn [.ksi, .cnt, .freeCount] s ((s.onTen k fun t => { t with load := none, lastLoad := st }).measureFree 7 k) :=
    onlyIn_trans (onlyIn_onTen _ _ (by decide)) (onlyIn_mono (onlyIn_measureFree 7 k) (by decide))
  unfold State.loadEnd
  dsimp only
  split
  · exact onlyIn_trans hmeasured (onlyIn_evKsi _ _ (by decide) (by decide))
  · exact hmeasured

theorem onlyIn_wholeLoad (x : WLoad) : OnlyIn [.chk] s (s.wholeLoad x) := by
  refine onlyIn_foldl _ (fun u i => ?_) _ _
  split
  · split
    · exact onlyIn_onChk _ (by decide)
    · exact onlyIn_refl _ _
  · exact onlyIn_refl _ _

theorem onlyIn_loadDone_tail (x : WLoad) : OnlyIn [.chk] s ((s.loadLogged x).wholeLoad x) :=
  onlyIn_trans (onlyIn_onChk _ (by decide)) (onlyIn_wholeLoad x)

theorem State.ten_congr (h : OnlyIn [.chk] s t) : t.ten k = s.ten k := by
  rw [State.ten, h.rest .ksi (by decide), ← State.ten]

/-- The end of a load: its data has moved, and the tenant's load is none with its status. -/
theorem State.loadDone_spec {x : WLoad} (w : s.ksi.tenants.wf = true) (h : (s.ten k).load = some x) :
    OnlyIn [.gddr, .ksi, .cnt, .freeCount, .chk] s (s.loadDone k) ∧
      (s.loadDone k).ten k = { s.ten k with load := none, lastLoad := if (s.loadRun x).2 then 0 else 5 } := by
  obtain ⟨hframe, htenants⟩ : LoadFrame s (s.loadRun x).1 := loadFrame_chunks x _ 0
  have hten : (s.loadRun x).1.ten k = s.ten k := by rw [State.ten, htenants, ← State.ten]
  have wRun : (s.loadRun x).1.ksi.tenants.wf = true := by rw [htenants]; exact w
  have hend := fun st => onlyIn_trans (onlyIn_mono (qs := [.gddr, .ksi, .cnt, .freeCount, .chk]) hframe (by decide))
    (onlyIn_mono (onlyIn_loadEnd (k := k) st) (by decide))
  simp only [State.loadDone, h]
  cases (s.loadRun x).2 with
  | true =>
    have htail := onlyIn_loadDone_tail (s := (s.loadRun x).1.loadEnd k 0) x
    refine ⟨onlyIn_trans (hend 0) (onlyIn_mono htail (by decide)), ?_⟩
    rw [if_pos rfl, State.ten_congr htail, State.loadEnd_ten wRun, hten]
    rfl
  | false =>
    refine ⟨hend 5, ?_⟩
    rw [if_neg (by decide), State.loadEnd_ten wRun, hten]
    rfl

end

/-- Settles O47, clause by clause: each service as its own effect and answer; a load's end through its chunks. -/
theorem ksiServices : Obligations.KsiServices := by
  unfold Obligations.KsiServices
  refine ⟨?denied, ?key, ?load, ?loaded, ?rotate, ?rotating, ?consent, ?consentEnd, ?status⟩
  case denied =>
    intro s n k m key hl hs
    exact congrArg (fun t => Host.Outcome.next (commit t)) (State.service_of_denied hl hs ..)
  case key =>
    intro s n k m key hl hs ha h1 h2 hroom
    exact congrArg (fun t => Host.Outcome.next (commit t)) (State.keyDeliverEff_of_good hl hs ha h1 h2 hroom key)
  case load =>
    intro s n k x a hl hs ha _ _ hargs hnone hseal hx
    refine (congrArg (fun y => Host.Outcome.next (commit (s.weightLoadEff n k y))) hx.symm).trans ?_
    exact congrArg (fun t => Host.Outcome.next (commit t)) (State.weightLoadEff_of_good hl hs ha hargs hnone hseal)
  case loaded =>
    intro s k x hl w hload
    obtain ⟨hframe, hten⟩ := State.loadDone_spec w hload
    refine ⟨_, next_of_live hl _, ?_⟩
    rw [commit_ten, commit_spad, commit_acts, hten]
    exact ⟨rfl, rfl, hframe.rest .spad (by decide), hframe.rest .acts (by decide)⟩
  case rotate =>
    intro s n k hl hs hst hp ho hk
    exact congrArg (fun t => Host.Outcome.next (commit t)) (State.rotateEff_of_ready hl hs hst hp ho hk)
  case rotating =>
    intro s n k hl hs hst
    exact congrArg (fun t => Host.Outcome.next (commit t)) (State.rotateEff_of_rotating hl hs hst)
  case consent =>
    intro s n k r hl w hs ha hbit
    cases hok : s.consentOk n k r with
    | false =>
      refine ⟨_, congrArg (fun t => Host.Outcome.next (commit t)) (State.consentEff_of_bad hl hs ha hok),
        onlyIn_commit (onlyIn_ksiOut _ _ _ (by decide)), rfl, ?_⟩
      rw [if_neg (by decide)]
      exact ⟨rfl, mem_commit_sent List.mem_cons_self⟩
    | true =>
      have hten := State.onTen_ten (k := k) w fun x => { x with debugging := x.debugging.asked r 0, counters := x.counters.asked r 1 }
      have hasked : (s.ten k).counters.asked r 1 = { (s.ten k).counters with pend := true, ending := false, expires := u64 r 8 } :=
        if_pos hbit
      refine ⟨_, congrArg (fun t => Host.Outcome.next (commit t)) (State.consentEff_of_good hl hs ha hok),
        onlyIn_commit (onlyIn_trans (onlyIn_onTen _ _ (by decide)) (onlyIn_ksiOut _ _ _ (by decide))), ?_⟩
      rw [if_pos rfl, commit_ten, State.ksiOut_ten, hten, hasked]
      exact ⟨rfl, rfl, rfl, mem_commit_sent List.mem_cons_self⟩
  case consentEnd =>
    intro s n k hl w hs ha
    have hten := State.onTen_ten (k := k) w fun x => { x with
        debugging := { x.debugging with pend := false, ending := x.debugging.inForce }
        counters := { x.counters with pend := false, ending := x.counters.inForce } }
    refine ⟨_, congrArg (fun t => Host.Outcome.next (commit t)) (State.consentEndEff_both hl hs ha),
      onlyIn_commit (onlyIn_trans (onlyIn_onTen _ _ (by decide)) (onlyIn_ksiOut _ _ _ (by decide))), ?_⟩
    rw [commit_ten, State.ksiOut_ten, hten]
    exact ⟨rfl, rfl, rfl⟩
  case status =>
    intro s n k hl w hs
    have hten := State.onTen_ten (k := k) w fun x => { x with nonce := s.freeBytes 16 }
    refine ⟨_, congrArg (fun t => Host.Outcome.next (commit t)) (State.statusEff_eq hl hs), onlyIn_commit ?_, ?_⟩
    · exact onlyIn_trans (onlyIn_trans (onlyIn_onTen _ _ (by decide)) (onlyIn_onFreeCount _ (by decide)))
        (onlyIn_ksiOut _ _ _ (by decide))
    · rw [commit_ten, State.ksiOut_ten, State.tookFree_ten, hten]
      exact ⟨rfl, rfl⟩

end Sys2Proof.Machine

/-! Removal of a tenant, its reclaim, and tamper (spec/17, R378 to R380, R387). -/

namespace Sys2Proof.Machine

section

variable {s t : State} {k : Nat}

/-- A module reset holds the module with no binding. -/
theorem State.resetModule_start (s : State) (c : Nat) : (s.resetModule c).start.hold = true ∧ (s.resetModule c).bind.running = none :=
  ⟨rfl, rfl⟩

/-! ### The fence (R378 step 3) -/

/-- The slots of a list emptied. -/
def State.slotsEmptied (s : State) (k : Nat) (l : List Nat) : State := l.foldl (fun (s : State) n => s.setSlot k n {}) s

theorem State.setSlot_slots (s : State) (k n : Nat) (x : KeySlot) : (s.setSlot k n x).ksi.slots = s.ksi.slots.set n x := by
  unfold State.setSlot State.evTen
  split <;> rfl

theorem State.slotsEmptied_tenants (l : List Nat) : (s.slotsEmptied k l).ksi.tenants = s.ksi.tenants := by
  induction l generalizing s with
  | nil => rfl
  | cons n l ih => exact ih.trans (State.setSlot_tenants s k n {})

/-- Every slot of the list is EMPTY, and one that was EMPTY stays so. -/
theorem State.slotsEmptied_get (w : s.ksi.slots.wf = true) {l : List Nat} {n : Nat}
    (h : n ∈ l ∨ (s.ksi.slots.get n).state = .empty) : ((s.slotsEmptied k l).ksi.slots.get n).state = .empty := by
  induction l generalizing s with
  | nil => exact h.resolve_left List.not_mem_nil
  | cons m l ih =>
    refine ih (s := s.setSlot k m {}) (by rw [State.setSlot_slots]; exact Tab.wf_set _ w _ _) ?_
    rw [State.setSlot_slots, Tab.get_set _ w]
    split
    · exact .inr rfl
    · next hne => exact h.imp_left fun hmem => (List.mem_cons.1 hmem).resolve_left hne

/-- What the fence does between the slots and the tenant's own data: its queues end, its banks are zeroed, its vitrine area is wiped and
its windows go. -/
abbrev fenceParts : List Part := [.host, .dma, .acts, .leaf, .ring, .spad, .gddr, .cnt, .sent]

theorem onlyIn_winDisable (w : Nat) : OnlyIn fenceParts s (s.winDisable w) := by
  unfold State.winDisable
  split
  · refine onlyIn_trans (onlyIn_trans (onlyIn_onHost _ (by decide)) (onlyIn_foldl _ (fun u a => ?_) _ _))
      (onlyIn_mono (onlyIn_tierLost ..) (by decide))
    split
    · exact onlyIn_trans (onlyIn_beatStops _ _ (by decide)) (onlyIn_winFault _ _ (by decide))
    · exact onlyIn_refl _ _
  · exact onlyIn_refl _ _

/-- The queues of a tenant that still hold a stopped transfer end. -/
def State.fenceQueues (s : State) (k : Nat) : State :=
  (s.b.actList.filter fun a => s.b.tenantOf a == k).foldl (fun (s : State) a => if (s.queue a).busy then s.queueEnd a 2 else s) s

/-- The banks a tenant owns are zeroed. -/
def State.fenceBanks (s : State) (k : Nat) : State :=
  s.spad.loans.foldl (fun (s : State) e =>
    if e.2.owned && s.b.tenantOf (16 * (e.1 / 48) + e.2.owner.toNat) == k then s.zeroBank (e.1 / 48) (e.1 % 48) else s) s

/-- The windows of a tenant are disabled. -/
def State.fenceWins (s : State) (k : Nat) : State :=
  (List.range 16).foldl (fun (s : State) w => if s.winOwner w = k then s.winDisable w else s) s

theorem onlyIn_fenceQueues : OnlyIn fenceParts s (s.fenceQueues k) := by
  refine onlyIn_foldl _ (fun u a => ?_) _ _
  split
  · exact onlyIn_mono (onlyIn_queueEnd a 2) (by decide)
  · exact onlyIn_refl _ _

theorem onlyIn_fenceBanks : OnlyIn fenceParts s (s.fenceBanks k) := by
  refine onlyIn_foldl _ (fun u e => ?_) _ _
  split
  · exact onlyIn_onSpad _ (by decide)
  · exact onlyIn_refl _ _

theorem onlyIn_fenceWins : OnlyIn fenceParts s (s.fenceWins k) := by
  refine onlyIn_foldl _ (fun u w => ?_) _ _
  split
  · exact onlyIn_winDisable w
  · exact onlyIn_refl _ _

theorem State.wipeVitrine_ksi (s : State) (c a : Nat) :
    (s.wipeVitrine c a).ksi.tenants = s.ksi.tenants ∧ (s.wipeVitrine c a).ksi.slots = s.ksi.slots := ⟨rfl, rfl⟩

theorem State.onTen_slots (f : Tenant → Tenant) : (s.onTen k f).ksi.slots = s.ksi.slots := rfl

/-- The fence before the tenant's own data. -/
def State.fenceWork (s : State) (k : Nat) : State :=
  ((((s.slotsEmptied k (s.slotsOf k)).fenceQueues k).fenceBanks k |>.wipeVitrine 4 k).fenceWins k).makeVirgin k

theorem State.fence_eq (s : State) (k : Nat) : s.fence k = (s.fenceWork k).onTen k fun x => { x with
    models := [], debugging := {}, counters := {}
    removal := x.removal.map fun r => { r with fenced := true } } := rfl

/-- The fence leaves tenants' data and the emptied slots. -/
theorem State.fenceWork_ksi : (s.fenceWork k).ksi.tenants = s.ksi.tenants ∧
    (s.fenceWork k).ksi.slots = (s.slotsEmptied k (s.slotsOf k)).ksi.slots := by
  have hbanks := onlyIn_trans (onlyIn_fenceQueues (s := s.slotsEmptied k (s.slotsOf k)) (k := k)) (onlyIn_fenceBanks (k := k))
  have hwins := onlyIn_trans (onlyIn_fenceWins (s := ((s.slotsEmptied k (s.slotsOf k)).fenceQueues k).fenceBanks k |>.wipeVitrine 4 k)
    (k := k)) (onlyIn_makeVirgin k (by decide))
  have hksi := hbanks.rest .ksi (by decide)
  rw [State.fenceWork, hwins.rest .ksi (by decide)]
  obtain ⟨htenants, hslots⟩ := (((s.slotsEmptied k (s.slotsOf k)).fenceQueues k).fenceBanks k).wipeVitrine_ksi 4 k
  exact ⟨htenants.trans ((congrArg Ksi.tenants hksi).trans (State.slotsEmptied_tenants _)), hslots.trans (congrArg Ksi.slots hksi)⟩

theorem State.fence_slots : (s.fence k).ksi.slots = (s.slotsEmptied k (s.slotsOf k)).ksi.slots := by
  rw [State.fence_eq, State.onTen_slots, State.fenceWork_ksi.2]

theorem State.fence_ten (w : s.ksi.tenants.wf = true) : (s.fence k).ten k = { s.ten k with
    models := [], debugging := {}, counters := {}, removal := (s.ten k).removal.map fun r => { r with fenced := true } } := by
  obtain ⟨htenants, -⟩ := State.fenceWork_ksi (s := s) (k := k)
  rw [State.fence_eq, State.onTen_ten (by rw [htenants]; exact w), State.ten, htenants, ← State.ten]

theorem State.fenceEff_of_idle {r : Removal} (hr : (s.ten k).removal = some r) (hf : r.fenced = false) (hb : 1 ≤ r.boundaries)
    (hidle : s.tenantBusy k = false) : s.fenceEff k = s.fence k := by
  simp only [State.fenceEff, hr, hf, hb, hidle, Bool.not_false, decide_true, Bool.true_or, Bool.and_self, if_true]

theorem State.fenceEff_of_busy {r : Removal} (hr : (s.ten k).removal = some r) (hb : r.boundaries < 3)
    (hbusy : s.tenantBusy k = true) : s.fenceEff k = s := by
  have h3 : decide (3 ≤ r.boundaries) = false := decide_eq_false (by omega)
  simp only [State.fenceEff, hr, h3, hbusy, Bool.not_true, Bool.or_false, Bool.and_false, Bool.false_eq_true, if_false]

/-! ### Removal complete, and the reclaim -/

/-- A removal that is through: the tenant is RECLAIMING, its function told, and the removal recorded. -/
def State.removedRecorded (s : State) (k : Nat) (r : Removal) : State :=
  (((((s.onTen k fun x => { x with state := .reclaiming, removal := none }).onKsi fun x =>
    { x with lastRemoval := s.tb.time - r.start }).evTen k 1).evKsi 4 none).record
      { kind := .removal, vals := [k, 0, r.start, s.tb.time] })

theorem onlyIn_stopReply {ps : List Part} (vf : Nat) (h : Part.host ∈ ps) (g : Part.sent ∈ ps) : OnlyIn ps s (s.stopReply vf) := by
  unfold State.stopReply
  split
  · exact onlyIn_trans (onlyIn_onHost _ h) (onlyIn_tdispOut _ _ _ _ g)
  · exact onlyIn_refl _ _

theorem State.removed_of_fenced {r : Removal} (hr : (s.ten k).removal = some r) (hf : r.fenced = true) :
    OnlyIn [.host, .sent] (s.removedRecorded k r) (s.removed k) := by
  have heq : s.removed k = match s.b.tentOf k with
      | some t => (s.removedRecorded k r).stopReply t.vf
      | none => s.removedRecorded k r := by
    simp only [State.removed, hr, hf, Bool.not_true, Bool.false_eq_true, if_false]
    rfl
  rw [heq]
  cases s.b.tentOf k with
  | none => exact onlyIn_refl _ _
  | some t => exact onlyIn_stopReply _ (by decide) (by decide)

theorem onlyIn_removedRecorded (r : Removal) : OnlyIn [.ksi, .host, .keep, .cnt] s (s.removedRecorded k r) :=
  onlyIn_trans (onlyIn_trans (onlyIn_trans (onlyIn_trans (onlyIn_onTen _ _ (by decide)) (onlyIn_onKsi _ (by decide)))
    (onlyIn_evTen _ _ (by decide))) (onlyIn_evKsi _ _ (by decide) (by decide))) (onlyIn_record _ (by decide))

theorem State.evTen_ksi (i : Nat) : (s.evTen k i).ksi = s.ksi := (onlyIn_evTen (ps := [.host]) k i (by decide)).rest .ksi (by decide)

theorem State.evKsi_tenants (i : Nat) (act : Option Nat) : (s.evKsi i act).ksi.tenants = s.ksi.tenants := by
  rw [State.evKsi, State.count_ksi, State.onKsi_ksi]

theorem State.evKsi_lastRemoval (i : Nat) (act : Option Nat) : (s.evKsi i act).ksi.lastRemoval = s.ksi.lastRemoval := by
  rw [State.evKsi, State.count_ksi, State.onKsi_ksi]

theorem State.removedRecorded_tenants (r : Removal) : (s.removedRecorded k r).ksi.tenants =
    s.ksi.tenants.upd k fun x => { x with state := .reclaiming, removal := none } := by
  rw [State.removedRecorded, State.record, State.onKeep_ksi, State.evKsi_tenants, State.evTen_ksi]
  rfl

theorem State.removedRecorded_lastRemoval (r : Removal) : (s.removedRecorded k r).ksi.lastRemoval = s.tb.time - r.start := by
  rw [State.removedRecorded, State.record, State.onKeep_ksi, State.evKsi_lastRemoval, State.evTen_ksi]
  rfl

theorem State.removedRecorded_record (r : Removal) : (s.removedRecorded k r).keep.record =
    { kind := .removal, vals := [k, 0, r.start, s.tb.time] } :: s.keep.record := by
  have hkeep : OnlyIn [.ksi, .host, .cnt] s ((((s.onTen k fun x => { x with state := .reclaiming, removal := none }).onKsi fun x =>
      { x with lastRemoval := s.tb.time - r.start }).evTen k 1).evKsi 4 none) :=
    onlyIn_trans (onlyIn_trans (onlyIn_trans (onlyIn_onTen _ _ (by decide)) (onlyIn_onKsi _ (by decide)))
      (onlyIn_evTen _ _ (by decide))) (onlyIn_evKsi _ _ (by decide) (by decide))
  rw [State.removedRecorded, State.record, State.onKeep_keep, hkeep.rest .keep (by decide)]

/-- The leaf entries of a reclaimed tenant FREE, one by one. -/
def State.leafReclaimed (k : Nat) (s : State) (e : Nat × LeafEntry) : State :=
  let t := match s.xferOf e.1 with
    | some x => if x.isFetch then s else s.tierFree x.tier k x.site x.tierSlot
    | none => s
  let t1 := if e.2.tier = .loc then t else t.tierFree e.2.tier k e.2.site e.2.slot
  (t1.xferDrop e.1).onLeaf fun x => { x with map := x.map.set e.1 { gen := e.2.gen } }

theorem onlyIn_leafReclaimed (e : Nat × LeafEntry) : OnlyIn [.leaf, .ring, .sent] s (State.leafReclaimed k s e) := by
  unfold State.leafReclaimed
  refine onlyIn_trans (onlyIn_trans ?_ (onlyIn_xferDrop _ (by decide))) (onlyIn_onLeaf _ (by decide))
  have hxfer : OnlyIn [.leaf, .ring, .sent] s (match s.xferOf e.1 with
      | some x => if x.isFetch then s else s.tierFree x.tier k x.site x.tierSlot
      | none => s) := by
    split
    · split
      · exact onlyIn_refl _ _
      · exact onlyIn_tierFree ..
    · exact onlyIn_refl _ _
  split
  · exact hxfer
  · exact onlyIn_trans hxfer (onlyIn_tierFree ..)

/-- The leaf part of a reclaim. -/
def State.leavesReclaimed (s : State) (k : Nat) : State :=
  let s1 := (s.leaf.map.filter fun e => e.2.tenant == k && e.2.state != .free && e.2.state != .retired).foldl (State.leafReclaimed k) s
  s1.onLeaf fun x => { x with uses := x.uses.filter fun u => s1.b.tenantOf u.activity != k }

theorem onlyIn_leavesReclaimed : OnlyIn [.leaf, .ring, .sent] s (s.leavesReclaimed k) := by
  unfold State.leavesReclaimed
  exact onlyIn_trans (onlyIn_foldl _ (fun u e => onlyIn_leafReclaimed e) _ _) (onlyIn_onLeaf _ (by decide))

theorem State.reclaimed_of_reclaiming (h : (s.ten k).state = .reclaiming) :
    s.reclaimed k = (s.leavesReclaimed k).onTen k fun x => { x with state := .none } := if_neg (not_not_intro h)

end

/-- Settles O48, clause by clause: the fence through its slots and the tenant's data, the completion and the reclaim through theirs. -/
theorem tenantRemoval : Obligations.TenantRemoval := by
  unfold Obligations.TenantRemoval
  refine ⟨?fence, ?waits, ?complete, ?reclaim, ?tamper⟩
  case fence =>
    intro s j r hl w wslots hr hf hb hidle
    refine ⟨_, next_of_live hl _, ?_⟩
    rw [State.fenceEff_of_idle hr hf hb hidle, commit_ten, State.fence_ten w, hr, commit_ksi, State.fence_slots]
    exact ⟨fun n hn => State.slotsEmptied_get wslots (.inl hn), rfl, rfl, rfl⟩
  case waits =>
    intro s j r hl hr _ hb hbusy
    refine (next_of_live hl _).trans ?_
    rw [State.fenceEff_of_busy hr hb hbusy]
  case complete =>
    intro s j r hl w hr hf
    have hreply := State.removed_of_fenced hr hf
    refine ⟨_, next_of_live hl _, onlyIn_commit (onlyIn_trans (onlyIn_mono (onlyIn_removedRecorded r) (by decide))
      (onlyIn_mono hreply (by decide))), ?_⟩
    have hten : (s.removed (j + 1)).ten (j + 1) = { s.ten (j + 1) with state := .reclaiming, removal := none } := by
      rw [State.ten, hreply.rest .ksi (by decide), State.removedRecorded_tenants, Tab.get_upd _ w, if_pos rfl]
      rfl
    rw [commit_ten, hten, commit_ksi, commit_keep, hreply.rest .ksi (by decide), hreply.rest .keep (by decide),
      State.removedRecorded_lastRemoval, State.removedRecorded_record]
    exact ⟨rfl, rfl, rfl, rfl⟩
  case reclaim =>
    intro s j hl w hst
    have hleaf := onlyIn_leavesReclaimed (s := s) (k := j + 1)
    have hksi := hleaf.rest .ksi (by decide)
    refine ⟨_, next_of_live hl _, ?_⟩
    rw [State.reclaimed_of_reclaiming hst, commit_ten, State.onTen_ten (by rw [hksi]; exact w), commit_ksi, State.onTen_slots]
    exact ⟨rfl, congrArg Ksi.slots hksi, hleaf.rest .gddr (by decide), hleaf.rest .spad (by decide)⟩
  case tamper =>
    intro s kind hp
    refine ⟨commit (s.tamperEff kind), ?_, ?_⟩
    · rw [exec, execTamper, hp]
      rfl
    · rw [commit_start, commit_bind]
      exact State.resetModule_start _ 6

end Sys2Proof.Machine

/-! Counters, sensors and the thermal ladder (spec/18, R398; spec/19, R401 to R404; spec/21, R450, R451). -/

namespace Sys2Proof.Machine

section

variable {s t : State} {i : Nat}

/-! ### Counters (R397, R398) -/

theorem State.cntClear_of_owner {m key : Nat} (h : s.cntWriter m key = true) :
    s.cntClear m key = { s with cnt := s.cnt.upd key fun c => { c with clearPend := true } } := if_pos h

theorem State.cntClear_of_other {m key : Nat} (h : s.cntWriter m key = false) : s.cntClear m key = s.regErr m 6 :=
  if_neg (by rw [h]; decide)

/-! ### Readings (R401, R403, R404) -/

/-- A sensor after an update of it. -/
theorem State.onSensor_sensor (w : s.cons.sensors.wf = true) (f : Sensor → Sensor) : (s.onSensor i f).sensor i = f (s.sensor i) :=
  (Tab.get_upd s.cons.sensors w i i f).trans (if_pos rfl)

theorem State.sensor_congr (h : t.cons.sensors = s.cons.sensors) (i : Nat) : t.sensor i = s.sensor i := congrArg (Tab.get · i) h

/-- Rounding either way stays within one unit. -/
theorem roundFree_near (num : Int) {den : Int} (h : 0 < den) (up : Bool) : (roundFree num den up * den - num).natAbs < den.natAbs := by
  have hdiv : den * num.fdiv den + num.fmod den = num := Int.mul_fdiv_add_fmod num den
  have hlow : 0 ≤ num.fmod den := Int.fmod_nonneg_of_pos num h
  have hhigh : num.fmod den < den := Int.fmod_lt_of_pos num h
  unfold roundFree
  dsimp only
  rw [Int.mul_comm] at hdiv
  split
  · next hup =>
    have hne : num.fmod den ≠ 0 := by simpa using (Bool.and_eq_true_iff.1 hup).2
    rw [Int.add_mul, Int.one_mul]
    omega
  · omega

/-- What a reading makes of a sensor: its factory value and the trimmed value, rounded as the free bit says. -/
def State.sensorRead (s : State) (i : Nat) (raw : Int) (x : Sensor) : Sensor :=
  let factory := (s.sensor i).gainF * raw + (s.sensor i).offsetF
  { x with
    value := roundFree (trimmed (s.cons.trims.get i) factory) 4294967296 (s.freeBit 0), factory := factory
    valid := s.plausible i raw && !x.fault, fault := x.fault || !s.plausible i raw
    plausSince := if s.plausible i raw then some (x.plausSince.getD s.tb.time) else none
    sameSince := if raw == x.lastRaw then x.sameSince else s.tb.time
    pairAtSame := if raw == x.lastRaw then x.pairAtSame else (match sensorPair i with
      | some j => (s.sensor j).value
      | none => 0)
    lastRaw := raw }

/-- A reading before its fault is counted. -/
def State.readingTaken (s : State) (i : Nat) (raw : Int) : State := (s.onSensor i (s.sensorRead i raw)).tookFree 1

theorem onlyIn_readingTaken (raw : Int) : OnlyIn [.cons, .freeCount] s (s.readingTaken i raw) :=
  onlyIn_trans (onlyIn_onCons _ (by decide)) (onlyIn_onFreeCount _ (by decide))

theorem State.readingTaken_sensor (w : s.cons.sensors.wf = true) (raw : Int) :
    (s.readingTaken i raw).sensor i = s.sensorRead i raw (s.sensor i) := State.onSensor_sensor w (s.sensorRead i raw)

theorem State.readingTaken_events (raw : Int) : (s.readingTaken i raw).cons.events = s.cons.events := rfl

theorem State.reading_of_plausible {raw : Int} (h : s.plausible i raw = true) : s.reading i raw = s.readingTaken i raw := by
  unfold State.reading
  dsimp only
  rw [if_neg (by simp [h])]
  rfl

theorem State.reading_of_fault {raw : Int} (h : s.plausible i raw = false) (hf : (s.sensor i).fault = false) :
    s.reading i raw = (s.readingTaken i raw).evCons 5 := by
  unfold State.reading
  dsimp only
  rw [if_pos (by rw [h, hf]; rfl)]
  rfl

theorem State.sensorRead_near (raw : Int) (x : Sensor) :
    ((s.sensorRead i raw x).value * 4294967296 - trimmed (s.cons.trims.get i) (s.sensorRead i raw x).factory).natAbs < 4294967296 :=
  roundFree_near _ (by decide) _

/-- The sensors from 72 on are paired with none, so a reading within the range is plausible. -/
theorem State.plausible_of_unpaired (h : 72 ≤ i) (v : Int) :
    s.plausible i v = (decide ((sensorRange i).1 < v) && decide (v < (sensorRange i).2)) := by
  have hpair : sensorPair i = none := by
    rw [sensorPair, if_neg (by omega), if_neg (by omega), if_neg (by omega)]
  simp only [State.plausible, hpair, Bool.not_false, Bool.and_true]

theorem State.sensorUpdate_of_held {v : Int} (hl : s.live = false) (hp : s.start.p48 = true) :
    s.sensorUpdate i v = s.onSensor i fun x => { x with factory := x.gainF * v + x.offsetF } := by
  simp only [State.sensorUpdate, hl, hp, Bool.not_false, if_true]

/-- The sensors from 72 on take no part in the ladder, the flow proxy or the input. -/
theorem State.sensorUpdate_of_other {v : Int} (hl : s.live = true) (h : 72 ≤ i) : s.sensorUpdate i v = s.reading i v := by
  have h66 : ¬ i < 66 := by omega
  have h68 : i ≠ 68 := by omega
  have h69 : i ≠ 69 := by omega
  have h70 : i ≠ 70 := by omega
  have h71 : i ≠ 71 := by omega
  simp only [State.sensorUpdate, hl, h66, h68, h69, h70, h71, Bool.not_true, Bool.false_eq_true, if_false]

theorem State.sensorUpdate_of_site {v : Int} (hl : s.live = true) (h : i < 66) : s.sensorUpdate i v = (s.reading i v).ladder := by
  have h68 : i ≠ 68 := by omega
  have h69 : i ≠ 69 := by omega
  have h70 : i ≠ 70 := by omega
  have h71 : i ≠ 71 := by omega
  simp only [State.sensorUpdate, hl, h, h68, h69, h70, h71, Bool.not_true, Bool.false_eq_true, if_false, if_true]

theorem commit_cons_sensors (s : State) : (commit s).cons.sensors = s.cons.sensors := rfl

theorem State.evCons_sensors {j : Nat} : (s.evCons j).cons.sensors = s.cons.sensors := by
  rw [State.evCons, State.count_cons, State.onCons_cons]

theorem State.evCons_events {j : Nat} : (s.evCons j).cons.events = bitSet s.cons.events j := by
  rw [State.evCons, State.count_cons, State.onCons_cons]

/-- The first cause of a reset while none is held is kept (R473). -/
theorem State.resetModule_cause (h : s.start.hold = false) (c : Nat) : (s.resetModule c).keep.cause = c := by
  simp only [State.resetModule, h, Bool.false_eq_true, if_false]

/-! ### The ladder (R450) -/

theorem onlyIn_stepped {u : State} (h : OnlyIn [.pwr, .cnt, .freeCount] s t) : OnlyIn [.pwr, .cnt, .freeCount] s (State.stepped u t) := by
  unfold State.stepped
  split
  · exact h
  · exact onlyIn_trans h (onlyIn_evPwr 6 (by decide) (by decide))

theorem onlyIn_ladder : OnlyIn [.pwr, .cnt, .freeCount] s s.ladder :=
  onlyIn_stepped (onlyIn_trans (onlyIn_onPwr _ (by decide)) (onlyIn_onFreeCount _ (by decide)))

theorem State.faultClear_of_due {n : Nat} (hf : (s.sensor i).fault = true) (hs : (s.sensor i).plausSince = some n)
    (h : n + 10000000000 ≤ s.tb.time) : s.faultClear i = (s.onSensor i fun x => { x with fault := false, valid := true }).ladder := by
  simp only [State.faultClear, hs, hf, decide_eq_true h, Bool.and_self, if_true]

theorem State.faultClear_of_early {n : Nat} (hs : (s.sensor i).plausSince = some n) (h : s.tb.time < n + 10000000000) :
    s.faultClear i = s := by
  simp only [State.faultClear, hs, decide_eq_false (Nat.not_le.2 h), Bool.and_false, Bool.false_eq_true, if_false]

/-- A change of the thermal limit, counted once. -/
theorem State.stepped_of_changed (h : t.thermal ≠ s.thermal) : State.stepped s t = t.evPwr 6 := if_neg h

theorem State.thermalRelease_warn (hw : s.pwr.warnOn = true) (h : s.pwr.warnAt + 60000000000 ≤ s.tb.time) (ch : Nat) :
    s.thermalRelease 0 ch = State.stepped s (s.onPwr fun p => { p with warnOn := false }) := by
  simp only [State.thermalRelease, hw, decide_eq_true h, Bool.and_self, if_true]

theorem State.thermalRelease_warn_early (h : s.tb.time < s.pwr.warnAt + 60000000000) (ch : Nat) : s.thermalRelease 0 ch = s := by
  simp only [State.thermalRelease, decide_eq_false (Nat.not_le.2 h), Bool.and_false, Bool.false_eq_true, if_false]

theorem State.thermalRelease_hot (hh : s.pwr.hotOn = true) (h : s.pwr.hotAt + 60000000000 ≤ s.tb.time)
    (hf : 150 ≤ (s.sensor 68).value) (ch : Nat) :
    s.thermalRelease 1 ch = State.stepped s (s.onPwr fun p => { p with hotOn := false, flowLow := false }) := by
  simp only [State.thermalRelease, hh, decide_eq_true h, decide_eq_true hf, Bool.and_self, if_true]

theorem State.thermalRelease_crit {ch : Nat} (hc : s.pwr.critShed.getLsbD ch = true) (h : s.pwr.critAt.get ch + 60000000000 ≤ s.tb.time) :
    s.thermalRelease 2 ch = s.onPwr fun p => { p with critShed := bitClr p.critShed ch } := by
  simp only [State.thermalRelease, hc, decide_eq_true h, Bool.and_self, if_true]

theorem State.thermalRelease_module (hm : s.pwr.modShed ≠ 0) (h : s.pwr.critAt.get 6 + 60000000000 ≤ s.tb.time) (ch : Nat) :
    s.thermalRelease 3 ch = s.onPwr fun p => { p with modShed := 0 } := by
  simp only [State.thermalRelease, bne_iff_ne.2 hm, decide_eq_true h, Bool.and_self, if_true]

theorem State.flowLowEff_of_due {n : Nat} (hs : s.pwr.flowSince = some n) (h : n + 5000000000 ≤ s.tb.time)
    (hf : s.pwr.flowLow = false) : s.flowLowEff = State.stepped s (s.onPwr fun p => { p with flowLow := true, hotOn := true }) := by
  simp only [State.flowLowEff, hs, hf, decide_eq_true h, Bool.not_false, Bool.and_self, if_true]

theorem State.flowLowEff_of_none (hs : s.pwr.flowSince = none) : s.flowLowEff = s := by
  simp only [State.flowLowEff, hs]

theorem State.thermalTrip_of_hot (hi : i < 30) (h : 65536 * (s.keep.tTrip : Int) ≤ (s.sensor i).factory) :
    s.thermalTrip i = s.resetModule 9 := if_pos (by rw [decide_eq_true hi, decide_eq_true h]; rfl)

theorem State.thermalTrip_of_cool (h : (s.sensor i).factory < 65536 * (s.keep.tTrip : Int)) : s.thermalTrip i = s :=
  if_neg (by rw [decide_eq_false (Int.not_le.2 h), Bool.and_false]; decide)

/-- A change of power that changes the thermal limit, with its event. -/
theorem State.stepped_onPwr (f : Power → Power) (h : (s.onPwr f).thermal ≠ s.thermal) :
    OnlyIn [.pwr, .cnt] s (State.stepped s (s.onPwr f)) ∧
      (State.stepped s (s.onPwr f)).pwr = { f s.pwr with events := bitSet (f s.pwr).events 6 } ∧
      (State.stepped s (s.onPwr f)).cnt = (s.count 0xE6 none none 1).cnt := by
  rw [State.stepped_of_changed h]
  refine ⟨onlyIn_trans (onlyIn_onPwr f (by decide)) (onlyIn_evPwr 6 (by decide) (by decide)), ?_, ?_⟩
  · rw [State.evPwr_pwr, State.onPwr_pwr]
  · exact State.count_congr (s := s) (t := (s.onPwr f).onPwr fun p => { p with events := bitSet p.events 6 }) rfl rfl rfl 0xE6 none none 1

/-! ### Temperatures -/

theorem maxInt_ge (lo : Int) (l : List Int) : lo ≤ maxInt lo l ∧ ∀ x ∈ l, x ≤ maxInt lo l := by
  unfold maxInt
  induction l generalizing lo with
  | nil => exact ⟨Int.le_refl lo, fun _ h => absurd h List.not_mem_nil⟩
  | cons y l ih =>
    obtain ⟨hlo, hmem⟩ := ih (if lo < y then y else lo)
    have hle : lo ≤ (if lo < y then y else lo) ∧ y ≤ (if lo < y then y else lo) := by
      split <;> omega
    refine ⟨Int.le_trans hle.1 hlo, fun x hx => ?_⟩
    rcases List.mem_cons.1 hx with rfl | hx
    · exact Int.le_trans hle.2 hlo
    · exact hmem x hx

/-- A valid die site's value is among its channel's temperatures. -/
theorem State.mem_siteTemps (hf : (s.sensor i).fault = false) : (s.sensor i).value ∈ s.siteTemps (i / 4) := by
  have hi : i ∈ (List.range 4).map (4 * (i / 4) + ·) := List.mem_map.2 ⟨i % 4, List.mem_range.2 (by omega), by omega⟩
  have hval : (s.sensor i).value ∈ s.validVals ((List.range 4).map (4 * (i / 4) + ·)) :=
    List.mem_map.2 ⟨i, List.mem_filter.2 ⟨hi, by rw [hf]; rfl⟩, rfl⟩
  unfold State.siteTemps
  dsimp only
  split
  · next hnone => exact absurd (hnone ▸ hval) List.not_mem_nil
  · exact List.mem_map.2 ⟨i, hi, if_neg (by rw [hf]; decide)⟩

/-- The hottest site of the module. -/
def State.hottest (s : State) : Int := maxInt (maxInt tFloor s.moduleTemps) ((List.range 6).map s.siteTemps).flatten

theorem State.site_le_hottest (hi : i < 24) (hf : (s.sensor i).fault = false) : (s.sensor i).value ≤ s.hottest :=
  (maxInt_ge _ _).2 _ (List.mem_flatten_of_mem (List.mem_map.2 ⟨i / 4, List.mem_range.2 (by omega), rfl⟩) (State.mem_siteTemps hf))

/-- The hottest of a channel's sites and devices. -/
def State.channelHottest (s : State) (c : Nat) : Int :=
  maxInt (maxInt tFloor (((List.range 6).map s.siteTemps).getD c [])) (s.deviceTemps c)

theorem getD_map_range {α : Type} {n p : Nat} (h : p < n) (f : Nat → α) (x : α) : ((List.range n).map f).getD p x = f p := by
  have hlt : p < ((List.range n).map f).length := by rwa [List.length_map, List.length_range]
  rw [List.getD_eq_getElem?_getD, List.getElem?_eq_getElem hlt, Option.getD_some, List.getElem_map, List.getElem_range]

theorem State.site_le_channelHottest (hi : i < 24) (hf : (s.sensor i).fault = false) : (s.sensor i).value ≤ s.channelHottest (i / 4) := by
  have hchan : ((List.range 6).map s.siteTemps).getD (i / 4) [] = s.siteTemps (i / 4) :=
    getD_map_range (by omega) s.siteTemps []
  rw [State.channelHottest, hchan]
  exact Int.le_trans ((maxInt_ge _ _).2 _ (State.mem_siteTemps hf)) (maxInt_ge _ _).1

/-- The channels at T_CRIT, marked one by one, keep the marks before. -/
theorem getLsbD_foldl_bitSet {w : Nat} {p : Nat → Prop} [DecidablePred p] {c : Nat} (hc : c < w) (l : List Nat) (v : BitVec w)
    (h : v.getLsbD c = true ∨ (c ∈ l ∧ p c)) : (l.foldl (fun v c => if p c then bitSet v c else v) v).getLsbD c = true := by
  induction l generalizing v with
  | nil => exact h.resolve_right fun hmem => List.not_mem_nil hmem.1
  | cons d l ih =>
    rw [List.foldl_cons]
    refine ih _ ?_
    rcases h with hold | ⟨hmem, hp⟩
    · refine .inl ?_
      split
      · exact bitSet_of_getLsbD d hold
      · exact hold
    · rcases List.mem_cons.1 hmem with rfl | hmem
      · exact .inl (by rw [if_pos hp, getLsbD_bitSet_self _ hc])
      · exact .inr ⟨hmem, hp⟩

/-- What a step of the ladder leaves of power but its events. -/
theorem State.stepped_pwr (s t : State) : ∃ e, (State.stepped s t).pwr = { t.pwr with events := e } ∧
    (t.thermal ≠ s.thermal → e = bitSet t.pwr.events 6) := by
  unfold State.stepped
  split
  · next h => exact ⟨t.pwr.events, rfl, fun hne => absurd h hne⟩
  · exact ⟨_, State.evPwr_pwr 6, fun _ => rfl⟩

/-- The ladder: limits rise at once where the hottest site reaches them, and a channel at T_CRIT is marked. -/
theorem State.ladder_spec (s : State) :
    (s.tWarn ≤ s.hottest → s.ladder.pwr.warnOn = true) ∧ (s.tHot ≤ s.hottest → s.ladder.pwr.hotOn = true) ∧
      (∀ c, c < 6 → s.tCrit ≤ s.channelHottest c → s.ladder.pwr.critShed.getLsbD c = true) ∧ s.ladder.pwr.profile = s.pwr.profile ∧
      (s.ladder.thermal ≠ s.thermal → s.ladder.pwr.events = bitSet s.pwr.events 6) := by
  unfold State.ladder
  dsimp only
  generalize hu : State.tookFree _ 24 = u
  obtain ⟨e, hpwr, hevents⟩ := State.stepped_pwr s u
  have hthermal : (State.stepped s u).thermal = u.thermal := by
    rw [State.thermal, hpwr]
    rfl
  rw [hthermal, hpwr]
  subst hu
  refine ⟨fun h => ?_, fun h => ?_, fun c hc h => ?_, rfl, hevents⟩
  · exact Bool.or_eq_true_iff.2 (.inr (decide_eq_true h))
  · exact Bool.or_eq_true_iff.2 (.inr (decide_eq_true h))
  · exact getLsbD_foldl_bitSet hc _ _ (.inr ⟨List.mem_range.2 hc, h⟩)

end

/-- Settles O49, clause by clause: a counter's clear, and the readings of sensors through what they make of the sensor. -/
theorem countersAndSensors : Obligations.CountersAndSensors := by
  unfold Obligations.CountersAndSensors
  refine ⟨?clear, ?refused, ?held, ?taken, ?fault, ?cleared, ?early⟩
  case clear =>
    intro s m md ch i hl hw
    refine (next_of_live hl _).trans ?_
    rw [State.cntClear_of_owner hw]
  case refused =>
    intro s md ch i hl hw
    refine ⟨_, next_of_live hl _, ?_⟩
    rw [State.cntClear_of_other hw]
    exact commit_regErr_host s 6
  case held =>
    intro s i v hl hp
    exact congrArg (fun t => Host.Outcome.next (commit t)) (State.sensorUpdate_of_held hl hp)
  case taken =>
    intro s i v hl hi hf hlow hhigh w
    have hok : s.plausible i v = true := by rw [State.plausible_of_unpaired hi, decide_eq_true hlow, decide_eq_true hhigh]; rfl
    have heff := (State.sensorUpdate_of_other hl hi).trans (State.reading_of_plausible hok)
    refine ⟨_, congrArg (fun t => Host.Outcome.next (commit t)) heff, onlyIn_commit (onlyIn_readingTaken v), ?_⟩
    rw [State.sensor_congr (commit_cons_sensors _), State.readingTaken_sensor w]
    refine ⟨?_, ?_, rfl, State.sensorRead_near v _⟩
    · change (s.plausible i v && !(s.sensor i).fault) = true
      rw [hok, hf]
      rfl
    · change ((s.sensor i).fault || !s.plausible i v) = false
      rw [hok, hf]
      rfl
  case fault =>
    intro s i v hl hi hf hends w
    have hok : s.plausible i v = false := by
      rw [State.plausible_of_unpaired hi]
      rcases hends with h | h
      · rw [decide_eq_false (Int.not_lt.2 h), Bool.false_and]
      · rw [decide_eq_false (Int.not_lt.2 h), Bool.and_false]
    have heff := (State.sensorUpdate_of_other hl hi).trans (State.reading_of_fault hok hf)
    refine ⟨_, congrArg (fun t => Host.Outcome.next (commit t)) heff, onlyIn_commit (onlyIn_trans
      (onlyIn_mono (onlyIn_readingTaken v) (by decide)) (onlyIn_evCons 5 (by decide) (by decide))), ?_⟩
    rw [State.sensor_congr (commit_cons_sensors _), State.sensor_congr State.evCons_sensors, State.readingTaken_sensor w, commit_cons,
      State.evCons_events]
    refine ⟨?_, ?_, ?_, rfl⟩
    · change (s.plausible i v && !(s.sensor i).fault) = false
      rw [hok]
      rfl
    · change ((s.sensor i).fault || !s.plausible i v) = true
      rw [hok, hf]
      rfl
    · exact if_neg (by rw [hok]; decide)
  case cleared =>
    intro s i n hl hf hs hdue w
    refine ⟨_, next_of_live hl _, ?_⟩
    rw [State.faultClear_of_due hf hs hdue]
    refine ⟨onlyIn_commit (onlyIn_trans (onlyIn_onCons _ (by decide)) (onlyIn_mono onlyIn_ladder (by decide))), ?_⟩
    rw [State.sensor_congr (commit_cons_sensors _), State.sensor_congr (congrArg Cons.sensors (onlyIn_ladder.rest .cons (by decide))),
      State.onSensor_sensor w]
  case early =>
    intro s i n hl hs h
    refine (next_of_live hl _).trans ?_
    rw [State.faultClear_of_early hs h]

/-- Settles O50, clause by clause: a reading through the ladder, and each release, step and trip as its own effect. -/
theorem thermalLadder : Obligations.ThermalLadder := by
  unfold Obligations.ThermalLadder
  refine ⟨?site, ?warn, ?warnEarly, ?hot, ?crit, ?module, ?flow, ?noFlow, ?trip, ?cool⟩
  case site =>
    intro s i v hl hi hf hok w
    have heff := (State.sensorUpdate_of_site hl (by omega)).trans (congrArg State.ladder (State.reading_of_plausible hok))
    have hread := onlyIn_readingTaken (s := s) (i := i) v
    have hsensor : (commit (s.readingTaken i v).ladder).sensor i = (s.readingTaken i v).sensor i :=
      (State.sensor_congr (commit_cons_sensors _) _).trans
        (State.sensor_congr (congrArg Cons.sensors (onlyIn_ladder.rest .cons (by decide))) _)
    have hfault : ((s.readingTaken i v).sensor i).fault = false := by
      rw [State.readingTaken_sensor w]
      change ((s.sensor i).fault || !s.plausible i v) = false
      rw [hok, hf]
      rfl
    obtain ⟨hwarn, hhot, hcrit, hprofile, hevents⟩ := (s.readingTaken i v).ladder_spec
    refine ⟨_, congrArg (fun t => Host.Outcome.next (commit t)) heff, onlyIn_commit (onlyIn_trans
      (onlyIn_mono hread (by decide)) (onlyIn_mono onlyIn_ladder (by decide))), ?_⟩
    rw [hsensor, commit_pwr]
    exact ⟨fun h => hwarn (Int.le_trans h (State.site_le_hottest hi hfault)), fun h => hhot (Int.le_trans h (State.site_le_hottest hi hfault)),
      fun h => hcrit _ (by omega) (Int.le_trans h (State.site_le_channelHottest hi hfault)), hprofile, hevents⟩
  case warn =>
    intro s ch hl hw hh h
    have hstep := State.stepped_onPwr (s := s) (fun p => { p with warnOn := false }) (by simp [State.thermal, hw, hh])
    refine ⟨_, next_of_live hl _, ?_⟩
    rw [State.thermalRelease_warn hw h]
    obtain ⟨hframe, hpwr, hcnt⟩ := hstep
    exact ⟨onlyIn_commit hframe, hpwr, hcnt⟩
  case warnEarly =>
    intro s ch hl h
    refine (next_of_live hl _).trans ?_
    rw [State.thermalRelease_warn_early h]
  case hot =>
    intro s ch hl hh h hflow
    have hstep := State.stepped_onPwr (s := s) (fun p => { p with hotOn := false, flowLow := false })
      (by rw [State.thermal, State.thermal, hh]; cases hw : s.pwr.warnOn <;> simp [hw])
    refine ⟨_, next_of_live hl _, ?_⟩
    rw [State.thermalRelease_hot hh h hflow]
    obtain ⟨hframe, hpwr, -⟩ := hstep
    exact ⟨onlyIn_commit hframe, hpwr⟩
  case crit =>
    intro s ch hl hc h
    refine (next_of_live hl _).trans ?_
    rw [State.thermalRelease_crit hc h]
    rfl
  case module =>
    intro s ch hl hm h
    refine (next_of_live hl _).trans ?_
    rw [State.thermalRelease_module hm h]
    rfl
  case flow =>
    intro s n hl hs h hf hh
    have hstep := State.stepped_onPwr (s := s) (fun p => { p with flowLow := true, hotOn := true })
      (by rw [State.thermal, State.thermal, hh]; cases hw : s.pwr.warnOn <;> simp)
    refine ⟨_, next_of_live hl _, ?_⟩
    rw [State.flowLowEff_of_due hs h hf]
    obtain ⟨hframe, hpwr, -⟩ := hstep
    exact ⟨onlyIn_commit hframe, hpwr⟩
  case noFlow =>
    intro s hl hs
    refine (next_of_live hl _).trans ?_
    rw [State.flowLowEff_of_none hs]
  case trip =>
    intro s i hl hi h
    have hhold : s.start.hold = false := by simpa using (Bool.and_eq_true_iff.1 hl).2
    refine ⟨commit (s.thermalTrip i), next_of_live hl _, ?_⟩
    rw [State.thermalTrip_of_hot hi h, commit_start, commit_keep, commit_bind, commit_pwr]
    exact ⟨rfl, Bool.or_true _, Bool.and_false _, State.resetModule_cause hhold 9, rfl, rfl⟩
  case cool =>
    intro s i hl h
    refine (next_of_live hl _).trans ?_
    rw [State.thermalTrip_of_cool h]

end Sys2Proof.Machine

/-! The conservator's replans and health updates (spec/19, R407 to R411). -/

namespace Sys2Proof.Machine

section

variable {s t : State}

/-! ### Replans (R407, R408) -/

theorem State.replanStart_eq (s : State) : s.replanStart = s.onCons fun k => { k with replanBusy := true } := by
  unfold State.replanStart
  split
  · next h =>
    rw [State.onCons, ← h]
  · rfl

theorem State.replanTimer_of_due (hb : s.bound = true) (h : s.cons.replanFrom + 3600000000000 ≤ s.cons.poweredNs) :
    s.replanTimer = s.onCons fun k => { k with replanFrom := k.replanFrom + 3600000000000, replanBusy := true } := by
  rw [State.replanTimer, if_pos (by rw [hb, decide_eq_true h]; rfl), State.replanStart_eq]
  rfl

theorem State.replanTimer_of_early (h : s.cons.poweredNs < s.cons.replanFrom + 3600000000000) : s.replanTimer = s :=
  if_neg (by rw [decide_eq_false (Nat.not_le.2 h), Bool.and_false]; decide)

/-- The least margins of the profiles. -/
def State.marginsOf (s : State) (drift : List Int) : Tab Int :=
  (List.range 5).foldl (fun (t : Tab Int) p => t.set p (((List.range 5).map (s.marginOf drift)).getD p (0, 0)).1) []

/-- What a replan sets at once: voltages for the next boundary, margins and the day's history. -/
def State.replanCons (s : State) (drift : List Int) (k : Cons) : Cons :=
  let ms := (List.range 5).map (s.marginOf drift)
  let day := s.poweredHours / 24
  { k with
    replanBusy := false, planned := true, rails := s.railsOf drift, margins := s.marginsOf drift
    marginDoms := (List.range 5).foldl (fun (t : Tab Nat) p => t.set p (ms.getD p (0, 0)).2) []
    history := if k.lastDay < day then (k.history ++ [(s.poweredHours, (ms.getD (s.cons.ceilingNext.getD s.cons.ceiling) (0, 0)).1)]).drop
      (k.history.length + 1 - 3650) else k.history
    lastDay := max k.lastDay day }

theorem State.replanCons_ceiling (s : State) (d : List Int) (k : Cons) : (s.replanCons d k).ceiling = k.ceiling := rfl

/-- A replan's result in place, and its event. -/
def State.replanPlaced (s : State) (drift : List Int) : State := (s.onCons (s.replanCons drift)).evCons 0

/-- MARGIN_LOW at a margin that falls below 1 percent. -/
def State.marginLow (s : State) (low : Bool) : State := if low then s.evCons 1 else s

/-- The ceiling lowered for the next boundary, and recorded. -/
def State.ceilingLowered (s : State) (c : Nat) : State :=
  ((s.onCons fun k => { k with ceilingNext := some c, history := [] }).evCons 2).record { kind := .calib, vals := [c] }

/-- The ceiling lowered where the margin is negative. -/
def State.ceilingChecked (s : State) (negative : Bool) (c : Nat) : State := if negative then s.ceilingLowered c else s

theorem State.replanEff_eq (s : State) (d : List Int) : ∃ low c h,
    s.replanEff d = (((s.replanPlaced d).marginLow low).ceilingChecked
      (decide ((((List.range 5).map (s.marginOf d)).getD (s.cons.ceilingNext.getD s.cons.ceiling) (0, 0)).1 < 0) &&
        decide (s.cons.ceilingNext.getD s.cons.ceiling < 4)) c).onCons (fun k => { k with projHours := h }) ∧
      ∃ m, c = ceilingBelow m (s.cons.ceilingNext.getD s.cons.ceiling) := ⟨_, _, _, rfl, _, rfl⟩

/-- What the later steps of a replan keep of what it placed: events stay, and the ceiling for the next boundary is lowered or kept. -/
structure PlanKept (s t : State) : Prop where
  frame : OnlyIn [.cons, .keep, .cnt] s t
  busy : t.cons.replanBusy = s.cons.replanBusy
  planned : t.cons.planned = s.cons.planned
  rails : t.cons.rails = s.cons.rails
  margins : t.cons.margins = s.cons.margins
  ceiling : t.cons.ceiling = s.cons.ceiling
  events : ∀ i, s.cons.events.getLsbD i = true → t.cons.events.getLsbD i = true

theorem planKept_trans {u : State} (h : PlanKept s t) (k : PlanKept t u) : PlanKept s u where
  frame := onlyIn_trans h.frame k.frame
  busy := k.busy.trans h.busy
  planned := k.planned.trans h.planned
  rails := k.rails.trans h.rails
  margins := k.margins.trans h.margins
  ceiling := k.ceiling.trans h.ceiling
  events i hi := k.events i (h.events i hi)

theorem planKept_refl (s : State) : PlanKept s s := ⟨onlyIn_refl _ _, rfl, rfl, rfl, rfl, rfl, fun _ h => h⟩

theorem State.evCons_cons (i : Nat) : (s.evCons i).cons = { s.cons with events := bitSet s.cons.events i } := by
  rw [State.evCons, State.count_cons, State.onCons_cons]

theorem planKept_evCons (i : Nat) : PlanKept s (s.evCons i) where
  frame := onlyIn_evCons i (by decide) (by decide)
  busy := by rw [State.evCons_cons]
  planned := by rw [State.evCons_cons]
  rails := by rw [State.evCons_cons]
  margins := by rw [State.evCons_cons]
  ceiling := by rw [State.evCons_cons]
  events j h := by rw [State.evCons_cons]; exact bitSet_of_getLsbD i h

theorem planKept_marginLow (b : Bool) : PlanKept s (s.marginLow b) := by
  unfold State.marginLow
  split
  · exact planKept_evCons 1
  · exact planKept_refl s

theorem planKept_ceilingLowered (c : Nat) : PlanKept s (s.ceilingLowered c) :=
  planKept_trans (planKept_trans (t := s.onCons fun k => { k with ceilingNext := some c, history := [] })
    ⟨onlyIn_onCons _ (by decide), rfl, rfl, rfl, rfl, rfl, fun _ h => h⟩ (planKept_evCons 2))
    ⟨onlyIn_record _ (by decide), rfl, rfl, rfl, rfl, rfl, fun _ h => h⟩

theorem planKept_ceilingChecked (b : Bool) (c : Nat) : PlanKept s (s.ceilingChecked b c) := by
  unfold State.ceilingChecked
  split
  · exact planKept_ceilingLowered c
  · exact planKept_refl s

theorem planKept_projected (h : Word) : PlanKept s (s.onCons fun k => { k with projHours := h }) :=
  ⟨onlyIn_onCons _ (by decide), rfl, rfl, rfl, rfl, rfl, fun _ h => h⟩

theorem State.ceilingLowered_spec (c : Nat) :
    (s.ceilingLowered c).cons.ceilingNext = some c ∧ (s.ceilingLowered c).cons.events.getLsbD 2 = true := by
  rw [State.ceilingLowered, State.record, State.onKeep_cons, State.evCons_cons]
  exact ⟨rfl, getLsbD_bitSet_self _ (by decide)⟩

theorem ceilingBelow_spec (m : Tab Int) {c : Nat} (h : c < 4) : c < ceilingBelow m c ∧ ceilingBelow m c ≤ 4 := by
  have hmem : ∀ {l : List Nat}, (∀ p ∈ l, c < p ∧ p ≤ 4) → c < l.headD 4 ∧ l.headD 4 ≤ 4 := by
    intro l hl
    cases l with
    | nil => exact ⟨h, Nat.le_refl 4⟩
    | cons p l => exact hl p List.mem_cons_self
  refine hmem fun p hp => ?_
  obtain ⟨hrange, hp⟩ := List.mem_filter.1 hp
  have hlt := List.mem_range.1 hrange
  exact ⟨of_decide_eq_true (Bool.and_eq_true_iff.1 hp).1, by omega⟩

/-- A table written at each index of a list reads as what was written. -/
theorem Tab.get_foldl_set {α : Type} [Inhabited α] [DecidableEq α] (f : Nat → α) (l : List Nat) {t : Tab α} (w : t.wf = true) {j : Nat}
    (h : j ∈ l ∨ t.get j = f j) : (l.foldl (fun (t : Tab α) p => t.set p (f p)) t).get j = f j := by
  induction l generalizing t with
  | nil => exact h.resolve_left List.not_mem_nil
  | cons p l ih =>
    refine ih (Tab.wf_set t w p (f p)) ?_
    rw [Tab.get_set t w]
    split
    · next heq => exact .inr (by rw [heq])
    · next hne => exact h.imp_left fun hmem => (List.mem_cons.1 hmem).resolve_left hne

theorem State.railsOf_get (w : s.cons.rails.wf = true) (d : List Int) {p c : Nat} (hp : p < 5) (hc : c < 40) :
    ((s.railsOf d).get (railKey p c)).vNext =
      some (max (s.cons.rails.get (railKey p c)).vSet (min (s.vReq d p c) (s.cons.rails.get (railKey p c)).vMax)) := by
  have hmem : railKey p c ∈ (List.range 5).flatMap fun p => (List.range clockDomains).map (railKey p) :=
    List.mem_flatMap.2 ⟨p, List.mem_range.2 hp, List.mem_map.2 ⟨c, List.mem_range.2 hc, rfl⟩⟩
  have hprofile : railKey p c / 64 = p := by unfold railKey; omega
  have hdomain : railKey p c % 64 = c := by unfold railKey; omega
  rw [State.railsOf, Tab.get_updAll (f := fun k r => { r with vNext := some (max r.vSet (min (s.vReq d (k / 64) (k % 64)) r.vMax)) })
    (fun _ _ => rfl) _ _ w, if_pos hmem, hprofile, hdomain]

theorem State.marginsOf_get (d : List Int) {p : Nat} (hp : p < 5) : (s.marginsOf d).get p = (s.marginOf d p).1 := by
  unfold State.marginsOf
  have hwf : Tab.wf ([] : Tab Int) = true := rfl
  rw [Tab.get_foldl_set (fun p => (((List.range 5).map (s.marginOf d)).getD p (0, 0)).1) (List.range 5) hwf (.inl (List.mem_range.2 hp)),
    getD_map_range hp]

/-- What a replan placed at once. -/
theorem State.replanPlaced_spec (d : List Int) :
    OnlyIn [.cons, .keep, .cnt] s (s.replanPlaced d) ∧ (s.replanPlaced d).cons.replanBusy = false ∧
      (s.replanPlaced d).cons.planned = true ∧ (s.replanPlaced d).cons.events.getLsbD 0 = true ∧
      (∀ p < 5, (s.replanPlaced d).cons.margins.get p = (s.marginOf d p).1) ∧ (s.replanPlaced d).cons.rails = s.railsOf d ∧
      (s.replanPlaced d).cons.ceiling = s.cons.ceiling := by
  refine ⟨onlyIn_trans (onlyIn_onCons _ (by decide)) (onlyIn_evCons 0 (by decide) (by decide)), ?_⟩
  have hkept := planKept_evCons (s := s.onCons (s.replanCons d)) 0
  have hevents : (s.replanPlaced d).cons.events.getLsbD 0 = true := by
    rw [State.replanPlaced, State.evCons_cons]
    exact getLsbD_bitSet_self _ (by decide)
  have hmargins : (s.replanCons d s.cons).margins = s.marginsOf d := rfl
  have hrails : (s.replanCons d s.cons).rails = s.railsOf d := by rw [State.replanCons]
  refine ⟨hkept.busy, hkept.planned, hevents, ?_, ?_, ?_⟩
  · intro p hp
    rw [← State.marginsOf_get d hp, ← hmargins]
    exact congrArg (Tab.get · p) hkept.margins
  · rw [← hrails]
    exact hkept.rails
  · rw [← s.replanCons_ceiling d s.cons]
    exact hkept.ceiling

/-! ### Health (R410, R411) -/

/-- A component's score and state in a health update. -/
def State.healthTaken (s : State) (c : Nat) (x : Nat × Nat × Nat) : Nat :=
  if s.laneOut c then 0 else if c = 0 then (max 0 (min ((healthScore c x (s.freeBit c) : Nat) : Int) s.marginTerm)).toNat
  else healthScore c x (s.freeBit c)

/-- A component with a score taken anew. -/
def Health.scored (h : Health) (score : Nat) : Health := { h with score := score, state := healthNext h score }

/-- The event of a component's change of state. -/
def State.healthEvent (s : State) (old new : HealthState) : State :=
  match old, new with
  | .ok, .watch => s.evCons 3
  | _, .replace => s.evCons 4
  | _, _ => s

/-- A component whose score is taken, before the change of its state is recorded. -/
def State.healthScored (s : State) (c : Nat) (x : Nat × Nat × Nat) : State :=
  s.onCons fun k => { k with health := k.health.upd c fun h =>
    { h with score := s.healthTaken c x, state := healthNext (s.cons.health.get c) (s.healthTaken c x) } }

theorem State.healthOne_eq (s : State) (c : Nat) (x : Nat × Nat × Nat) :
    s.healthOne c x = if healthNext (s.cons.health.get c) (s.healthTaken c x) == (s.cons.health.get c).state then s.healthScored c x
      else ((s.healthScored c x).record { kind := .health, vals := [c, match healthNext (s.cons.health.get c) (s.healthTaken c x) with
        | .ok => 0 | .watch => 1 | .replace => 2] }).healthEvent (s.cons.health.get c).state
          (healthNext (s.cons.health.get c) (s.healthTaken c x)) := rfl

theorem State.healthEvent_spec (old new : HealthState) :
    OnlyIn [.cons, .keep, .cnt] s (s.healthEvent old new) ∧ (s.healthEvent old new).cons.health = s.cons.health := by
  unfold State.healthEvent
  have hev : ∀ i, OnlyIn [.cons, .keep, .cnt] s (s.evCons i) ∧ (s.evCons i).cons.health = s.cons.health := fun i =>
    ⟨onlyIn_evCons i (by decide) (by decide), by rw [State.evCons_cons]⟩
  split
  · exact hev 3
  · exact hev 4
  · exact ⟨onlyIn_refl _ _, rfl⟩

/-- What one component's update leaves: every other component. -/
theorem State.healthOne_spec (c : Nat) (x : Nat × Nat × Nat) :
    OnlyIn [.cons, .keep, .cnt] s (s.healthOne c x) ∧ (s.healthOne c x).cons.health = (s.healthScored c x).cons.health := by
  have hscored : OnlyIn [.cons, .keep, .cnt] s (s.healthScored c x) := onlyIn_onCons _ (by decide)
  rw [State.healthOne_eq]
  split
  · exact ⟨hscored, rfl⟩
  · obtain ⟨hframe, hhealth⟩ := State.healthEvent_spec (s := (s.healthScored c x).record _) _ _
    exact ⟨onlyIn_trans (onlyIn_trans hscored (onlyIn_record _ (by decide))) hframe, hhealth⟩

theorem State.healthScored_get (w : s.cons.health.wf = true) (c : Nat) (x : Nat × Nat × Nat) (j : Nat) :
    (s.healthScored c x).cons.health.get j =
      if j = c then (s.cons.health.get c).scored (s.healthTaken c x) else s.cons.health.get j :=
  Tab.get_upd s.cons.health w c j fun h =>
    { h with score := s.healthTaken c x, state := healthNext (s.cons.health.get c) (s.healthTaken c x) }

/-- Components taken one by one. -/
def State.healthAll (s : State) (x : Nat → Nat × Nat × Nat) (l : List Nat) : State := l.foldl (fun (s : State) c => s.healthOne c (x c)) s

theorem State.healthUpdate_eq (s : State) (x : List (Nat × Nat × Nat)) : s.healthUpdate x =
    ((s.healthAll (fun c => x.getD c (0, 0, 0)) (List.range 70)).tookFree 70).setCause 0
      ((s.healthAll (fun c => x.getD c (0, 0, 0)) (List.range 70)).tookFree 70).healthReplace := rfl

/-- Each component taken once: the score of one that is not MODULE nor a lane left out is that of its inputs. -/
theorem State.healthAll_spec (x : Nat → Nat × Nat × Nat) (l : List Nat) (hl : l.Nodup) (w : s.cons.health.wf = true) :
    OnlyIn [.cons, .keep, .cnt] s (s.healthAll x l) ∧
      ∀ c, c ≠ 0 → s.laneOut c = false → (s.healthAll x l).cons.health.get c =
        if c ∈ l then (s.cons.health.get c).scored (healthScore c (x c) (s.freeBit c)) else s.cons.health.get c := by
  unfold State.healthAll
  induction l generalizing s with
  | nil => exact ⟨onlyIn_refl _ _, fun c _ _ => (if_neg List.not_mem_nil).symm⟩
  | cons a l ih =>
    obtain ⟨hnew, hrest⟩ := List.nodup_cons.1 hl
    obtain ⟨hone, hhealth⟩ := State.healthOne_spec (s := s) a (x a)
    have wone : (s.healthOne a (x a)).cons.health.wf = true := by
      rw [hhealth]
      exact Tab.wf_upd s.cons.health w a fun h =>
        { h with score := s.healthTaken a (x a), state := healthNext (s.cons.health.get a) (s.healthTaken a (x a)) }
    obtain ⟨htail, hget⟩ := ih hrest wone
    refine ⟨onlyIn_trans hone htail, fun c hc hlane => ?_⟩
    have hlane' : (s.healthOne a (x a)).laneOut c = false := by
      rw [State.laneOut, hone.rest .ring (by decide), ← State.laneOut, hlane]
    have hbit : (s.healthOne a (x a)).freeBit c = s.freeBit c := by
      rw [State.freeBit, hone.rest .freeCount (by decide), ← State.freeBit]
    rw [List.foldl_cons, hget c hc hlane', hbit, hhealth, State.healthScored_get w]
    by_cases heq : c = a
    · subst heq
      rw [if_neg hnew, if_pos rfl, if_pos List.mem_cons_self, State.healthTaken, if_neg (by rw [hlane]; decide), if_neg hc]
    · rw [if_neg heq]
      simp only [List.mem_cons, heq, false_or]

/-! ### Fitness (R456) -/

theorem getLsbD_bitPut_self {w : Nat} (v : BitVec w) {i : Nat} (h : i < w) (x : Bool) : (bitPut v i x).getLsbD i = x := by
  cases x with
  | true => exact getLsbD_bitSet_self v h
  | false =>
    rw [bitPut, if_neg (by decide), bitClr, BitVec.getLsbD_and, BitVec.getLsbD_not, BitVec.getLsbD_ofNat, Nat.testBit_two_pow_self]
    simp [h]

theorem State.pairRelease_cause : s.pairRelease.pair.cause = s.pair.cause := by
  unfold State.pairRelease State.evPair
  dsimp only
  rw [State.count_pair]
  rfl

theorem State.pairUpdate_cause : s.pairUpdate.pair.cause = s.pair.cause := by
  unfold State.pairUpdate
  extract_lets s0
  have h0 : s0.pair.cause = s.pair.cause := rfl
  clear_value s0
  repeat' split
  all_goals first
    | exact h0
    | exact State.pairRelease_cause.trans h0

theorem State.setCause_cause (i : Nat) (v : Bool) : (s.setCause i v).pair.cause = bitPut s.pair.cause i v := by
  unfold State.setCause
  dsimp only
  split
  · rw [State.pairUpdate_cause]
    split
    · rw [State.onPair_pair, (onlyIn_sendRingEvent ..).rest .pair (by decide)]
      rfl
    · rfl
  · exact State.pairUpdate_cause

end

/-- Settles O51, clause by clause: a replan through what it places and what its later steps keep, the health update component by
component. -/
theorem conservator : Obligations.Conservator := by
  unfold Obligations.Conservator
  refine ⟨?replan, ?timer, ?timerEarly, ?done, ?health⟩
  case replan =>
    intro s hl
    refine (next_of_live hl _).trans ?_
    rw [State.replanStart_eq]
    rfl
  case timer =>
    intro s hl hb h
    refine (next_of_live hl _).trans ?_
    rw [State.replanTimer_of_due hb h]
    rfl
  case timerEarly =>
    intro s hl h
    refine (next_of_live hl _).trans ?_
    rw [State.replanTimer_of_early h]
  case done =>
    intro s d hl hbusy w
    have hnext : exec (.replanDone d) s = .next (commit (s.replanEff d)) := by
      rw [exec, execReplanDone, hl, hbusy]
      rfl
    obtain ⟨low, c, h, heff, m, hc⟩ := s.replanEff_eq d
    obtain ⟨hframe, hdone, hplanned, hevent, hmargins, hrails, hceiling⟩ := State.replanPlaced_spec (s := s) d
    have hlow := planKept_marginLow (s := s.replanPlaced d) low
    have hkept := planKept_trans (planKept_trans hlow (planKept_ceilingChecked
      (decide ((((List.range 5).map (s.marginOf d)).getD (s.cons.ceilingNext.getD s.cons.ceiling) (0, 0)).1 < 0) &&
        decide (s.cons.ceilingNext.getD s.cons.ceiling < 4)) c)) (planKept_projected h)
    rw [← heff] at hkept
    refine ⟨_, hnext, ?_⟩
    rw [commit_cons, hkept.busy, hkept.planned, hkept.margins, hkept.rails, hkept.ceiling, hrails]
    refine ⟨onlyIn_commit (onlyIn_trans hframe hkept.frame), hdone, hplanned, hkept.events 0 hevent, hmargins,
      fun p hp c hc => State.railsOf_get w d hp hc, hceiling, fun hneg hlt => ?_⟩
    have hcheck : (decide ((((List.range 5).map (s.marginOf d)).getD (s.cons.ceilingNext.getD s.cons.ceiling) (0, 0)).1 < 0) &&
        decide (s.cons.ceilingNext.getD s.cons.ceiling < 4)) = true := by
      rw [getD_map_range (by omega), decide_eq_true hneg, decide_eq_true hlt]
      rfl
    obtain ⟨hset, hbit⟩ := State.ceilingLowered_spec (s := (s.replanPlaced d).marginLow low) c
    rw [heff, hcheck, State.ceilingChecked, if_pos rfl, State.onCons_cons]
    exact ⟨c, hset, hc ▸ ceilingBelow_spec m hlt |>.1, hc ▸ (ceilingBelow_spec m hlt).2, hbit⟩
  case health =>
    intro s x hl w
    obtain ⟨hall, hget⟩ := State.healthAll_spec (fun c => x.getD c (0, 0, 0)) (List.range 70) List.nodup_range w
    have heff := s.healthUpdate_eq x
    generalize s.healthAll (fun c => x.getD c (0, 0, 0)) (List.range 70) = u at hall hget heff
    have hcause := onlyIn_setCause (s := u.tookFree 70) 0 (u.tookFree 70).healthReplace
    have hcons : (s.healthUpdate x).cons = u.cons := by rw [heff, hcause.rest .cons (by decide)]; rfl
    refine ⟨_, next_of_live hl _, onlyIn_commit ?_, fun c h1 h70 hlane => ?_, ?_, ?_⟩
    · rw [heff]
      exact onlyIn_trans (onlyIn_trans (onlyIn_mono hall (by decide)) (onlyIn_onFreeCount _ (by decide))) (onlyIn_mono hcause (by decide))
    · rw [commit_cons, hcons, hget c (by omega) hlane, if_pos (List.mem_range.2 h70)]
      exact ⟨rfl, rfl⟩
    · rw [commit_freeCount, heff, hcause.rest .freeCount (by decide)]
      exact congrArg (· + 70) (hall.rest .freeCount (by decide))
    · have hreplace : (commit (s.healthUpdate x)).healthReplace = (u.tookFree 70).healthReplace := by
        rw [State.healthReplace, commit_cons, hcons]
        rfl
      rw [hreplace, commit_pair, heff, State.setCause_cause, getLsbD_bitPut_self _ (by decide)]

end Sys2Proof.Machine

/-! Spot samples, field tests, units and MAINTENANCE (spec/20, R418 to R425, R432). -/

namespace Sys2Proof.Machine

section

variable {s : State}

/-! ### Units (R423) -/

/-- A unit made SUSPECT in a tick. -/
def UnitRun.suspected (x : UnitRun) (tick : Nat) : UnitRun := { x with state := .suspect, streak := 0, eventTick := some tick }

/-- A unit becomes SUSPECT. -/
def State.unitSuspected (s : State) (u : Nat) : State :=
  s.onChk fun c => { c with units := c.units.upd u fun x => x.suspected s.tick.num }

/-- A HEALTHY unit without an event becomes SUSPECT. -/
theorem State.unitEvent_of_healthy {u : Nat} (h : (s.chk.units.get u).state = .healthy) (he : (s.chk.units.get u).eventTick = none)
    (failed : Bool) : s.unitEvent u failed = s.unitSuspected u := by
  unfold State.unitEvent
  dsimp only
  rw [if_neg (by rw [he]; simp), h]
  rfl

theorem onlyIn_unitSuspected {ps : List Part} (u : Nat) (h : Part.chk ∈ ps) : OnlyIn ps s (s.unitSuspected u) := onlyIn_onChk _ h

theorem State.unitSuspected_get (w : s.chk.units.wf = true) (u v : Nat) :
    (s.unitSuspected u).chk.units.get v = if v = u then (s.chk.units.get u).suspected s.tick.num else s.chk.units.get v :=
  Tab.get_upd s.chk.units w u v fun x => x.suspected s.tick.num

theorem State.unitSuspected_wf (w : s.chk.units.wf = true) (u : Nat) : (s.unitSuspected u).chk.units.wf = true :=
  Tab.wf_upd s.chk.units w u fun x => x.suspected s.tick.num

/-! ### Spot samples (R418) -/

theorem State.spotCompare_of_equal {src : Nat} {x : SpotRun} {l : List SpotRun}
    (h : takeSpot (fun x => x.source == src && decide (x.ticks ≤ 64)) s.chk.spots = (some x, l)) :
    s.spotCompare src true = s.onChk fun c => { c with spots := l } := by
  simp only [State.spotCompare, h, if_true]

/-- An unequal sample: both MEs with their units' events, counted and recorded. -/
def State.spotFailed (s : State) (x : SpotRun) : State :=
  (((s.unitSuspected (9 * x.source)).unitSuspected (9 * x.checker)).evSafe 1 none).record
    { kind := .spot, vals := [x.source, x.checker, x.activity, x.seq] }

theorem State.spotCompare_of_unequal {src : Nat} {x : SpotRun} {l : List SpotRun} (w : s.chk.units.wf = true)
    (h : takeSpot (fun x => x.source == src && decide (x.ticks ≤ 64)) s.chk.spots = (some x, l)) (hne : x.source ≠ x.checker)
    (hs : (s.chk.units.get (9 * x.source)).state = .healthy) (hse : (s.chk.units.get (9 * x.source)).eventTick = none)
    (hc : (s.chk.units.get (9 * x.checker)).state = .healthy) (hce : (s.chk.units.get (9 * x.checker)).eventTick = none) :
    s.spotCompare src false = ((s.onChk fun c => { c with spots := l }).spotFailed x).onAct x.activity fun t =>
      { t with flags := { t.flags with range := true } } := by
  have hfirst := State.unitEvent_of_healthy (s := s.onChk fun c => { c with spots := l }) (u := 9 * x.source) hs hse false
  have hget : ((s.onChk fun c => { c with spots := l }).unitSuspected (9 * x.source)).chk.units.get (9 * x.checker) =
      s.chk.units.get (9 * x.checker) := (State.unitSuspected_get w _ _).trans (if_neg (by omega))
  have hsecond := State.unitEvent_of_healthy (s := (s.onChk fun c => { c with spots := l }).unitSuspected (9 * x.source))
    (u := 9 * x.checker) (by rw [hget]; exact hc) (by rw [hget]; exact hce) false
  simp only [State.spotCompare, h, Bool.false_eq_true, if_false, unitOf, Nat.add_zero, hfirst, hsecond]
  rfl

theorem onlyIn_spotFailed (x : SpotRun) : OnlyIn [.chk, .keep, .cnt] s (s.spotFailed x) :=
  onlyIn_trans (onlyIn_trans (onlyIn_trans (onlyIn_unitSuspected _ (by decide)) (onlyIn_unitSuspected _ (by decide)))
    (onlyIn_evSafe _ _ (by decide) (by decide))) (onlyIn_record _ (by decide))

theorem State.spotFailed_spec (w : s.chk.units.wf = true) (x : SpotRun) :
    (s.spotFailed x).chk.spots = s.chk.spots ∧ ((s.spotFailed x).chk.units.get (9 * x.source)).state = .suspect ∧
      ((s.spotFailed x).chk.units.get (9 * x.checker)).state = .suspect ∧
      (s.spotFailed x).keep.record = { kind := .spot, vals := [x.source, x.checker, x.activity, x.seq] } :: s.keep.record := by
  have hkeep : (((s.unitSuspected (9 * x.source)).unitSuspected (9 * x.checker)).evSafe 1 none).keep = s.keep :=
    (onlyIn_trans (onlyIn_trans (onlyIn_unitSuspected (ps := [.chk, .cnt]) _ (by decide)) (onlyIn_unitSuspected _ (by decide)))
      (onlyIn_evSafe _ _ (by decide) (by decide))).rest .keep (by decide)
  have hfirst := State.unitSuspected_get w (9 * x.source) (9 * x.source)
  have hunits := State.unitSuspected_get (State.unitSuspected_wf w (9 * x.source)) (9 * x.checker)
  rw [State.spotFailed, State.record, State.onKeep_chk, State.onKeep_keep, State.evSafe_chk, hkeep]
  refine ⟨rfl, ?_, ?_, rfl⟩
  · refine (congrArg UnitRun.state (hunits _)).trans ?_
    split
    · rfl
    · rw [hfirst, if_pos rfl]
      rfl
  · exact congrArg UnitRun.state ((hunits _).trans (if_pos rfl))

theorem State.spotTimeout_of_old {src : Nat} {x : SpotRun} {l : List SpotRun}
    (h : takeSpot (fun x => x.source == src && decide (64 < x.ticks)) s.chk.spots = (some x, l)) :
    s.spotTimeout src = (s.onChk fun c => { c with spots := l }).evSafe 6 none := by
  simp only [State.spotTimeout, h]

/-! ### Field tests (R420 to R422) -/

theorem State.testSegment_of_new {u : Nat} (hb : s.bound = true) (hlevel : s.b.safe.checkLevel ≠ 0) (hm : s.chk.maintenance = false)
    (ht : s.testable u = true) (hr : s.chk.run = none) :
    s.testSegment u = s.onChk fun c => { c with
      testing := true, unit := u, run := some { unit := u, seed := s.testSeed u, inSegment := true } } := by
  simp only [State.testSegment, hb, hm, ht, hr, decide_eq_false hlevel, Bool.not_true, Bool.or_self, Bool.false_eq_true, if_false]

theorem State.segmentDone_of_more {r : TestRun} (hr : s.chk.run = some r) (hin : r.inSegment = true)
    (h : r.segments + 1 < runSegments (r.unit % 9)) :
    s.segmentDone true = s.onChk fun c => { c with run := some { r with segments := r.segments + 1, inSegment := false } } := by
  simp only [State.segmentDone, hr, hin, h, Bool.not_true, Bool.false_eq_true, if_false, if_true]

theorem State.segmentDone_of_last {r : TestRun} (hr : s.chk.run = some r) (hin : r.inSegment = true)
    (h : runSegments (r.unit % 9) ≤ r.segments + 1) :
    s.segmentDone true = s.onChk fun c => { c with
      run := none, testing := false, units := c.units.upd r.unit fun x => x.cleanRun s.tick.num } := by
  simp only [State.segmentDone, hr, hin, Nat.not_lt.2 h, Bool.not_true, Bool.false_eq_true, if_false]

/-- A unit after a failed run. -/
def UnitRun.runFailed (x : UnitRun) : UnitRun := { x with failed := x.failed + 1, runs := x.runs + 1, streak := 0 }

/-- A failed run ended, counted and recorded. -/
def State.runFailed (s : State) (r : TestRun) : State :=
  ((s.onChk fun c => { c with run := none, testing := false, units := c.units.upd r.unit UnitRun.runFailed }).evSafe 2 none).record
    { kind := .test, vals := [r.unit, r.segments], bytes := r.seed }

theorem State.runFailed_chk (r : TestRun) : (s.runFailed r).chk = { s.chk with
    run := none, testing := false, units := s.chk.units.upd r.unit UnitRun.runFailed, events := bitSet s.chk.events 2 } := by
  rw [State.runFailed, State.record, State.onKeep_chk, State.evSafe_chk, State.onChk_chk]

theorem State.runFailed_wf (w : s.chk.units.wf = true) (r : TestRun) : (s.runFailed r).chk.units.wf = true := by
  rw [State.runFailed_chk]
  exact Tab.wf_upd s.chk.units w r.unit UnitRun.runFailed

theorem State.runFailed_get (w : s.chk.units.wf = true) (r : TestRun) :
    (s.runFailed r).chk.units.get r.unit = (s.chk.units.get r.unit).runFailed := by
  rw [State.runFailed_chk]
  exact (Tab.get_upd s.chk.units w r.unit r.unit UnitRun.runFailed).trans (if_pos rfl)

theorem State.segmentDone_of_failed {r : TestRun} (w : s.chk.units.wf = true) (hr : s.chk.run = some r) (hin : r.inSegment = true)
    (h : (s.chk.units.get r.unit).state = .healthy) (he : (s.chk.units.get r.unit).eventTick = none) :
    s.segmentDone false = (s.runFailed r).unitSuspected r.unit := by
  have hfailed : s.segmentDone false = (s.runFailed r).unitEvent r.unit true := by
    simp only [State.segmentDone, hr, hin, Bool.not_true, Bool.not_false, Bool.false_eq_true, if_false, if_true]
    rfl
  rw [hfailed]
  exact State.unitEvent_of_healthy (by rw [State.runFailed_get w]; exact h) (by rw [State.runFailed_get w]; exact he) true

theorem onlyIn_runFailed (r : TestRun) : OnlyIn [.chk, .keep, .cnt] s (s.runFailed r) :=
  onlyIn_trans (onlyIn_trans (onlyIn_onChk _ (by decide)) (onlyIn_evSafe _ _ (by decide) (by decide))) (onlyIn_record _ (by decide))

theorem State.runTimeout_of_old {r : TestRun} (hr : s.chk.run = some r) (h : 1024 ≤ r.ticks) :
    s.runTimeout = (s.onChk fun c => { c with run := none, testing := false }).evSafe 6 none := by
  simp only [State.runTimeout, hr, h, if_true]

/-! ### MARK_UNIT, MAINTENANCE and the stress test (R425, R432) -/

theorem State.markUnit_of_healthy {u : Nat} (hu : u ≤ 53) (h : (s.chk.units.get u).state = .healthy)
    (he : (s.chk.units.get u).eventTick = none) :
    s.markUnit 1 u = (s.unitSuspected u).record { kind := .mark, vals := [1, u] } := by
  rw [State.markUnit, if_neg (by simp [idHostPf]; omega), State.unitEvent_of_healthy h he]

theorem State.maintEnter_of_free (hb : s.bound = true) (hr : s.bind.rebind = .idle)
    (h : ∀ k ∈ List.range 9, k ≠ 0 → (s.ksi.tenants.get k).state = .none) :
    s.maintEnter = s.onChk fun c => { c with maintPend := true } := by
  have hall : ((List.range 9).all fun k => k == 0 || (s.ksi.tenants.get k).state == .none) = true := by
    refine List.all_eq_true.2 fun k hk => ?_
    by_cases h0 : k = 0
    · rw [h0]
      rfl
    · rw [h k hk h0, Bool.or_comm]
      rfl
  rw [State.maintEnter, if_pos (by rw [hb, hr, hall]; rfl)]

theorem State.stressStart_of_maintenance (h : s.chk.maintenance = true) : s.stressStart = s.onChk fun c => { c with stress := true } :=
  if_pos h

/-- A stress test ended, with each unit's result. -/
def State.stressResults (s : State) (l : List Nat) : State :=
  s.onChk fun c => { c with
    stress := false, units := c.units.updAll (List.range 54) fun u x => { x with stress := BitVec.ofNat 16 (l.getD u 0) } }

theorem State.stressDone_of_passed {l : List Nat} (hs : s.chk.stress = true) (h : ∀ x ∈ l, x % 256 = 0) :
    s.stressDone l = (s.stressResults l).record { kind := .stress, vals := (List.range 54).map fun u => l.getD u 0 } := by
  have hpass : ∀ u, l.getD u 0 % 256 = 0 := by
    intro u
    by_cases hu : u < l.length
    · rw [List.getD_eq_getElem?_getD, List.getElem?_eq_getElem hu]
      exact h _ (List.getElem_mem hu)
    · rw [List.getD_eq_getElem?_getD, List.getElem?_eq_none (Nat.le_of_not_lt hu)]
      rfl
  have hkept : (List.range 54).foldl (fun (s : State) u => if l.getD u 0 % 256 = 0 then s else s.unitEvent u false) (s.stressResults l) =
      s.stressResults l := foldl_eq_self fun u _ => if_pos (hpass u)
  rw [State.stressDone, if_neg (by rw [hs]; decide)]
  exact congrArg (State.record · _) hkept

end

/-- Settles O52, clause by clause: a HEALTHY unit's event makes it SUSPECT, and each command is its own equation. -/
theorem fieldTests : Obligations.FieldTests := by
  unfold Obligations.FieldTests
  refine ⟨?equal, ?unequal, ?spotOld, ?start, ?more, ?last, ?failed, ?runOld, ?mark, ?enter, ?stress, ?stressDone⟩
  case equal =>
    intro s src x l hl h
    refine (next_of_live hl _).trans ?_
    rw [State.spotCompare_of_equal h]
    rfl
  case unequal =>
    intro s src x l hl w h hne hs hse hc hce
    obtain ⟨hspots, hsource, hchecker, hrecord⟩ := State.spotFailed_spec (s := s.onChk fun c => { c with spots := l }) w x
    refine ⟨_, next_of_live hl _, ?_⟩
    rw [State.spotCompare_of_unequal w h hne hs hse hc hce]
    exact ⟨onlyIn_commit (onlyIn_trans (onlyIn_trans (onlyIn_onChk _ (by decide)) (onlyIn_mono (onlyIn_spotFailed x) (by decide)))
      (onlyIn_onAct _ _ (by decide))), hspots, hsource, hchecker, hrecord⟩
  case spotOld =>
    intro s src x l hl h
    refine ⟨_, next_of_live hl _, ?_⟩
    rw [State.spotTimeout_of_old h, commit_chk, State.evSafe_chk]
    exact ⟨onlyIn_commit (onlyIn_trans (onlyIn_onChk _ (by decide)) (onlyIn_evSafe _ _ (by decide) (by decide))), rfl⟩
  case start =>
    intro s u hl hb hlevel hm ht hr
    refine (next_of_live hl _).trans ?_
    rw [State.testSegment_of_new hb hlevel hm ht hr]
    rfl
  case more =>
    intro s r hl hr hin h
    refine (next_of_live hl _).trans ?_
    rw [State.segmentDone_of_more hr hin h]
    rfl
  case last =>
    intro s r hl hr hin h
    refine (next_of_live hl _).trans ?_
    rw [State.segmentDone_of_last hr hin h]
    rfl
  case failed =>
    intro s r hl hr hin w h he
    have hunit := (State.unitSuspected_get (State.runFailed_wf w r) r.unit r.unit).trans (if_pos rfl)
    rw [State.runFailed_get w] at hunit
    refine ⟨_, next_of_live hl _, ?_⟩
    rw [State.segmentDone_of_failed w hr hin h he, commit_chk, hunit]
    refine ⟨onlyIn_commit (onlyIn_trans (onlyIn_runFailed r) (onlyIn_unitSuspected _ (by decide))), ?_, rfl, rfl, ?_⟩
    · exact congrArg Check.run (State.runFailed_chk r)
    · rw [commit_keep, (onlyIn_unitSuspected (ps := [.chk]) r.unit (by decide)).rest .keep (by decide), State.runFailed, State.record,
        State.onKeep_keep, (onlyIn_evSafe (ps := [.chk, .cnt]) 2 none (by decide) (by decide)).rest .keep (by decide)]
      rfl
  case runOld =>
    intro s r hl hr h
    refine ⟨_, next_of_live hl _, ?_⟩
    rw [State.runTimeout_of_old hr h, commit_chk, State.evSafe_chk]
    exact ⟨onlyIn_commit (onlyIn_trans (onlyIn_onChk _ (by decide)) (onlyIn_evSafe _ _ (by decide) (by decide))), rfl⟩
  case mark =>
    intro s u hl hu w h he
    refine ⟨_, next_of_live hl _, ?_⟩
    rw [State.markUnit_of_healthy hu h he]
    exact ⟨onlyIn_commit (onlyIn_trans (onlyIn_unitSuspected _ (by decide)) (onlyIn_record _ (by decide))),
      congrArg UnitRun.state ((State.unitSuspected_get w u u).trans (if_pos rfl)), rfl⟩
  case enter =>
    intro s hl hb hr h
    refine (next_of_live hl _).trans ?_
    rw [State.maintEnter_of_free hb hr h]
    rfl
  case stress =>
    intro s hl h
    refine (next_of_live hl _).trans ?_
    rw [State.stressStart_of_maintenance h]
    rfl
  case stressDone =>
    intro s l hl hs h
    refine ⟨_, next_of_live hl _, ?_⟩
    rw [State.stressDone_of_passed hs h]
    exact ⟨onlyIn_commit (onlyIn_trans (onlyIn_onChk _ (by decide)) (onlyIn_record _ (by decide))), rfl, rfl⟩

end Sys2Proof.Machine

/-! Rounds, digests, decisions and reloads of weight copies (spec/20, R426 to R429). -/

namespace Sys2Proof.Machine

section

variable {s t : State} {i : Nat}

theorem State.onCopy_copy (w : s.chk.copies.wf = true) (f : CopyRun → CopyRun) : (s.onCopy i f).copy i = f (s.copy i) :=
  (Tab.get_upd s.chk.copies w i i f).trans (if_pos rfl)

theorem onlyIn_onCopy {ps : List Part} (f : CopyRun → CopyRun) (h : Part.chk ∈ ps) : OnlyIn ps s (s.onCopy i f) := onlyIn_onChk _ h

theorem State.copy_congr (h : t.chk.copies = s.chk.copies) (i : Nat) : t.copy i = s.copy i := congrArg (Tab.get · i) h

theorem State.onCopy_events (f : CopyRun → CopyRun) : (s.onCopy i f).chk.events = s.chk.events := rfl

theorem commit_copy (s : State) (i : Nat) : (commit s).copy i = s.copy i := rfl

/-! ### Rounds and digests (R426) -/

theorem State.roundStart_of_due {c : SafeCopy} (hc : s.copyRec i = some c) (hrun : s.tick.running = true)
    (hm : s.chk.maintenance = false) (hn : s.copyInterval c ≠ 0) (hdue : s.tick.num % s.copyInterval c = 0)
    (hr : (s.copy i).round = none) (hd : (s.copy i).digest = []) (hseal : (s.copySeal i).isSome = true) :
    s.roundStart i = s.onCopy i fun x => { x with round := some s.tick.num } := by
  have hsealed : ((s.onCopy i fun x => { x with round := some s.tick.num }).copySeal i).isNone = false := by
    change (s.copySeal i).isNone = false
    rw [← Option.not_isSome, hseal]
    rfl
  have hguard : (!s.tick.running || s.chk.maintenance || s.copyInterval c == 0 || s.tick.num % s.copyInterval c != 0
      || (s.copy i).round == some s.tick.num || ((s.copy i).digest != [] && (s.copy i).digestTick == s.tick.num)) = false := by
    simp [hrun, hm, hn, hdue, hr, hd]
  simp only [State.roundStart, hc]
  rw [if_neg (by rw [hguard]; decide), hr]
  exact if_neg (Bool.eq_false_iff.1 hsealed)

/-- The digest of a copy's region latched. -/
def State.digestLatched (s : State) (i : Nat) (r : MemxRec) (n : Nat) : State :=
  s.onCopy i fun x => { x with digest := s.regionDigest r, digestTick := n, round := none, boundaries := some 0 }

/-- An own digest held for the group's decision, and sent. -/
def State.digestSent (s : State) (group n : Nat) (d : List Byte) : State :=
  (s.onChk fun x => { x with digests := x.digests ++ [{ sender := s.memberIdx, group := group, kind := 0, tick := n, digest := d }] }).sendDigest
    group 0 n d

theorem State.digestFinal_of_ok {c : SafeCopy} {r : MemxRec} {n : Nat} (hc : s.copyRec i = some c) (hr : s.copyRegion i = some r)
    (hn : (s.copy i).round = some n) (hread : s.rangeRead r.tenant r.channel (r.base * granBytes) (r.size * granBytes) 0 = .ok) :
    s.digestFinal i false = (s.digestLatched i r n).digestSent c.group n (s.regionDigest r) := by
  simp only [State.digestFinal, hc, hr, hn, hread, bne_self_eq_false, Bool.or_self, Bool.false_eq_true, if_false]
  rfl

theorem State.digestSent_spec (group n : Nat) (d : List Byte) :
    OnlyIn [.chk, .ring, .sent, .cnt] s (s.digestSent group n d) ∧ (s.digestSent group n d).chk.copies = s.chk.copies := by
  have hframe : OnlyIn [.ring, .sent, .cnt] (s.onChk fun x => { x with
      digests := x.digests ++ [{ sender := s.memberIdx, group := group, kind := 0, tick := n, digest := d }] }) (s.digestSent group n d) := by
    unfold State.digestSent State.sendDigest
    split
    · exact onlyIn_refl _ _
    · exact onlyIn_mono (onlyIn_broadcast _ _) (by decide)
  refine ⟨onlyIn_trans (onlyIn_onChk _ (by decide)) (onlyIn_mono hframe (by decide)), ?_⟩
  exact (congrArg Check.copies (hframe.rest .chk (by decide))).trans rfl

/-! ### Decisions (R427) -/

/-- What a decision makes of a copy before its outcome. -/
def State.copyDecided (s : State) (i : Nat) (alone : Bool) : State := s.onCopy i fun x => { x with boundaries := none, alone := alone }

/-- The digests of a group that a decision uses up, where no other copy of the group waits for them. -/
def State.digestsUsed (s : State) (c : SafeCopy) (n : Nat) : State :=
  if (List.range s.b.safe.copies.length).any fun j => ((s.copyRec j).getD {}).group == c.group
      && (s.copy j).boundaries.isSome && (s.copy j).digestTick == n then s
  else s.onChk fun y => { y with digests := y.digests.filter fun d => !(d.kind == 0 && d.group == c.group && decide (d.tick ≤ n)) }

theorem State.digestsUsed_spec (c : SafeCopy) (n : Nat) :
    OnlyIn [.chk] s (s.digestsUsed c n) ∧ (s.digestsUsed c n).chk.copies = s.chk.copies := by
  unfold State.digestsUsed
  split
  · exact ⟨onlyIn_refl _ _, rfl⟩
  · exact ⟨onlyIn_onChk _ (by decide), rfl⟩

theorem State.copyDecide_of_alone {c : SafeCopy} {n : Nat} (hc : s.copyRec i = some c) (hb : (s.copy i).boundaries = some n)
    (hn : 16 ≤ n) (h : (s.roundDigests c.group (s.copy i).digestTick).length ≤ 1) :
    s.copyDecide i = (s.copyDecided i true).digestsUsed c (s.copy i).digestTick := by
  simp only [State.copyDecide, hc, hb, Nat.not_lt.2 hn, h, if_true, if_false, decide_true]
  rfl

theorem State.copyDecide_of_majority {c : SafeCopy} {n : Nat} (hc : s.copyRec i = some c) (hb : (s.copy i).boundaries = some n)
    (hn : 16 ≤ n) (h : 2 ≤ (s.roundDigests c.group (s.copy i).digestTick).length)
    (hm : majority (s.roundDigests c.group (s.copy i).digestTick) (s.copy i).digest = true) :
    s.copyDecide i = ((s.copyDecided i false).onCopy i fun x => if x.state = .reloading then x else { x with state := .ok }).digestsUsed c
      (s.copy i).digestTick := by
  have hlen : ¬ (s.roundDigests c.group (s.copy i).digestTick).length ≤ 1 := by omega
  simp only [State.copyDecide, hc, hb, Nat.not_lt.2 hn, hlen, hm, if_true, if_false, decide_false, Bool.or_true]
  rfl

/-! ### SUSPECT copies and their replay (R428, R429) -/

theorem State.canReplay_evSafe (j : Nat) (act : Option Nat) : (s.evSafe j act).canReplay i = s.canReplay i := by
  have hframe := onlyIn_evSafe (ps := [.chk, .cnt]) (s := s) j act (by decide) (by decide)
  have hb : (s.evSafe j act).b = s.b := State.b_congr (hframe.rest .bind (by decide))
  have hksi : (s.evSafe j act).ksi = s.ksi := hframe.rest .ksi (by decide)
  simp only [State.canReplay, State.copyRegion, State.copyRec, State.copySeal, State.loadsOf, State.ten, hb, hksi, State.evSafe_chk]

theorem State.markSuspect_of_ok (hc : (s.copyRec i).isSome = true) (h : (s.copy i).state = .ok) :
    s.markSuspect i = if s.canReplay i then (s.evSafe 4 (s.copySeal i)).onCopy i fun x => { x with state := .reloading }
      else ((s.evSafe 4 (s.copySeal i)).onCopy i fun x => { x with state := .suspect }).evSafe 5 (s.copySeal i) := by
  have hok : ¬ ((s.copy i).state = .suspect ∨ (s.copy i).state = .reloading) := by rw [h]; decide
  rw [State.markSuspect, if_pos hc, State.copySuspect, if_neg hok]
  dsimp only
  rw [State.canReplay_evSafe, h]
  rfl

theorem State.reloadDone_of_empty {r : MemxRec} (hr : s.copyRegion i = some r) (h : (s.copy i).state = .reloading)
    (hcan : s.canReplay i = true) (hl : s.loadsOf r.region = []) :
    s.reloadDone i = s.onCopy i fun x => { x with state := .reloaded } := by
  simp only [State.reloadDone, hr, h, hcan, hl, replayLoads, ne_eq, not_true_eq_false, if_true, if_false]

theorem State.evSafe_copies (j : Nat) (act : Option Nat) : (s.evSafe j act).chk.copies = s.chk.copies := by rw [State.evSafe_chk]

end

/-- Settles O53, clause by clause: a round's start and digest, the decision in each outcome, and a SUSPECT copy's replay. -/
theorem weightCopies : Obligations.WeightCopies := by
  unfold Obligations.WeightCopies
  refine ⟨?start, ?digest, ?alone, ?majority, ?replay, ?suspect, ?reloaded⟩
  case start =>
    intro s i c hl hc hrun hm hn hdue hr hd hseal
    refine (next_of_live hl _).trans ?_
    rw [State.roundStart_of_due hc hrun hm hn hdue hr hd hseal]
    rfl
  case digest =>
    intro s i c r n hl w hc hr hn hread
    obtain ⟨hframe, hcopies⟩ := State.digestSent_spec (s := s.digestLatched i r n) c.group n (s.regionDigest r)
    have hcopy := (State.copy_congr hcopies i).trans (State.onCopy_copy (i := i) w fun x =>
      { x with digest := s.regionDigest r, digestTick := n, round := none, boundaries := some 0 })
    refine ⟨_, next_of_live hl _, ?_⟩
    rw [State.digestFinal_of_ok hc hr hn hread, commit_copy, hcopy]
    exact ⟨onlyIn_commit (onlyIn_trans (onlyIn_onCopy _ (by decide)) hframe), rfl, rfl, rfl, rfl⟩
  case alone =>
    intro s i c n hl w hc hb hn h
    obtain ⟨hframe, hcopies⟩ := State.digestsUsed_spec (s := s.copyDecided i true) c (s.copy i).digestTick
    have hcopy := (State.copy_congr hcopies i).trans (State.onCopy_copy (i := i) w fun x => { x with boundaries := none, alone := true })
    refine ⟨_, next_of_live hl _, ?_⟩
    rw [State.copyDecide_of_alone hc hb hn h, commit_copy, hcopy]
    exact ⟨onlyIn_commit (onlyIn_trans (onlyIn_onCopy _ (by decide)) hframe), rfl, rfl, rfl⟩
  case majority =>
    intro s i c n hl w hc hb hn h hm hst
    obtain ⟨hframe, hcopies⟩ := State.digestsUsed_spec (s := (s.copyDecided i false).onCopy i fun x =>
      if x.state = .reloading then x else { x with state := .ok }) c (s.copy i).digestTick
    have hdecided := State.onCopy_copy (i := i) w fun x => { x with boundaries := none, alone := false }
    have hcopy := (State.copy_congr hcopies i).trans <| State.onCopy_copy (s := s.copyDecided i false) (i := i)
      (Tab.wf_upd s.chk.copies w i fun x => { x with boundaries := none, alone := false }) fun x =>
        if x.state = .reloading then x else { x with state := .ok }
    rw [show (s.copyDecided i false).copy i = _ from hdecided, if_neg hst] at hcopy
    refine ⟨_, next_of_live hl _, ?_⟩
    rw [State.copyDecide_of_majority hc hb hn h hm, commit_copy, hcopy]
    exact ⟨onlyIn_commit (onlyIn_trans (onlyIn_trans (onlyIn_onCopy _ (by decide)) (onlyIn_onCopy _ (by decide))) hframe), rfl, rfl⟩
  case replay =>
    intro s i hl w hc h hcan
    have hreloading := State.onCopy_copy (s := s.evSafe 4 (s.copySeal i)) (i := i) (by rw [State.evSafe_copies]; exact w) fun x =>
      { x with state := .reloading }
    refine ⟨_, next_of_live hl _, ?_⟩
    rw [State.markSuspect_of_ok hc h, if_pos hcan, commit_copy, hreloading, commit_chk, State.onCopy_events, State.evSafe_chk]
    exact ⟨onlyIn_commit (onlyIn_trans (onlyIn_evSafe _ _ (by decide) (by decide)) (onlyIn_onCopy _ (by decide))), rfl, rfl⟩
  case suspect =>
    intro s i hl w hc h hcan
    have hsuspect := State.onCopy_copy (s := s.evSafe 4 (s.copySeal i)) (i := i) (by rw [State.evSafe_copies]; exact w) fun x =>
      { x with state := .suspect }
    refine ⟨_, next_of_live hl _, ?_⟩
    rw [State.markSuspect_of_ok hc h, if_neg (by rw [hcan]; decide), commit_copy, State.copy_congr (State.evSafe_copies ..), hsuspect,
      commit_chk, State.evSafe_chk, State.onCopy_events, State.evSafe_chk]
    exact ⟨onlyIn_commit (onlyIn_trans (onlyIn_trans (onlyIn_evSafe _ _ (by decide) (by decide)) (onlyIn_onCopy _ (by decide)))
      (onlyIn_evSafe _ _ (by decide) (by decide))), rfl, rfl⟩
  case reloaded =>
    intro s i r hl w hr h hcan hloads
    refine (next_of_live hl _).trans ?_
    rw [State.reloadDone_of_empty hr h hcan hloads]
    rfl

end Sys2Proof.Machine

/-! Power: profile decisions, caps, heartbeat loss, fast enforcement, dips and droops (spec/21, R439 to R448, R453). -/

namespace Sys2Proof.Machine

section

variable {s t u : State}

/-! ### The steps of a decision (R439, R440, R446) -/

/-- What the steps of a decision keep: the tick, the caps, the profiles and the events set. -/
structure DecideKept (s t : State) : Prop where
  tick : t.tick = s.tick
  cap : t.pwr.cap = s.pwr.cap
  capNext : t.pwr.capNext = s.pwr.capNext
  decided : t.pwr.decided = s.pwr.decided
  profile : t.pwr.profile = s.pwr.profile
  events : ∀ i, s.pwr.events.getLsbD i = true → t.pwr.events.getLsbD i = true

theorem decideKept_refl (s : State) : DecideKept s s := ⟨rfl, rfl, rfl, rfl, rfl, fun _ h => h⟩

theorem decideKept_trans (h : DecideKept s t) (k : DecideKept t u) : DecideKept s u where
  tick := k.tick.trans h.tick
  cap := k.cap.trans h.cap
  capNext := k.capNext.trans h.capNext
  decided := k.decided.trans h.decided
  profile := k.profile.trans h.profile
  events i hi := k.events i (h.events i hi)

theorem decideKept_foldl {α : Type} (f : State → α → State) (h : ∀ s x, DecideKept s (f s x)) (l : List α) (s : State) :
    DecideKept s (l.foldl f s) := by
  induction l generalizing s with
  | nil => exact decideKept_refl s
  | cons x l ih => exact decideKept_trans (h s x) (ih _)

/-- A channel shed and counted. -/
theorem decideKept_shed (f : Power → Power) (h : ∀ p, (f p).cap = p.cap ∧ (f p).capNext = p.capNext ∧ (f p).decided = p.decided ∧
    (f p).profile = p.profile ∧ (f p).events = p.events) (i : Nat) : DecideKept s ((s.onPwr f).evPwr i) := by
  obtain ⟨hcap, hnext, hdecided, hprofile, hevents⟩ := h s.pwr
  have htick : ((s.onPwr f).evPwr i).tick = s.tick :=
    (onlyIn_evPwr (ps := [.pwr, .cnt]) (s := s.onPwr f) i (by decide) (by decide)).rest .tick (by decide)
  refine ⟨htick, ?_, ?_, ?_, ?_, fun j hj => ?_⟩ <;> rw [State.evPwr_pwr, State.onPwr_pwr]
  · exact hcap
  · exact hnext
  · exact hdecided
  · exact hprofile
  · exact bitSet_of_getLsbD i (hevents ▸ hj)

theorem decideKept_shedFor (cap : Nat) : DecideKept s (s.shedFor cap) := by
  refine decideKept_foldl _ (fun s c => ?_) _ _
  dsimp only
  split
  · exact decideKept_refl s
  · refine decideKept_shed _ ?_ 7
    exact fun _ => ⟨rfl, rfl, rfl, rfl, rfl⟩

theorem decideKept_unshedFor (cap : Nat) : DecideKept s (s.unshedFor cap) := by
  unfold State.unshedFor
  dsimp only
  split
  · split
    · exact ⟨rfl, rfl, rfl, rfl, rfl, fun _ h => h⟩
    · exact decideKept_refl s
  · exact decideKept_refl s

theorem decideKept_shedForModule (p : Nat) : DecideKept s (s.shedForModule p) := by
  unfold State.shedForModule
  split
  · exact decideKept_refl s
  · split
    · refine decideKept_shed _ ?_ 7
      exact fun _ => ⟨rfl, rfl, rfl, rfl, rfl⟩
    · exact decideKept_refl s

/-- The cap latched at a decision point. -/
def State.capLatched (s : State) : State := s.onPwr fun p => { p with cap := p.capNext.getD p.cap, capNext := none }

/-- A cap below what HOLD takes, counted. -/
def State.capChecked (s : State) (cap : Nat) : State := if cap < 120 then (s.onPwr fun x => { x with capFail := true }).evPwr 1 else s

/-- Channels shed for the cap, or one of them back. -/
def State.capShedding (s : State) (cap : Nat) : State :=
  let t := if cap < 120 then s.shedFor cap else s
  if t.pwr.capShed = s.pwr.capShed then t.unshedFor cap else t

/-- A profile decided, with the channels shed at its boundary. -/
def State.decidedAs (s : State) (p : Nat) (fail : Bool) : State :=
  s.onPwr fun x => { x with capFail := fail, decided := x.decided ++ [p], decidedShed := x.decidedShed ++ [x.capShed ||| x.modShed] }

/-- The domains of a profile powered. -/
def State.domainsUp (s : State) (p : Nat) : State :=
  (List.range 6).foldl (fun (s : State) ch => s.powerUp ch (s.domainsIn p s.shedSoon ch)) s

/-- What a decision sheds before it is taken. -/
def State.decisionShed (s : State) : State :=
  ((s.capLatched.capChecked s.capNow).capShedding s.capNow).shedForModule (s.capLatched.chooseProfile s.capNow)

theorem State.profileDecide_eq (s : State) : ∃ fail, s.profileDecide =
    (s.decisionShed.decidedAs (s.capLatched.chooseProfile s.capNow) (decide (s.capNow < 120) || fail)).domainsUp
      (s.capLatched.chooseProfile s.capNow) := ⟨_, rfl⟩

theorem decideKept_capChecked (cap : Nat) : DecideKept s (s.capChecked cap) := by
  unfold State.capChecked
  split
  · refine decideKept_shed _ ?_ 1
    exact fun _ => ⟨rfl, rfl, rfl, rfl, rfl⟩
  · exact decideKept_refl s

theorem decideKept_capShedding (cap : Nat) : DecideKept s (s.capShedding cap) := by
  have hshed : DecideKept s (if cap < 120 then s.shedFor cap else s) := by
    split
    · exact decideKept_shedFor cap
    · exact decideKept_refl s
  unfold State.capShedding
  generalize (if cap < 120 then s.shedFor cap else s) = t at hshed
  dsimp only
  split
  · exact decideKept_trans hshed (decideKept_unshedFor cap)
  · exact hshed

/-- Domains that come up change power's domains alone. -/
theorem domainsOnly_powerUp (ch bits : Nat) : DomainsOnly s (s.powerUp ch bits) := by
  have hbanks : ∀ v : State, DomainsOnly v (((List.range 24).foldl (fun (s : State) k => s.zeroBank ch (24 + k)) v).onSpad fun p =>
      { p with chan := p.chan.upd ch fun c => { c with sphOn := true } }) := fun v => domainsOnly_of_eq <|
    (onlyIn_trans (onlyIn_foldl (ps := [.spad]) _ (fun _ k => onlyIn_onSpad _ (by decide)) _ v)
      (onlyIn_onSpad _ (by decide))).rest .pwr (by decide)
  unfold State.powerUp
  extract_lets fresh s1 s2
  have h1 : DomainsOnly s s1 := by
    unfold s1
    split
    · exact ⟨_, rfl⟩
    · exact domainsOnly_of_eq rfl
  have h2 : DomainsOnly s1 s2 := by
    unfold s2
    split
    · exact hbanks s1
    · exact domainsOnly_of_eq rfl
  exact domainsOnly_trans (domainsOnly_trans h1 h2) ⟨_, rfl⟩

theorem State.domainsUp_spec (p : Nat) : DomainsOnly s (s.domainsUp p) ∧ (s.domainsUp p).tick = s.tick := by
  have hfold : ∀ (l : List Nat) (s : State), DomainsOnly s (l.foldl (fun (s : State) ch => s.powerUp ch (s.domainsIn p s.shedSoon ch)) s) := by
    intro l
    induction l with
    | nil => exact fun s => domainsOnly_of_eq rfl
    | cons c l ih => exact fun s => domainsOnly_trans (domainsOnly_powerUp ..) (ih _)
  exact ⟨hfold _ s, (onlyIn_foldl (ps := [.pwr, .spad]) _ (fun _ _ => onlyIn_powerUp ..) _ s).rest .tick (by decide)⟩

theorem decideKept_decisionShed : DecideKept s.capLatched s.decisionShed :=
  decideKept_trans (decideKept_trans (decideKept_capChecked _) (decideKept_capShedding _)) (decideKept_shedForModule _)

/-- A decision: the cap latched, and a profile taken for the coming boundary. -/
theorem State.profileDecide_spec (s : State) :
    s.profileDecide.pwr.cap = s.pwr.capNext.getD s.pwr.cap ∧ s.profileDecide.pwr.capNext = none ∧
      s.profileDecide.pwr.decided = s.pwr.decided ++ [s.capLatched.chooseProfile s.capNow] ∧
      s.profileDecide.pwr.profile = s.pwr.profile ∧ s.profileDecide.tick = s.tick ∧
      (s.capNow < 120 → s.profileDecide.pwr.capFail = true) ∧
      (∀ i, (s.capLatched.capChecked s.capNow).pwr.events.getLsbD i = true → s.profileDecide.pwr.events.getLsbD i = true) := by
  obtain ⟨fail, heff⟩ := s.profileDecide_eq
  have hkept := decideKept_decisionShed (s := s)
  have hlater : DecideKept (s.capLatched.capChecked s.capNow) s.decisionShed :=
    decideKept_trans (decideKept_capShedding _) (decideKept_shedForModule _)
  obtain ⟨⟨d, hpwr⟩, htick⟩ := State.domainsUp_spec
    (s := s.decisionShed.decidedAs (s.capLatched.chooseProfile s.capNow) (decide (s.capNow < 120) || fail))
    (s.capLatched.chooseProfile s.capNow)
  rw [heff, hpwr, htick]
  refine ⟨hkept.cap, hkept.capNext, congrArg (· ++ _) hkept.decided, hkept.profile, hkept.tick, fun h => ?_, fun i h => hlater.events i h⟩
  change (decide (s.capNow < 120) || fail) = true
  rw [decide_eq_true h]
  rfl

/-- The profile chosen: HOLD, or one that mask, ceiling, thermal limit, request and cap allow (R439). -/
theorem State.chooseProfile_spec (cap : Nat) : s.chooseProfile cap = 4 ∨ (s.chooseProfile cap < 5 ∧
    s.b.powr.profileMask.testBit (s.chooseProfile cap) = true ∧ s.ceilingSoon ≤ s.chooseProfile cap ∧ s.thermal ≤ s.chooseProfile cap ∧
      s.pwr.reqProfile ≤ s.chooseProfile cap ∧ profileWatts (s.chooseProfile cap) ≤ cap) := by
  have hhead : ∀ l : List Nat, l.headD 4 = 4 ∨ l.headD 4 ∈ l := by
    intro l
    cases l with
    | nil => exact .inl rfl
    | cons p l => exact .inr List.mem_cons_self
  unfold State.chooseProfile
  refine (hhead _).imp_right fun hmem => ?_
  obtain ⟨hrange, hp⟩ := List.mem_filter.1 hmem
  simp only [Bool.and_eq_true, decide_eq_true_iff] at hp
  obtain ⟨⟨⟨⟨hmask, hceiling⟩, hthermal⟩, hreq⟩, hcap⟩ := hp
  exact ⟨List.mem_range.1 hrange, hmask, hceiling, hthermal, hreq, hcap⟩

theorem profileWatts_ge (p : Nat) : 120 ≤ profileWatts p := by
  unfold profileWatts
  match p with
  | 0 | 1 | 2 | 3 => decide
  | _ + 4 => exact Nat.le_refl 120

theorem State.chooseProfile_of_low {cap : Nat} (h : cap < 120) : s.chooseProfile cap = 4 :=
  s.chooseProfile_spec cap |>.resolve_right fun ⟨_, _, _, _, _, hcap⟩ => by
    have := profileWatts_ge (s.chooseProfile cap)
    omega

theorem State.capChecked_event {cap : Nat} (h : cap < 120) : (s.capChecked cap).pwr.events.getLsbD 1 = true := by
  rw [State.capChecked, if_pos h, State.evPwr_pwr]
  exact getLsbD_bitSet_self _ (by decide)

theorem exec_profileDecision (hl : s.live = true) (hdue : s.decisionDue = true) :
    exec .profileDecision s = .next (commit s.profileDecide) := by
  rw [exec, execProfileDecision, hl, hdue]
  rfl

/-! ### Requests, silence and fast enforcement (R443 to R445, R453) -/

theorem State.reqProfileEff_of_masked {p : Nat} (h : s.b.powr.profileMask.testBit p = true) :
    s.reqProfileEff 1 p = s.onPwr fun x => { x with reqProfile := p } := by
  rw [State.reqProfileEff, if_neg (by decide), if_neg (by rw [h]; decide)]

theorem State.reqProfileEff_of_unmasked {p : Nat} (h : s.b.powr.profileMask.testBit p = false) : s.reqProfileEff 1 p = s.regErr 1 2 := by
  rw [State.reqProfileEff, if_neg (by decide), if_pos (by rw [h]; rfl)]

/-- The tray's silence: the safe cap, counted, before the tray's role changes. -/
def State.trayGone (s : State) : State :=
  ((s.capTake s.b.powr.safeCap).onPwr fun p => { p with safe := true, beating := false, trayLost := true }).evPwr 3

theorem State.heartbeatLost_of_due (hb : s.bound = true) (hbeat : s.pwr.beating = true)
    (h : s.pwr.lastBeat + 1000000 * s.b.powr.capTimeout ≤ s.tb.time) : s.heartbeatLost = s.trayGone.roleChange idTray :=
  if_pos (by rw [hb, hbeat, decide_eq_true h]; rfl)

theorem State.heartbeatLost_of_silent (h : s.pwr.beating = false) : s.heartbeatLost = s :=
  if_neg (by rw [h, Bool.and_false, Bool.false_and]; decide)

theorem onlyIn_trayGone : OnlyIn [.pwr, .mbx, .cnt] s s.trayGone :=
  onlyIn_trans (onlyIn_trans (onlyIn_capTake _ (by decide) (by decide)) (onlyIn_onPwr _ (by decide)))
    (onlyIn_evPwr 3 (by decide) (by decide))

theorem State.trayGone_pwr (h : s.pwr.pcapPin = false) : s.trayGone.pwr = { s.pwr with
    capNext := some s.b.powr.safeCap, fastTarget := 0, safe := true, beating := false, trayLost := true
    events := bitSet (bitSet s.pwr.events 0) 3 } := by
  rw [State.trayGone, State.evPwr_pwr, State.onPwr_pwr, State.capTake_of_released h]

theorem State.fastStep_of_edge (hl : s.live = true) (hb : s.bound = true) (hp : s.pwr.pcapPin = false) :
    s.fastStep = (s.onPwr fun p => { p with
      pcapPin := true, fast := true, degraded := true
      fastTarget := powerBelow (if p.fastTarget = 0 then profileWatts p.profile else p.fastTarget) }).evPwr 2 := by
  rw [State.fastStep, if_neg (by rw [hp]; decide)]
  dsimp only
  rw [if_neg (by rw [hl, hb]; decide)]
  rfl

theorem State.fastStep_of_pinned (hp : s.pwr.pcapPin = true) : s.fastStep = s := if_pos hp

/-! ### Dips, the input and droops (R447, R448) -/

theorem State.inputDip_of_low {v : Nat} (ht : s.pwr.throttle = false) (h : v < 4050) :
    s.inputDip v = (s.onPwr fun p => { p with
      throttle := true, degraded := true, dipStart := s.tb.time, dipMin := v, dipCount := p.dipCount + 1 }).evPwr 4 :=
  if_neg (by rw [ht, decide_eq_false (Nat.not_le.2 h)]; decide)

/-- The throttle lifted, with the dip's minimum and length. -/
def State.throttleLifted (s : State) : State :=
  (s.onPwr fun p => { p with
    throttle := false
    dipLast := BitVec.ofNat 64 (p.dipMin % 2 ^ 16 + 2 ^ 16 * ((s.tb.time - s.pwr.dipStart) / 1000 % 2 ^ 32)) }).record
    { kind := .dipLog, vals := [s.pwr.dipMin, (s.tb.time - s.pwr.dipStart) / 1000] }

theorem State.throttleLift_of_high {v : Nat} (ht : s.pwr.throttle = true) (h : 4150 < v) : s.throttleLift v = s.throttleLifted :=
  if_neg (by rw [ht, decide_eq_false (Nat.not_le.2 h)]; decide)

theorem State.throttleLift_of_low {v : Nat} (h : v ≤ 4150) : s.throttleLift v = s :=
  if_pos (by rw [decide_eq_true h, Bool.or_true])

theorem State.inputLow_of_brownout {v : Nat} (h0 : 0 < v) (h : v < 3700) :
    s.inputLow v = (s.onKeep fun k => { k with dipMin := v }).resetModule 8 := by
  rw [State.inputLow, if_neg (Nat.not_le.2 h), if_pos (Nat.pos_iff_ne_zero.1 h0)]

/-- The loss of the input without AUX_12V. -/
def State.inputLost (s : State) : State :=
  ((s.onStart fun x => { x with p48 := false }).onKeep fun k => { k with cause := 0, later := 0 }).onHost fun h => { h with eid := 0 }

theorem State.inputLow_of_lost (h : s.start.aux = false) :
    s.inputLow 0 = ((s.onKeep fun k => { k with dipMin := 0 }).resetModule 8).inputLost := by
  rw [State.inputLow, if_neg (by decide), if_neg (by decide), if_neg (by rw [h]; decide)]
  rfl

theorem State.resetModule_dipMin (s : State) (c : Nat) : (s.resetModule c).keep.dipMin = s.keep.dipMin := by
  unfold State.resetModule
  dsimp only
  split <;> rfl

theorem State.resetModule_p48 (s : State) (c : Nat) : (s.resetModule c).start.p48 = s.start.p48 := rfl

theorem next_of_powered (h : s.start.p48 = true) (u : State) :
    Host.Outcome.next (if !s.start.p48 then s else commit u) = (.next (commit u) : Host.Outcome State Fault Refusal) := by
  rw [h]
  rfl

theorem State.droopEff_of_new {d : Nat} (h : s.pwr.droops.get d = false) :
    s.droopEff d = (s.onPwr fun p => { p with droops := p.droops.set d true, droopCount := p.droopCount + 1 }).evPwr 5 :=
  if_neg (by rw [h]; decide)

theorem State.droopRecover_of_due {d c : Nat} (n : Nat) (h : s.pwr.droops.get d = true) (hc : 32 ≤ c) :
    s.droopRecover d c n = s.onPwr fun p => { p with
      droops := p.droops.set d false, droopCycles := if d < 6 then p.droopCycles.upd d (· + n) else p.droopCycles } :=
  if_neg (by rw [h, decide_eq_false (Nat.not_lt.2 hc)]; decide)

theorem State.droopRecover_of_early {d c : Nat} (n : Nat) (hc : c < 32) : s.droopRecover d c n = s :=
  if_pos (by rw [decide_eq_true hc, Bool.or_true])

/-- A change of power with an event of its own. -/
theorem State.evPwr_onPwr (f : Power → Power) (i : Nat) :
    OnlyIn [.pwr, .cnt] s (commit ((s.onPwr f).evPwr i)) ∧
      (commit ((s.onPwr f).evPwr i)).pwr = { f s.pwr with events := bitSet (f s.pwr).events i } := by
  refine ⟨onlyIn_commit (onlyIn_trans (onlyIn_onPwr _ (by decide)) (onlyIn_evPwr i (by decide) (by decide))), ?_⟩
  rw [commit_pwr, State.evPwr_pwr, State.onPwr_pwr]

end

/-- Settles O54, clause by clause: the decision through its steps, and every other command as its own change of power. -/
theorem powerControl : Obligations.PowerControl := by
  unfold Obligations.PowerControl
  refine ⟨?decide, ?decideLow, ?request, ?requestBad, ?silent, ?notBeating, ?fast, ?fastHeld, fun s => rfl, ?dip, ?lift, ?liftLow, ?brownout,
    ?lost, ?droop, ?recover, ?recoverArray, ?recoverEarly⟩
  case decide =>
    intro s hl hdue _
    obtain ⟨hcap, hnext, hdecided, hprofile, htick, -, -⟩ := s.profileDecide_spec
    refine ⟨_, exec_profileDecision hl hdue, ?_⟩
    rw [commit_pwr, commit_tick]
    exact ⟨hcap, hnext, ⟨_, hdecided, State.chooseProfile_spec (s := s.capLatched) s.capNow⟩, hprofile, htick⟩
  case decideLow =>
    intro s hl hdue h
    obtain ⟨-, -, hdecided, -, -, hfail, hevents⟩ := s.profileDecide_spec
    refine ⟨_, exec_profileDecision hl hdue, ?_⟩
    rw [commit_pwr, hdecided, State.chooseProfile_of_low h]
    exact ⟨hfail h, hevents 1 (State.capChecked_event h), rfl⟩
  case request =>
    intro s p hl h
    refine (next_of_live hl _).trans ?_
    rw [State.reqProfileEff_of_masked h]
    rfl
  case requestBad =>
    intro s p hl h
    refine ⟨_, next_of_live hl _, ?_⟩
    rw [State.reqProfileEff_of_unmasked h]
    exact commit_regErr_host s 2
  case silent =>
    intro s hl hb hbeat h hpin
    obtain ⟨d, hpwr⟩ := domainsOnly_roleChange (s := s.trayGone) idTray
    refine ⟨_, next_of_live hl _, ?_⟩
    rw [State.heartbeatLost_of_due hb hbeat h, commit_pwr, hpwr, State.trayGone_pwr hpin]
    exact ⟨onlyIn_commit (onlyIn_trans onlyIn_trayGone (onlyIn_roleChange idTray (by decide) (by decide) (by decide))), rfl, rfl, rfl, rfl, rfl,
      rfl, rfl⟩
  case notBeating =>
    intro s hl h
    refine (next_of_live hl _).trans ?_
    rw [State.heartbeatLost_of_silent h]
  case fast =>
    intro s hl hb hp
    refine ⟨_, rfl, ?_⟩
    rw [State.fastStep_of_edge hl hb hp]
    exact State.evPwr_onPwr _ 2
  case fastHeld =>
    intro s hp
    exact congrArg (fun t => Host.Outcome.next (commit t)) (State.fastStep_of_pinned hp)
  case dip =>
    intro s v hl ht h
    refine ⟨_, next_of_live hl _, ?_⟩
    rw [State.inputDip_of_low ht h]
    exact State.evPwr_onPwr _ 4
  case lift =>
    intro s v hl ht h
    refine ⟨_, next_of_live hl _, ?_⟩
    rw [State.throttleLift_of_high ht h]
    exact ⟨onlyIn_commit (onlyIn_trans (onlyIn_onPwr _ (by decide)) (onlyIn_record _ (by decide))), rfl, rfl⟩
  case liftLow =>
    intro s v hl h
    refine (next_of_live hl _).trans ?_
    rw [State.throttleLift_of_low h]
  case brownout =>
    intro s v hp h0 h
    refine ⟨_, next_of_powered hp _, ?_⟩
    rw [State.inputLow_of_brownout h0 h, commit_keep, commit_start, commit_bind, State.resetModule_dipMin, State.resetModule_p48]
    exact ⟨rfl, Bool.or_true _, hp, rfl, rfl⟩
  case lost =>
    intro s hp h
    refine ⟨_, next_of_powered hp _, ?_⟩
    rw [State.inputLow_of_lost h]
    exact ⟨rfl, rfl, rfl⟩
  case droop =>
    intro s d hl h
    refine ⟨_, next_of_live hl _, ?_⟩
    rw [State.droopEff_of_new h]
    exact State.evPwr_onPwr _ 5
  case recover =>
    intro s d c n hl h hc hd
    refine (next_of_live hl _).trans ?_
    rw [State.droopRecover_of_due n h hc, State.onPwr, if_neg (Nat.not_lt.2 hd)]
  case recoverArray =>
    intro s d c n hl h hc hd
    refine (next_of_live hl _).trans ?_
    rw [State.droopRecover_of_due n h hc, State.onPwr, if_pos hd]
  case recoverEarly =>
    intro s d c n hl hc
    refine (next_of_live hl _).trans ?_
    rw [State.droopRecover_of_early n hc]

end Sys2Proof.Machine

/-! The pair's interlock and the admission of a SHADOW module (spec/22, R458 to R460, R465, R467, R468). -/

namespace Sys2Proof.Machine

section

variable {s : State}

/-! ### Claims (R458, R459) -/

/-- The guard is 100 us at least. -/
theorem State.guardNs_ge (s : State) : 100000 ≤ s.guardNs := by
  unfold State.guardNs
  split
  · decide
  · split
    · decide
    · split
      · split <;> decide
      · decide

theorem State.claimGuard_of_passed (hp : s.paired = true) (hrun : s.tick.running = true) (hr : s.pair.role = .standby)
    (hu : s.unfit = false) (hpeer : s.pair.peer = false) (h : max s.pair.peerReleased s.tick.t0 + s.guardNs ≤ s.tb.time) :
    s.claimGuard = s.toClaiming false :=
  if_pos (by rw [hp, hrun, hr, hu, hpeer, decide_eq_true h]; rfl)

theorem State.claimGuard_of_held (h : s.pair.peer = true ∨ s.unfit = true ∨ s.tb.time < s.pair.peerReleased + 100000) :
    s.claimGuard = s := by
  have hguard := s.guardNs_ge
  unfold State.claimGuard
  refine if_neg fun hall => ?_
  simp only [Bool.and_eq_true, Bool.not_eq_true', decide_eq_true_iff] at hall
  obtain ⟨⟨⟨-, hfit⟩, hpeer⟩, htime⟩ := hall
  rcases h with h | h | h
  · rw [h] at hpeer
    exact Bool.noConfusion hpeer
  · rw [h] at hfit
    exact Bool.noConfusion hfit
  · omega

theorem State.claimConfirm_of_free (hp : s.paired = true) (hr : s.pair.role = .claiming) (hb : s.pair.ownBus = true)
    (h : s.pair.ownAsserted + 2000 ≤ s.tb.time) (hpeer : s.pair.peer = false) : s.claimConfirm = s.toActive := by
  rw [State.claimConfirm, if_pos (by rw [hp, hr, hb, decide_eq_true h]; rfl), if_pos (by rw [hpeer]; rfl)]

theorem State.claimConfirm_of_lost (hp : s.paired = true) (hr : s.pair.role = .claiming) (hb : s.pair.ownBus = true)
    (h : s.pair.ownAsserted + 2000 ≤ s.tb.time) (hpeer : s.pair.peer = true) (hring : s.ringB = true) :
    s.claimConfirm = s.toStandby.evPair 2 := by
  rw [State.claimConfirm, if_pos (by rw [hp, hr, hb, decide_eq_true h]; rfl), if_neg (by rw [hpeer]; decide), if_pos hring]

theorem State.claimConfirm_of_early (h : s.tb.time < s.pair.ownAsserted + 2000) : s.claimConfirm = s :=
  if_neg (by rw [decide_eq_false (Nat.not_le.2 h), Bool.and_false]; decide)

theorem State.evPair_onPair_cnt (f : Pair → Pair) (i : Nat) : ((s.onPair f).evPair i).cnt = (s.count (0xE8 + i) none none 1).cnt :=
  State.count_congr (s := s) (t := (s.onPair f).onPair fun p => { p with events := bitSet p.events i }) rfl rfl rfl _ none none 1

/-! ### The lines (R458, R460) -/

/-- The peer's line noted. -/
def State.peerNoted (s : State) (asserted : Bool) : State :=
  s.onPair fun p => { p with peer := asserted, peerReleased := if asserted then p.peerReleased else s.tb.time }

/-- Ring B stops. -/
def State.ringBStops (s : State) : State := ((s.toStandby).onPair fun p => { p with releaseAt := some s.tb.time }).evPair 3

theorem State.ilkPeer_of_change {a : Bool} (h : s.pair.peer ≠ a) : s.ilkPeer a =
    if !(s.peerNoted a).paired then s.peerNoted a
    else if a then (if (s.peerNoted a).ringB && (s.peerNoted a).pair.role == .active then (s.peerNoted a).ringBStops else s.peerNoted a)
    else if !(s.peerNoted a).ringB && (s.peerNoted a).pair.role == .claiming &&
      decide ((s.peerNoted a).pair.ownAsserted + 2000 ≤ (s.peerNoted a).tb.time) then (s.peerNoted a).toActive
    else s.peerNoted a := if_neg h

theorem State.ilkPeer_of_asserted (hp : s.paired = true) (hpeer : s.pair.peer = false) (hring : s.ringB = true)
    (hr : s.pair.role = .active) : s.ilkPeer true = (s.peerNoted true).ringBStops := by
  have hpaired : (s.peerNoted true).paired = true := hp
  have hringB : (s.peerNoted true).ringB = true := hring
  have hrole : (s.peerNoted true).pair.role = .active := hr
  rw [State.ilkPeer_of_change (by rw [hpeer]; decide), if_neg (by rw [hpaired]; decide), if_pos rfl,
    if_pos (by rw [hringB, hrole]; rfl)]

theorem State.ilkPeer_of_released (hpeer : s.pair.peer = true) (hr : s.pair.role = .standby) : s.ilkPeer false = s.peerNoted false := by
  have hrole : ((s.peerNoted false).pair.role == .claiming) = false := by
    change (s.pair.role == .claiming) = false
    rw [hr]
    rfl
  rw [State.ilkPeer_of_change (by rw [hpeer]; decide), hrole, Bool.and_false, Bool.false_and]
  exact ite_self _

/-- The own line noted asserted. -/
def State.ownNoted (s : State) : State := s.onPair fun p => { p with ownBus := true, ownAsserted := s.tb.time }

theorem State.ownBusEff_of_asserted (hl : s.live = true) (hp : s.paired = true) (hb : s.pair.ownBus = false)
    (hr : s.pair.role = .standby) (hu : s.unfit = false) :
    s.ownBusEff true = if s.pair.releaseAt.isNone then s.ownNoted.toClaiming false else s.ownNoted := by
  have hfollows : (s.ownNoted.live && s.ownNoted.paired && true && s.ownNoted.pair.role == .standby && !s.ownNoted.unfit &&
      s.ownNoted.pair.releaseAt.isNone) = s.pair.releaseAt.isNone := by
    change (s.live && s.paired && true && s.pair.role == .standby && !s.unfit && s.pair.releaseAt.isNone) = _
    rw [hl, hp, hr, hu]
    rfl
  unfold State.ownBusEff
  rw [Bool.true_or]
  dsimp only
  rw [if_neg (by rw [hb]; decide), ← hfollows]
  rfl

theorem State.ownBusEff_of_driven (hp : s.pair.pin = true) (hb : s.pair.ownBus = true) : s.ownBusEff false = s :=
  if_pos (by rw [hb, hp]; rfl)

theorem onlyIn_toClaiming (b : Bool) : OnlyIn [.pair] s (s.toClaiming b) :=
  onlyIn_trans (onlyIn_onPair _ (by decide)) (onlyIn_onPair _ (by decide))

theorem State.stuckLine_of_due {n : Nat} (hr : s.pair.releaseAt = some n) (hp : s.paired = true) (hpin : s.pair.pin = false)
    (hb : s.pair.ownBus = true) (h : n + 10000 ≤ s.tb.time) : s.stuckLine = (s.onPair fun p => { p with releaseAt := none }).evPair 7 := by
  simp only [State.stuckLine, hr, hp, hpin, hb, decide_eq_true h, Bool.not_false, Bool.and_self, if_true]

theorem State.stuckLine_of_none (hr : s.pair.releaseAt = none) : s.stuckLine = s := by
  simp only [State.stuckLine, hr]

/-! ### Reverts (R465) -/

theorem State.revertClaim_of_due {f g : Nat} (hp : s.paired = true) (hring : s.ringB = false) (hr : s.pair.role = .standby)
    (hpeer : s.pair.peer = true) (hu : s.unfit = false) (hfit : s.ringFit = true) (hf : s.pair.fitSince = some f)
    (hg : s.pair.standbySince = some g) (hfdue : f + s.pair.revertWait * 1000000000 ≤ s.tick.start)
    (hgdue : g + s.pair.revertWait * 1000000000 ≤ s.tick.start) (hrole : s.pairRec.startRole = 0) :
    s.revertClaim = s.toClaiming true := by
  have hstandby : (s.pair.role == .standby) = true := by rw [hr]; rfl
  have hstart : (s.pairRec.startRole == 0) = true := by rw [hrole]; rfl
  simp only [State.revertClaim, hp, hring, hstandby, hpeer, hu, hfit, hf, hg, decide_eq_true hfdue, decide_eq_true hgdue, hstart, Bool.not_false,
    Bool.and_self, Bool.true_or, if_true]

theorem State.revertClaim_of_ringB (h : s.ringB = true) : s.revertClaim = s := by
  simp only [State.revertClaim, h, Bool.not_true, Bool.and_false, Bool.false_and, Bool.false_eq_true, if_false]

/-! ### Admission (R467, R468) -/

theorem State.admitDecide_of_other (h : s.pair.admission ≠ .shadow) (n : Nat) : s.admitDecide n = s := by
  have hshadow : (s.pair.admission != .shadow) = true := bne_iff_ne.2 h
  unfold State.admitDecide
  split
  · rfl
  · exact if_pos (by rw [hshadow, Bool.or_true])

/-- A tick's decision taken: its digests go. -/
def State.tickDecided (s : State) (n : Nat) : State :=
  (s.onPair fun p => { p with decideAt := p.decideAt.filter fun d => d.1 != n }).onChk fun c =>
    { c with digests := c.digests.filter fun d => d.kind != 1 || d.tick != n }

theorem onlyIn_tickDecided (n : Nat) : OnlyIn [.pair, .chk] s (s.tickDecided n) :=
  onlyIn_trans (onlyIn_onPair _ (by decide)) (onlyIn_onChk _ (by decide))

/-- A digest that differs: the count back at 0, recorded. -/
def State.admitDiffers (s : State) (n a : Nat) : State :=
  ((s.onPair fun p => { p with admitCount := 0 }).evPair 6).record { kind := .digest, vals := [n, a] }

/-- One more tick of equal digests. -/
def State.admitCounted (s : State) : State := s.onPair fun p => { p with admitCount := p.admitCount + 1 }

section

variable {n d a : Nat} {m : NetMember} {p q : List Byte} (hm : s.member = some m) (hs : s.pair.admission = .shadow)
  (hd : s.pair.decideAt = [(n, d)]) (hdue : d + 16 ≤ s.tick.num) (ha : s.b.safe.digests = [a]) (hown : s.digestOf m.index a n = some p)
  (hbuddy : s.digestOf m.buddy a n = some q) (habsent : s.pair.absent.getLsbD m.buddy = false)

include hm hs hd hdue ha hown hbuddy habsent

/-- A due decision on one activity whose two digests are held. -/
theorem State.admitDecide_of_due :
    s.admitDecide n = if p ≠ q then (s.tickDecided n).admitDiffers n a else (s.tickDecided n).admitCounted.admitCheck := by
  have hidle : (!(s.pair.decideAt.any fun d => d.1 == n && decide (d.2 + 16 ≤ s.tick.num)) || s.pair.admission != .shadow) = false := by
    simp [hd, hs, hdue]
  have hhere : (s.tickDecided n).pair.absent.getLsbD m.buddy = false := habsent
  simp only [State.admitDecide, hm]
  rw [if_neg (by rw [hidle]; decide), if_neg (by rw [habsent]; decide)]
  simp only [ha, List.map_cons, List.map_nil, hown, hbuddy, List.find?_cons, List.find?_nil, List.any_cons, List.any_nil,
    Option.isNone_some, Bool.or_self, Bool.false_eq_true, if_false]
  by_cases hpq : p = q
  · simp only [hpq, bne_self_eq_false, ne_eq, not_true_eq_false, if_false]
    rfl
  · simp only [bne_iff_ne.2 hpq, ne_eq, hpq, not_false_eq_true, if_true]
    rfl

end

theorem State.tickDecided_decideAt {n d : Nat} (h : s.pair.decideAt = [(n, d)]) : (s.tickDecided n).pair.decideAt = [] := by
  change (s.pair.decideAt.filter fun d => d.1 != n) = []
  rw [h]
  simp

theorem State.admitDiffers_pair (n a : Nat) :
    (s.admitDiffers n a).pair = { s.pair with admitCount := 0, events := bitSet s.pair.events 6 } := by
  rw [State.admitDiffers, State.record, State.onKeep_pair, State.evPair_pair, State.onPair_pair]

theorem State.admitCheck_of_healthy (h : s.healthReplace = false) :
    s.admitCheck = if s.b.admitTicks ≤ s.pair.admitCount then s.onPair fun p => { p with admission := .pending } else s :=
  if_neg (by rw [h]; decide)

end

/-- Settles O55, clause by clause: each command of the interlock as its own change of the pair. -/
theorem pairInterlock : Obligations.PairInterlock := by
  unfold Obligations.PairInterlock
  refine ⟨?claim, ?held, ?active, ?lost, ?early, ?stops, ?released, ?follows, ?driven, ?stuck, ?notStuck, ?revert, ?ringB⟩
  case claim =>
    intro s hl hp hrun hr hu hpeer h
    refine (next_of_live hl _).trans ?_
    rw [State.claimGuard_of_passed hp hrun hr hu hpeer h]
    rfl
  case held =>
    intro s hl h
    refine (next_of_live hl _).trans ?_
    rw [State.claimGuard_of_held h]
  case active =>
    intro s hl hp hr hb h hpeer
    refine ⟨_, next_of_live hl _, ?_⟩
    rw [State.claimConfirm_of_free hp hr hb h hpeer, commit_pair, commit_cnt, State.toActive, State.evPair_pair]
    exact ⟨onlyIn_commit (onlyIn_trans (onlyIn_onPair _ (by decide)) (onlyIn_evPair 0 (by decide) (by decide))), rfl, rfl, rfl, rfl,
      State.evPair_onPair_cnt ..⟩
  case lost =>
    intro s hl hp hr hb h hpeer hring
    refine ⟨_, next_of_live hl _, ?_⟩
    rw [State.claimConfirm_of_lost hp hr hb h hpeer hring, commit_pair, State.evPair_pair]
    exact ⟨onlyIn_commit (onlyIn_trans (onlyIn_mono onlyIn_toStandby (by decide)) (onlyIn_evPair 2 (by decide) (by decide))), rfl, rfl, rfl⟩
  case early =>
    intro s hl h
    refine (next_of_live hl _).trans ?_
    rw [State.claimConfirm_of_early h]
  case stops =>
    intro s hp hpeer hring hr
    refine ⟨_, rfl, ?_⟩
    rw [State.ilkPeer_of_asserted hp hpeer hring hr, commit_pair, State.ringBStops, State.evPair_pair]
    exact ⟨onlyIn_commit (onlyIn_trans (onlyIn_trans (onlyIn_trans (onlyIn_onPair _ (by decide)) (onlyIn_mono onlyIn_toStandby (by decide)))
      (onlyIn_onPair _ (by decide))) (onlyIn_evPair 3 (by decide) (by decide))), rfl, rfl, rfl, rfl, rfl⟩
  case released =>
    intro s hpeer hr
    exact congrArg (fun t => Host.Outcome.next (commit t)) (State.ilkPeer_of_released hpeer hr)
  case follows =>
    intro s hl hp hb hr hu
    have heff := State.ownBusEff_of_asserted hl hp hb hr hu
    have hown : OnlyIn [.pair] s s.ownNoted := onlyIn_onPair _ (by decide)
    refine ⟨_, rfl, ?_⟩
    rw [heff]
    cases hrel : s.pair.releaseAt with
    | none => exact ⟨onlyIn_commit (onlyIn_trans hown (onlyIn_toClaiming false)), rfl, rfl, fun _ => ⟨rfl, rfl⟩⟩
    | some n => exact ⟨onlyIn_commit hown, rfl, rfl, fun h => nomatch h⟩
  case driven =>
    intro s hp hb
    exact congrArg (fun t => Host.Outcome.next (commit t)) (State.ownBusEff_of_driven hp hb)
  case stuck =>
    intro s n hl hp hr hpin hb h
    refine ⟨_, next_of_live hl _, ?_⟩
    rw [State.stuckLine_of_due hr hp hpin hb h, commit_pair, State.evPair_pair]
    exact ⟨onlyIn_commit (onlyIn_trans (onlyIn_onPair _ (by decide)) (onlyIn_evPair 7 (by decide) (by decide))), rfl⟩
  case notStuck =>
    intro s hl hr
    refine (next_of_live hl _).trans ?_
    rw [State.stuckLine_of_none hr]
  case revert =>
    intro s f g hl hp hring hr hpeer hu hfit hf hg hfdue hgdue hrole
    refine (next_of_live hl _).trans ?_
    rw [State.revertClaim_of_due hp hring hr hpeer hu hfit hf hg hfdue hgdue hrole, State.toClaiming, hfit]
    rfl
  case ringB =>
    intro s hl h
    refine (next_of_live hl _).trans ?_
    rw [State.revertClaim_of_ringB h]

/-- Settles O56, clause by clause: the decision on one activity's two digests. -/
theorem admissionDecision : Obligations.AdmissionDecision := by
  unfold Obligations.AdmissionDecision
  refine ⟨?other, ?differs, ?equal⟩
  case other =>
    intro s n hl h
    refine (next_of_live hl _).trans ?_
    rw [State.admitDecide_of_other h]
  case differs =>
    intro s n d a m p q hl hm hs hd hdue ha hown hbuddy hpq habsent
    have hkeep : ((((s.tickDecided n).onPair fun p => { p with admitCount := 0 }).evPair 6)).keep = s.keep :=
      (onlyIn_trans (onlyIn_trans (onlyIn_mono (qs := [.pair, .chk, .cnt]) (onlyIn_tickDecided n) (by decide)) (onlyIn_onPair _ (by decide)))
        (onlyIn_evPair 6 (by decide) (by decide))).rest .keep (by decide)
    refine ⟨_, next_of_live hl _, ?_⟩
    rw [State.admitDecide_of_due hm hs hd hdue ha hown hbuddy habsent, if_pos hpq, commit_pair, State.admitDiffers_pair, commit_keep,
      State.admitDiffers, State.record, State.onKeep_keep, hkeep]
    exact ⟨onlyIn_commit (onlyIn_trans (onlyIn_trans (onlyIn_trans (onlyIn_mono (onlyIn_tickDecided n) (by decide)) (onlyIn_onPair _ (by decide)))
      (onlyIn_evPair 6 (by decide) (by decide))) (onlyIn_record _ (by decide))), rfl, hs, State.tickDecided_decideAt hd, rfl, rfl⟩
  case equal =>
    intro s n d a m p hl hm hs hd hdue ha hown hbuddy habsent hhealth
    have hcheck := State.admitCheck_of_healthy (s := (s.tickDecided n).admitCounted) hhealth
    have hcounted : OnlyIn [.pair, .chk] s (s.tickDecided n).admitCounted := onlyIn_trans (onlyIn_tickDecided n) (onlyIn_onPair _ (by decide))
    have hdecided : (s.tickDecided n).admitCounted.pair.decideAt = [] := State.tickDecided_decideAt hd
    have hcond : ((s.tickDecided n).admitCounted.b.admitTicks ≤ (s.tickDecided n).admitCounted.pair.admitCount) =
      (s.b.admitTicks ≤ s.pair.admitCount + 1) := rfl
    refine ⟨_, next_of_live hl _, ?_⟩
    rw [State.admitDecide_of_due hm hs hd hdue ha hown hbuddy habsent, if_neg (not_not_intro rfl), hcheck, commit_pair]
    simp only [hcond]
    split
    · exact ⟨onlyIn_commit (onlyIn_trans hcounted (onlyIn_onPair _ (by decide))), rfl, hdecided, rfl⟩
    · exact ⟨onlyIn_commit hcounted, rfl, hdecided, hs⟩

end Sys2Proof.Machine

/-! Resets of the module and its start (spec/23, R472 to R475, R481, R482, R484, R498). -/

namespace Sys2Proof.Machine

section

variable {s t : State}

/-! ### Resets -/

/-- The copies with no rejection held. -/
def Persist.copiesFreed (k : Persist) : Persist :=
  { k with copyA := { k.copyA with rejected := false }, copyB := { k.copyB with rejected := false } }

/-- What a power-on reset resets: without AUX_12V before it no hold is known. -/
def State.poweredFrom (s : State) : State :=
  if s.start.aux then s.onKeep Persist.copiesFreed else (s.onKeep Persist.copiesFreed).onStart fun x => { x with hold := false }

theorem State.poweredFrom_keep (s : State) : s.poweredFrom.keep = s.keep.copiesFreed := by
  unfold State.poweredFrom
  split <;> rfl

theorem State.powerOnEff_of_off (h : s.start.p48 = false) : s.powerOnEff =
    (s.poweredFrom.resetModule 0).onStart fun x => { x with p48 := true, hold := true, waitInput := false, tripFreed := true } :=
  if_pos (by rw [h]; rfl)

theorem State.powerOnEff_of_waiting (h : s.start.p48 = true) (hw : s.start.waitInput = true) :
    s.powerOnEff = s.onStart fun x => { x with waitInput := false } := by
  rw [State.powerOnEff, h, hw]
  rfl

/-- What persists through a reset but its cause and its entries. -/
theorem State.resetModule_keep (s : State) (c : Nat) : ∃ r, (s.resetModule c).keep =
    { (if s.start.hold then { s.keep with later := min 0xFFFF (s.keep.later + 1) } else { s.keep with cause := c, later := 0 }) with
      record := r } := ⟨_, rfl⟩

theorem State.modReset_of_edge (hp : s.start.p48 = true) (hr : s.start.rstPin = false) :
    s.modReset true = ((s.onStart fun x => { x with rstPin := true }).resetModule 1).onStart fun x => { x with tripFreed := true } :=
  if_pos (by rw [hp, hr]; rfl)

theorem State.resetCmd_of_allowed {m : Nat} (h : m = 1 ∨ m = 0x41) (f : State → State) : s.resetCmd m f = f s :=
  if_pos (by rcases h with rfl | rfl <;> rfl)

theorem State.resetCmd_of_other {m : Nat} (h1 : m ≠ 1) (h2 : m ≠ 0x41) (f : State → State) : s.resetCmd m f = s.regErr m 6 :=
  if_neg (by rw [beq_eq_false_iff_ne.2 (show m ≠ idHostPf from h1), beq_eq_false_iff_ne.2 (show m ≠ idTray from h2)]; decide)

theorem State.hold_of_live (h : s.live = true) : s.start.hold = false := by
  simpa using (Bool.and_eq_true_iff.1 h).2

theorem State.auxPresence_of_lost (h : s.start.p48 = false) :
    s.auxPresence false =
      ((s.onStart fun x => { x with aux := false }).onKeep fun k => { k with cause := 0, later := 0 }).onHost fun h => { h with eid := 0 } :=
  if_neg (by rw [h]; decide)

/-! ### The ROM (R475, R481, R484) -/

theorem State.startEff_of_held (h : s.start.rstPin = true) (n : Nat) (r p : Bool) (c : Nat) : s.startEff n r p c = s := by
  have hover : s.holdOver = false := by rw [State.holdOver, h, Bool.not_true, Bool.and_false, Bool.false_and, Bool.false_and]
  exact if_pos (by rw [hover]; rfl)

/-- A start out of the hold: what it logs first, and the straps it reads. -/
def State.startOut (s : State) (n : Nat) (r p : Bool) : State :=
  (s.startLog.wipeVitrine 3 0).onStart fun x => { x with
    stage := .rom, hold := false, tripHold := false, tripFreed := false, slotId := n, ringSel := r, priN := p }

theorem State.startEff_of_over (h : s.holdOver = true) (n : Nat) (r p : Bool) (c : Nat) : s.startEff n r p c =
    if s.start.recoverNext then (s.startOut n r p).enterRecovery
    else match (s.startOut n r p).trialStep.romChoose (c.testBit 0) with
      | none => (s.startOut n r p).trialStep.enterRecovery
      | some (copy, u) => u.startUp copy (copy == (s.startOut n r p).trialStep.keep.bootSel && c / 2 % 32 != 0) :=
  if_neg (by rw [h]; decide)

theorem State.startOut_start (s : State) (n : Nat) (r p : Bool) : (s.startOut n r p).start = { s.start with
    stage := .rom, hold := false, tripHold := false, tripFreed := false, slotId := n, ringSel := r, priN := p } := by
  rw [State.startOut, State.onStart_start, State.wipeVitrine, State.onKsi_start, (onlyIn_startLog s).rest .start (by decide)]

theorem State.startOut_bind (s : State) (n : Nat) (r p : Bool) : (s.startOut n r p).bind = s.bind :=
  (onlyIn_startLog s).rest .bind (by decide)

theorem State.startOut_keep (s : State) (n : Nat) (r p : Bool) :
    ∃ x d, (s.startOut n r p).keep = { s.keep with record := x, dipMin := d } := s.startLog_keep

theorem State.trialStep_of_none (h : s.keep.trial = false) : s.trialStep = s := if_pos (by rw [h]; rfl)

theorem State.startOut_accepted (n : Nat) (r p : Bool) (c : FwCopy) : (s.startOut n r p).copyAccepted c = s.copyAccepted c := by
  obtain ⟨x, d, hkeep⟩ := s.startOut_keep n r p
  exact State.copyAccepted_congr (by rw [State.startOut_bind]) (by rw [hkeep]) (by rw [hkeep]) (by rw [hkeep]) c

theorem State.enterRecovery_spec (s : State) : s.enterRecovery.start = { s.start with stage := .recovery, recoverNext := false } ∧
    s.enterRecovery.bind = s.bind := ⟨rfl, rfl⟩

theorem Persist.reject_copy (k : Persist) (b : Bool) : (k.reject b).copy (!b) = k.copy (!b) := by cases b <;> rfl

theorem Persist.reject_fields (k : Persist) (b : Bool) : (k.reject b).fwKeysRevoked = k.fwKeysRevoked ∧ (k.reject b).svnFloor = k.svnFloor ∧
    (k.reject b).accession = k.accession := by cases b <;> exact ⟨rfl, rfl, rfl⟩

/-- Neither copy is accepted: the ROM has none to start. -/
theorem State.romChoose_of_none (hA : s.copyAccepted s.keep.copyA = false) (hB : s.copyAccepted s.keep.copyB = false) (bad : Bool) :
    s.romChoose bad = none := by
  have hcopy : ∀ b, s.copyAccepted (s.keep.copy b) = false := fun b => by cases b <;> assumption
  obtain ⟨hrevoked, hfloor, hname⟩ := s.keep.reject_fields s.keep.bootSel
  have hother : (s.onKeep fun k => k.reject s.keep.bootSel).copyAccepted
      ((s.onKeep fun k => k.reject s.keep.bootSel).keep.copy (!s.keep.bootSel)) = false := by
    rw [State.copyAccepted_congr (s := s) (t := s.onKeep fun k => k.reject s.keep.bootSel) rfl hrevoked hfloor hname]
    exact (congrArg s.copyAccepted (s.keep.reject_copy s.keep.bootSel)).trans (hcopy _)
  unfold State.romChoose
  dsimp only
  rw [hcopy, Bool.false_and, if_neg (by decide), hother, if_neg (by decide)]

/-! ### The cold bind of a start (R67, R475) -/

/-- The two ways a cold bind ends: BOUND and waiting for the ring, or UNBOUND. -/
def State.boundOrNot (s : State) : Prop :=
  (s.bind.cold = .bound ∧ s.start.stage = .ringWait ∧ s.bind.running.isSome = true) ∨
    (s.bind.cold = .unbound ∧ s.start.stage = .unbound ∧ s.bind.running = none)

/-- What a cold bind keeps of the start: straps, pins, the hold and the copy that runs. -/
def StrapsKept (s t : State) : Prop := ∃ st d b, t.start = { s.start with stage := st, bindDone := d, bindTime := b }

theorem strapsKept_trans {u : State} (h : StrapsKept s t) (k : StrapsKept t u) : StrapsKept s u := by
  obtain ⟨st, d, b, h⟩ := h
  obtain ⟨st', d', b', k⟩ := k
  exact ⟨st', d', b', by rw [k, h]⟩

theorem strapsKept_of_eq (h : t.start = s.start) : StrapsKept s t := ⟨_, _, _, h⟩

theorem State.coldTake_start (s : State) (r : Running) (fallback : Bool) (e : Option BindErr) :
    (s.coldTake r fallback e).start = { s.start with stage := .ringWait, bindDone := true, bindTime := s.tb.time } := by
  unfold State.coldTake
  extract_lets c s1 s2 s3 s4 s5
  have hreset : s1.start = s.start := rfl
  clear_value s1
  have h2 : s2.start = s1.start := onlyIn_bindWork.rest .start (by decide)
  clear_value s2
  have h3 : s3.start = s2.start :=
    (onlyIn_then (onlyIn_onCons (ps := [.cons]) _ (by decide)) onlyIn_replanStart (by decide)).rest .start (by decide)
  clear_value s3
  have h4 : s4.start = s3.start := rfl
  clear_value s4
  have h5 : s5.start = { s4.start with stage := .ringWait, bindDone := true, bindTime := s.tb.time } := by
    unfold s5
    rw [onlyIn_bindRing.rest .start (by decide), State.onStart_start]
  clear_value s5
  have h6 : OnlyIn [.pwr, .cnt] s5 (if s5.pwr.pcapPin then (s5.onPwr fun p => { p with pcapPin := false }).fastStep else s5) :=
    onlyIn_ite (fun _ => onlyIn_then (onlyIn_onPwr _ (by decide)) onlyIn_fastStep (by decide)) fun _ => onlyIn_refl _ _
  rw [h6.rest .start (by decide), h5, h4, h3, h2, hreset]

theorem State.coldFail_start (s : State) (e f : BindErr) : (s.coldFail e f).start = { s.start with stage := .unbound, bindDone := false } := by
  unfold State.coldFail
  extract_lets s1
  have hreset : s1.start = s.start := rfl
  clear_value s1
  rw [onlyIn_bypassUpdate.rest .start (by decide), State.onStart_start, State.onTb_start, State.record, State.onKeep_start, hreset]

theorem State.coldTake_end (s : State) (r : Running) (fallback : Bool) (e : Option BindErr) :
    (s.coldTake r fallback e).boundOrNot ∧ StrapsKept s (s.coldTake r fallback e) := by
  obtain ⟨-, -, hcold, hrunning, -⟩ := s.coldTake_taken r fallback e
  have hstart := s.coldTake_start r fallback e
  exact ⟨.inl ⟨hcold, by rw [hstart], by rw [hrunning]; rfl⟩, _, _, _, hstart⟩

theorem State.coldFail_end (s : State) (e f : BindErr) : (s.coldFail e f).boundOrNot ∧ StrapsKept s (s.coldFail e f) := by
  obtain ⟨-, -, hcold, hrunning, -⟩ := s.coldFail_failed e f
  have hstart := s.coldFail_start e f
  exact ⟨.inr ⟨hcold, by rw [hstart], hrunning⟩, _, _, _, hstart⟩

theorem State.coldBind_end (s : State) : s.coldBind.boundOrNot ∧ StrapsKept s s.coldBind := by
  obtain ⟨u, hu⟩ : ∃ u, u = (s.onBind fun x => { x with cold := .validating }).bypassUpdate := ⟨_, rfl⟩
  have hstart : StrapsKept s u := by
    rw [hu]
    exact strapsKept_of_eq (onlyIn_bypassUpdate.rest .start (by decide))
  rw [State.coldBind_eq hu]
  split
  · exact ⟨(u.coldTake_end ..).1, strapsKept_trans hstart (u.coldTake_end ..).2⟩
  · split
    · exact ⟨(u.coldTake_end ..).1, strapsKept_trans hstart (u.coldTake_end ..).2⟩
    · exact ⟨(u.coldFail_end ..).1, strapsKept_trans hstart (u.coldFail_end ..).2⟩

theorem State.boundOrNot_congr (hb : t.bind = s.bind) (hs : t.start = s.start) (h : s.boundOrNot) : t.boundOrNot := by
  rw [State.boundOrNot, hb, hs]
  exact h

theorem State.convertSettings_start (s : State) : s.convertSettings.start = s.start := by
  unfold State.convertSettings
  dsimp only
  split
  · rfl
  · split <;> rfl

/-- The start of a copy whose components match, not in trial: it runs that copy, and its cold bind is the end of it (R475). -/
theorem State.startUp_of_good {copy : Bool} (htrial : s.keep.trial = false)
    (hok : ∀ i < 5, componentOk (s.keep.copy copy).bundle (i + 1) = true) :
    (s.startUp copy false).boundOrNot ∧ (s.startUp copy false).keep.trial = false ∧
      ∃ st d b, (s.startUp copy false).start = { s.start with fwCopy := copy, stage := st, bindDone := d, bindTime := b } := by
  unfold State.startUp
  extract_lets s1 x s2 s3 s4 s5 s6 lastOther s7
  have hbundle : x = (s.keep.copy copy).bundle := by cases copy <;> rfl
  have h1 : s1.start = { s.start with fwCopy := copy, stage := .images } ∧ s1.boot.trial = s.keep.trial := ⟨rfl, rfl⟩
  clear_value x s1
  have hbuild : OnlyIn [.ksi, .freeCount] s1 ((s1.measureFree 1 0).measureFree 2 0) := onlyIn_trans (onlyIn_measureFree 1 0) (onlyIn_measureFree 2 0)
  have h2 : s2.start = s1.start ∧ s2.boot = s1.boot :=
    ⟨Eq.trans (b := ((s1.measureFree 1 0).measureFree 2 0).start) rfl (hbuild.rest .start (by decide)),
      Eq.trans (b := ((s1.measureFree 1 0).measureFree 2 0).boot) rfl (boot_of_onlyIn hbuild (by decide) (by decide))⟩
  clear_value s2
  have hmeasures : OnlyIn [.ksi, .freeCount] s2 s3 := onlyIn_foldl _ (fun _ _ => onlyIn_measure ..) _ _
  have h3 : s3.start = s2.start ∧ s3.boot = s2.boot :=
    ⟨hmeasures.rest .start (by decide), boot_of_onlyIn hmeasures (by decide) (by decide)⟩
  clear_value s3
  have h4 : s4.start = s3.start ∧ s4.boot = s3.boot := ⟨s3.convertSettings_start, s3.convertSettings_boot⟩
  clear_value s4
  have hbind := (s4.onCons fun c => { c with trims := s4.settings.trims }).coldBind_end
  have h5 : s5.boundOrNot ∧ StrapsKept s4 s5 ∧ s5.boot = s4.boot := ⟨hbind.1, hbind.2, State.coldBind_boot _⟩
  clear_value s5
  have h6 : s6.start = s5.start ∧ s6.bind = s5.bind ∧ s6.boot = s5.boot := ⟨rfl, rfl, rfl⟩
  clear_value s6
  have h7 : s7.start = s6.start ∧ s7.bind = s6.bind ∧ s7.keep.trial = s6.boot.trial := by cases copy <;> exact ⟨rfl, rfl, rfl⟩
  clear_value s7
  obtain ⟨hend, ⟨st, d, b, hstraps⟩, hboot5⟩ := h5
  have hnone : s7.keep.trial = false := by
    rw [h7.2.2, h6.2.2, hboot5, h4.2, h3.2, h2.2, h1.2, htrial]
  have hcomps : ¬ (false || !((List.range 5).all fun i => componentOk x (i + 1))) = true := by simpa [hbundle] using hok
  rw [if_neg hcomps, if_neg (by rw [hnone, Bool.and_false, Bool.false_and]; decide)]
  refine ⟨State.boundOrNot_congr (h7.2.1.trans h6.2.1) (h7.1.trans h6.1) hend, hnone, st, d, b, ?_⟩
  rw [h7.1, h6.1, hstraps, h4.1, h3.1, h2.1, h1.1]

end

/-- Settles O57, clause by clause: resets through what the module reset keeps, the start through the copy the ROM chooses. -/
theorem resetsAndStart : Obligations.ResetsAndStart := by
  unfold Obligations.ResetsAndStart
  refine ⟨?powerOn, ?inputBack, ?pin, fun s => ?pinFreed, ?soft, ?softOther, ?recovery, ?watchdog, ?watchdogRecovery, ?auxLost, fun s => rfl,
    ?held, ?toRecovery, ?start⟩
  case powerOn =>
    intro s h
    obtain ⟨r, hreset⟩ := s.poweredFrom.resetModule_keep 0
    refine ⟨commit s.powerOnEff, rfl, ?_⟩
    rw [commit_start, commit_bind, commit_keep, State.powerOnEff_of_off h, State.onStart_start, State.onStart_bind, State.onStart_keep,
      hreset, State.poweredFrom_keep]
    refine ⟨rfl, rfl, rfl, rfl, ?_⟩
    split <;> exact ⟨rfl, rfl, rfl, rfl⟩
  case inputBack =>
    intro s h hw
    exact congrArg (fun t => Host.Outcome.next (commit t)) (State.powerOnEff_of_waiting h hw)
  case pin =>
    intro s hp hr
    obtain ⟨x, hreset⟩ := (s.onStart fun x => { x with rstPin := true }).resetModule_keep 1
    refine ⟨commit (s.modReset true), rfl, ?_⟩
    rw [commit_start, commit_bind, commit_keep, State.modReset_of_edge hp hr, State.onStart_start, State.onStart_bind, State.onStart_keep, hreset]
    refine ⟨rfl, rfl, rfl, rfl, fun h => ?_, fun h => ?_⟩
    · rw [State.onStart_start, if_neg (by rw [h]; decide)]
      exact ⟨rfl, rfl⟩
    · rw [State.onStart_start, if_pos h]
      exact ⟨rfl, rfl⟩
  case pinFreed => exact rfl
  case soft =>
    intro s m hl hm
    refine ⟨_, next_of_live hl _, ?_⟩
    rw [State.softReset, State.resetCmd_of_allowed hm, commit_keep, State.resetModule_cause (State.hold_of_live hl)]
    exact ⟨rfl, rfl, rfl, rfl, rfl⟩
  case softOther =>
    intro s m hl h1 h2
    refine ⟨_, next_of_live hl _, ?_⟩
    rw [State.softReset, State.resetCmd_of_other h1 h2, commit_cnt]
    exact ⟨onlyIn_commit (onlyIn_regErr _ _ (by decide) (by decide)), s.regErr_cnt m 6⟩
  case recovery =>
    intro s m hl hm
    refine ⟨_, next_of_live hl _, ?_⟩
    have hhold : (s.onStart fun x => { x with recoverNext := true }).start.hold = false := State.hold_of_live hl
    rw [State.recoveryResetEff, State.resetCmd_of_allowed hm, commit_keep, State.resetModule_cause hhold]
    exact ⟨rfl, rfl, rfl⟩
  case watchdog =>
    intro s hl hrom hrec
    have hstage : (s.start.stage == .rom) = false := beq_eq_false_iff_ne.2 hrom
    have hrecovery : s.recovery = false := beq_eq_false_iff_ne.2 hrec
    refine ⟨commit (s.resetModule 3), ?_, ?_⟩
    · rw [exec, execWatchdog, hl, hstage, hrecovery]
      rfl
    · rw [commit_keep, State.resetModule_cause (State.hold_of_live hl)]
      exact ⟨rfl, rfl⟩
  case watchdogRecovery =>
    intro s hl h
    have hrecovery : s.recovery = true := by rw [State.recovery, h]; rfl
    rw [exec, execWatchdog, hrecovery, Bool.or_true]
    rfl
  case auxLost =>
    intro s h
    exact congrArg (fun t => Host.Outcome.next (commit t)) (State.auxPresence_of_lost h)
  case held =>
    intro s n c r p h
    exact congrArg (fun t => Host.Outcome.next (commit t)) (State.startEff_of_held h n r p c)
  case toRecovery =>
    intro s n c r p hover hrec
    refine ⟨commit (s.startEff n r p c), rfl, ?_⟩
    obtain ⟨hstart, hbind⟩ := (s.startOut n r p).enterRecovery_spec
    rw [State.startEff_of_over hover, if_pos hrec, commit_start, commit_bind, hstart, hbind, State.startOut_start, State.startOut_bind]
    exact ⟨rfl, rfl, rfl, rfl, rfl⟩
  case start =>
    intro s n r p hover hrec htrial
    obtain ⟨x, d, hkeep⟩ := s.startOut_keep n r p
    have hstep : (s.startOut n r p).trialStep = s.startOut n r p := State.trialStep_of_none (by rw [hkeep]; exact htrial)
    refine ⟨commit (s.startEff n r p 0), rfl, ?_⟩
    rw [State.startEff_of_over hover, if_neg (by rw [hrec]; decide), hstep]
    refine ⟨fun hacc hok => ?_, fun hA hB => ?_⟩
    · have hsel : (s.startOut n r p).keep.bootSel = s.keep.bootSel := by rw [hkeep]
      have hcopy : (s.startOut n r p).keep.copy s.keep.bootSel = s.keep.copy s.keep.bootSel := by rw [hkeep]; rfl
      have hchoose : (s.startOut n r p).romChoose false = some (s.keep.bootSel, s.startOut n r p) := by
        rw [← hsel]
        refine State.romChoose_of_accepted ?_
        rw [hsel, hcopy, State.startOut_accepted]
        exact hacc
      obtain ⟨hend, hnone, st, b, m, hstart⟩ := State.startUp_of_good (s := s.startOut n r p) (copy := s.keep.bootSel)
        (by rw [hkeep]; exact htrial) (by rw [hcopy]; exact hok)
      have heff : ((0 : Nat).testBit 0) = false := rfl
      rw [heff, hchoose]
      dsimp only
      rw [show (0 / 2 % 32 != 0) = false from rfl, Bool.and_false, commit_start, commit_keep, commit_bind]
      rw [State.startOut_start] at hstart
      rw [hstart]
      refine ⟨rfl, rfl, rfl, rfl, rfl, hnone, ?_⟩
      rw [State.boundOrNot, hstart] at hend
      exact hend
    · have hchoose : (s.startOut n r p).romChoose ((0 : Nat).testBit 0) = none := by
        refine State.romChoose_of_none ?_ ?_ _
        · rw [State.startOut_accepted, hkeep]
          exact hA
        · rw [State.startOut_accepted, hkeep]
          exact hB
      obtain ⟨hstart, hbind⟩ := (s.startOut n r p).enterRecovery_spec
      rw [hchoose, commit_start, commit_bind, hstart, hbind, State.startOut_start, State.startOut_bind]
      exact ⟨rfl, rfl, rfl, rfl⟩

end Sys2Proof.Machine

/-! The image transfer and what images do (spec/23, R483, R486 to R491; spec/17, R386; spec/19, R402). -/

namespace Sys2Proof.Machine

section

variable {s : State}

/-! ### The transfer (R486, R489) -/

theorem State.imgCmd_of_other {m : Nat} (h1 : m ≠ 1) (h2 : m ≠ 0x41) (f : State → State) : s.imgCmd m f = s.regErr m 6 :=
  if_pos (by rw [beq_eq_false_iff_ne.2 (show m ≠ idHostPf from h1), beq_eq_false_iff_ne.2 (show m ≠ idTray from h2)]; rfl)

/-- A command of HOST_PF with no transfer in hand is taken. -/
theorem State.imgCmd_of_idle (h : s.img.state = .idle) (f : State → State) : s.imgCmd 1 f = f s :=
  State.imgCmd_of_taken (.inl rfl) (by rw [h]; rintro (h | h | h) <;> exact nomatch h) f

/-- A command of HOST_PF in its own open transfer is taken. -/
theorem State.imgCmd_of_owner (h : s.img.owner = 1) (f : State → State) : s.imgCmd 1 f = f s :=
  State.imgCmd_of_taken (.inl rfl) (fun _ => h) f

theorem onlyIn_imgDone {ps : List Part} (code : Nat) (f : Image → Image) (h : Part.img ∈ ps) : OnlyIn ps s (s.imgDone code f) :=
  onlyIn_onImg _ h

/-- A transfer begun anew: the previous one is over. -/
def Image.fresh (x : Image) : Image := { x with state := .idle, busy := false, blocks := [], data := [], detail := 0, committed := false }

/-- A transfer opened by HOST_PF. -/
def Image.openedBy1 (x : Image) (typ len : Nat) (dest : Bool) : Image :=
  { x.fresh with state := if typ ≤ 2 then .erasing else .opened, owner := 1, typ := typ, openLen := len, dest := dest }

/-- The firmware copy that an OPEN erases. -/
def Persist.copyErased (k : Persist) (dest : Bool) : Persist :=
  if dest then { k with copyB := { k.copyB with bundle := [], selectable := false } }
  else { k with copyA := { k.copyA with bundle := [], selectable := false } }

theorem State.recovery_of_stage (h : s.start.stage ≠ .recovery) : s.recovery = false := beq_eq_false_iff_ne.2 h

theorem State.imgOpenEff_rebind {len : Nat} (hi : s.img.state = .idle) (hr : s.start.stage ≠ .recovery) (hlen : len ≤ 0x600000) :
    s.imgOpenEff 1 3 len = s.imgDone 0 fun x => x.openedBy1 3 len (s.imgDest 3) := by
  have hrec : (s.onImg Image.fresh).recovery = false := State.recovery_of_stage hr
  have hguard : ¬ (!within 1 3 6 || ((s.onImg Image.fresh).recovery && 3 != 1)) = true := by rw [hrec]; decide
  rw [State.imgOpenEff, State.imgCmd_of_idle hi]
  dsimp only
  exact (if_neg hguard).trans ((if_neg (Nat.not_lt.2 hlen)).trans rfl)

theorem State.imgOpenEff_firmware {len : Nat} (hi : s.img.state = .idle) (hr : s.start.stage ≠ .recovery) (hlen : len ≤ 0x1800000) :
    s.imgOpenEff 1 1 len = (s.imgDone 0 fun x => x.openedBy1 1 len (!s.start.fwCopy)).onKeep fun k => k.copyErased (!s.start.fwCopy) := by
  have hrec : (s.onImg Image.fresh).recovery = false := State.recovery_of_stage hr
  have hguard : ¬ (!within 1 1 6 || ((s.onImg Image.fresh).recovery && 1 != 1)) = true := by rw [hrec]; decide
  have hdest : (s.onImg Image.fresh).imgDest 1 = !s.start.fwCopy := by
    rw [State.imgDest, if_pos rfl, hrec, if_neg (by decide)]
    rfl
  rw [State.imgOpenEff, State.imgCmd_of_idle hi]
  dsimp only
  rw [show s.onImg (fun x => { x with state := .idle, busy := false, blocks := [], data := [], detail := 0, committed := false }) =
    s.onImg Image.fresh from rfl, hdest]
  exact (if_neg hguard).trans ((if_neg (Nat.not_lt.2 hlen)).trans rfl)

theorem within_image {typ : Nat} (h : typ = 0 ∨ 6 < typ) : within 1 typ 6 = false := by
  unfold within
  rcases h with h | h
  · rw [h]
    rfl
  · rw [decide_eq_false (Nat.not_le.2 h), Bool.and_false]

theorem State.imgOpenEff_unknown {typ : Nat} (hi : s.img.state = .idle) (ht : typ = 0 ∨ 6 < typ) (len : Nat) :
    s.imgOpenEff 1 typ len = (s.onImg Image.fresh).imgDone 2 id := by
  rw [State.imgOpenEff, State.imgCmd_of_idle hi]
  exact if_pos (by rw [within_image ht]; rfl)

theorem exec_eraseDone (hl : s.live = true) (h : s.img.state = .erasing) :
    exec .eraseDone s = .next (commit (s.onImg fun x => { x with state := .opened })) := by
  rw [exec, execEraseDone, hl, h]
  rfl

section

variable (hs : s.img.state = .opened) (hown : s.img.owner = 1) (hb : s.img.busy = false)
include hs hown hb

/-- A block in its place within the image, with its checksum right, and not there yet. -/
theorem State.imgBlockEff_of_new (ho : s.img.offset.toNat % 4096 = 0) (hlt : s.img.offset.toNat < s.img.openLen)
    (hn : s.img.blkLen.toNat = min 4096 (s.img.openLen - s.img.offset.toNat))
    (hcrc : crc32c (rdBytes s.img.buf 0 s.img.blkLen.toNat) = s.img.crc) (hnew : s.img.blocks.contains s.img.offset.toNat = false) :
    s.imgBlockEff 1 = s.imgDone 0 fun x => { x with
      blocks := s.img.offset.toNat :: x.blocks
      data := wrBytes x.data s.img.offset.toNat (rdBytes s.img.buf 0 s.img.blkLen.toNat), busy := true } := by
  rw [State.imgBlockEff, State.imgCmd_of_owner hown]
  dsimp only
  rw [if_neg (by simp [hs, hb]), if_neg (by simp [hs, ho, ← hn]; omega), if_neg (by simp [hcrc]), if_neg (by rw [hnew]; decide)]

theorem State.imgBlockEff_of_bad (ho : s.img.offset.toNat % 4096 = 0) (hlt : s.img.offset.toNat < s.img.openLen)
    (hn : s.img.blkLen.toNat = min 4096 (s.img.openLen - s.img.offset.toNat))
    (hcrc : crc32c (rdBytes s.img.buf 0 s.img.blkLen.toNat) ≠ s.img.crc) : s.imgBlockEff 1 = s.imgDone 4 id := by
  rw [State.imgBlockEff, State.imgCmd_of_owner hown]
  dsimp only
  rw [if_neg (by simp [hs, hb]), if_neg (by simp [hs, ho, ← hn]; omega), if_pos (bne_iff_ne.2 hcrc)]

theorem State.imgCloseEff_of_whole (h : s.img.blocks.length = blockCount s.img.openLen) :
    s.imgCloseEff 1 = if s.img.typ = 3 then (s.imgDone 0 fun x => { x with state := .verified }).onBind fun b =>
      { b with staging := some s.img.bytes } else s.imgDone 0 fun x => { x with state := .verifying } := by
  rw [State.imgCloseEff, State.imgCmd_of_owner hown]
  dsimp only
  rw [if_neg (by simp [hs, hb]), if_neg (by simp [hs, h])]

theorem State.imgCloseEff_of_part (h : s.img.blocks.length ≠ blockCount s.img.openLen) : s.imgCloseEff 1 = s.imgDone 7 id := by
  rw [State.imgCloseEff, State.imgCmd_of_owner hown]
  dsimp only
  rw [if_neg (by simp [hs, hb]), if_pos (by simp [h])]

end

/-! ### Verification (R386, R487) -/

theorem State.verify_of_other (h : s.img.state ≠ .verifying) : s.verify = s := if_pos (bne_iff_ne.2 h)

theorem State.imgVerdict_of_failed {code : Nat} (h : code ≠ 0) (d : Nat) :
    s.imgVerdict code d = s.imgDone code fun x => { x with state := .failed, detail := d } := by
  rw [State.imgVerdict, if_neg h]

theorem State.verify_of_bad (hs : s.img.state = .verifying) (ht : 4 ≤ s.img.typ) (hc : s.imageCode s.img.typ s.img.bytes ≠ 0) :
    s.verify = s.imgVerdict (s.imageCode s.img.typ s.img.bytes) 0 := by
  have hguard : ¬ (s.img.state != .verifying) = true := by rw [hs]; decide
  rw [State.verify]
  dsimp only
  rw [if_neg hguard]
  generalize s.imageCode s.img.typ s.img.bytes = code at hc
  split
  · omega
  · omega
  · exact if_pos hc
  · exact if_pos hc
  · exact if_pos hc

/-- A REVOKE image accepted: its slot no longer verifies, noted and measured. -/
def State.keyRevoked (s : State) (k : Nat) : State :=
  (((s.imgVerdict 0 0).onBind fun b => { b with keys := b.keys.upd k fun k => { k with revoked := true } }).record
    { kind := .authKey, vals := [k] }).measureFree 5 0

theorem State.verify_revoke (hs : s.img.state = .verifying) (ht : s.img.typ = 6) : s.verify =
    if s.imageCode 6 s.img.bytes ≠ 0 then s.imgVerdict (s.imageCode 6 s.img.bytes) 0
    else if !s.revokeOk s.img.bytes then s.imgVerdict 0x12 0 else s.keyRevoked (u8 s.img.bytes 0x100) := by
  have hguard : ¬ (s.img.state != .verifying) = true := by rw [hs]; decide
  rw [State.verify]
  dsimp only
  rw [if_neg hguard, ht]
  rfl

/-- The firmware copy that a verified image becomes. -/
def Persist.copyWritten (k : Persist) (dest : Bool) (x : List Byte) : Persist :=
  if dest then { k with copyB := { bundle := x } } else { k with copyA := { bundle := x } }

theorem State.verify_firmware (hs : s.img.state = .verifying) (ht : s.img.typ = 1) (hr : s.start.stage ≠ .recovery) : s.verify =
    if s.imageCode 1 s.img.bytes = 0 then (s.imgVerdict 0 0).onKeep fun k => k.copyWritten s.img.dest s.img.bytes
    else s.imgVerdict (s.imageCode 1 s.img.bytes) 0 := by
  have hguard : ¬ (s.img.state != .verifying) = true := by rw [hs]; decide
  have hwritten : s.fwVerified s.img.bytes = (s.imgVerdict 0 0).onKeep fun k => k.copyWritten s.img.dest s.img.bytes := by
    rw [State.fwVerified, State.recovery_of_stage hr]
    rfl
  rw [State.verify]
  dsimp only
  rw [if_neg hguard, ht, ← hwritten]
  rfl

theorem onlyIn_imgVerdict {ps : List Part} (c d : Nat) (h : Part.img ∈ ps) : OnlyIn ps s (s.imgVerdict c d) := onlyIn_imgDone _ _ h

theorem onlyIn_keyRevoked (k : Nat) : OnlyIn [.img, .bind, .keep, .ksi, .freeCount] s (s.keyRevoked k) :=
  onlyIn_trans (onlyIn_trans (onlyIn_trans (onlyIn_imgVerdict _ _ (by decide)) (onlyIn_onBind _ (by decide))) (onlyIn_record _ (by decide)))
    (onlyIn_mono (onlyIn_measureFree 5 0) (by decide))

theorem State.keyRevoked_spec (w : s.bind.keys.wf = true) (k : Nat) :
    (s.keyRevoked k).img.state = .verified ∧ ((s.keyRevoked k).bind.keys.get k).revoked = true := by
  refine ⟨rfl, ?_⟩
  exact (congrArg (fun x => x.revoked) ((Tab.get_upd s.bind.keys w k k fun k => { k with revoked := true }).trans (if_pos rfl)))

/-! ### FW_CONFIRM and CAL_COMMIT (R308, R402, R483, R491) -/

theorem State.fwConfirmEff_of_refused (hi : s.img.state = .idle) (h : s.keep.trial = false ∨ s.keep.bootSel ≠ s.start.fwCopy) :
    s.fwConfirmEff 1 = s.imgDone 0x11 id := by
  rw [State.fwConfirmEff, State.imgCmd_of_idle hi]
  refine if_pos ?_
  rcases h with h | h
  · rw [h]
    rfl
  · rw [beq_eq_false_iff_ne.2 h, Bool.and_false]
    rfl

/-- What FW_CONFIRM makes of what persists. -/
def State.confirmed (s : State) (k : Persist) : Persist :=
  let old := fun (x : Settings) => if x.used && x.format != s.runFormat then {} else x
  { k with
    trial := false, tries := 0, svnFloor := max k.svnFloor (u16 s.runningBundle 0xA), confirmedFormat := s.runFormat
    settings0 := old k.settings0, settings1 := old k.settings1 }

theorem State.fwConfirmEff_of_trial (hi : s.img.state = .idle) (ht : s.keep.trial = true) (hsel : s.keep.bootSel = s.start.fwCopy) :
    s.fwConfirmEff 1 = ((s.imgDone 0 id).onKeep s.confirmed).record { kind := .image, vals := [u16 s.runningBundle 0xA] } := by
  rw [State.fwConfirmEff, State.imgCmd_of_idle hi]
  exact if_neg (by rw [ht, hsel, beq_self_eq_true]; decide)

/-- A calibration set stored in the areas that hold its format. -/
def State.calStored (s : State) (p : List Byte) : State :=
  let put := fun (x : Settings) => if x.used && (x.format == s.runFormat || s.keep.trial) then x.store p else x
  (s.onKeep fun k => { k with settings0 := put k.settings0, settings1 := put k.settings1 }).onImg fun x => { x with committed := true }

/-- A set of one ingest port for the next boundary, recorded. -/
def State.calPlaced (s : State) (p : List Byte) : State :=
  ((s.calStored p).onIng fun g => { g with calNext := g.calNext.put (u8 p 1) (calSetOf p) }).record
    { kind := .calib, vals := [u8 p 0, u8 p 1] }

theorem State.calCommitEff_of_set (hs : s.img.state = .verified) (ht : s.img.typ = 4) (hc : s.img.committed = false)
    (hset : u8 (s.img.bytes.drop 0x100) 0 = 1) : s.calCommitEff = (s.calPlaced (s.img.bytes.drop 0x100)).evCons 6 := by
  have h0 : u8 (s.img.bytes.drop 0x100) 0 ≠ 0 := by omega
  rw [State.calCommitEff, if_neg (by rw [hs, ht, hc]; decide)]
  dsimp only
  rw [if_neg h0]
  rfl

theorem State.calCommitEff_of_other (h : s.img.state ≠ .verified) : s.calCommitEff = s :=
  if_pos (by rw [beq_eq_false_iff_ne.2 h]; rfl)

theorem onlyIn_calPlaced (p : List Byte) : OnlyIn [.keep, .img, .ing, .cnt] s (s.calPlaced p) :=
  onlyIn_trans (onlyIn_trans (onlyIn_trans (onlyIn_onKeep _ (by decide)) (onlyIn_onImg _ (by decide))) (onlyIn_onIng _ (by decide)))
    (onlyIn_record _ (by decide))

end

/-- Settles O58, clause by clause: each command of the transfer as its own change of the transfer. -/
theorem imageTransfer : Obligations.ImageTransfer := by
  unfold Obligations.ImageTransfer
  refine ⟨?other, ?rebind, ?firmware, ?unknown, ?erased, ?block, ?badBlock, ?programmed, ?close, ?closeRebind, ?closePart, ?abort, ?bad,
    ?notVerifying⟩
  case other =>
    intro s m typ len hl h1 h2
    refine ⟨_, next_of_live hl _, ?_⟩
    rw [State.imgOpenEff, State.imgCmd_of_other h1 h2, commit_cnt]
    exact ⟨onlyIn_commit (onlyIn_regErr _ _ (by decide) (by decide)), s.regErr_cnt m 6⟩
  case rebind =>
    intro s len hl hi hr hlen
    refine ⟨_, next_of_live hl _, ?_⟩
    rw [State.imgOpenEff_rebind hi hr hlen]
    exact ⟨onlyIn_commit (onlyIn_imgDone _ _ (by decide)), rfl, rfl, rfl, rfl, rfl, rfl⟩
  case firmware =>
    intro s len hl hi hr hlen
    refine ⟨_, next_of_live hl _, ?_⟩
    rw [State.imgOpenEff_firmware hi hr hlen]
    refine ⟨onlyIn_commit (onlyIn_trans (onlyIn_imgDone _ _ (by decide)) (onlyIn_onKeep _ (by decide))), rfl, rfl, ?_⟩
    rw [commit_keep, State.onKeep_keep]
    cases s.start.fwCopy <;> exact ⟨rfl, rfl⟩
  case unknown =>
    intro s typ len hl hi ht
    refine ⟨_, next_of_live hl _, ?_⟩
    rw [State.imgOpenEff_unknown hi ht]
    exact ⟨onlyIn_commit (onlyIn_trans (onlyIn_onImg _ (by decide)) (onlyIn_imgDone _ _ (by decide))), rfl, rfl⟩
  case erased =>
    intro s hl h
    exact exec_eraseDone hl h
  case block =>
    intro s b hl hs hown hb hbytes ho hlt hn hcrc hnew
    subst hbytes
    refine (next_of_live hl _).trans ?_
    rw [State.imgBlockEff_of_new hs hown hb ho hlt hn hcrc hnew]
    rfl
  case badBlock =>
    intro s hl hs hown hb ho hlt hn hcrc
    refine (next_of_live hl _).trans ?_
    rw [State.imgBlockEff_of_bad hs hown hb ho hlt hn hcrc]
    rfl
  case programmed =>
    intro s hl
    exact next_of_live hl _
  case close =>
    intro s hl hs hown hb ht h
    refine (next_of_live hl _).trans ?_
    rw [State.imgCloseEff_of_whole hs hown hb h, if_neg ht]
    rfl
  case closeRebind =>
    intro s hl hs hown hb ht h
    refine (next_of_live hl _).trans ?_
    rw [State.imgCloseEff_of_whole hs hown hb h, if_pos ht]
    rfl
  case closePart =>
    intro s hl hs hown hb h
    refine (next_of_live hl _).trans ?_
    rw [State.imgCloseEff_of_part hs hown hb h]
    rfl
  case abort =>
    intro s hl hs hown
    refine (next_of_live hl _).trans ?_
    rw [State.imgAbortEff, State.imgCmd_of_owner hown]
    rfl
  case bad =>
    intro s hl hs ht hc
    refine (next_of_live hl _).trans ?_
    rw [State.verify_of_bad hs ht hc, State.imgVerdict_of_failed hc]
    rfl
  case notVerifying =>
    intro s hl h
    refine (next_of_live hl _).trans ?_
    rw [State.verify_of_other h]

/-- Settles O59, clause by clause: each verified image, the confirmation of a trial and the commit of a calibration set. -/
theorem imageEffects : Obligations.ImageEffects := by
  unfold Obligations.ImageEffects
  refine ⟨?revoke, ?firmware, ?notTrial, ?confirm, ?commitSet, ?notVerified⟩
  case revoke =>
    intro s hl hs ht w
    refine ⟨_, next_of_live hl _, ?_⟩
    rw [State.verify_revoke hs ht]
    by_cases hc : s.imageCode 6 s.img.bytes = 0
    · rw [if_neg (not_not_intro hc)]
      cases hok : s.revokeOk s.img.bytes with
      | true =>
        rw [if_neg (show ¬ (!true) = true by decide), if_pos ⟨hc, rfl⟩]
        exact ⟨onlyIn_commit (onlyIn_keyRevoked _), State.keyRevoked_spec w _⟩
      | false =>
        rw [if_pos (show (!false) = true by decide), if_neg (fun h => Bool.noConfusion h.2)]
        exact ⟨onlyIn_commit (onlyIn_imgVerdict _ _ (by decide)), rfl, rfl⟩
    · rw [if_pos hc, if_neg (fun h => hc h.1), State.imgVerdict_of_failed hc]
      exact ⟨onlyIn_commit (onlyIn_imgDone _ _ (by decide)), rfl, rfl⟩
  case firmware =>
    intro s hl hs ht hr
    refine ⟨_, next_of_live hl _, ?_⟩
    rw [State.verify_firmware hs ht hr]
    by_cases hc : s.imageCode 1 s.img.bytes = 0
    · rw [if_pos hc, if_pos hc, commit_keep, State.onKeep_keep]
      refine ⟨onlyIn_commit (onlyIn_trans (onlyIn_imgVerdict _ _ (by decide)) (onlyIn_onKeep _ (by decide))), rfl, ?_⟩
      cases s.img.dest <;> exact ⟨rfl, rfl⟩
    · rw [if_neg hc, if_neg hc, State.imgVerdict_of_failed hc]
      exact ⟨onlyIn_commit (onlyIn_imgDone _ _ (by decide)), rfl, rfl⟩
  case notTrial =>
    intro s hl hi h
    refine (next_of_live hl _).trans ?_
    rw [State.fwConfirmEff_of_refused hi h]
    rfl
  case confirm =>
    intro s hl hi ht hsel
    refine ⟨_, next_of_live hl _, ?_⟩
    rw [State.fwConfirmEff_of_trial hi ht hsel]
    exact ⟨onlyIn_commit (onlyIn_trans (onlyIn_trans (onlyIn_imgDone _ _ (by decide)) (onlyIn_onKeep _ (by decide))) (onlyIn_record _ (by decide))),
      rfl, rfl, rfl, rfl, rfl⟩
  case commitSet =>
    intro s hl hs ht hc hset
    have hplaced := onlyIn_calPlaced (s := s) (s.img.bytes.drop 0x100)
    have hevent := onlyIn_evCons (ps := [.cons, .cnt]) (s := s.calPlaced (s.img.bytes.drop 0x100)) 6 (by decide) (by decide)
    refine ⟨_, next_of_live hl _, ?_⟩
    rw [State.calCommitEff_of_set hs ht hc hset, commit_img, commit_cons, commit_ing, State.evCons_events, hevent.rest .img (by decide),
      hevent.rest .ing (by decide), hplaced.rest .cons (by decide)]
    refine ⟨onlyIn_commit (onlyIn_trans (onlyIn_mono hplaced (by decide)) (onlyIn_mono hevent (by decide))), rfl, rfl, ?_⟩
    exact (Tab.get_put s.ing.calNext _ _ _).trans (if_pos rfl)
  case notVerified =>
    intro s hl h
    refine (next_of_live hl _).trans ?_
    rw [State.calCommitEff_of_other h]

end Sys2Proof.Machine

/-! Tick sources (spec/02, R25 to R28, R38): what the overrun policies keep of the event bits and of abandoned work. -/

namespace Sys2Proof.Machine

section

variable {s t u : State} {i a : Nat} {ps : List Part}

/-! ### Event bits of the tick stay set -/

/-- An event bit of the tick that was set still is. -/
def TickEventKept (i : Nat) (s t : State) : Prop := s.tick.events.getLsbD i = true → t.tick.events.getLsbD i = true

theorem tickEventKept_refl : TickEventKept i s s := id

theorem tickEventKept_trans (h : TickEventKept i s t) (k : TickEventKept i t u) : TickEventKept i s u := k ∘ h

theorem tickEventKept_of_frame (h : OnlyIn ps s t) (hp : Part.tick ∉ ps) : TickEventKept i s t := by
  unfold TickEventKept
  rw [show t.tick = s.tick from h.rest .tick hp]
  exact id

theorem tickEventKept_foldl {α : Type} (f : State → α → State) (h : ∀ s x, TickEventKept i s (f s x)) :
    ∀ (l : List α) (s : State), TickEventKept i s (l.foldl f s)
  | [], _ => tickEventKept_refl
  | x :: r, s => tickEventKept_trans (h s x) (tickEventKept_foldl f h r (f s x))

theorem tickEventKept_evTick (j : Nat) : TickEventKept i s (s.evTick j) := fun h => by
  simpa [State.evTick] using bitSet_of_getLsbD j h

theorem tickEventKept_flagLate (a : Nat) : TickEventKept i s (s.flagLate a) :=
  tickEventKept_trans (tickEventKept_of_frame (onlyIn_flagAct (ps := [.acts]) a _ (by decide)) (by decide)) (tickEventKept_evTick 0)

theorem tickEventKept_lateDropped (a : Nat) : TickEventKept i s ((s.flagLate a).dropWork a .cut) :=
  tickEventKept_trans (tickEventKept_flagLate a) (tickEventKept_of_frame (onlyIn_dropWork a .cut) (by decide))

theorem tickEventKept_abandon (a : Nat) : TickEventKept i s (s.abandon a) :=
  tickEventKept_trans (tickEventKept_lateDropped a) (tickEventKept_of_frame (onlyIn_onAct (ps := [.acts]) _ _ (by decide)) (by decide))

theorem tickEventKept_carryDrop (a : Nat) : TickEventKept i s (s.carryDrop a) :=
  tickEventKept_trans (tickEventKept_trans (tickEventKept_lateDropped a) (tickEventKept_evTick 4))
    (tickEventKept_of_frame (onlyIn_onAct (ps := [.acts]) _ _ (by decide)) (by decide))

theorem tickEventKept_overrun : TickEventKept i s s.overrun := by
  have hcut : TickEventKept i s s.cutWork := tickEventKept_trans
    (tickEventKept_foldl State.abandon (fun _ a => tickEventKept_abandon a) (s.outstandingOf 1) s)
    (tickEventKept_foldl _ (fun _ a => tickEventKept_of_frame (onlyIn_queueStop a .cut) (by decide)) _ _)
  refine tickEventKept_trans hcut (tickEventKept_foldl _ (fun s a => ?_) _ _)
  split
  · exact tickEventKept_carryDrop a
  · exact tickEventKept_refl

/-! ### Work once abandoned stays abandoned while more is given up -/

/-- In a table of activities in canonical form, work that was abandoned still is. -/
def AbandonedKept (s t : State) : Prop :=
  s.acts.wf = true → t.acts.wf = true ∧ ∀ a, (s.act a).abandoned = true → (t.act a).abandoned = true

theorem abandonedKept_refl : AbandonedKept s s := fun w => ⟨w, fun _ => id⟩

theorem abandonedKept_trans (h : AbandonedKept s t) (k : AbandonedKept t u) : AbandonedKept s u := fun w => by
  obtain ⟨wt, ht⟩ := h w
  obtain ⟨wu, hu⟩ := k wt
  exact ⟨wu, fun a => hu a ∘ ht a⟩

theorem abandonedKept_of_frame (h : OnlyIn ps s t) (hp : Part.acts ∉ ps) : AbandonedKept s t := fun w => by
  have hacts : t.acts = s.acts := h.rest .acts hp
  exact ⟨hacts ▸ w, fun a => by rw [State.act_congr hacts]; exact id⟩

theorem abandonedKept_onAct {f : Act → Act} (hf : ∀ x, x.abandoned = true → (f x).abandoned = true) :
    AbandonedKept s (s.onAct a f) := fun w => by
  refine ⟨State.onAct_wf w a f, fun b hb => ?_⟩
  have hget : (s.onAct a f).act b = if b = a then f (s.act a) else s.act b := Tab.get_upd s.acts w a b f
  rw [hget]
  split
  case isTrue hab => exact hf _ (hab ▸ hb)
  case isFalse => exact hb

theorem abandonedKept_flagLate (a : Nat) : AbandonedKept s (s.flagLate a) := by
  have hflag : AbandonedKept s (s.flagAct a fun f => { f with late := true }) := abandonedKept_onAct fun x hx => by
    split <;> exact hx
  exact abandonedKept_trans hflag (abandonedKept_of_frame (onlyIn_evTick (ps := [.tick, .cnt]) 0 (by decide) (by decide)) (by decide))

theorem abandonedKept_queueEnd (a code : Nat) : AbandonedKept s (s.queueEnd a code) := by
  have hqueue : ∀ {f : Queue → Queue} {j : Nat}, AbandonedKept s ((s.onQueue a f).evQueue a j) := abandonedKept_of_frame
    (onlyIn_trans (onlyIn_onQueue (ps := [.dma, .cnt]) a _ (by decide)) (onlyIn_evQueue _ _ (by decide) (by decide))) (by decide)
  refine abandonedKept_trans hqueue (abandonedKept_onAct fun x hx => ?_)
  split
  · split
    · exact hx
    · split
      · exact hx
      · split <;> exact hx
  · exact hx

theorem abandonedKept_queueStop (a : Nat) (w : QStop) : AbandonedKept s (s.queueStop a w) := by
  unfold State.queueStop
  dsimp only
  split
  · exact abandonedKept_refl
  · split
    · exact abandonedKept_queueEnd _ _
    · split
      · exact abandonedKept_of_frame (onlyIn_onQueue (ps := [.dma]) a _ (by decide)) (by decide)
      · exact abandonedKept_refl

theorem abandonedKept_editDrop (a : Nat) : AbandonedKept s (s.editDrop a) := by
  unfold State.editDrop
  split
  · split
    · exact abandonedKept_trans (abandonedKept_of_frame (onlyIn_onLeaf (ps := [.leaf]) _ (by decide)) (by decide))
        (abandonedKept_onAct fun _ => id)
    · exact abandonedKept_refl
  · exact abandonedKept_refl

theorem abandonedKept_dropWork (a : Nat) (w : QStop) : AbandonedKept s (s.dropWork a w) := by
  unfold State.dropWork
  extract_lets editing s1
  have h1 : AbandonedKept s s1 := by
    cases hedit : editing with
    | true =>
      rw [show s1 = (s.queueEnd a w.code).editDrop a from if_pos hedit]
      exact abandonedKept_trans (abandonedKept_queueEnd a w.code) (abandonedKept_editDrop a)
    | false =>
      rw [show s1 = s.queueStop a w from if_neg (by rw [hedit]; decide)]
      exact abandonedKept_queueStop a w
  exact abandonedKept_trans (abandonedKept_trans h1 (abandonedKept_of_frame (onlyIn_enginesLeave a) (by decide)))
    (abandonedKept_onAct fun _ => id)

theorem abandonedKept_abandon (a : Nat) : AbandonedKept s (s.abandon a) :=
  abandonedKept_trans (abandonedKept_trans (abandonedKept_flagLate a) (abandonedKept_dropWork a .cut))
    (abandonedKept_onAct fun _ _ => rfl)

/-- One step of the hold's expiry. -/
def State.stretchAbandon (s : State) (a : Nat) : State := (s.abandon a).evTick 1

theorem abandonedKept_stretchAbandon (a : Nat) : AbandonedKept s (s.stretchAbandon a) :=
  abandonedKept_trans (abandonedKept_abandon a)
    (abandonedKept_of_frame (onlyIn_evTick (ps := [.tick, .cnt]) 1 (by decide) (by decide)) (by decide))

/-- Whatever is abandoned one after the other is abandoned at the end. -/
theorem stretchAbandon_foldl_abandoned : ∀ (l : List Nat) (s : State), s.acts.wf = true →
    AbandonedKept s (l.foldl State.stretchAbandon s) ∧ ∀ a ∈ l, ((l.foldl State.stretchAbandon s).act a).abandoned = true
  | [], _, _ => ⟨abandonedKept_refl, fun _ h => absurd h List.not_mem_nil⟩
  | b :: r, s, w => by
    obtain ⟨hkept, hrest⟩ := stretchAbandon_foldl_abandoned r _ (abandonedKept_stretchAbandon (s := s) b w).1
    refine ⟨abandonedKept_trans (abandonedKept_stretchAbandon b) hkept, fun a ha => ?_⟩
    rcases List.mem_cons.1 ha with rfl | ha
    · have hnow : ((s.stretchAbandon a).act a).abandoned = true := by
        rw [State.stretchAbandon, State.act_congr (show ((s.abandon a).evTick 1).acts = (s.abandon a).acts by simp [State.evTick])]
        exact State.abandon_act_abandoned a
      exact (hkept (abandonedKept_stretchAbandon a w).1).2 a hnow
    · exact hrest a ha

theorem State.stretchDrop_all_abandoned (w : s.acts.wf = true) (h : a ∈ s.outstandingOf 0) : (s.stretchDrop.act a).abandoned = true :=
  (stretchAbandon_foldl_abandoned (s.outstandingOf 0) s w).2 a h

/-! ### The nominal boundary of a module alone -/

/-- The tick as the nominal boundary is reached, before the overrun policies. -/
def State.nominalSet (s : State) (at' : Nat) (filler : Bool) : State :=
  s.onTick fun t => { t with nominal := some at', pendFiller := filler }

theorem State.nominalReached_of_alone (h : s.tick.role = .standalone) (at' : Nat) (filler : Bool) : s.nominalReached at' filler =
    (s.nominalSet at' filler).overrun.onTick fun t => { t with stretching := (s.nominalSet at' filler).overrun.stretchOut } := by
  unfold State.nominalReached
  dsimp only
  rw [if_neg (by rw [h]; decide)]
  rfl

theorem onlyIn_nominalReached (h : s.tick.role = .standalone) (at' : Nat) (filler : Bool) :
    OnlyIn workParts s (s.nominalReached at' filler) := by
  rw [State.nominalReached_of_alone h]
  exact onlyIn_trans (onlyIn_trans (onlyIn_onTick _ (by decide)) onlyIn_overrun) (onlyIn_onTick _ (by decide))

/-- Reaching it sets the nominal boundary; of the tick's own registers only the hold and event bits change besides. -/
theorem State.nominalReached_tick (h : s.tick.role = .standalone) (at' : Nat) (filler : Bool) :
    ∃ e held, (s.nominalReached at' filler).tick =
      { s.tick with nominal := some at', pendFiller := filler, events := e, stretching := held } := by
  obtain ⟨e, he⟩ := eventsOnly_overrun (s := s.nominalSet at' filler)
  rw [State.nominalReached_of_alone h]
  generalize (s.nominalSet at' filler).overrun = u at he ⊢
  refine ⟨e, u.stretchOut, ?_⟩
  rw [State.onTick_tick, he]
  rfl

theorem tickEventKept_nominalReached (h : s.tick.role = .standalone) (at' : Nat) (filler : Bool) :
    TickEventKept i s (s.nominalReached at' filler) := by
  rw [State.nominalReached_of_alone h]
  have hkept := tickEventKept_overrun (i := i) (s := s.nominalSet at' filler)
  generalize (s.nominalSet at' filler).overrun = u at hkept ⊢
  exact hkept

end

end Sys2Proof.Machine

/-! The boundary of a tick (spec/02, R10): what each of its parts can change. -/

namespace Sys2Proof.Machine

section

variable {s t u : State}

/-- The parts that a boundary can change besides the tick's own registers: neither the time base nor the bus nor a transfer. -/
abbrev boundaryWork : List Part := [.bind, .mbx, .spad, .dma, .acts, .engs, .leaf, .codec, .ing, .ring, .host, .ksi, .gddr, .cnt, .cons,
  .chk, .pwr, .pair, .start, .keep, .sent, .pending, .freeCount]

/-- Those and the tick. -/
abbrev boundaryAll : List Part := .tick :: boundaryWork

/-! ### Before the tick advances -/

theorem onlyIn_meSave (a addr : Nat) (r : OpRun) : OnlyIn boundaryWork s (s.meSave a addr r) := by
  by_cases h : s.firstRefusal a true [(addr, 4 * r.acc.length + 64)] = .ok
  · exact onlyIn_mono (onlyIn_meSave_of_ok h) (by decide)
  · unfold State.meSave
    split
    · exact absurd (by assumption) h
    · exact onlyIn_loanFault _ _ (by decide) (by decide) (by decide)

theorem onlyIn_attnSave (a : Nat) (x : AttnShape) : OnlyIn boundaryWork s (s.attnSave a x) := by
  unfold State.attnSave
  dsimp only
  split
  · exact onlyIn_trans (onlyIn_trans (onlyIn_trans (onlyIn_spPut _ _ _ (by decide)) (onlyIn_tookFree _ (by decide)))
      (onlyIn_onRun _ _ (by decide))) (onlyIn_aeSet _ _ (by decide))
  · exact onlyIn_then (onlyIn_loanFault _ _ (by decide) (by decide) (by decide)) (onlyIn_aeSettle a) (by decide)

theorem onlyIn_resRelease (a cls : Nat) : OnlyIn boundaryWork s (s.resRelease a cls) := by
  unfold State.resRelease
  split
  case h_2 => exact onlyIn_refl _ _
  case h_1 =>
    refine onlyIn_ite (fun _ => onlyIn_refl _ _) fun _ => onlyIn_ite (fun _ => onlyIn_meSave ..) fun _ =>
      onlyIn_ite (fun _ => onlyIn_meSave ..) fun _ => onlyIn_ite (fun _ => ?_) fun _ =>
      onlyIn_ite (fun _ => onlyIn_aeSet _ _ (by decide)) fun _ => onlyIn_refl _ _
    exact onlyIn_ite (fun _ => onlyIn_attnSave ..) fun _ => onlyIn_refl _ _

theorem onlyIn_resEnd (a ch cls inst : Nat) : OnlyIn boundaryWork s (s.resEnd a ch cls inst) := by
  unfold State.resEnd
  exact onlyIn_ite (fun _ => onlyIn_refl _ _) fun _ => onlyIn_trans (onlyIn_resRelease a cls) (onlyIn_onAct _ _ (by decide))

theorem onlyIn_releaseAll (a : Nat) : OnlyIn boundaryWork s (s.releaseAll a) := onlyIn_foldl _ (fun _ _ => onlyIn_resEnd ..) _ _

theorem onlyIn_actBoundary (isActive skips : Nat → Bool) (filler : Bool) (n a : Nat) :
    OnlyIn workParts s (s.actBoundary isActive skips filler n a) := by
  unfold State.actBoundary
  extract_lets on goes drops s0 s1
  have h0 : OnlyIn workParts s s0 := onlyIn_ite
    (fun _ => onlyIn_trans (onlyIn_mono (onlyIn_flagLate a) (by decide)) (onlyIn_evTick _ (by decide) (by decide)))
    (fun _ => onlyIn_refl _ _)
  have h1 : OnlyIn workParts s s1 := onlyIn_trans h0
    (onlyIn_ite (fun _ => onlyIn_mono (onlyIn_dropWork a .cut) (by decide)) (fun _ => onlyIn_refl _ _))
  exact onlyIn_trans h1 (onlyIn_onAct _ _ (by decide))

theorem onlyIn_codecClose (ch k : Nat) : OnlyIn boundaryWork s (s.codecClose ch k) := onlyIn_onCodec _ (by decide)

theorem onlyIn_codecSwitch (old : Binding) : OnlyIn boundaryWork s (s.codecSwitch old) := by
  unfold State.codecSwitch
  refine onlyIn_foldl _ (fun s k => ?_) _ _
  dsimp only
  split
  · exact onlyIn_ite (fun _ => onlyIn_refl _ _) fun _ =>
      onlyIn_ite (fun _ => onlyIn_onSlot _ _ _ (by decide)) fun _ => onlyIn_codecClose ..
  · exact onlyIn_codecClose ..

theorem onlyIn_cntSwitch (old : Binding) : OnlyIn boundaryWork s (s.cntSwitch old) := by
  unfold State.cntSwitch
  exact onlyIn_onCnt _ (by decide)

theorem onlyIn_segmentCut : OnlyIn boundaryWork s s.segmentCut := by
  unfold State.segmentCut
  exact onlyIn_onChk _ (by decide)

theorem onlyIn_rebindApply (n : Nat) : OnlyIn boundaryWork s (s.rebindApply n) := by
  unfold State.rebindApply
  split
  case h_2 => exact onlyIn_refl _ _
  case h_1 m run _ _ =>
    refine onlyIn_ite (fun _ => onlyIn_refl _ _) fun _ => ?_
    extract_lets old s1 s2 s3 s4
    have h1 : OnlyIn boundaryWork s s1 := onlyIn_onBind _ (by decide)
    have h2 : OnlyIn boundaryWork s1 s2 := onlyIn_then (onlyIn_onHost _ (by decide)) (onlyIn_measure ..) (by decide)
    have h3 : OnlyIn boundaryWork s2 s3 := onlyIn_record _ (by decide)
    have h4 : OnlyIn boundaryWork s3 s4 := onlyIn_trans (onlyIn_trans (onlyIn_cntSwitch old) (onlyIn_codecSwitch old)) onlyIn_segmentCut
    have hswitched : OnlyIn boundaryWork s s4 := onlyIn_trans (onlyIn_trans (onlyIn_trans h1 h2) h3) h4
    clear_value s1 s2 s3 s4
    exact onlyIn_ite (fun _ => hswitched) fun _ => onlyIn_trans hswitched (onlyIn_onChk _ (by decide))

theorem onlyIn_accLost (ch : Nat) : OnlyIn boundaryWork s (s.accLost ch) := by
  unfold State.accLost
  refine onlyIn_foldl _ (fun s q => ?_) _ _
  split
  · exact onlyIn_ite (fun _ => onlyIn_trans (onlyIn_onRun _ _ (by decide)) (onlyIn_tookFree _ (by decide))) fun _ => onlyIn_refl _ _
  · exact onlyIn_refl _ _

theorem onlyIn_zeroBank {ps : List Part} (ch bank : Nat) (h : Part.spad ∈ ps) : OnlyIn ps s (s.zeroBank ch bank) := onlyIn_onSpad _ h

theorem onlyIn_powerDown (ch bits : Nat) : OnlyIn boundaryWork s (s.powerDown ch bits) := by
  unfold State.powerDown
  extract_lets off s1 s2 s3
  have h1 : OnlyIn boundaryWork s s1 := onlyIn_ite
    (fun _ => onlyIn_trans (onlyIn_foldl _ (fun _ _ => onlyIn_zeroBank _ _ (by decide)) _ _) (onlyIn_onSpad _ (by decide)))
    (fun _ => onlyIn_refl _ _)
  have h2 : OnlyIn boundaryWork s1 s2 := onlyIn_ite (fun _ => onlyIn_accLost ch) (fun _ => onlyIn_refl _ _)
  have h3 : OnlyIn boundaryWork s2 s3 := onlyIn_ite
    (fun _ => onlyIn_foldl _ (fun _ _ => onlyIn_roleChange _ (by decide) (by decide) (by decide)) _ _) (fun _ => onlyIn_refl _ _)
  exact onlyIn_trans (onlyIn_trans (onlyIn_trans h1 h2) h3) (onlyIn_onPwr _ (by decide))

theorem onlyIn_powerBoundary : OnlyIn boundaryWork s s.powerBoundary := by
  unfold State.powerBoundary
  extract_lets p shed fast crit s1 s2
  have h1 : OnlyIn boundaryWork s s1 := onlyIn_foldl _ (fun _ _ => onlyIn_evPwr _ (by decide) (by decide)) _ _
  have h2 : OnlyIn boundaryWork s1 s2 := onlyIn_trans (onlyIn_onPwr _ (by decide)) (onlyIn_foldl _
    (fun _ _ => onlyIn_trans (onlyIn_mono (onlyIn_powerUp ..) (by decide)) (onlyIn_powerDown ..)) _ _)
  exact onlyIn_trans (onlyIn_trans h1 h2) (onlyIn_onPwr _ (by decide))

/-! ### After it has advanced -/

theorem onlyIn_slotsAge : OnlyIn boundaryWork s s.slotsAge := by
  unfold State.slotsAge
  refine onlyIn_foldl _ (fun s e => onlyIn_ite (fun _ => onlyIn_ite (fun _ => ?_) fun _ => onlyIn_onKsi _ (by decide))
    fun _ => onlyIn_refl _ _) _ _
  split
  · exact onlyIn_setSlot _ _ _ (by decide) (by decide)
  · exact onlyIn_refl _ _

theorem onlyIn_epochRetire (k : Nat) : OnlyIn boundaryWork s (s.epochRetire k) := by
  unfold State.epochRetire
  refine onlyIn_ite (fun _ => ?_) fun _ => onlyIn_refl _ _
  have hslots : OnlyIn boundaryWork s ((s.epochSlots k (!s.writeEpoch k)).foldl (fun (s : State) n => s.setSlot k n { state := .retired }) s) :=
    onlyIn_foldl _ (fun _ _ => onlyIn_setSlot _ _ _ (by decide) (by decide)) _ _
  exact onlyIn_then (onlyIn_trans (onlyIn_trans hslots (onlyIn_onTen _ _ (by decide))) (onlyIn_evKsi _ _ (by decide) (by decide)))
    (onlyIn_measureFree ..) (by decide)

theorem onlyIn_epochLive (k : Nat) : OnlyIn boundaryWork s (s.epochLive k) := by
  unfold State.epochLive
  refine onlyIn_ite (fun _ => onlyIn_refl _ _) fun _ => ?_
  have hslots : OnlyIn boundaryWork s ((s.epochSlots k (!s.writeEpoch k)).foldl (fun (s : State) n => s.drawSlot k n) s) :=
    onlyIn_foldl _ (fun _ _ => onlyIn_mono (onlyIn_drawSlot ..) (by decide)) _ _
  exact onlyIn_then (onlyIn_trans hslots (onlyIn_onTen _ _ (by decide))) (onlyIn_measureFree ..) (by decide)

theorem onlyIn_tenantBoundary (k : Nat) : OnlyIn boundaryWork s (s.tenantBoundary k) := by
  unfold State.tenantBoundary
  extract_lets s1 first s2 s3 s4
  have h1 : OnlyIn boundaryWork s s1 := onlyIn_ite (fun _ => onlyIn_onTen _ _ (by decide)) (fun _ => onlyIn_refl _ _)
  have h2 : OnlyIn boundaryWork s1 s2 := onlyIn_ite (fun _ => onlyIn_foldl _ (fun _ _ => onlyIn_codecClose ..) _ _)
    (fun _ => onlyIn_refl _ _)
  have h3 : OnlyIn boundaryWork s2 s3 := onlyIn_onTen _ _ (by decide)
  have h4 : OnlyIn boundaryWork s3 s4 := onlyIn_trans (onlyIn_epochRetire k) (onlyIn_epochLive k)
  exact onlyIn_trans (onlyIn_trans (onlyIn_trans (onlyIn_trans h1 h2) h3) h4) (onlyIn_onTen _ _ (by decide))

theorem onlyIn_consentBoundary : OnlyIn boundaryWork s s.consentBoundary := by
  unfold State.consentBoundary
  refine onlyIn_foldl _ (fun s k => ?_) _ _
  have hten : ∀ {f : Tenant → Tenant}, OnlyIn boundaryWork s (s.onTen k f) := onlyIn_onTen _ _ (by decide)
  exact onlyIn_ite (fun _ => hten) fun _ =>
    onlyIn_trans (onlyIn_then hten (onlyIn_measureFree ..) (by decide)) (onlyIn_evKsi _ _ (by decide) (by decide))

theorem onlyIn_ksiBoundary : OnlyIn boundaryWork s s.ksiBoundary := by
  unfold State.ksiBoundary
  exact onlyIn_trans (onlyIn_trans (onlyIn_trans onlyIn_slotsAge (onlyIn_foldl _ (fun _ _ => onlyIn_tenantBoundary _) _ _))
    onlyIn_consentBoundary) (onlyIn_onPwr _ (by decide))

theorem onlyIn_loanBoundary (first : Bool) (n : Nat) : OnlyIn boundaryWork s (s.loanBoundary first n) := by
  refine onlyIn_foldl _ (fun s r => ?_) _ _
  unfold State.handOver
  exact onlyIn_trans (onlyIn_ite (fun _ => onlyIn_zeroBank _ _ (by decide)) fun _ => onlyIn_refl _ _) (onlyIn_onSpad _ (by decide))

theorem onlyIn_modesBoundary (first : Bool) : OnlyIn boundaryWork s (s.modesBoundary first) := by
  unfold State.modesBoundary
  dsimp only
  split
  · exact onlyIn_onSpad _ (by decide)
  · exact onlyIn_refl _ _

theorem onlyIn_leafPublish : OnlyIn boundaryWork s s.leafPublish := by
  unfold State.leafPublish
  refine onlyIn_ite (fun _ => onlyIn_onLeaf _ (by decide)) fun _ => ?_
  refine onlyIn_trans (onlyIn_foldl _ (fun s e => ?_) _ _) (onlyIn_onLeaf _ (by decide))
  extract_lets old s1 s2 s3
  have h1 : OnlyIn boundaryWork s s1 := by
    cases hx : s.xferOf e.1 with
    | none =>
      rw [show s1 = s by simp only [s1, hx]]
      exact onlyIn_refl _ _
    | some x =>
      rw [show s1 = if x.isFetch then s else s.tierFree x.tier old.tenant x.site x.tierSlot by simp only [s1, hx]]
      exact onlyIn_ite (fun _ => onlyIn_refl _ _) fun _ => onlyIn_mono (onlyIn_tierFree ..) (by decide)
  have h2 : OnlyIn boundaryWork s1 s2 := onlyIn_xferDrop _ (by decide)
  have h3 : OnlyIn boundaryWork s2 s3 := onlyIn_ite (fun _ => onlyIn_refl _ _) fun _ =>
    onlyIn_ite (fun _ => onlyIn_retain _ _ _ (by decide)) fun _ => onlyIn_mono (onlyIn_tierFree ..) (by decide)
  exact onlyIn_trans (onlyIn_trans (onlyIn_trans h1 h2) h3) (onlyIn_onLeafE _ _ (by decide))

theorem onlyIn_tierWrite (tier : Tier) (k ch site slot : Nat) : OnlyIn boundaryWork s (s.tierWrite tier k ch site slot) := by
  unfold State.tierWrite
  extract_lets i d s1
  have h1 : OnlyIn boundaryWork s s1 := onlyIn_tookFree _ (by decide)
  split
  · exact onlyIn_trans h1 (onlyIn_out _ (by decide))
  · split
    · exact onlyIn_trans (onlyIn_then h1 (onlyIn_laneSend ..) (by decide))
        (onlyIn_foldl _ (fun _ _ => onlyIn_mono (onlyIn_laneSend ..) (by decide)) _ _)
    · exact h1
  · exact onlyIn_refl _ _

theorem onlyIn_spillStart (l : Nat) (tier : Tier) (site slot : Nat) : OnlyIn boundaryWork s (s.spillStart l tier site slot) := by
  unfold State.spillStart
  exact onlyIn_trans (onlyIn_trans (onlyIn_onLeafE _ _ (by decide)) (onlyIn_tierWrite ..)) (onlyIn_onLeaf _ (by decide))

theorem onlyIn_spillOne (ch l : Nat) : OnlyIn boundaryWork s (s.spillOne ch l).1 := by
  unfold State.spillOne
  dsimp only
  split
  · exact onlyIn_evLeaf _ _ (by decide) (by decide)
  · split
    · exact onlyIn_spillStart ..
    · exact onlyIn_evLeaf _ _ (by decide) (by decide)

/-- A fold whose accumulator carries a count besides the state keeps a frame that each of its steps keeps. -/
theorem onlyIn_foldl_fst {α β : Type} {ps : List Part} (f : State × β → α → State × β) (h : ∀ x a, OnlyIn ps x.1 (f x a).1) :
    ∀ (l : List α) (x : State × β), OnlyIn ps x.1 (l.foldl f x).1
  | [], _ => onlyIn_refl ps _
  | a :: r, x => onlyIn_trans (h x a) (onlyIn_foldl_fst f h r (f x a))

theorem onlyIn_spillChannel (ch : Nat) : OnlyIn boundaryWork s (s.spillChannel ch) := by
  unfold State.spillChannel
  split
  · exact onlyIn_refl _ _
  · extract_lets total used on s1 going target cands s2
    have h1 : OnlyIn boundaryWork s s1 := onlyIn_onLeaf _ (by decide)
    refine onlyIn_ite (fun _ => h1) fun _ => onlyIn_trans h1 (onlyIn_foldl_fst _ (fun x l => ?_) cands (s1, used - going))
    split
    · exact onlyIn_refl _ _
    · exact onlyIn_spillOne ch l

theorem onlyIn_prefetch (x : UseDecl) : OnlyIn boundaryWork s (s.prefetch x) := by
  unfold State.prefetch
  refine onlyIn_ite (fun _ => onlyIn_refl _ _) fun _ => ?_
  split
  · exact onlyIn_foldl _ (fun _ _ => onlyIn_mono (onlyIn_fetchStart ..) (by decide)) _ _
  · exact onlyIn_refl _ _

theorem onlyIn_leafBoundary : OnlyIn boundaryWork s s.leafBoundary := by
  unfold State.leafBoundary
  extract_lets s1 s2 s3 s4 s5
  have h1 : OnlyIn boundaryWork s s1 := onlyIn_trans onlyIn_leafPublish (onlyIn_onLeaf _ (by decide))
  have h2 : OnlyIn boundaryWork s1 s2 := onlyIn_onLeaf _ (by decide)
  have h3 : OnlyIn boundaryWork s2 s3 := onlyIn_foldl _ (fun _ _ => onlyIn_spillChannel _) _ _
  have h4 : OnlyIn boundaryWork s3 s4 := onlyIn_foldl _ (fun _ _ => onlyIn_prefetch _) _ _
  have h5 : OnlyIn boundaryWork s4 s5 := by
    refine onlyIn_foldl _ (fun s a => ?_) _ _
    split
    · exact onlyIn_ite (fun _ => onlyIn_foldl _ (fun _ _ => onlyIn_mono (onlyIn_fetchStart ..) (by decide)) _ _) fun _ => onlyIn_refl _ _
    · exact onlyIn_refl _ _
  exact onlyIn_trans (onlyIn_trans (onlyIn_trans (onlyIn_trans (onlyIn_trans h1 h2) h3) h4) h5) (onlyIn_onLeaf _ (by decide))

theorem onlyIn_codecSuspend : OnlyIn boundaryWork s s.codecSuspend := by
  unfold State.codecSuspend
  refine onlyIn_foldl _ (fun s r => onlyIn_ite (fun _ => onlyIn_refl _ _) fun _ => ?_) _ _
  exact onlyIn_ite (fun _ => onlyIn_onSlot _ _ _ (by decide)) fun _ =>
    onlyIn_ite (fun _ => onlyIn_onSlot _ _ _ (by decide)) fun _ => onlyIn_refl _ _

theorem onlyIn_codecKill : OnlyIn boundaryWork s s.codecKill := by
  unfold State.codecKill
  refine onlyIn_foldl _ (fun s r => onlyIn_ite (fun _ => ?_) fun _ => onlyIn_refl _ _) _ _
  exact onlyIn_trans (onlyIn_onSlot _ _ _ (by decide)) (onlyIn_evSlot _ _ _ (by decide) (by decide))

theorem onlyIn_copyBoundary : OnlyIn boundaryWork s s.copyBoundary := onlyIn_onChk _ (by decide)

theorem onlyIn_fitness : OnlyIn boundaryWork s s.fitness := by
  unfold State.fitness
  extract_lets named down lost gone s1
  have h1 : OnlyIn boundaryWork s s1 := onlyIn_onPair _ (by decide)
  clear_value s1
  exact onlyIn_then (onlyIn_then (onlyIn_then h1 (onlyIn_setCause 1 lost) (by decide)) (onlyIn_setCause 2 gone) (by decide))
    (onlyIn_setCause 3 _) (by decide)

theorem onlyIn_pairBoundary : OnlyIn boundaryWork s s.pairBoundary := by
  unfold State.pairBoundary
  extract_lets s1
  have h1 : OnlyIn boundaryWork s s1 := onlyIn_onPair _ (by decide)
  clear_value s1
  refine onlyIn_ite (fun _ => h1) fun _ => ?_
  split
  · exact onlyIn_trans h1 (onlyIn_onPair _ (by decide))
  · exact onlyIn_ite (fun _ => onlyIn_trans (onlyIn_trans (onlyIn_then h1 onlyIn_pairRelease (by decide)) (onlyIn_onPair _ (by decide)))
      (onlyIn_evPair _ (by decide) (by decide))) fun _ => h1

theorem onlyIn_admitCheck {ps : List Part} (h : Part.pair ∈ ps) : OnlyIn ps s s.admitCheck :=
  onlyIn_ite (fun _ => onlyIn_onPair _ h) fun _ => onlyIn_ite (fun _ => onlyIn_onPair _ h) fun _ => onlyIn_refl _ _

theorem onlyIn_admitBoundary : OnlyIn boundaryWork s s.admitBoundary := by
  unfold State.admitBoundary
  split
  · exact onlyIn_refl _ _
  · extract_lets s0 s1
    have h0 : OnlyIn boundaryWork s s0 := onlyIn_ite
      (fun _ => onlyIn_trans (onlyIn_onPair _ (by decide)) (onlyIn_admitCheck (by decide))) (fun _ => onlyIn_refl _ _)
    have h1 : OnlyIn boundaryWork s s1 := onlyIn_trans h0 (onlyIn_onPair _ (by decide))
    clear_value s0 s1
    exact onlyIn_ite (fun _ => onlyIn_trans (onlyIn_trans h1 (onlyIn_onPair _ (by decide))) (onlyIn_evSafe _ _ (by decide) (by decide)))
      fun _ => h1

theorem onlyIn_routeBoundary : OnlyIn boundaryWork s s.routeBoundary := onlyIn_onRing _ (by decide)

/-! ### The boundary as a whole -/

theorem onlyIn_consBoundary : OnlyIn boundaryWork s s.consBoundary := onlyIn_onCons _ (by decide)

theorem onlyIn_checkBoundary : OnlyIn boundaryWork s s.checkBoundary := onlyIn_onChk _ (by decide)

/-- What a boundary does to power, the rebind and the conservator before the tick's own registers change. -/
def State.switched (s : State) (n : Nat) : State := (s.rebindApply n).powerBoundary.consBoundary

theorem onlyIn_switched (n : Nat) : OnlyIn boundaryWork s (s.switched n) :=
  onlyIn_trans (onlyIn_trans (onlyIn_rebindApply n) onlyIn_powerBoundary) onlyIn_consBoundary

/-- A boundary's parts leave the tick's own registers as its advance sets them, and the time base, the bus and a transfer alone. -/
theorem onlyIn_boundaryParts (n nominal : Nat) (filler : Bool) (prev : Option PrevTick) :
    OnlyIn boundaryWork ((s.switched n).tickAdvance n nominal filler prev) (s.boundaryParts n nominal filler prev) :=
  onlyIn_trans onlyIn_checkBoundary onlyIn_ksiBoundary

/-- Everything of a boundary that comes after the tick has advanced, but for the latches and TICK_OUT. -/
def State.boundaryRest (s : State) (isFirst : Bool) (n : Nat) : State :=
  let s5 := if s.chk.maintenance then s else s.loanBoundary isFirst n
  ((s5.modesBoundary isFirst).leafBoundary.codecSuspend.codecKill.copyBoundary.fitness.pairBoundary).admitBoundary.routeBoundary

theorem onlyIn_boundaryRest (isFirst : Bool) (n : Nat) : OnlyIn boundaryWork s (s.boundaryRest isFirst n) := by
  unfold State.boundaryRest
  extract_lets s5
  have h5 : OnlyIn boundaryWork s s5 := onlyIn_ite (fun _ => onlyIn_refl _ _) (fun _ => onlyIn_loanBoundary isFirst n)
  clear_value s5
  have hleaf := onlyIn_trans (onlyIn_trans h5 (onlyIn_modesBoundary isFirst)) onlyIn_leafBoundary
  have hcopy := onlyIn_trans (onlyIn_trans (onlyIn_trans hleaf onlyIn_codecSuspend) onlyIn_codecKill) onlyIn_copyBoundary
  exact onlyIn_trans (onlyIn_trans (onlyIn_trans (onlyIn_trans hcopy onlyIn_fitness) onlyIn_pairBoundary) onlyIn_admitBoundary)
    onlyIn_routeBoundary

end

end Sys2Proof.Machine

/-! Ticks of a module alone (spec/02, R10, R25 to R29, R38, R51, R53; spec/23, R476). -/

namespace Sys2Proof.Machine

section

variable {s t u : State}

/-! ### A tick begins -/

/-- The tick's own registers right after tick `n` has begun at `start` (R29, R53). -/
def Tick.Begun (k : Tick) (n start stretch : Nat) (filler : Bool) : Prop :=
  k.num = n ∧ k.start = start ∧ k.lastStretch = stretch ∧ k.filler = filler ∧ k.running = true ∧ k.nominal = none

theorem State.tickAdvance_begun (s : State) (n nominal : Nat) (filler : Bool) (prev : Option PrevTick) :
    (s.tickAdvance n nominal filler prev).tick.Begun n s.tb.time (s.tb.time - nominal) filler := ⟨rfl, rfl, rfl, rfl, rfl, rfl⟩

theorem State.latches_begun {n start stretch : Nat} {filler : Bool} (h : s.tick.Begun n start stretch filler) :
    s.latches.tick.Begun n start stretch filler := h

theorem State.tickOutArm_begun {n start stretch : Nat} {filler : Bool} (h : s.tick.Begun n start stretch filler) :
    s.tickOutArm.tick.Begun n start stretch filler := by
  unfold State.tickOutArm
  extract_lets p due s1
  have h1 : s1.tick = s.tick := (onlyIn_ite (ps := [.sent]) (fun _ => onlyIn_out _ (by decide)) (fun _ => onlyIn_refl _ _)).rest .tick (by decide)
  rw [← h1] at h
  exact h

/-- The parts that latching and TICK_OUT can change. -/
abbrev latchParts : List Part := [.dma, .engs, .codec, .ing, .ring, .tick, .sent]

theorem onlyIn_latches : OnlyIn latchParts s s.latches := by
  unfold State.latches
  dsimp only
  exact onlyIn_trans (onlyIn_trans (onlyIn_trans (onlyIn_trans (onlyIn_trans (onlyIn_onDma _ (by decide)) (onlyIn_onEngs _ (by decide)))
    (onlyIn_onCodec _ (by decide))) (onlyIn_onIng _ (by decide))) (onlyIn_onRing _ (by decide))) (onlyIn_onTick _ (by decide))

theorem onlyIn_tickOutArm : OnlyIn latchParts s s.tickOutArm := by
  unfold State.tickOutArm
  dsimp only
  exact onlyIn_trans (onlyIn_ite (fun _ => onlyIn_out _ (by decide)) fun _ => onlyIn_refl _ _) (onlyIn_onTick _ (by decide))

/-- The start's stage once the first tick of a cold bind has begun. -/
def State.stageSet (s : State) (isFirst : Bool) : State := if isFirst then s.onStart fun x => { x with stage := .running } else s

theorem onlyIn_stageSet (isFirst : Bool) : OnlyIn boundaryWork s (s.stageSet isFirst) :=
  onlyIn_ite (fun _ => onlyIn_onStart _ (by decide)) fun _ => onlyIn_refl _ _

/-- The boundary from the state in which the plan's work has been taken over. -/
def State.begin (s : State) (isFirst : Bool) (n nominal : Nat) (filler : Bool) (prev : Option PrevTick) : State :=
  (((s.boundaryParts n nominal filler prev).boundaryRest isFirst n).stageSet isFirst).latches.tickOutArm

/-- Without a marker a tick begins on a state whose work alone has changed. -/
theorem State.tickBegin_eq_begin (s : State) (isFirst : Bool) (n nominal : Nat) (filler : Bool) :
    ∃ v prev, OnlyIn boundaryAll s v ∧ s.tickBegin isFirst n nominal filler none = v.begin isFirst n nominal filler prev := by
  unfold State.tickBegin
  extract_lets prev s0 s1 s2 new goesOn skips s3 s4 s5 s6 s7
  have h1 : OnlyIn boundaryAll s s1 := onlyIn_onCnt (fun _ => s.cntBoundary.cnt) (by decide)
  have h2 : OnlyIn boundaryAll s1 s2 := onlyIn_foldl _ (fun _ a => onlyIn_mono (onlyIn_releaseAll a) (by decide)) _ _
  have h3 : OnlyIn boundaryAll s2 s3 := onlyIn_foldl _ (fun _ a => onlyIn_ite (fun _ => onlyIn_onAct _ _ (by decide))
    fun _ => onlyIn_mono (onlyIn_actBoundary ..) (by decide)) _ _
  exact ⟨s3, prev, onlyIn_trans (onlyIn_trans h1 h2) h3, rfl⟩

theorem State.begin_tick (s : State) (isFirst : Bool) (n nominal : Nat) (filler : Bool) (prev : Option PrevTick) :
    (s.begin isFirst n nominal filler prev).tick.Begun n s.tb.time (s.tb.time - nominal) filler := by
  have hrest : OnlyIn boundaryWork ((s.switched n).tickAdvance n nominal filler prev)
      (((s.boundaryParts n nominal filler prev).boundaryRest isFirst n).stageSet isFirst) :=
    onlyIn_trans (onlyIn_trans (onlyIn_boundaryParts n nominal filler prev) (onlyIn_boundaryRest isFirst n)) (onlyIn_stageSet isFirst)
  refine State.tickOutArm_begun (State.latches_begun ?_)
  have htb : (s.switched n).tb = s.tb := (onlyIn_switched n).rest .tb (by decide)
  rw [show (((s.boundaryParts n nominal filler prev).boundaryRest isFirst n).stageSet isFirst).tick = _ from hrest.rest .tick (by decide),
    ← htb]
  exact State.tickAdvance_begun _ n nominal filler prev

theorem onlyIn_begin (isFirst : Bool) (n nominal : Nat) (filler : Bool) (prev : Option PrevTick) :
    OnlyIn boundaryAll s (s.begin isFirst n nominal filler prev) := by
  have hadvance : OnlyIn boundaryAll s ((s.switched n).tickAdvance n nominal filler prev) :=
    onlyIn_trans (onlyIn_mono (onlyIn_switched n) (by decide)) (onlyIn_onTick _ (by decide))
  have hrest : OnlyIn boundaryAll s (((s.boundaryParts n nominal filler prev).boundaryRest isFirst n).stageSet isFirst) :=
    onlyIn_then (onlyIn_then (onlyIn_then hadvance (onlyIn_boundaryParts n nominal filler prev) (by decide))
      (onlyIn_boundaryRest isFirst n) (by decide)) (onlyIn_stageSet isFirst) (by decide)
  exact onlyIn_then (onlyIn_then hrest onlyIn_latches (by decide)) onlyIn_tickOutArm (by decide)

/-- The first tick of a cold bind leaves the start running. -/
theorem State.begin_stage (s : State) (n nominal : Nat) (filler : Bool) (prev : Option PrevTick) :
    (s.begin true n nominal filler prev).start.stage = .running := by
  have hlatch : OnlyIn latchParts _ (s.begin true n nominal filler prev) := onlyIn_trans onlyIn_latches onlyIn_tickOutArm
  rw [show (s.begin true n nominal filler prev).start = _ from hlatch.rest .start (by decide)]
  rfl

/-- Without a marker, tick `n` begins at the present time, that long after its nominal boundary (R10, R29, R53). -/
theorem State.tickBegin_tick (s : State) (isFirst : Bool) (n nominal : Nat) (filler : Bool) :
    (s.tickBegin isFirst n nominal filler none).tick.Begun n s.tb.time (s.tb.time - nominal) filler := by
  obtain ⟨v, prev, hv, heq⟩ := s.tickBegin_eq_begin isFirst n nominal filler
  have hbegun := v.begin_tick isFirst n nominal filler prev
  rw [show v.tb = s.tb from hv.rest .tb (by decide)] at hbegun
  rw [heq]
  exact hbegun

theorem onlyIn_tickBegin (isFirst : Bool) (n nominal : Nat) (filler : Bool) :
    OnlyIn boundaryAll s (s.tickBegin isFirst n nominal filler none) := by
  obtain ⟨v, prev, hv, heq⟩ := s.tickBegin_eq_begin isFirst n nominal filler
  rw [heq]
  exact onlyIn_trans hv (onlyIn_begin ..)

theorem State.tickBegin_stage (s : State) (n nominal : Nat) (filler : Bool) :
    (s.tickBegin true n nominal filler none).start.stage = .running := by
  obtain ⟨v, prev, -, heq⟩ := s.tickBegin_eq_begin true n nominal filler
  rw [heq]
  exact v.begin_stage n nominal filler prev

/-! ### The boundary and tick 0 -/

theorem State.boundaryEff_of_alone {n : Nat} (hb : s.bound = true) (hd : s.pwr.decided.isEmpty = false) (hr : s.tick.role = .standalone)
    (hrun : s.tick.running = true) (hn : s.tick.nominal = some n) (hs : s.stretchOut = false) :
    s.boundaryEff = s.tickBegin false (s.tick.num + 1) n s.tick.pendFiller none := by
  simp only [State.boundaryEff, hb, hd, hr, hrun, hn, hs, Bool.not_true, Bool.not_false, Bool.and_false, Bool.or_false, Bool.and_true,
    Bool.false_eq_true, if_false, if_true]

theorem State.tickZeroEff_of_alone (hz : s.zeroDue = true) (hp : s.b.plan.common.source ≠ 1) (hr : s.tick.role = .standalone) :
    s.tickZeroEff = s.tickBegin true 0 s.tb.time false none := by
  have hlead : ¬ s.tick.role = .leader := by rw [hr]; decide
  unfold State.tickZeroEff
  rw [if_neg (by rw [hz]; decide)]
  dsimp only
  rw [if_neg hp]
  exact if_neg hlead

/-! ### Sources -/

/-- An encoder edge taken: the level, the time and the count. -/
def Tick.edge (k : Tick) (rising : Bool) (now : Nat) (full : Bool) : Tick :=
  { k with encLevel := rising, encLast := some now, encCount := k.encCount + 1, encDiv := if full then 0 else k.encDiv + 1 }

theorem State.encAccepted_of_edge {rising : Bool} {heldNs : Nat} (hb : s.bound = true) (hsrc : s.b.plan.common.source = 2)
    (hdeb : 8 * s.b.plan.common.encDeb ≤ heldNs)
    (hedge : s.b.plan.common.encEdge = 2 ∨ (s.b.plan.common.encEdge = 0 ∧ rising = true) ∨ (s.b.plan.common.encEdge = 1 ∧ rising = false))
    (hlast : ∀ l, s.tick.encLast = some l → l + 100 ≤ s.tb.time) : s.encAccepted rising heldNs = true := by
  have hsel : (s.b.plan.common.encEdge == 2 || (s.b.plan.common.encEdge == 0) == rising) = true := by
    rcases hedge with h | ⟨h, rfl⟩ | ⟨h, rfl⟩ <;> rw [h] <;> rfl
  unfold State.encAccepted
  dsimp only
  rw [hb, hsrc, decide_eq_true hdeb, hsel]
  cases hl : s.tick.encLast with
  | none => rfl
  | some l => simp [hlast l hl]

/-- An accepted edge that does not complete the division is counted; one that does is a source event (R25, R26). -/
theorem State.encEdgeEff_of_accepted {rising : Bool} {heldNs : Nat} (hl : s.live = true) (hlevel : s.tick.encLevel = !rising)
    (hacc : s.encAccepted rising heldNs = true) : s.encEdgeEff rising heldNs =
    if s.b.plan.common.encDiv ≤ s.tick.encDiv + 1 then ({ s with tick := s.tick.edge rising s.tb.time true }).sourceEvent s.tb.time
    else { s with tick := s.tick.edge rising s.tb.time false } := by
  have hacc' : (s.onTick fun t => { t with encLevel := rising }).encAccepted rising heldNs = true := hacc
  unfold State.encEdgeEff
  dsimp only
  rw [hlevel, hl, hacc', if_neg (by cases rising <;> decide)]
  by_cases h : s.b.plan.common.encDiv ≤ s.tick.encDiv + 1
  · rw [if_pos (decide_eq_true h), if_pos h, decide_eq_true h]
    rfl
  · rw [if_neg (by simpa using h), if_neg h, decide_eq_false h]
    rfl

/-- A source event while PLAN_LENGTH has not passed is deferred (R28). -/
theorem State.sourceEvent_of_early {at' : Nat} (hrun : s.tick.running = true) (hr : s.tick.role ≠ .follower)
    (he : s.tb.time < s.tick.start + 8 * s.block.1.planLength) (hd : s.tick.deferred = false) :
    s.sourceEvent at' = (s.onTick fun t => { t with deferred := true }).evTick 2 := by
  have hearly : s.tb.time < s.earliest := he
  unfold State.sourceEvent
  rw [if_neg (by simp [hrun, hr]), if_pos (by simp [hearly]), if_neg (by rw [hd]; decide)]

/-- One that may be taken is the nominal boundary (R28). -/
theorem State.sourceEvent_of_due {at' : Nat} (hrun : s.tick.running = true) (hr : s.tick.role ≠ .follower) (hn : s.tick.nominal = none)
    (he : s.tick.start + 8 * s.block.1.planLength ≤ s.tb.time) : s.sourceEvent at' = s.nominalReached at' false := by
  have hdue : ¬ s.tb.time < s.earliest := Nat.not_lt.2 he
  unfold State.sourceEvent
  rw [if_neg (by simp [hrun, hr]), if_neg (by simp [hn, hdue])]

theorem State.deferredEvent_of_due (hd : s.tick.deferred = true) (hrun : s.tick.running = true) (hr : s.tick.role = .standalone)
    (hn : s.tick.nominal = none) (he : s.tick.start + 8 * s.block.1.planLength ≤ s.tb.time) :
    s.deferredEvent = (s.onTick fun t => { t with deferred := false }).nominalReached s.tb.time false := by
  have hdue : s.earliest ≤ s.tb.time := he
  exact if_pos (by simp [hd, hrun, hr, hn, hdue])

theorem State.fillerEvent_of_due (hb : s.bound = true) (hsrc : s.b.plan.common.source = 2) (hrun : s.tick.running = true)
    (hr : s.tick.role = .standalone) (hn : s.tick.nominal = none) (hd : s.tick.deferred = false)
    (hgap : s.tick.start + 8 * s.b.plan.common.encMaxGap ≤ s.tb.time) : s.fillerEvent = (s.evTick 5).nominalReached s.tb.time true :=
  if_pos (by simp [hb, hsrc, hrun, hr, hn, hd, hgap])

/-- The next point of the nominal grid of INTERNAL, where the period is not 0 (R25). -/
theorem State.gridAfter_one (hsrc : s.b.plan.common.source = 0) (hp : s.block.1.periodMin ≠ 0) : s.gridAfter 1 =
    s.tick.t0 + ((s.tick.lastNominal - s.tick.t0) / (8 * s.block.1.periodMin) + 1) * (8 * s.block.1.periodMin) := by
  have hper : ¬ 8 * s.block.1.periodMin = 0 := by omega
  unfold State.gridAfter
  dsimp only
  rw [if_neg hper, if_neg (by rw [hsrc]; decide)]

theorem State.gridEvent_of_due (hb : s.bound = true) (hsrc : s.b.plan.common.source = 0) (hrun : s.tick.running = true)
    (hr : s.tick.role = .standalone) (hn : s.tick.nominal = none) (he : s.tick.start + 8 * s.block.1.planLength ≤ s.tb.time)
    (hg : s.gridAfter 1 ≤ s.tb.time) :
    s.gridEvent = (s.nominalReached (s.gridAfter 1) false).onTick fun t => { t with lastNominal := s.gridAfter 1 } := by
  unfold State.gridEvent
  rw [if_pos (by simp [hb, State.hasGrid, hsrc, hrun, hr, hg])]
  dsimp only
  rw [State.sourceEvent_of_due hrun (by rw [hr]; decide) hn he]

theorem State.stretchExpire_of_due {n : Nat} (hr : s.tick.role = .standalone) (hs : s.tick.stretching = true) (hn : s.tick.nominal = some n)
    (he : n + s.maxStretchNs ≤ s.tb.time) : s.stretchExpire = s.stretchDrop := by
  simp only [State.stretchExpire, hr, hs, hn, he, decide_true, Bool.and_true, beq_self_eq_true, if_true]

theorem State.pulse_of_due {r : Nat} (h : s.tick.tickOutRise = some r) (hr : r ≤ s.tb.time) : s.pulse =
    (s.onTick fun x => { x with tickOut := true, tickOutRise := none, tickOutFall := some (r + 8 * s.b.plan.common.toWidth) }).out
      { kind := .pulse, status := 1 } := by
  simp only [State.pulse, h, hr, if_true]

theorem State.pulseEnd_of_due {r : Nat} (h : s.tick.tickOutFall = some r) (hr : r ≤ s.tb.time) : s.pulseEnd =
    (s.onTick fun x => { x with tickOut := false, tickOutFall := none }).out { kind := .pulse, status := 0 } := by
  simp only [State.pulseEnd, h, hr, if_true]

end

/-- Settles O12, clause by clause: the sources and the hold through what the overrun policies keep, the boundary and tick 0 through what
a boundary's parts leave of the tick's own registers. -/
theorem tickSourcesAndBoundaries : Obligations.TickSourcesAndBoundaries := by
  unfold Obligations.TickSourcesAndBoundaries
  refine ⟨?counted, ?early, ?deferred, ?grid, ?filler, ?expired, ?boundary, ?zero, ?rise, ?fall⟩
  case counted =>
    intro s rising heldNs hl hb hsrc hlevel hdeb hedge hlast hdiv
    refine congrArg (fun t => Host.Outcome.next (commit t)) ?_
    rw [State.encEdgeEff_of_accepted hl hlevel (State.encAccepted_of_edge hb hsrc hdeb hedge hlast), if_neg (Nat.not_le.2 hdiv)]
    rfl
  case early =>
    intro s rising heldNs hl hb hsrc hlevel hdeb hedge hlast hdiv hrun hr hn he hd
    have hacc : s.encAccepted rising heldNs = true := State.encAccepted_of_edge hb hsrc hdeb (.inl hedge) (fun l h => absurd (hlast ▸ h) (by simp))
    have heff : s.encEdgeEff rising heldNs =
        (({ s with tick := s.tick.edge rising s.tb.time true }).onTick fun t => { t with deferred := true }).evTick 2 := by
      rw [State.encEdgeEff_of_accepted hl hlevel hacc, if_pos hdiv]
      exact State.sourceEvent_of_early hrun hr he hd
    refine ⟨commit (s.encEdgeEff rising heldNs), rfl, ?_⟩
    rw [heff, commit_tick]
    exact ⟨onlyIn_commit (onlyIn_trans (onlyIn_onTick (fun _ => { s.tick.edge rising s.tb.time true with deferred := true }) (by decide))
      (onlyIn_evTick 2 (by decide) (by decide))), by simp [State.evTick, Tick.edge, bitSet]⟩
  case deferred =>
    intro s hl hrun hr hn hd he
    refine ⟨_, next_of_live hl _, ?_⟩
    obtain ⟨e, held, htick⟩ := State.nominalReached_tick (s := s.onTick fun t => { t with deferred := false }) hr s.tb.time false
    rw [State.deferredEvent_of_due hd hrun hr hn he, commit_tick, htick]
    exact ⟨rfl, rfl, rfl, rfl, onlyIn_commit (onlyIn_trans (onlyIn_onTick _ (by decide)) (onlyIn_nominalReached (by exact hr) _ _))⟩
  case grid =>
    intro s hl hb hsrc hrun hr hn hp he hg
    rw [← State.gridAfter_one hsrc hp] at hg ⊢
    refine ⟨_, next_of_live hl _, ?_⟩
    obtain ⟨e, held, htick⟩ := State.nominalReached_tick hr (s.gridAfter 1) false
    rw [State.gridEvent_of_due hb hsrc hrun hr hn he hg, commit_tick, State.onTick_tick, htick]
    exact ⟨rfl, rfl, rfl, onlyIn_commit (onlyIn_trans (onlyIn_nominalReached hr _ _) (onlyIn_onTick _ (by decide)))⟩
  case filler =>
    intro s hl hb hsrc hrun hr hn hd hgap
    refine ⟨_, next_of_live hl _, ?_⟩
    have hr5 : (s.evTick 5).tick.role = .standalone := by simpa [State.evTick] using hr
    have hbit : (s.evTick 5).tick.events.getLsbD 5 = true := by
      simpa [State.evTick] using getLsbD_bitSet_self s.tick.events (show 5 < 32 by decide)
    have hkept := tickEventKept_nominalReached hr5 s.tb.time true hbit
    obtain ⟨e, held, htick⟩ := State.nominalReached_tick hr5 s.tb.time true
    rw [State.fillerEvent_of_due hb hsrc hrun hr hn hd hgap, commit_tick]
    refine ⟨by rw [htick], by rw [htick], hkept, by rw [htick]; simp [State.evTick], ?_⟩
    exact onlyIn_commit (onlyIn_trans (onlyIn_evTick 5 (by decide) (by decide)) (onlyIn_nominalReached hr5 _ _))
  case expired =>
    intro s n hl hr hs hn he w
    refine ⟨_, next_of_live hl _, ?_⟩
    obtain ⟨e, htick⟩ := eventsOnly_stretchDrop (s := s)
    have habandoned : ∀ a ∈ s.outstandingOf 0, ((commit s.stretchDrop).act a).abandoned = true := fun a ha => by
      rw [commit_act]
      exact State.stretchDrop_all_abandoned w ha
    rw [State.stretchExpire_of_due hr hs hn he, commit_tick, htick]
    exact ⟨hn, habandoned, onlyIn_commit onlyIn_stretchDrop⟩
  case boundary =>
    intro s n hl hb hd hr hrun hn hs
    refine ⟨_, next_of_live hl _, ?_⟩
    rw [State.boundaryEff_of_alone hb hd hr hrun hn hs, commit_tick]
    obtain ⟨hnum, hstart, hstretch, hfiller, hrunning, hnominal⟩ := s.tickBegin_tick false (s.tick.num + 1) n s.tick.pendFiller
    have hframe := onlyIn_commit (onlyIn_tickBegin (s := s) false (s.tick.num + 1) n s.tick.pendFiller)
    exact ⟨hnum, hstart, hstretch, hfiller, hrunning, hnominal, hframe.rest .tb (by decide), hframe.rest .bus (by decide),
      hframe.rest .img (by decide)⟩
  case zero =>
    intro s hl hz hp hr
    refine ⟨_, next_of_live hl _, ?_⟩
    rw [State.tickZeroEff_of_alone hz hp hr, commit_tick, commit_start]
    obtain ⟨hnum, hstart, -, -, hrunning, -⟩ := s.tickBegin_tick true 0 s.tb.time false
    have hframe := onlyIn_commit (onlyIn_tickBegin (s := s) true 0 s.tb.time false)
    exact ⟨hnum, hstart, hrunning, s.tickBegin_stage 0 s.tb.time false, hframe.rest .tb (by decide)⟩
  case rise =>
    intro s r hl h hr
    refine (next_of_live hl _).trans ?_
    rw [State.pulse_of_due h hr]
    rfl
  case fall =>
    intro s r hl h hr
    refine (next_of_live hl _).trans ?_
    rw [State.pulseEnd_of_due h hr]
    rfl

end Sys2Proof.Machine
